-- ==== Sys2Proof/Word.lean ====
section
/-! DEFINITION. The words the manual treats as bits: bytes, 36-bit bench and tile words, 32-bit registers, 64-byte headers. -/
namespace Sys2Proof

/-- One byte of device memory (R5). -/
abbrev Byte := BitVec 8
/-- One bench or tile word without its parity bits (R141, R192). -/
abbrev W36 := BitVec 36
/-- One address register, stride, launch word or management register (R246, R8). -/
abbrev W32 := BitVec 32
/-- One header register or header slot of 64 bytes, byte 0 in bits [7:0] (R46, R246). -/
abbrev Hdr := BitVec 512
/-- One sequencer instruction word (R250). -/
abbrev IWord := BitVec 128
/-- A 128-bit key or AES block, byte 0 in bits [7:0] (R226, R228). -/
abbrev Block := BitVec 128

end Sys2Proof
end

