-- ==== Sys2Proof/Syntax.lean ====
section
/-! DEFINITION. The commands: one constructor of Instr for every row of spec/opcode_table.json, with the operands that
the spec gives the command. Numbers that name things (piers, spans, slots, windows) and counts are natural numbers;
bytes are what travels on a wire or lies in memory. -/
namespace Sys2Proof

/-- An address-register select field (R251): enabled, and the register named. -/
structure Sel where
  en : Bool
  r : Nat
  deriving DecidableEq, Repr

/-- A MEMBER field with its ARM select (R253). -/
structure Mem9 where
  idx : Nat
  all : Bool
  arm : Sel
  deriving DecidableEq, Repr

/-- A shape field (R252, R197). -/
structure Shape where
  rows : Nat
  cols : Nat
  mv : Nat
  deriving DecidableEq, Repr

/-- What every sequencer instruction carries: the pier that issues it, and NEXT, 1 to 65,536 (R247, R250). -/
structure Iss where
  pier : Nat
  next : Nat
  deriving DecidableEq, Repr

/-- The time target of WAITT and LAUNCH (R263, Table 10-2). -/
structure TimeOp where
  beat : Bool
  offset : Nat
  aroff : Sel
  deriving DecidableEq, Repr

/-- LAUNCH (Table 10-2). -/
structure LaunchOp where
  t : TimeOp
  kind : Nat
  chuck : Nat
  desc : Nat
  arstart : Sel
  sendSlot : Nat
  deriving DecidableEq, Repr

/-- DSEND (Table 10-3). -/
structure DsendOp where
  brow : Nat
  arb : Sel
  n : Nat
  lanes : Nat
  dstage : Nat
  drow : Nat
  ard : Sel
  deriving DecidableEq, Repr

/-- HCHK (Table 10-3, Table 10-6); 15 in `ha`, `hb` or `hk` means none. -/
structure HchkOp where
  cls : Nat
  ha : Nat
  hb : Nat
  hk : Nat
  hd : Nat
  level : Nat
  g : Nat
  spt : Nat
  hoist : Bool
  mem : Mem9
  deriving DecidableEq, Repr

/-- TLD and TST (Table 10-4). -/
structure LineOp where
  tile : Nat
  brow : Nat
  arb : Sel
  step : Int
  n : Nat
  bcol : Bool
  tcol : Bool
  lane : Nat
  tidx : Nat
  mem : Mem9
  shape : Shape
  deriving DecidableEq, Repr

/-- CLD (Table 10-4). -/
structure CldOp where
  tile : Nat
  trow : Nat
  n : Nat
  table : Nat
  x : Nat
  arx : Sel
  crow : Nat
  mem : Mem9
  shape : Shape
  deriving DecidableEq, Repr

/-- NTT and INTT (Table 10-4); `logN` is 15, 16 or 17. -/
structure NttOp where
  logN : Nat
  half : Nat
  sub : Nat
  prime : Nat
  arp : Sel
  mem : Mem9
  deriving DecidableEq, Repr

/-- MMUL, MMAC, EMUL and EMAC (Table 10-4). -/
structure MmeOp where
  a : Nat
  b : Nat
  c : Nat
  qdest : Bool
  mem : Mem9
  shA : Shape
  shB : Shape
  shC : Shape
  deriving DecidableEq, Repr

/-- SPIN (Table 10-5); X 16 is the queue head, Y and O1 31 are none. -/
structure SpinOp where
  entry : Nat
  stages : Nat
  x : Nat
  y : Nat
  o1 : Nat
  o0kind : Nat
  o0tile : Nat
  brow : Nat
  arb : Sel
  dstage : Nat
  mem : Mem9
  keysel : Nat
  stream : Nat
  arbase : Sel
  arctr : Sel
  deriving DecidableEq, Repr

/-- FSSE (Table 10-5). -/
structure FsseOp where
  mentry : Nat
  g : Nat
  itemRow : Nat
  xhatRow : Nat
  outRow : Nat
  arb : Sel
  eval : Bool
  mem : Mem9
  deriving DecidableEq, Repr

/-- A verb request as it arrives (R379, R422): the slot, the set of queue pairs it came on (false home, true standby),
its TAG, its AEAD counter, and whether its AEAD tag verifies. -/
structure VerbReq where
  slot : Nat
  standby : Bool
  tag : Nat
  ctr : Nat
  ok : Bool
  deriving DecidableEq, Repr

/-- A named range of a registered window, with the bytes a remote window answers (none for a local one). -/
structure WinRange where
  window : Nat
  offset : Nat
  length : Nat
  remote : List Byte
  deriving DecidableEq, Repr

/-- LOAD_IMAGE arguments (11_spans, before R284): the image's range, the window map, the report place, the image to replace. -/
structure LoadOp where
  src : WinRange
  winMap : List (Nat × Nat)
  report : Option (Nat × Nat)
  replace : Option Nat
  /-- every SHARD_CRC and DIR_CRC checks on the read-back of slices and backing copies (R84) -/
  readBackOk : Bool := true
  deriving DecidableEq, Repr

/-- SET_POLICY arguments (Table 14-8); an absent record is none. -/
structure PolicyOp where
  session : Nat
  keysetTag : Nat
  noiseLimit : Nat
  noiseAction : Nat
  close : Bool
  roleH : Bool
  hasNoise : Bool
  cPort : Nat
  hPort : Nat
  cAddr : List Byte
  hAddr : List Byte
  owner : Option (List Byte)
  disclosure : Option (List Byte)
  cRec : Option (List Byte)
  hRec : Option (List Byte)
  deriving DecidableEq, Repr

end Sys2Proof

namespace Sys2Proof.Machine

/-- A peer bound to a session (R303, R425). -/
structure PeerBind where
  addr : List Byte
  port : Nat
  kaRec : List Byte
  keyOut : List Byte
  keyIn : List Byte
  deriving DecidableEq, Repr

/-- The policy of a session (Table 14-8, R55, R91). -/
structure Policy where
  noiseLimit : Nat := 0xFFFF
  noiseAction : Nat := 0
  hasNoise : Bool := false
  roleH : Bool := false
  owner : List Byte := []
  disclosure : List Byte := []
  discKind : Nat := 0
  maxK : Nat := 0
  exitMask : Nat := 0
  notAfter : Nat := 0
  c : Option PeerBind := none
  h : Option PeerBind := none
  deriving DecidableEq, Repr

end Sys2Proof.Machine

namespace Sys2Proof

/-- One record of a mirrored group as the buddy receives it (R106, R373), or a journaled opening of a mirrored request (R475). -/
structure MirrorRec where
  device : Nat
  session : Nat
  seq : Nat
  keysetTag : Nat
  desc : List Byte
  ranges : List (Nat × Nat × Nat)
  work : Bool
  /-- the digest of the image that a WORK record names, by which the buddy knows its own copy (R474) -/
  imageDigest : List Byte
  /-- the policy that the request captured at its acceptance (R92) -/
  policy : Machine.Policy := {}
  /-- step and payload, where the record is a journaled opening -/
  opening : Option (Nat × List Byte) := none
  deriving DecidableEq, Repr

/-- One HANDOFF message (R474, R475), with the status that the COMMIT record of the request holds, where the buddy has one. -/
structure HandoffOp where
  device : Nat
  session : Nat
  seq : Nat
  imageDigest : List Byte
  committed : Option Nat
  deriving DecidableEq, Repr

/-- An HXP datagram after its IP and UDP headers (Table 12-5), with the port it came in on, the endpoint it came from and
whether its tag verifies. -/
structure HxpMsg where
  port : Nat
  addr : List Byte
  udp : Nat
  ok : Bool
  version : Nat
  flags : Nat
  session : Nat
  request : Nat
  seq : Nat
  ack : Nat
  serial : Nat
  step : Nat
  epoch : Nat
  fragIndex : Nat
  fragCount : Nat
  src : Nat
  dst : Nat
  payload : List Byte
  deriving DecidableEq, Repr

/-- A partner's RDMA message on a DATA queue pair (R361 to R364). -/
structure RdmaOp where
  port : Nat
  qpn : Nat
  psn : Nat
  rkey : Nat
  offset : Nat
  length : Nat
  data : List Byte
  deriving DecidableEq, Repr

/-- REPLY and ACCEPT of a peer handshake (R424), with the message bytes, what its certificate names and its version fields. -/
structure PeerMsg where
  device : Nat
  net : Nat
  certOk : Bool
  sigOk : Bool
  serial : Nat
  fwVersion : Nat
  operVersion : Nat
  raw : List Byte
  deriving DecidableEq, Repr

/-- HELLO (Table 16-7, R421), with the whole message; for a peer, what its certificate names in the credential's place
(R424). -/
structure HelloOp where
  port : Nat
  claim : Bool
  x25519 : List Byte
  mlkem : List Byte
  partnerKey : List Byte
  notAfter : Nat
  credSig : List Byte
  operatorKey : List Byte
  raw : List Byte
  peer : Option PeerMsg
  deriving DecidableEq, Repr

/-- FINISH (Table 16-7): whether it opens under the session AEAD, its signature, and number and starting PSN of the six queue
pairs; for a peer, its certificate's device and version fields (R407, R424). -/
structure FinishOp where
  hs : Nat
  aeadOk : Bool
  signature : List Byte
  qps : List (Nat × Nat)
  peer : Option PeerMsg
  raw : List Byte
  deriving DecidableEq, Repr

/-- A PTP Sync (R389, R390): the network, domain, the sender's clock identity, sequence id, the origin time and correction it
carries in ns, the local receive timestamp in ns, and whether a Follow_Up carries the time instead. -/
structure SyncOp where
  net : Nat
  domain : Nat
  identity : Nat
  seqId : Nat
  origin : Nat
  corr : Int
  rx : Nat
  twoStep : Bool
  deriving DecidableEq, Repr

/-- An ARP, Neighbor Discovery or echo message (R357): the port, the addresses it names, its payload. -/
structure NetOp where
  port : Nat
  target : List Byte
  sender : List Byte
  senderMac : List Byte
  payload : List Byte
  deriving DecidableEq, Repr

/-- The strap levels at the release of a reset (R484). -/
structure Straps where
  bootsel : Nat
  nodeId : Nat
  netSplit : Bool
  g7rate : Nat
  deriving DecidableEq, Repr

/-- The commands of the device. -/
inductive Instr where
  -- the sequencer's instructions
  | nop (i : Iss)
  | loop (i : Iss) (level count body : Nat)
  | call (i : Iss) (id arg : Nat)
  | ret (i : Iss)
  | halt (i : Iss)
  | waitc (i : Iss) (chucks : Nat)
  | waitt (i : Iss) (t : TimeOp)
  | launch (i : Iss) (o : LaunchOp)
  | ptok (i : Iss) (level : Nat)
  | aset (i : Iss) (a value : Nat)
  | astr (i : Iss) (a level stride : Nat)
  | aadd (i : Iss) (d src imm : Nat)
  | lparm (i : Iss) (d word : Nat)
  | arm (i : Iss) (entry row : Nat) (arb : Sel) (count : Nat)
  | rel (i : Iss) (entry : Nat)
  | chk (i : Iss) (chuck desc : Nat) (arstart : Sel)
  | dsend (i : Iss) (o : DsendOp)
  | hld (i : Iss) (h brow : Nat) (arb : Sel)
  | hst (i : Iss) (h brow : Nat) (arb : Sel)
  | hchk (i : Iss) (o : HchkOp)
  | tld (i : Iss) (o : LineOp)
  | tst (i : Iss) (o : LineOp)
  | cld (i : Iss) (o : CldOp)
  | mvld (i : Iss) (mv brow : Nat) (arb : Sel)
  | tcfg (i : Iss) (tile : Nat) (fromReg : Bool) (areg : Nat) (shape : Shape)
  | ntt (i : Iss) (o : NttOp)
  | intt (i : Iss) (o : NttOp)
  | mmul (i : Iss) (o : MmeOp)
  | mmac (i : Iss) (o : MmeOp)
  | emul (i : Iss) (o : MmeOp)
  | emac (i : Iss) (o : MmeOp)
  | spin (i : Iss) (o : SpinOp)
  | sbld (i : Iss) (br brow : Nat) (arb : Sel) (bcol : Bool) (lane : Nat)
  | skld (i : Iss) (seed brow : Nat) (arb : Sel)
  | fsse (i : Iss) (o : FsseOp)
  -- verbs and what ends those that wait
  | loadImage (r : VerbReq) (o : LoadOp)
  | loadImageReplaceDrained (handle : Nat)
  | installKeyset (r : VerbReq) (src : WinRange) (images : List Nat) (readBackOk : Bool)
  | eraseKeyset (r : VerbReq) (tag mode : Nat)
  | eraseKeysetDone (tag : Nat)
  | attest (r : VerbReq) (nonce : List Byte) (sessions : List Nat)
  | updateFw (r : VerbReq) (src : WinRange)
  | setPolicy (r : VerbReq) (o : PolicyOp)
  | sessionCloseDone (session : Nat)
  | exportWeights (r : VerbReq) (handle : Nat) (places : List (Nat × Nat))
  | readReg (r : VerbReq) (addrs : List Nat)
  | writeReg (r : VerbReq) (pairs : List (Nat × Nat)) (remote : List Byte)
  | unknownVerb (r : VerbReq) (verb : Nat)
  -- register writes with a row of their own
  | windowOpen (slot : Nat)
  | windowClose (slot : Nat)
  | windowCloseDrain (slot : Nat)
  | windowDrainDone (window : Nat)
  | sysCommand (slot : Nat) (remote : List Byte)
  | warmReset (slot tag : Nat)
  | spanReset (slot mask : Nat)
  | pierReset (slot pier : Nat)
  | spanResetDone (span : Nat)
  | portReset (slot mask : Nat)
  | standbyReqGddrKept (slot : Nat)
  | standbyReqGddrOff (slot : Nat)
  | standbyEntry
  | counterClear (slot addr : Nat)
  | imemWrite (pier : Nat) (staged : Option (Nat × Nat × Nat)) (data : Nat)
  | swapArm (pier value : Nat)
  | go (slot : Nat)
  | abort (slot : Nat)
  | cacheSteps (slot value : Nat)
  | wakeAtHi (slot value : Nat)
  | tbNsLo (slot : Nat)
  -- requests and launches
  | windowScan
  | mirrorAck (accepted : Nat)
  | mirrorRecords (recs : List MirrorRec)
  | commitAck (session seq : Nat)
  | batchWait (span : Nat)
  | batchPrepare (span : Nat)
  | launchTimestamp (span : Nat)
  | feedLaunch (channel slot : Nat)
  -- spans, chucks, deck
  | spanFreeze (span : Nat)
  | spanThaw (span : Nat)
  | sbRangeFull (pier entry : Nat)
  | sbDrainDone (pier entry : Nat)
  -- failed: how often the GDDR burst at the cursor failed its CRC; 9 is the first try and 8 reissues (R352)
  | chuckDataArrival (pier chuck xfer n failed : Nat) (data : List Byte)
  | chuckResume (pier chuck : Nat)
  | chuckTransferDone (pier chuck : Nat)
  | chuckPageStop (pier chuck : Nat)
  | chuckRetry (pier chuck : Nat)
  | chuckRemoteTimeout (pier chuck : Nat)
  | streamRemoteError (pier chuck : Nat)
  | waittTarget (pier : Nat)
  | timedActionFire (pier action : Nat)
  | tokenWindowEnd (span : Nat)
  | deckRowArrival (pier row : Nat)
  | flitReplay (link channel replays : Nat) (spans : List Nat)
  | flitDelivered (link channel : Nat)
  | ftqOverflow (pier : Nat)
  | sendqOverflow (pier : Nat)
  -- reliability
  | pierSelfTestDone (pier : Nat) (pass : Bool)
  | takeoverSliceWritten (pier : Nat) (ok : Bool)
  | takeoverReverified (pier : Nat)
  | takeoverProgramWritten (pier : Nat)
  | storeRepairDone (repair : Nat) (copy : List Byte)
  | handoff (o : HandoffOp)
  | buddyLossTimeout
  | buddyTakeoverTimeout
  | llmScrub (errors : Nat)
  | gddrScrub (device corrected : Nat) (badObject : Option Nat)
  | gddrRefresh (device : Nat)
  | weightScrub (pier errors : Nat)
  | imemScrub (pier bank errors : Nat)
  | gddrTrainingDone (device : Nat) (ok : Bool)
  | channelRetrainDone (device channel : Nat) (ok : Bool)
  -- resets, boot, power
  | por (straps : Straps) (railsOk : Bool)
  | porCheckRetry (railsOk : Bool)
  | pin (straps : Straps)
  | pwrGoodFall
  | fwSvnBurn
  | rngFail
  | prochotOnset
  | prochotEnd
  | tempUpdate (temp : Nat)
  | throttleEnd
  | supplyFault
  | fcActiveChange
  | pstateDecision
  | pstateEntered
  | resumeStart
  | wake (source : Nat)
  | resumeDone
  -- time
  | sync (o : SyncOp)
  | delayResp (net seqId rx : Nat) (corr : Int)
  | syncLoss (net : Nat)
  -- handshakes and peers
  | hello (o : HelloOp)
  | reply (m : PeerMsg)
  | finish (o : FinishOp)
  | accept (m : PeerMsg)
  | detach (slot ctr : Nat) (ok : Bool)
  | attachmentLoss (slot : Nat)
  | peerDown (device : Nat)
  -- RDMA and frames
  | rdmaWrite (o : RdmaOp)
  | rdmaRead (o : RdmaOp)
  | cnp (port qpn : Nat)
  | roceRetransmit (qpn psn : Nat)
  | arp (o : NetOp)
  | neighborDiscovery (o : NetOp)
  | echoRequest (o : NetOp)
  | unsupportedFrame (port : Nat) (badFcs : Bool)
  | linkUp (port : Nat)
  | linkDown (port : Nat)
  -- HXP
  | decryptShare (m : HxpMsg)
  | maskedInput (m : HxpMsg)
  | openMsg (m : HxpMsg)
  | returnCt (m : HxpMsg)
  | poisonNotice (m : HxpMsg)
  | ack (m : HxpMsg)
  | hxpRetransmit (frag : Nat)
  | hxpTimeout (session request step : Nat)
  -- exchange channels
  | arrivedPlaced (channel slot beat : Nat)
  | releasedPlaced (channel slot beat : Nat)
  -- the long-integer engine
  | lieOpStart
  | lieOpDone (mismatch : Bool)
  -- pins
  | resetNAssertion
  | tapInstruction (ir : Nat) (data : List Bool)
  | trstNAssertion
  -- further PTP, port and peer events
  | followUp (net seqId origin : Nat) (corr : Int)
  | announce (net domain : Nat) (priority1 clockClass accuracy variance priority2 : Nat) (identity : Nat)
  | delayReq (net : Nat)
  | pfcFrame (port : Nat) (pause : Bool)
  | hxpInvalidType (m : HxpMsg)
  | mirroredSessionStateAck (session : Nat)
  | buddyStripeFetch (device store index stripe : Nat)
  | peerConnectionReopen (device net : Nat)
  deriving DecidableEq, Repr

end Sys2Proof
end

