-- ==== Sys2Proof/Machine/Bits.lean ====
section
/-! DEFINITION. Bit fields, byte order, bit reversal, and the two kinds of table that State is made of: tables with a
default (Tab) and memories in canonical form (Mem). -/
namespace Sys2Proof.Machine

/-- The field of `w` bits at bit `lo` of `x`: [lo+w-1:lo] in the manual's writing (R4). -/
def fld (x lo w : Nat) : Nat := (x / 2 ^ lo) % 2 ^ w

/-- `x` with its field [lo+w-1:lo] replaced by `v` modulo 2^w. -/
def setFld (x lo w v : Nat) : Nat :=
  x % 2 ^ lo + 2 ^ lo * (v % 2 ^ w) + 2 ^ (lo + w) * (x / 2 ^ (lo + w))

/-- Bit `i` of `x`. -/
def bit (x i : Nat) : Bool := x.testBit i

/-- The value of a `w`-bit field read as two's complement. -/
def signed (w x : Nat) : Int :=
  if x % 2 ^ w < 2 ^ (w - 1) then ((x % 2 ^ w : Nat) : Int) else ((x % 2 ^ w : Nat) : Int) - ((2 ^ w : Nat) : Int)

/-- An integer taken modulo 2^w. -/
def wrap (w : Nat) (x : Int) : Nat := (x % ((2 ^ w : Nat) : Int)).toNat

/-- A counter of `w` bits that saturates at its maximum (R162 and the other "counters saturate"). -/
def satAdd (w x n : Nat) : Nat := min (x + n) (2 ^ w - 1)

/-- Ceiling of a quotient. -/
def ceilDiv (a b : Nat) : Nat := (a + b - 1) / b

/-- `rev n x`: the n low bits of `x` in reverse order (R43, R174). -/
def rev : Nat → Nat → Nat
  | 0, _ => 0
  | n + 1, x => (x % 2) * 2 ^ n + rev n (x / 2)

/-- b^e mod m by repeated squaring over the bits of `e`, `f` of them at most. -/
def powModAux : Nat → Nat → Nat → Nat → Nat
  | 0, _, _, m => 1 % m
  | f + 1, b, e, m =>
    let h := powModAux f (b * b % m) (e / 2) m
    if e % 2 = 1 then b * h % m else h

/-- b^e mod m. -/
def powMod (b e m : Nat) : Nat := powModAux (Nat.log2 e + 1) (b % m) e m

/-- The number that bytes spell, byte 0 least significant (R5). -/
def leNat : List Byte → Nat
  | [] => 0
  | b :: bs => b.toNat + 256 * leNat bs

/-- The `n` low bytes of `x`, least significant first (R5). -/
def leBytes : Nat → Nat → List Byte
  | 0, _ => []
  | n + 1, x => BitVec.ofNat 8 x :: leBytes n (x / 256)

/-- `n` bytes of `bs` from offset `o`; bytes past the end are missing. -/
def slice (bs : List Byte) (o n : Nat) : List Byte := (bs.drop o).take n

/-- The little-endian number in `n` bytes at offset `o`. -/
def getLe (bs : List Byte) (o n : Nat) : Nat := leNat (slice bs o n)

/-- `bs` padded with zero bytes to `n`, or cut to `n`. -/
def fitBytes (n : Nat) (bs : List Byte) : List Byte := (bs ++ List.replicate n 0).take n

/-- Bytes of a header register, byte 0 first (R46, R180). -/
def hdrBytes (h : Hdr) : List Byte := leBytes 64 h.toNat

/-- The header register that 64 bytes fill; missing bytes are zero (R268). -/
def hdrOf (bs : List Byte) : Hdr := BitVec.ofNat 512 (leNat (bs.take 64))

/-- List element `i`, or `d` past the end. -/
def nth {α : Type} (l : List α) (i : Nat) (d : α) : α := l.getD i d

/-! ### Tables with a default -/

/-- The entry of key `k`, or the default. -/
def tget {α : Type} (d : α) : List (Nat × α) → Nat → α
  | [], _ => d
  | (j, v) :: m, k => if k = j then v else tget d m k

/-- The entry of key `k`, if the table has one. -/
def tfind {α : Type} : List (Nat × α) → Nat → Option α
  | [], _ => none
  | (j, v) :: m, k => if k = j then some v else tfind m k

/-- The table with `v` at key `k`. -/
def tput {α : Type} : List (Nat × α) → Nat → α → List (Nat × α)
  | [], k, v => [(k, v)]
  | (j, w) :: m, k, v => if k = j then (k, v) :: m else (j, w) :: tput m k v

/-- The table without key `k`. -/
def tdel {α : Type} (m : List (Nat × α)) (k : Nat) : List (Nat × α) := m.filter (fun e => e.1 != k)

/-- Every entry passed through `f`. -/
def tmap {α : Type} (f : Nat → α → α) (m : List (Nat × α)) : List (Nat × α) := m.map (fun e => (e.1, f e.1 e.2))

/-- The lowest key from `b` on, at most `n` of them, that the table does not hold (R284 step 9, R300, R359). -/
def lowestFree {α : Type} (m : List (Nat × α)) : Nat → Nat → Option Nat
  | _, 0 => none
  | b, n + 1 => if (tfind m b).isNone then some b else lowestFree m (b + 1) n

/-! ### Memories: strictly rising addresses, no entry equal to zero -/

/-- A cell's value; an unlisted cell reads zero (R161, R194, R343, Table 17-7). -/
def mget {n : Nat} : List (Nat × BitVec n) → Nat → BitVec n
  | [], _ => 0
  | (k, v) :: m, a => if a = k then v else mget m a

/-- The memory with `v` in cell `a`, kept in canonical form. -/
def mput {n : Nat} : List (Nat × BitVec n) → Nat → BitVec n → List (Nat × BitVec n)
  | [], a, v => if v = 0 then [] else [(a, v)]
  | (k, w) :: m, a, v =>
    if a < k then (if v = 0 then (k, w) :: m else (a, v) :: (k, w) :: m)
    else if a = k then (if v = 0 then m else (a, v) :: m)
    else (k, w) :: mput m a v

/-- Strictly rising keys above `b`, no zero value. -/
def mwfFrom {n : Nat} : Nat → List (Nat × BitVec n) → Bool
  | _, [] => true
  | b, (k, v) :: m => decide (b ≤ k) && decide (v ≠ 0) && mwfFrom (k + 1) m

/-- The canonical form of a memory. -/
def Memory.wf {n : Nat} (m : List (Nat × BitVec n)) : Bool := mwfFrom 0 m

/-- Consecutive cells written from address `a` on. -/
def mputs {n : Nat} (m : List (Nat × BitVec n)) : Nat → List (BitVec n) → List (Nat × BitVec n)
  | _, [] => m
  | a, v :: vs => mput (mputs m (a + 1) vs) a v

/-- Consecutive cells read from address `a` on. -/
def mgets {n : Nat} (m : List (Nat × BitVec n)) (a : Nat) : Nat → List (BitVec n)
  | 0 => []
  | k + 1 => mget m a :: mgets m (a + 1) k

/-- Cells written one by one, in order. -/
def mputAll {n : Nat} (m : List (Nat × BitVec n)) : List (Nat × BitVec n) → List (Nat × BitVec n)
  | [] => m
  | (a, v) :: r => mputAll (mput m a v) r

/-- Every cell outside [lo, hi) kept, the others zero. -/
def mzero {n : Nat} (m : List (Nat × BitVec n)) (lo hi : Nat) : List (Nat × BitVec n) :=
  m.filter (fun e => decide (e.1 < lo ∨ hi ≤ e.1))

/-! ### Sorted insertion used by queues ordered by key -/

/-- The list with `x` put after the entries whose key is not above its own. -/
def insertBy {α : Type} (key : α → Nat) (x : α) : List α → List α
  | [] => [x]
  | y :: ys => if key x < key y then x :: y :: ys else y :: insertBy key x ys

/-- Everything that a predicate picks out, and the rest. -/
def splitBy {α : Type} (p : α → Bool) (l : List α) : List α × List α := (l.filter p, l.filter (fun x => !p x))

/-- `f` applied to element `i` of a list. -/
def modNth {α : Type} (l : List α) (i : Nat) (f : α → α) : List α := l.modify i f

end Sys2Proof.Machine
end

