-- ==== Sys2Proof/Machine/SeqDecode.lean ====
section
/-! DEFINITION. The instruction that a 128-bit word spells (R250 to R253, Tables 10-1 to 10-5), none for an opcode that
Table 10-1 does not list or a field value it calls invalid. -/
namespace Sys2Proof.Machine

/-- A 5-bit select field at bit `lo` (R251). -/
def selAt (w lo : Nat) : Sel := { en := bit w (lo + 4), r := fld w lo 4 }

/-- A MEMBER field at `lo` with its ARM field at `alo` (R253). -/
def memAt (w lo alo : Nat) : Mem9 := { idx := fld w lo 8, all := bit w (lo + 8), arm := selAt w alo }

/-- A shape field at `lo` (R252). -/
def shapeAt (w lo : Nat) : Shape := { rows := fld w lo 7, cols := fld w (lo + 8) 7, mv := fld w (lo + 16) 2 }

/-- The time operands of WAITT and LAUNCH. -/
def timeAt (w : Nat) : TimeOp := { beat := bit w 24, offset := fld w 25 32, aroff := selAt w 57 }

/-- The operands of TLD and TST. -/
def lineAt (w : Nat) : LineOp :=
  { tile := fld w 24 4, brow := fld w 28 14, arb := selAt w 42, step := signed 15 (fld w 47 15), n := fld w 62 6 + 1
    bcol := bit w 68, tcol := bit w 69, lane := fld w 70 6, tidx := fld w 76 6, mem := memAt w 90 99, shape := shapeAt w 104 }

/-- The operands of the four MME operations. -/
def mmeAt (w : Nat) : MmeOp :=
  { a := fld w 24 4, b := fld w 28 4, c := fld w 32 4, qdest := bit w 36, mem := memAt w 37 46
    shA := shapeAt w 51, shB := shapeAt w 69, shC := shapeAt w 87 }

/-- The operands of NTT and INTT. -/
def nttAt (w : Nat) : NttOp :=
  { logN := 15 + fld w 24 2, half := fld w 26 1, sub := fld w 27 1, prime := fld w 28 7, arp := selAt w 35
    mem := memAt w 40 49 }

/-- The instruction word `w` of pier `p`. -/
def decodeWord (p : Nat) (word : IWord) : Option Instr :=
  let w := word.toNat
  let i : Iss := { pier := p, next := fld w 8 16 + 1 }
  match fld w 0 8 with
  | 0x00 => some (.nop i)
  | 0x01 => some (.loop i (fld w 24 2) (fld w 26 25) (fld w 51 12))
  | 0x02 => some (.call i (fld w 24 10) (fld w 34 16))
  | 0x03 => some (.ret i)
  | 0x04 => some (.halt i)
  | 0x05 => some (.waitc i (fld w 24 3))
  | 0x06 => some (.waitt i (timeAt w))
  | 0x07 => if 2 ≤ fld w 62 2 then none else
      some (.launch i { t := timeAt w, kind := fld w 62 2, chuck := fld w 64 2, desc := fld w 66 8, arstart := selAt w 74,
                        sendSlot := fld w 79 8 })
  | 0x08 => some (.ptok i (fld w 24 2))
  | 0x09 => some (.aset i (fld w 24 4) (fld w 28 32))
  | 0x0A => some (.astr i (fld w 24 4) (fld w 28 2) (fld w 30 32))
  | 0x0B => some (.aadd i (fld w 24 4) (fld w 28 4) (fld w 32 32))
  | 0x0C => some (.lparm i (fld w 24 4) (fld w 28 5))
  | 0x10 => some (.arm i (fld w 24 4) (fld w 28 14) (selAt w 42) (fld w 47 15))
  | 0x11 => some (.rel i (fld w 24 4))
  | 0x12 => if fld w 24 2 = 3 then none else some (.chk i (fld w 24 2) (fld w 26 8) (selAt w 34))
  | 0x13 => some (.dsend i { brow := fld w 24 14, arb := selAt w 38, n := fld w 43 6 + 1, lanes := fld w 49 7,
                             dstage := fld w 56 8, drow := fld w 64 14, ard := selAt w 78 })
  | 0x18 => some (.hld i (fld w 24 3) (fld w 27 14) (selAt w 41))
  | 0x19 => some (.hst i (fld w 24 3) (fld w 27 14) (selAt w 41))
  | 0x1A => some (.hchk i { cls := fld w 24 4, ha := fld w 28 4, hb := fld w 32 4, hk := fld w 36 4, hd := fld w 40 3,
                            level := fld w 43 7, g := fld w 50 16, spt := fld w 66 16, hoist := bit w 82,
                            mem := memAt w 83 92 })
  | 0x20 => some (.tld i (lineAt w))
  | 0x21 => some (.tst i (lineAt w))
  | 0x22 => if fld w 40 3 = 7 then none else
      some (.cld i { tile := fld w 24 4, trow := fld w 28 6, n := fld w 34 6 + 1, table := fld w 40 3, x := fld w 43 7,
                     arx := selAt w 50, crow := fld w 55 6, mem := memAt w 61 70, shape := shapeAt w 75 })
  | 0x23 => some (.mvld i (fld w 24 2) (fld w 26 14) (selAt w 40))
  | 0x24 => some (.tcfg i (fld w 24 4) (bit w 28) (fld w 29 4) (shapeAt w 33))
  | 0x25 => if fld w 24 2 = 3 then none else some (.ntt i (nttAt w))
  | 0x26 => if fld w 24 2 = 3 then none else some (.intt i (nttAt w))
  | 0x27 => some (.mmul i (mmeAt w))
  | 0x28 => some (.mmac i (mmeAt w))
  | 0x29 => some (.emul i (mmeAt w))
  | 0x2A => some (.emac i (mmeAt w))
  | 0x30 => if fld w 95 2 = 3 then none else
      some (.spin i { entry := fld w 24 6, stages := fld w 30 3 + 1, x := fld w 33 5, y := fld w 38 5, o1 := fld w 76 5,
                      o0kind := fld w 43 2, o0tile := fld w 45 4, brow := fld w 49 14, arb := selAt w 63,
                      dstage := fld w 68 8, mem := memAt w 81 90, keysel := fld w 95 2, stream := fld w 97 16,
                      arbase := selAt w 113, arctr := selAt w 118 })
  | 0x31 => some (.sbld i (fld w 24 2) (fld w 26 14) (selAt w 40) (bit w 45) (fld w 46 6))
  | 0x32 => some (.skld i (fld w 24 1) (fld w 25 14) (selAt w 39))
  | 0x33 => some (.fsse i { mentry := fld w 24 4, g := fld w 28 6 + 1, itemRow := fld w 34 14, xhatRow := fld w 48 14,
                            outRow := fld w 62 14, arb := selAt w 76, eval := bit w 81, mem := memAt w 82 91 })
  | _ => none

end Sys2Proof.Machine
end

