-- ==== Sys2Proof/Config.lean ====
section
/-! DEFINITION. What the manual leaves to one unit or to another standard: functions without a body, of which nothing is
known (log entries 10, 11, 12). -/
namespace Sys2Proof.Config

/-- Word of the routine ROM: routine id, instruction index (R246; its contents are not in the manual). -/
opaque rom : Nat → Nat → IWord
/-- A random draw of keystone, the n-th of the run (R227, R366, R415). -/
opaque draw : Nat → Nat
/-- ML-DSA-65 verification: public key, message, signature (R412, R421). -/
opaque mldsaVerify : List Byte → List Byte → List Byte → Bool
/-- ML-DSA-65 signature by the device key (R418, R419). -/
opaque mldsaSign : List Byte → List Byte
/-- ML-KEM-768 encapsulation to a public key with the n-th draw: ciphertext and secret (R421). -/
opaque kemEncap : Nat → List Byte → List Byte × List Byte
/-- ML-KEM-768 key pair of the n-th draw, and decapsulation with it. -/
opaque kemPub : Nat → List Byte
opaque kemDecap : Nat → List Byte → List Byte
/-- SHA3-256 of the boot ROM (Table 16-2, step 2; the ROM's contents are not in the manual). -/
opaque romDigest : List Byte
/-- AES-256-GCM: key, nonce counter, plaintext; opening answers none when the tag fails (R88, R379, R418, R447). -/
opaque aeadSeal : List Byte → Nat → List Byte → List Byte
opaque aeadOpen : List Byte → Nat → List Byte → Option (List Byte)
/-- Time in ns that the scheduler plans for the preparation of a launch (R448, Table 17-4 give none). -/
opaque prepNs : Nat
/-- KiB of journal that so many records with so many bytes of opening payloads take (R373 gives no record size). -/
opaque journalKib : Nat → Nat → Nat
/-- What the status code of a refusal comes from for which the manual gives the refusal and no code, by place of the check
(log entry 9). -/
opaque refusalDraw : Nat → Nat
/-- That code: of a class from 0x01 to 0x09 and with a detail that is not 0x00, as every fault code (R12). -/
def refusal (n : Nat) : Nat := 256 * (1 + refusalDraw n % 9) + (1 + refusalDraw n / 9 % 255)
/-- Package power in W and the rails below their limits, as the monitors show them at a time-base instant (Table 19-8). -/
opaque packageWatts : Nat → Nat
opaque railsLow : Nat → Nat

end Sys2Proof.Config
end

