-- ==== Sys2Proof/Machine/Crc.lean ====
section
/-! DEFINITION. CRC-32 with the IEEE 802.3 polynomial, in the form Ethernet uses it (reflected, initial value and final
XOR all ones). PRESUMED: the manual names the polynomial only (log entry 13). -/
namespace Sys2Proof.Machine

/-- One bit shifted through the reflected register. -/
def crcBit (c : Nat) : Nat := if c % 2 = 1 then (c / 2) ^^^ 0xEDB88320 else c / 2

/-- One byte shifted through the register. -/
def crcByte (c : Nat) (b : Byte) : Nat :=
  crcBit (crcBit (crcBit (crcBit (crcBit (crcBit (crcBit (crcBit (c ^^^ b.toNat))))))))

/-- CRC-32 of a byte string (R46, R68 and every other HEADER_CRC or DATA_CRC). -/
def crc32 (bs : List Byte) : Nat := (bs.foldl crcByte 0xFFFFFFFF) ^^^ 0xFFFFFFFF

/-- Does the 32-bit field at offset `n` hold the CRC of the `n` bytes before it? -/
def crcAt (bs : List Byte) (n : Nat) : Bool := crc32 (bs.take n) == getLe bs n 4

/-- The first `n` bytes of `bs` followed by their CRC, then the bytes after the CRC field. -/
def withCrcAt (bs : List Byte) (n : Nat) : List Byte := bs.take n ++ leBytes 4 (crc32 (bs.take n)) ++ bs.drop (n + 4)

end Sys2Proof.Machine
end

