-- ==== Sys2Proof/Machine/RegMap.lean ====
section
/-! DEFINITION. The management register map: every named field of the register tables with its offset, bits, access,
Reset and Kept through columns (R10, R11). Generated from the tables of spec/ by field name. -/
namespace Sys2Proof.Machine

/-- Access codes (R10). -/
inductive Acc where
  | ro
  | rw
  | w1c
  | wo
  deriving DecidableEq, Repr

/-- Where a field's value lives: in the register store, or in the structured state that it reports. -/
inductive Home where
  | stored
  | idStepC0
  | idStepC1
  | idStepIo
  | idSerialLo
  | idSerialHi
  | idActiveD0
  | idActiveD1
  | idSpareD0
  | idSpareD1
  | idFusedMap
  | idActiveMap
  | idSpareMap
  | idRetiredMap
  | keyKeysetsInstalled
  | keyKeystoreMib
  | keyMaterialMib
  | keyPinMibTotal
  | bnCacheBlocks
  | bnSbState
  | ckK0Outstanding
  | ckK1Outstanding
  | ckK2Outstanding
  | ckK0State
  | ckK1State
  | ckK2State
  | laNttBusy
  | laMmeBusy
  | laShapeMode
  | laFtqDepth
  | laMvValid
  | laConstTagLo
  | laConstTagHi
  | laTshapeTRows
  | laTshapeTCols
  | laTshapeTMv
  | laMemberPoison
  | spPassBusy
  | spFssBusy
  | spSeedValid
  | seqState
  | seqActiveBank
  | seqSwapArmed
  | seqCallDepth
  | seqLoopsActive
  | seqPtokLevel
  | seqPc
  | seqRoutineId
  | seqInRoutine
  | seqLcIndex
  | seqSwapArm
  | seqA
  | spnPierState
  | spnPlaced
  | spnTakeoverReady
  | spnSpan
  | spnStage
  | spnImageHandle
  | spnSpareIndex
  | spnReplaces
  | spnHeld
  | spnFrozen
  | spnSources
  | spnSendqRows
  | spnGrantTokens
  | xchSessionsBound
  | llmScratchMib
  | llmUnpinnedMib
  | prtMacLo
  | prtMacHi
  | prtSlotState
  | prtHomePort
  | prtStandbyPort
  | prtHeadWait
  | prtOverrun
  | prtConsumedLo
  | prtConsumedHi
  | prtCompletedLo
  | prtCompletedHi
  | prtJournalUsedKib
  | prtSessions
  | prtWinState
  | prtWinOwner
  | prtWinIsRemote
  | prtEpoch
  | tbTbNsLo
  | tbTbNsHi
  | tbTbFrac
  | tbFwVersion
  | tbOperVersion
  | tbPeerId
  | tbPeerState
  | tbPeerVersion
  | ksnKsState
  | ksnBootBank
  | ksnClaimed
  | ksnLocked
  | ksnRngOk
  | ksnFwSvnRun
  | ksnOtpFwSvn
  | ksnRoutineEpoch
  | ksnFwDigest
  | ksnRomDigest
  | lieQueueDepth
  | lieBusy
  | lieRunning
  | pwrPstate
  | pwrFcActive
  | pwrProchotActive
  | pwrThermalThrottle
  | pwrTokensReserved
  | rstLastReset
  | rasDegraded
  | rasFaultRecord
  deriving DecidableEq, Repr

/-- A field of a register table. `base` is the block's base, or the offset 0 of a pier block when `pier` is set; instance
`i` of an indexed field lies `stride × i` further. `kept` has a bit for each event of Table 0-2, in that table's order:
POR, PIN, WARM, SPAN, PIER, PORT, A3, A4. -/
structure Fld where
  pier : Bool
  base : Nat
  off : Nat
  stride : Nat
  count : Nat
  lo : Nat
  w : Nat
  acc : Acc
  reset : Nat
  kept : Nat
  home : Home := .stored
  deriving DecidableEq, Repr

/-- PART_ID of Table 1-3. -/
def idPartId : Fld := ⟨false, 0x0, 0x0, 0, 1, 0, 32, .ro, 0x9C176, 255, .stored⟩
/-- ARCH_MINOR of Table 1-3. -/
def idArchMinor : Fld := ⟨false, 0x0, 0x4, 0, 1, 0, 8, .ro, 0x0, 255, .stored⟩
/-- ARCH_MAJOR of Table 1-3. -/
def idArchMajor : Fld := ⟨false, 0x0, 0x4, 0, 1, 8, 8, .ro, 0x1, 255, .stored⟩
/-- STEP_C0 of Table 1-3. -/
def idStepC0 : Fld := ⟨false, 0x0, 0x8, 0, 1, 0, 8, .ro, 0x0, 255, .idStepC0⟩
/-- STEP_C1 of Table 1-3. -/
def idStepC1 : Fld := ⟨false, 0x0, 0x8, 0, 1, 8, 8, .ro, 0x0, 255, .idStepC1⟩
/-- STEP_IO of Table 1-3. -/
def idStepIo : Fld := ⟨false, 0x0, 0x8, 0, 1, 16, 8, .ro, 0x0, 255, .idStepIo⟩
/-- SERIAL_LO of Table 1-3. -/
def idSerialLo : Fld := ⟨false, 0x0, 0xC, 0, 1, 0, 32, .ro, 0x0, 255, .idSerialLo⟩
/-- SERIAL_HI of Table 1-3. -/
def idSerialHi : Fld := ⟨false, 0x0, 0x10, 0, 1, 0, 32, .ro, 0x0, 255, .idSerialHi⟩
/-- ACTIVE_D0 of Table 1-3. -/
def idActiveD0 : Fld := ⟨false, 0x0, 0x14, 0, 1, 0, 8, .ro, 0x0, 255, .idActiveD0⟩
/-- ACTIVE_D1 of Table 1-3. -/
def idActiveD1 : Fld := ⟨false, 0x0, 0x14, 0, 1, 8, 8, .ro, 0x0, 255, .idActiveD1⟩
/-- SPARE_D0 of Table 1-3. -/
def idSpareD0 : Fld := ⟨false, 0x0, 0x14, 0, 1, 16, 8, .ro, 0x0, 255, .idSpareD0⟩
/-- SPARE_D1 of Table 1-3. -/
def idSpareD1 : Fld := ⟨false, 0x0, 0x14, 0, 1, 24, 8, .ro, 0x0, 255, .idSpareD1⟩
/-- FUSED_MAPk of Table 1-3. -/
def idFusedMap : Fld := ⟨false, 0x0, 0x20, 4, 6, 0, 32, .ro, 0x0, 255, .idFusedMap⟩
/-- ACTIVE_MAPk of Table 1-3. -/
def idActiveMap : Fld := ⟨false, 0x0, 0x40, 4, 6, 0, 32, .ro, 0x0, 255, .idActiveMap⟩
/-- SPARE_MAPk of Table 1-3. -/
def idSpareMap : Fld := ⟨false, 0x0, 0x60, 4, 6, 0, 32, .ro, 0x0, 255, .idSpareMap⟩
/-- RETIRED_MAPk of Table 1-3. -/
def idRetiredMap : Fld := ⟨false, 0x0, 0x80, 4, 6, 0, 32, .ro, 0x0, 255, .idRetiredMap⟩
/-- KEYSETS_INSTALLED of Table 4-9. -/
def keyKeysetsInstalled : Fld := ⟨false, 0x50000, 0x1000, 0, 1, 0, 7, .ro, 0x0, 252, .keyKeysetsInstalled⟩
/-- KEYSTORE_MIB of Table 4-9. -/
def keyKeystoreMib : Fld := ⟨false, 0x50000, 0x1004, 0, 1, 0, 32, .ro, 0x0, 252, .keyKeystoreMib⟩
/-- MATERIAL_MIB of Table 4-9. -/
def keyMaterialMib : Fld := ⟨false, 0x50000, 0x1008, 0, 1, 0, 32, .ro, 0x0, 252, .keyMaterialMib⟩
/-- PIN_MIB_TOTAL of Table 4-9. -/
def keyPinMibTotal : Fld := ⟨false, 0x50000, 0x100C, 0, 1, 0, 16, .ro, 0x0, 124, .keyPinMibTotal⟩
/-- KEY_BYTES_LO of Table 4-9. -/
def keyKeyBytesLo : Fld := ⟨false, 0x50000, 0x1010, 0, 1, 0, 32, .ro, 0x0, 120, .stored⟩
/-- KEY_BYTES_HI of Table 4-9. -/
def keyKeyBytesHi : Fld := ⟨false, 0x50000, 0x1014, 0, 1, 0, 32, .ro, 0x0, 120, .stored⟩
/-- PIN_HITS of Table 4-9. -/
def keyPinHits : Fld := ⟨false, 0x50000, 0x1018, 0, 1, 0, 32, .ro, 0x0, 120, .stored⟩
/-- TAG_REFUSALS of Table 4-9. -/
def keyTagRefusals : Fld := ⟨false, 0x50000, 0x101C, 0, 1, 0, 32, .ro, 0x0, 120, .stored⟩
/-- MATERIAL_WAITS of Table 4-9. -/
def keyMaterialWaits : Fld := ⟨false, 0x50000, 0x1020, 0, 1, 0, 32, .ro, 0x0, 120, .stored⟩
/-- COUNTER_CLEAR of Table 4-9. -/
def keyCounterClear : Fld := ⟨false, 0x50000, 0x1024, 0, 1, 0, 1, .wo, 0x0, 0, .stored⟩
/-- CACHE_BLOCKS of Table 6-5. -/
def bnCacheBlocks : Fld := ⟨true, 0x0, 0x3000, 0, 1, 0, 3, .ro, 0x0, 40, .bnCacheBlocks⟩
/-- SB_STATE of Table 6-5. -/
def bnSbState : Fld := ⟨true, 0x0, 0x3004, 0, 1, 0, 32, .ro, 0x0, 40, .bnSbState⟩
/-- PARITY_ERRORS of Table 6-5. -/
def bnParityErrors : Fld := ⟨true, 0x0, 0x3008, 0, 1, 0, 16, .ro, 0x0, 40, .stored⟩
/-- PARITY_LAST_ROW of Table 6-5. -/
def bnParityLastRow : Fld := ⟨true, 0x0, 0x300C, 0, 1, 0, 14, .ro, 0x0, 40, .stored⟩
/-- PARITY_LAST_LANE of Table 6-5. -/
def bnParityLastLane : Fld := ⟨true, 0x0, 0x300C, 0, 1, 16, 6, .ro, 0x0, 40, .stored⟩
/-- CACHE_HITS of Table 6-5. -/
def bnCacheHits : Fld := ⟨true, 0x0, 0x3010, 0, 1, 0, 32, .ro, 0x0, 40, .stored⟩
/-- CACHE_MISSES of Table 6-5. -/
def bnCacheMisses : Fld := ⟨true, 0x0, 0x3014, 0, 1, 0, 32, .ro, 0x0, 40, .stored⟩
/-- CACHE_REFETCHES of Table 6-5. -/
def bnCacheRefetches : Fld := ⟨true, 0x0, 0x3018, 0, 1, 0, 32, .ro, 0x0, 40, .stored⟩
/-- HOLD_FC of Table 6-5. -/
def bnHoldFc : Fld := ⟨true, 0x0, 0x301C, 0, 1, 0, 32, .ro, 0x0, 40, .stored⟩
/-- COUNTER_CLEAR of Table 6-5. -/
def bnCounterClear : Fld := ⟨true, 0x0, 0x3020, 0, 1, 0, 1, .wo, 0x0, 0, .stored⟩
/-- K0_OUTSTANDING of Table 7-7. -/
def ckK0Outstanding : Fld := ⟨true, 0x0, 0x4000, 0, 1, 0, 3, .ro, 0x0, 40, .ckK0Outstanding⟩
/-- K1_OUTSTANDING of Table 7-7. -/
def ckK1Outstanding : Fld := ⟨true, 0x0, 0x4000, 0, 1, 4, 3, .ro, 0x0, 40, .ckK1Outstanding⟩
/-- K2_OUTSTANDING of Table 7-7. -/
def ckK2Outstanding : Fld := ⟨true, 0x0, 0x4000, 0, 1, 8, 3, .ro, 0x0, 40, .ckK2Outstanding⟩
/-- K0_STATE of Table 7-7. -/
def ckK0State : Fld := ⟨true, 0x0, 0x4000, 0, 1, 16, 2, .ro, 0x0, 40, .ckK0State⟩
/-- K1_STATE of Table 7-7. -/
def ckK1State : Fld := ⟨true, 0x0, 0x4000, 0, 1, 18, 2, .ro, 0x0, 40, .ckK1State⟩
/-- K2_STATE of Table 7-7. -/
def ckK2State : Fld := ⟨true, 0x0, 0x4000, 0, 1, 20, 2, .ro, 0x0, 40, .ckK2State⟩
/-- REMOTE_TIMEOUT_US of Table 7-7. -/
def ckRemoteTimeoutUs : Fld := ⟨true, 0x0, 0x4004, 0, 1, 0, 16, .ro, 0x7D0, 40, .stored⟩
/-- RETRY_US of Table 7-7. -/
def ckRetryUs : Fld := ⟨true, 0x0, 0x4004, 0, 1, 16, 8, .ro, 0xA, 40, .stored⟩
/-- ELEMENTS_LO of Table 7-7. -/
def ckElementsLo : Fld := ⟨true, 0x0, 0x4008, 0, 1, 0, 32, .ro, 0x0, 40, .stored⟩
/-- ELEMENTS_HI of Table 7-7. -/
def ckElementsHi : Fld := ⟨true, 0x0, 0x400C, 0, 1, 0, 32, .ro, 0x0, 40, .stored⟩
/-- NARROW_ACCESSES of Table 7-7. -/
def ckNarrowAccesses : Fld := ⟨true, 0x0, 0x4010, 0, 1, 0, 32, .ro, 0x0, 40, .stored⟩
/-- PAGE_WAITS of Table 7-7. -/
def ckPageWaits : Fld := ⟨true, 0x0, 0x4014, 0, 1, 0, 32, .ro, 0x0, 40, .stored⟩
/-- PAGE_WAIT_US of Table 7-7. -/
def ckPageWaitUs : Fld := ⟨true, 0x0, 0x4018, 0, 1, 0, 32, .ro, 0x0, 40, .stored⟩
/-- ISSUE_HOLD_FC of Table 7-7. -/
def ckIssueHoldFc : Fld := ⟨true, 0x0, 0x401C, 0, 1, 0, 32, .ro, 0x0, 40, .stored⟩
/-- COUNTER_CLEAR of Table 7-7. -/
def ckCounterClear : Fld := ⟨true, 0x0, 0x4020, 0, 1, 0, 1, .wo, 0x0, 0, .stored⟩
/-- NTT_BUSY of Table 8-7. -/
def laNttBusy : Fld := ⟨true, 0x0, 0x5000, 0, 1, 0, 1, .ro, 0x0, 40, .laNttBusy⟩
/-- MME_BUSY of Table 8-7. -/
def laMmeBusy : Fld := ⟨true, 0x0, 0x5000, 0, 1, 1, 1, .ro, 0x0, 40, .laMmeBusy⟩
/-- SHAPE_MODE of Table 8-7. -/
def laShapeMode : Fld := ⟨true, 0x0, 0x5000, 0, 1, 2, 1, .ro, 0x0, 40, .laShapeMode⟩
/-- FTQ_DEPTH of Table 8-7. -/
def laFtqDepth : Fld := ⟨true, 0x0, 0x5000, 0, 1, 4, 4, .ro, 0x0, 40, .laFtqDepth⟩
/-- MV_VALID of Table 8-7. -/
def laMvValid : Fld := ⟨true, 0x0, 0x5000, 0, 1, 8, 4, .ro, 0x0, 40, .laMvValid⟩
/-- CONST_TAG_LO of Table 8-7. -/
def laConstTagLo : Fld := ⟨true, 0x0, 0x5004, 0, 1, 0, 32, .ro, 0x0, 40, .laConstTagLo⟩
/-- CONST_TAG_HI of Table 8-7. -/
def laConstTagHi : Fld := ⟨true, 0x0, 0x5008, 0, 1, 0, 32, .ro, 0x0, 40, .laConstTagHi⟩
/-- TSHAPE_t ROWS of Table 8-7. -/
def laTshapeTRows : Fld := ⟨true, 0x0, 0x5010, 4, 16, 0, 7, .ro, 0x40, 40, .laTshapeTRows⟩
/-- TSHAPE_t COLS of Table 8-7. -/
def laTshapeTCols : Fld := ⟨true, 0x0, 0x5010, 4, 16, 8, 7, .ro, 0x40, 40, .laTshapeTCols⟩
/-- TSHAPE_t MV of Table 8-7. -/
def laTshapeTMv : Fld := ⟨true, 0x0, 0x5010, 4, 16, 16, 2, .ro, 0x0, 40, .laTshapeTMv⟩
/-- MEMBER_POISONk of Table 8-7. -/
def laMemberPoison : Fld := ⟨true, 0x0, 0x5050, 4, 8, 0, 32, .ro, 0x0, 40, .laMemberPoison⟩
/-- NTT_OPS of Table 8-7. -/
def laNttOps : Fld := ⟨true, 0x0, 0x5070, 0, 1, 0, 32, .ro, 0x0, 40, .stored⟩
/-- MME_ACTIVE_FC of Table 8-7. -/
def laMmeActiveFc : Fld := ⟨true, 0x0, 0x5074, 0, 1, 0, 32, .ro, 0x0, 40, .stored⟩
/-- OC_HITS of Table 8-7. -/
def laOcHits : Fld := ⟨true, 0x0, 0x5078, 0, 1, 0, 32, .ro, 0x0, 40, .stored⟩
/-- FTQ_HOLD_FC of Table 8-7. -/
def laFtqHoldFc : Fld := ⟨true, 0x0, 0x507C, 0, 1, 0, 32, .ro, 0x0, 40, .stored⟩
/-- RESIDUE_ERRORS of Table 8-7. -/
def laResidueErrors : Fld := ⟨true, 0x0, 0x5080, 0, 1, 0, 16, .ro, 0x0, 40, .stored⟩
/-- COUNTER_CLEAR of Table 8-7. -/
def laCounterClear : Fld := ⟨true, 0x0, 0x5084, 0, 1, 0, 1, .wo, 0x0, 0, .stored⟩
/-- PASS_BUSY of Table 9-7. -/
def spPassBusy : Fld := ⟨true, 0x0, 0x6000, 0, 1, 0, 1, .ro, 0x0, 40, .spPassBusy⟩
/-- FSS_BUSY of Table 9-7. -/
def spFssBusy : Fld := ⟨true, 0x0, 0x6000, 0, 1, 1, 1, .ro, 0x0, 40, .spFssBusy⟩
/-- SEED_VALID of Table 9-7. -/
def spSeedValid : Fld := ⟨true, 0x0, 0x6000, 0, 1, 2, 2, .ro, 0x0, 40, .spSeedValid⟩
/-- PASSES of Table 9-7. -/
def spPasses : Fld := ⟨true, 0x0, 0x6004, 0, 1, 0, 32, .ro, 0x0, 40, .stored⟩
/-- ROWS_LO of Table 9-7. -/
def spRowsLo : Fld := ⟨true, 0x0, 0x6008, 0, 1, 0, 32, .ro, 0x0, 40, .stored⟩
/-- ROWS_HI of Table 9-7. -/
def spRowsHi : Fld := ⟨true, 0x0, 0x600C, 0, 1, 0, 32, .ro, 0x0, 40, .stored⟩
/-- PRG_BLOCKS_LO of Table 9-7. -/
def spPrgBlocksLo : Fld := ⟨true, 0x0, 0x6010, 0, 1, 0, 32, .ro, 0x0, 40, .stored⟩
/-- PRG_BLOCKS_HI of Table 9-7. -/
def spPrgBlocksHi : Fld := ⟨true, 0x0, 0x6014, 0, 1, 0, 32, .ro, 0x0, 40, .stored⟩
/-- FSS_EVALS of Table 9-7. -/
def spFssEvals : Fld := ⟨true, 0x0, 0x6018, 0, 1, 0, 32, .ro, 0x0, 40, .stored⟩
/-- RESIDUE_ERRORS of Table 9-7. -/
def spResidueErrors : Fld := ⟨true, 0x0, 0x601C, 0, 1, 0, 16, .ro, 0x0, 40, .stored⟩
/-- COUNTER_CLEAR of Table 9-7. -/
def spCounterClear : Fld := ⟨true, 0x0, 0x6020, 0, 1, 0, 1, .wo, 0x0, 0, .stored⟩
/-- STATE of Table 10-9. -/
def seqState : Fld := ⟨true, 0x0, 0x1000, 0, 1, 0, 2, .ro, 0x0, 40, .seqState⟩
/-- ACTIVE_BANK of Table 10-9. -/
def seqActiveBank : Fld := ⟨true, 0x0, 0x1000, 0, 1, 2, 1, .ro, 0x0, 40, .seqActiveBank⟩
/-- SWAP_ARMED of Table 10-9. -/
def seqSwapArmed : Fld := ⟨true, 0x0, 0x1000, 0, 1, 3, 1, .ro, 0x0, 40, .seqSwapArmed⟩
/-- CALL_DEPTH of Table 10-9. -/
def seqCallDepth : Fld := ⟨true, 0x0, 0x1000, 0, 1, 4, 3, .ro, 0x0, 40, .seqCallDepth⟩
/-- LOOPS_ACTIVE of Table 10-9. -/
def seqLoopsActive : Fld := ⟨true, 0x0, 0x1000, 0, 1, 8, 4, .ro, 0x0, 40, .seqLoopsActive⟩
/-- PTOK_LEVEL of Table 10-9. -/
def seqPtokLevel : Fld := ⟨true, 0x0, 0x1000, 0, 1, 12, 2, .ro, 0x0, 40, .seqPtokLevel⟩
/-- PC of Table 10-9. -/
def seqPc : Fld := ⟨true, 0x0, 0x1004, 0, 1, 0, 12, .ro, 0x0, 40, .seqPc⟩
/-- ROUTINE_ID of Table 10-9. -/
def seqRoutineId : Fld := ⟨true, 0x0, 0x1004, 0, 1, 16, 10, .ro, 0x0, 40, .seqRoutineId⟩
/-- IN_ROUTINE of Table 10-9. -/
def seqInRoutine : Fld := ⟨true, 0x0, 0x1004, 0, 1, 26, 1, .ro, 0x0, 40, .seqInRoutine⟩
/-- LC_INDEXn of Table 10-9. -/
def seqLcIndex : Fld := ⟨true, 0x0, 0x1008, 4, 4, 0, 25, .ro, 0x0, 40, .seqLcIndex⟩
/-- IMEM_BANK of Table 10-9. -/
def seqImemBank : Fld := ⟨true, 0x0, 0x1018, 0, 1, 0, 1, .rw, 0x0, 40, .stored⟩
/-- IMEM_TARGET of Table 10-9. -/
def seqImemTarget : Fld := ⟨true, 0x0, 0x1018, 0, 1, 1, 2, .rw, 0x0, 40, .stored⟩
/-- IMEM_ADDR of Table 10-9. -/
def seqImemAddr : Fld := ⟨true, 0x0, 0x101C, 0, 1, 4, 12, .rw, 0x0, 40, .stored⟩
/-- IMEM_DATAk of Table 10-9. -/
def seqImemData : Fld := ⟨true, 0x0, 0x1020, 4, 4, 0, 32, .rw, 0x0, 40, .stored⟩
/-- IMEM_WRITE of Table 10-9. -/
def seqImemWrite : Fld := ⟨true, 0x0, 0x1030, 0, 1, 0, 1, .wo, 0x0, 0, .stored⟩
/-- SWAP_ARM of Table 10-9. -/
def seqSwapArm : Fld := ⟨true, 0x0, 0x1034, 0, 1, 0, 1, .rw, 0x0, 40, .seqSwapArm⟩
/-- ISSUED_LO of Table 10-9. -/
def seqIssuedLo : Fld := ⟨true, 0x0, 0x1038, 0, 1, 0, 32, .ro, 0x0, 40, .stored⟩
/-- ISSUED_HI of Table 10-9. -/
def seqIssuedHi : Fld := ⟨true, 0x0, 0x103C, 0, 1, 0, 32, .ro, 0x0, 40, .stored⟩
/-- WAIT_FC of Table 10-9. -/
def seqWaitFc : Fld := ⟨true, 0x0, 0x1040, 0, 1, 0, 32, .ro, 0x0, 40, .stored⟩
/-- LATE_LAUNCHES of Table 10-9. -/
def seqLateLaunches : Fld := ⟨true, 0x0, 0x1044, 0, 1, 0, 32, .ro, 0x0, 40, .stored⟩
/-- IMEM_CORRECTED of Table 10-9. -/
def seqImemCorrected : Fld := ⟨true, 0x0, 0x1048, 0, 1, 0, 16, .ro, 0x0, 40, .stored⟩
/-- COUNTER_CLEAR of Table 10-9. -/
def seqCounterClear : Fld := ⟨true, 0x0, 0x104C, 0, 1, 0, 1, .wo, 0x0, 0, .stored⟩
/-- A_a of Table 10-9. -/
def seqA : Fld := ⟨true, 0x0, 0x1050, 4, 16, 0, 32, .ro, 0x0, 40, .seqA⟩
/-- PIER_STATE of Table 11-14. -/
def spnPierState : Fld := ⟨true, 0x0, 0x0, 0, 1, 0, 2, .ro, 0x0, 255, .spnPierState⟩
/-- PLACED of Table 11-14. -/
def spnPlaced : Fld := ⟨true, 0x0, 0x0, 0, 1, 2, 1, .ro, 0x0, 252, .spnPlaced⟩
/-- TAKEOVER_READY of Table 11-14. -/
def spnTakeoverReady : Fld := ⟨true, 0x0, 0x0, 0, 1, 3, 1, .ro, 0x0, 252, .spnTakeoverReady⟩
/-- SPAN of Table 11-14. -/
def spnSpan : Fld := ⟨true, 0x0, 0x0, 0, 1, 4, 4, .ro, 0x0, 252, .spnSpan⟩
/-- STAGE of Table 11-14. -/
def spnStage : Fld := ⟨true, 0x0, 0x0, 0, 1, 8, 8, .ro, 0x0, 252, .spnStage⟩
/-- IMAGE_HANDLE of Table 11-14. -/
def spnImageHandle : Fld := ⟨true, 0x0, 0x0, 0, 1, 16, 16, .ro, 0x0, 252, .spnImageHandle⟩
/-- SPARE_INDEX of Table 11-14. -/
def spnSpareIndex : Fld := ⟨true, 0x0, 0x4, 0, 1, 0, 8, .ro, 0xFF, 252, .spnSpareIndex⟩
/-- REPLACES of Table 11-14. -/
def spnReplaces : Fld := ⟨true, 0x0, 0x4, 0, 1, 8, 8, .ro, 0x0, 255, .spnReplaces⟩
/-- HELD of Table 11-14. -/
def spnHeld : Fld := ⟨true, 0x0, 0x2000, 0, 1, 0, 1, .ro, 0x0, 40, .spnHeld⟩
/-- FROZEN of Table 11-14. -/
def spnFrozen : Fld := ⟨true, 0x0, 0x2000, 0, 1, 1, 1, .ro, 0x0, 40, .spnFrozen⟩
/-- SOURCES of Table 11-14. -/
def spnSources : Fld := ⟨true, 0x0, 0x2000, 0, 1, 2, 9, .ro, 0x0, 40, .spnSources⟩
/-- SENDQ_ROWS of Table 11-14. -/
def spnSendqRows : Fld := ⟨true, 0x0, 0x2000, 0, 1, 16, 5, .ro, 0x0, 40, .spnSendqRows⟩
/-- FROZEN_FC of Table 11-14. -/
def spnFrozenFc : Fld := ⟨true, 0x0, 0x2004, 0, 1, 0, 32, .ro, 0x0, 40, .stored⟩
/-- HOLDS_RAISED of Table 11-14. -/
def spnHoldsRaised : Fld := ⟨true, 0x0, 0x2008, 0, 1, 0, 32, .ro, 0x0, 40, .stored⟩
/-- FLITS_SENT_LO of Table 11-14. -/
def spnFlitsSentLo : Fld := ⟨true, 0x0, 0x200C, 0, 1, 0, 32, .ro, 0x0, 40, .stored⟩
/-- FLITS_SENT_HI of Table 11-14. -/
def spnFlitsSentHi : Fld := ⟨true, 0x0, 0x2010, 0, 1, 0, 32, .ro, 0x0, 40, .stored⟩
/-- FLITS_RECEIVED_LO of Table 11-14. -/
def spnFlitsReceivedLo : Fld := ⟨true, 0x0, 0x2014, 0, 1, 0, 32, .ro, 0x0, 40, .stored⟩
/-- FLITS_RECEIVED_HI of Table 11-14. -/
def spnFlitsReceivedHi : Fld := ⟨true, 0x0, 0x2018, 0, 1, 0, 32, .ro, 0x0, 40, .stored⟩
/-- GRANT_TOKENS of Table 11-14. -/
def spnGrantTokens : Fld := ⟨true, 0x0, 0x201C, 0, 1, 0, 18, .ro, 0x0, 40, .spnGrantTokens⟩
/-- WINDOW_PEAK of Table 11-14. -/
def spnWindowPeak : Fld := ⟨true, 0x0, 0x2020, 0, 1, 0, 18, .ro, 0x0, 40, .stored⟩
/-- COUNTER_CLEAR of Table 11-14. -/
def spnCounterClear : Fld := ⟨true, 0x0, 0x2024, 0, 1, 0, 1, .wo, 0x0, 0, .stored⟩
/-- UDP_PORT of Table 12-9. -/
def xchUdpPort : Fld := ⟨false, 0x90000, 0x0, 0, 1, 0, 16, .rw, 0xB798, 120, .stored⟩
/-- RTO_INIT_US of Table 12-9. -/
def xchRtoInitUs : Fld := ⟨false, 0x90000, 0x4, 0, 1, 0, 16, .rw, 0xC8, 120, .stored⟩
/-- RTO_MAX_US of Table 12-9. -/
def xchRtoMaxUs : Fld := ⟨false, 0x90000, 0x4, 0, 1, 16, 16, .rw, 0x3200, 120, .stored⟩
/-- RECV_TIMEOUT_MS of Table 12-9. -/
def xchRecvTimeoutMs : Fld := ⟨false, 0x90000, 0x8, 0, 1, 0, 16, .rw, 0x64, 120, .stored⟩
/-- MAX_PAYLOAD of Table 12-9. -/
def xchMaxPayload : Fld := ⟨false, 0x90000, 0x8, 0, 1, 16, 14, .rw, 0x2000, 120, .stored⟩
/-- SESSIONS_BOUND of Table 12-9. -/
def xchSessionsBound : Fld := ⟨false, 0x90000, 0xC, 0, 1, 0, 13, .ro, 0x0, 120, .xchSessionsBound⟩
/-- MSGS_SENT_LO of Table 12-9. -/
def xchMsgsSentLo : Fld := ⟨false, 0x90000, 0x10, 0, 1, 0, 32, .ro, 0x0, 120, .stored⟩
/-- MSGS_SENT_HI of Table 12-9. -/
def xchMsgsSentHi : Fld := ⟨false, 0x90000, 0x14, 0, 1, 0, 32, .ro, 0x0, 120, .stored⟩
/-- MSGS_RECEIVED_LO of Table 12-9. -/
def xchMsgsReceivedLo : Fld := ⟨false, 0x90000, 0x18, 0, 1, 0, 32, .ro, 0x0, 120, .stored⟩
/-- MSGS_RECEIVED_HI of Table 12-9. -/
def xchMsgsReceivedHi : Fld := ⟨false, 0x90000, 0x1C, 0, 1, 0, 32, .ro, 0x0, 120, .stored⟩
/-- RETRANSMITS of Table 12-9. -/
def xchRetransmits : Fld := ⟨false, 0x90000, 0x20, 0, 1, 0, 32, .ro, 0x0, 120, .stored⟩
/-- DUPLICATES of Table 12-9. -/
def xchDuplicates : Fld := ⟨false, 0x90000, 0x24, 0, 1, 0, 32, .ro, 0x0, 120, .stored⟩
/-- AUTH_DROPS of Table 12-9. -/
def xchAuthDrops : Fld := ⟨false, 0x90000, 0x28, 0, 1, 0, 32, .ro, 0x0, 120, .stored⟩
/-- TIMEOUTS of Table 12-9. -/
def xchTimeouts : Fld := ⟨false, 0x90000, 0x2C, 0, 1, 0, 32, .ro, 0x0, 120, .stored⟩
/-- CONFLICTS of Table 12-9. -/
def xchConflicts : Fld := ⟨false, 0x90000, 0x30, 0, 1, 0, 32, .ro, 0x0, 120, .stored⟩
/-- POISON_NOTICES of Table 12-9. -/
def xchPoisonNotices : Fld := ⟨false, 0x90000, 0x34, 0, 1, 0, 32, .ro, 0x0, 120, .stored⟩
/-- COUNTER_CLEAR of Table 12-9. -/
def xchCounterClear : Fld := ⟨false, 0x90000, 0x38, 0, 1, 0, 1, .wo, 0x0, 0, .stored⟩
/-- CACHE_STEPS of Table 13-6. -/
def llmCacheSteps : Fld := ⟨false, 0x60000, 0x0, 0, 1, 0, 4, .rw, 0x4, 252, .stored⟩
/-- SCRATCH_MIB of Table 13-6. -/
def llmScratchMib : Fld := ⟨false, 0x60000, 0x4, 0, 1, 0, 9, .ro, 0x100, 252, .llmScratchMib⟩
/-- UNPINNED_MIB of Table 13-6. -/
def llmUnpinnedMib : Fld := ⟨false, 0x60000, 0x4, 0, 1, 16, 9, .ro, 0x80, 252, .llmUnpinnedMib⟩
/-- LLM_SCRUB_FC of Table 13-6. -/
def llmLlmScrubFc : Fld := ⟨false, 0x60000, 0x8, 0, 1, 0, 16, .rw, 0x40, 120, .stored⟩
/-- LLM_CORRECTED of Table 13-6. -/
def llmLlmCorrected : Fld := ⟨false, 0x60000, 0xC, 0, 1, 0, 32, .ro, 0x0, 120, .stored⟩
/-- LLM_UNCORRECTED of Table 13-6. -/
def llmLlmUncorrected : Fld := ⟨false, 0x60000, 0x10, 0, 1, 0, 16, .ro, 0x0, 120, .stored⟩
/-- LLM_LAST_ERROR of Table 13-6. -/
def llmLlmLastError : Fld := ⟨false, 0x60000, 0x14, 0, 1, 0, 29, .ro, 0x0, 120, .stored⟩
/-- LLM_CACHE_HITS of Table 13-6. -/
def llmLlmCacheHits : Fld := ⟨false, 0x60000, 0x18, 0, 1, 0, 32, .ro, 0x0, 120, .stored⟩
/-- LLM_CACHE_MISSES of Table 13-6. -/
def llmLlmCacheMisses : Fld := ⟨false, 0x60000, 0x1C, 0, 1, 0, 32, .ro, 0x0, 120, .stored⟩
/-- LLM_CACHE_REFETCHES of Table 13-6. -/
def llmLlmCacheRefetches : Fld := ⟨false, 0x60000, 0x20, 0, 1, 0, 32, .ro, 0x0, 120, .stored⟩
/-- COUNTER_CLEAR of Table 13-6. -/
def llmCounterClear : Fld := ⟨false, 0x60000, 0x24, 0, 1, 0, 1, .wo, 0x0, 0, .stored⟩
/-- GDDR_TRAINED of Table 13-7. -/
def mcGddrTrained : Fld := ⟨false, 0x50000, 0x0, 0, 1, 0, 16, .ro, 0x0, 60, .stored⟩
/-- WEIGHT_P1 of Table 13-7. -/
def mcWeightP1 : Fld := ⟨false, 0x50000, 0x4, 0, 1, 0, 8, .rw, 0xC, 120, .stored⟩
/-- WEIGHT_P2 of Table 13-7. -/
def mcWeightP2 : Fld := ⟨false, 0x50000, 0x4, 0, 1, 8, 8, .rw, 0x3, 120, .stored⟩
/-- WEIGHT_P3 of Table 13-7. -/
def mcWeightP3 : Fld := ⟨false, 0x50000, 0x4, 0, 1, 16, 8, .rw, 0x1, 120, .stored⟩
/-- GDDR_SCRUB_MBPS of Table 13-7. -/
def mcGddrScrubMbps : Fld := ⟨false, 0x50000, 0x8, 0, 1, 0, 16, .rw, 0x200, 120, .stored⟩
/-- CRC_RETRIESk of Table 13-7. -/
def mcCrcRetries : Fld := ⟨false, 0x50000, 0x100, 16, 16, 0, 32, .ro, 0x0, 120, .stored⟩
/-- ECC_CORRECTEDk of Table 13-7. -/
def mcEccCorrected : Fld := ⟨false, 0x50000, 0x104, 16, 16, 0, 32, .ro, 0x0, 120, .stored⟩
/-- LINK_FAILSk of Table 13-7. -/
def mcLinkFails : Fld := ⟨false, 0x50000, 0x108, 16, 16, 0, 16, .ro, 0x0, 120, .stored⟩
/-- READ_MIBk of Table 13-7. -/
def mcReadMib : Fld := ⟨false, 0x50000, 0x10C, 16, 16, 0, 32, .ro, 0x0, 120, .stored⟩
/-- COUNTER_CLEAR of Table 13-7. -/
def mcCounterClear : Fld := ⟨false, 0x50000, 0x200, 0, 1, 0, 1, .wo, 0x0, 0, .stored⟩
/-- PORT_ENABLE of Table 14-10. -/
def prtPortEnable : Fld := ⟨false, 0x40000, 0x0, 64, 8, 0, 1, .rw, 0x1, 124, .stored⟩
/-- SPEED of Table 14-10. -/
def prtSpeed : Fld := ⟨false, 0x40000, 0x0, 64, 8, 1, 1, .rw, 0x0, 124, .stored⟩
/-- PFC_ENABLE of Table 14-10. -/
def prtPfcEnable : Fld := ⟨false, 0x40000, 0x0, 64, 8, 2, 1, .rw, 0x0, 124, .stored⟩
/-- PFC_PRIO of Table 14-10. -/
def prtPfcPrio : Fld := ⟨false, 0x40000, 0x0, 64, 8, 4, 3, .rw, 0x3, 124, .stored⟩
/-- LINK_UP of Table 14-10. -/
def prtLinkUp : Fld := ⟨false, 0x40000, 0x4, 64, 8, 0, 1, .ro, 0x0, 92, .stored⟩
/-- SPEED_ACTIVE of Table 14-10. -/
def prtSpeedActive : Fld := ⟨false, 0x40000, 0x4, 64, 8, 1, 1, .ro, 0x0, 92, .stored⟩
/-- MAC_LO of Table 14-10. -/
def prtMacLo : Fld := ⟨false, 0x40000, 0x8, 64, 8, 0, 32, .ro, 0x0, 255, .prtMacLo⟩
/-- MAC_HI of Table 14-10. -/
def prtMacHi : Fld := ⟨false, 0x40000, 0xC, 64, 8, 0, 16, .ro, 0x0, 255, .prtMacHi⟩
/-- IPV4 of Table 14-10. -/
def prtIpv4 : Fld := ⟨false, 0x40000, 0x10, 64, 8, 0, 32, .rw, 0x0, 124, .stored⟩
/-- IPV6 word of Table 14-10. -/
def prtIpv6w0 : Fld := ⟨false, 0x40000, 0x14, 64, 8, 0, 32, .rw, 0x0, 124, .stored⟩
/-- IPV6 word of Table 14-10. -/
def prtIpv6w1 : Fld := ⟨false, 0x40000, 0x18, 64, 8, 0, 32, .rw, 0x0, 124, .stored⟩
/-- IPV6 word of Table 14-10. -/
def prtIpv6w2 : Fld := ⟨false, 0x40000, 0x1C, 64, 8, 0, 32, .rw, 0x0, 124, .stored⟩
/-- IPV6 word of Table 14-10. -/
def prtIpv6w3 : Fld := ⟨false, 0x40000, 0x20, 64, 8, 0, 32, .rw, 0x0, 124, .stored⟩
/-- VLAN_ID of Table 14-10. -/
def prtVlanId : Fld := ⟨false, 0x40000, 0x24, 64, 8, 0, 12, .rw, 0x0, 124, .stored⟩
/-- VLAN_EN of Table 14-10. -/
def prtVlanEn : Fld := ⟨false, 0x40000, 0x24, 64, 8, 12, 1, .rw, 0x0, 124, .stored⟩
/-- FCS_ERRORS of Table 14-10. -/
def prtFcsErrors : Fld := ⟨false, 0x40000, 0x28, 64, 8, 0, 32, .ro, 0x0, 88, .stored⟩
/-- DROPS of Table 14-10. -/
def prtDrops : Fld := ⟨false, 0x40000, 0x2C, 64, 8, 0, 32, .ro, 0x0, 88, .stored⟩
/-- RX_PACKETS of Table 14-10. -/
def prtRxPackets : Fld := ⟨false, 0x40000, 0x30, 64, 8, 0, 32, .ro, 0x0, 88, .stored⟩
/-- TX_PACKETS of Table 14-10. -/
def prtTxPackets : Fld := ⟨false, 0x40000, 0x34, 64, 8, 0, 32, .ro, 0x0, 88, .stored⟩
/-- CNP_RECEIVED of Table 14-10. -/
def prtCnpReceived : Fld := ⟨false, 0x40000, 0x38, 64, 8, 0, 32, .ro, 0x0, 88, .stored⟩
/-- SLOT_STATE of Table 14-10. -/
def prtSlotState : Fld := ⟨false, 0x40000, 0x200, 64, 8, 0, 2, .ro, 0x0, 124, .prtSlotState⟩
/-- HOME_PORT of Table 14-10. -/
def prtHomePort : Fld := ⟨false, 0x40000, 0x200, 64, 8, 4, 3, .ro, 0x0, 124, .prtHomePort⟩
/-- STANDBY_PORT of Table 14-10. -/
def prtStandbyPort : Fld := ⟨false, 0x40000, 0x200, 64, 8, 8, 3, .ro, 0x0, 124, .prtStandbyPort⟩
/-- HEAD_WAIT of Table 14-10. -/
def prtHeadWait : Fld := ⟨false, 0x40000, 0x200, 64, 8, 12, 2, .ro, 0x0, 124, .prtHeadWait⟩
/-- OVERRUN of Table 14-10. -/
def prtOverrun : Fld := ⟨false, 0x40000, 0x200, 64, 8, 16, 1, .w1c, 0x0, 124, .prtOverrun⟩
/-- COMP_WINDOW of Table 14-10. -/
def prtCompWindow : Fld := ⟨false, 0x40000, 0x204, 64, 8, 0, 10, .rw, 0x0, 124, .stored⟩
/-- COMP_OFFSET of Table 14-10. -/
def prtCompOffset : Fld := ⟨false, 0x40000, 0x208, 64, 8, 6, 26, .rw, 0x0, 124, .stored⟩
/-- CONSUMED_LO of Table 14-10. -/
def prtConsumedLo : Fld := ⟨false, 0x40000, 0x20C, 64, 8, 0, 32, .ro, 0x0, 124, .prtConsumedLo⟩
/-- CONSUMED_HI of Table 14-10. -/
def prtConsumedHi : Fld := ⟨false, 0x40000, 0x210, 64, 8, 0, 32, .ro, 0x0, 124, .prtConsumedHi⟩
/-- COMPLETED_LO of Table 14-10. -/
def prtCompletedLo : Fld := ⟨false, 0x40000, 0x214, 64, 8, 0, 32, .ro, 0x0, 124, .prtCompletedLo⟩
/-- COMPLETED_HI of Table 14-10. -/
def prtCompletedHi : Fld := ⟨false, 0x40000, 0x218, 64, 8, 0, 32, .ro, 0x0, 124, .prtCompletedHi⟩
/-- WIN_ID of Table 14-10. -/
def prtWinId : Fld := ⟨false, 0x40000, 0x21C, 64, 8, 0, 10, .rw, 0x0, 124, .stored⟩
/-- WIN_KIND of Table 14-10. -/
def prtWinKind : Fld := ⟨false, 0x40000, 0x21C, 64, 8, 12, 1, .rw, 0x0, 124, .stored⟩
/-- WIN_RESIDENCY of Table 14-10. -/
def prtWinResidency : Fld := ⟨false, 0x40000, 0x21C, 64, 8, 13, 1, .rw, 0x0, 124, .stored⟩
/-- WIN_BASE_LO of Table 14-10. -/
def prtWinBaseLo : Fld := ⟨false, 0x40000, 0x220, 64, 8, 0, 32, .rw, 0x0, 124, .stored⟩
/-- WIN_BASE_HI of Table 14-10. -/
def prtWinBaseHi : Fld := ⟨false, 0x40000, 0x224, 64, 8, 0, 32, .rw, 0x0, 124, .stored⟩
/-- WIN_LENGTH of Table 14-10. -/
def prtWinLength : Fld := ⟨false, 0x40000, 0x228, 64, 8, 0, 32, .rw, 0x0, 124, .stored⟩
/-- WIN_RKEY of Table 14-10. -/
def prtWinRkey : Fld := ⟨false, 0x40000, 0x22C, 64, 8, 0, 32, .rw, 0x0, 124, .stored⟩
/-- WIN_BITMAP of Table 14-10. -/
def prtWinBitmap : Fld := ⟨false, 0x40000, 0x230, 64, 8, 0, 29, .rw, 0x0, 124, .stored⟩
/-- WIN_COMMAND of Table 14-10. -/
def prtWinCommand : Fld := ⟨false, 0x40000, 0x234, 64, 8, 0, 2, .wo, 0x0, 0, .stored⟩
/-- WIN_RESULT of Table 14-10. -/
def prtWinResult : Fld := ⟨false, 0x40000, 0x238, 64, 8, 0, 16, .ro, 0x0, 124, .stored⟩
/-- REFUSED of Table 14-10. -/
def prtRefused : Fld := ⟨false, 0x40000, 0x23C, 64, 8, 0, 32, .ro, 0x0, 120, .stored⟩
/-- SCAN_PERIOD_NS of Table 14-10. -/
def prtScanPeriodNs : Fld := ⟨false, 0x40000, 0x400, 0, 1, 0, 17, .rw, 0x7D0, 252, .stored⟩
/-- BUDDY_ID of Table 14-10. -/
def prtBuddyId : Fld := ⟨false, 0x40000, 0x404, 0, 1, 0, 12, .ro, 0x0, 252, .stored⟩
/-- BUDDY_NONE of Table 14-10. -/
def prtBuddyNone : Fld := ⟨false, 0x40000, 0x404, 0, 1, 12, 1, .ro, 0x1, 252, .stored⟩
/-- BUDDY_STATE of Table 14-10. -/
def prtBuddyState : Fld := ⟨false, 0x40000, 0x404, 0, 1, 16, 2, .ro, 0x0, 120, .stored⟩
/-- JOURNAL_USED_KIB of Table 14-10. -/
def prtJournalUsedKib : Fld := ⟨false, 0x40000, 0x408, 0, 1, 0, 15, .ro, 0x0, 124, .prtJournalUsedKib⟩
/-- SESSIONS of Table 14-10. -/
def prtSessions : Fld := ⟨false, 0x40000, 0x40C, 0, 1, 0, 13, .ro, 0x0, 124, .prtSessions⟩
/-- ACCEPTED_LO of Table 14-10. -/
def prtAcceptedLo : Fld := ⟨false, 0x40000, 0x410, 0, 1, 0, 32, .ro, 0x0, 120, .stored⟩
/-- ACCEPTED_HI of Table 14-10. -/
def prtAcceptedHi : Fld := ⟨false, 0x40000, 0x414, 0, 1, 0, 32, .ro, 0x0, 120, .stored⟩
/-- COMMITTED_LO of Table 14-10. -/
def prtCommittedLo : Fld := ⟨false, 0x40000, 0x418, 0, 1, 0, 32, .ro, 0x0, 120, .stored⟩
/-- COMMITTED_HI of Table 14-10. -/
def prtCommittedHi : Fld := ⟨false, 0x40000, 0x41C, 0, 1, 0, 32, .ro, 0x0, 120, .stored⟩
/-- STALE_WRITES of Table 14-10. -/
def prtStaleWrites : Fld := ⟨false, 0x40000, 0x420, 0, 1, 0, 32, .ro, 0x0, 120, .stored⟩
/-- COUNTER_CLEAR of Table 14-10. -/
def prtCounterClear : Fld := ⟨false, 0x40000, 0x424, 0, 1, 0, 1, .wo, 0x0, 0, .stored⟩
/-- WIN_STATE of Table 14-10. -/
def prtWinState : Fld := ⟨false, 0x40000, 0x1000, 4, 1024, 0, 2, .ro, 0x0, 124, .prtWinState⟩
/-- WIN_OWNER of Table 14-10. -/
def prtWinOwner : Fld := ⟨false, 0x40000, 0x1000, 4, 1024, 2, 3, .ro, 0x0, 124, .prtWinOwner⟩
/-- WIN_IS_REMOTE of Table 14-10. -/
def prtWinIsRemote : Fld := ⟨false, 0x40000, 0x1000, 4, 1024, 5, 1, .ro, 0x0, 124, .prtWinIsRemote⟩
/-- EPOCH of Table 14-10. -/
def prtEpoch : Fld := ⟨false, 0x40000, 0x1000, 4, 1024, 16, 16, .ro, 0x0, 124, .prtEpoch⟩
/-- TB_NS_LO of Table 15-4. -/
def tbTbNsLo : Fld := ⟨false, 0x30000, 0x0, 0, 1, 0, 32, .ro, 0x0, 252, .tbTbNsLo⟩
/-- TB_NS_HI of Table 15-4. -/
def tbTbNsHi : Fld := ⟨false, 0x30000, 0x4, 0, 1, 0, 32, .ro, 0x0, 252, .tbTbNsHi⟩
/-- TB_FRAC of Table 15-4. -/
def tbTbFrac : Fld := ⟨false, 0x30000, 0x8, 0, 1, 0, 16, .ro, 0x0, 252, .tbTbFrac⟩
/-- INCR of Table 15-4. -/
def tbIncr : Fld := ⟨false, 0x30000, 0xC, 0, 1, 0, 32, .ro, 0x1000000, 252, .stored⟩
/-- SYNC_STATE of Table 15-4. -/
def tbSyncState : Fld := ⟨false, 0x30000, 0x10, 0, 1, 0, 2, .ro, 0x0, 124, .stored⟩
/-- SEL_NET of Table 15-4. -/
def tbSelNet : Fld := ⟨false, 0x30000, 0x10, 0, 1, 2, 1, .ro, 0x0, 124, .stored⟩
/-- VALID_A of Table 15-4. -/
def tbValidA : Fld := ⟨false, 0x30000, 0x10, 0, 1, 4, 1, .ro, 0x0, 60, .stored⟩
/-- VALID_B of Table 15-4. -/
def tbValidB : Fld := ⟨false, 0x30000, 0x10, 0, 1, 5, 1, .ro, 0x0, 60, .stored⟩
/-- NET_DISAGREE of Table 15-4. -/
def tbNetDisagree : Fld := ⟨false, 0x30000, 0x10, 0, 1, 8, 1, .w1c, 0x0, 124, .stored⟩
/-- PTP_PORT_A of Table 15-4. -/
def tbPtpPortA : Fld := ⟨false, 0x30000, 0x14, 0, 1, 0, 2, .rw, 0x0, 252, .stored⟩
/-- PTP_PORT_B of Table 15-4. -/
def tbPtpPortB : Fld := ⟨false, 0x30000, 0x14, 0, 1, 4, 2, .rw, 0x0, 252, .stored⟩
/-- PREFER_B of Table 15-4. -/
def tbPreferB : Fld := ⟨false, 0x30000, 0x14, 0, 1, 8, 1, .rw, 0x0, 252, .stored⟩
/-- PTP_DOMAIN_A of Table 15-4. -/
def tbPtpDomainA : Fld := ⟨false, 0x30000, 0x18, 0, 1, 0, 8, .rw, 0x0, 252, .stored⟩
/-- PTP_DOMAIN_B of Table 15-4. -/
def tbPtpDomainB : Fld := ⟨false, 0x30000, 0x18, 0, 1, 8, 8, .rw, 0x0, 252, .stored⟩
/-- SYNC_LOSS_MS of Table 15-4. -/
def tbSyncLossMs : Fld := ⟨false, 0x30000, 0x1C, 0, 1, 0, 16, .rw, 0x1F4, 252, .stored⟩
/-- DISAGREE_NS of Table 15-4. -/
def tbDisagreeNs : Fld := ⟨false, 0x30000, 0x1C, 0, 1, 16, 16, .rw, 0x64, 252, .stored⟩
/-- STEP_LIMIT_NS of Table 15-4. -/
def tbStepLimitNs : Fld := ⟨false, 0x30000, 0x20, 0, 1, 0, 16, .rw, 0x2710, 252, .stored⟩
/-- OFFSET_A of Table 15-4. -/
def tbOffsetA : Fld := ⟨false, 0x30000, 0x24, 0, 1, 0, 32, .ro, 0x0, 60, .stored⟩
/-- OFFSET_B of Table 15-4. -/
def tbOffsetB : Fld := ⟨false, 0x30000, 0x28, 0, 1, 0, 32, .ro, 0x0, 60, .stored⟩
/-- STEPS of Table 15-4. -/
def tbSteps : Fld := ⟨false, 0x30000, 0x2C, 0, 1, 0, 16, .ro, 0x0, 124, .stored⟩
/-- SYNC_LOSSES of Table 15-4. -/
def tbSyncLosses : Fld := ⟨false, 0x30000, 0x2C, 0, 1, 16, 16, .ro, 0x0, 124, .stored⟩
/-- COUNTER_CLEAR of Table 15-4. -/
def tbCounterClear : Fld := ⟨false, 0x30000, 0x30, 0, 1, 0, 1, .wo, 0x0, 0, .stored⟩
/-- DEVICE_ID of Table 15-4. -/
def tbDeviceId : Fld := ⟨false, 0x30000, 0x100, 0, 1, 0, 12, .ro, 0x0, 252, .stored⟩
/-- ID_VALID of Table 15-4. -/
def tbIdValid : Fld := ⟨false, 0x30000, 0x100, 0, 1, 12, 1, .ro, 0x0, 252, .stored⟩
/-- SYSIMG_GEN of Table 15-4. -/
def tbSysimgGen : Fld := ⟨false, 0x30000, 0x104, 0, 1, 0, 32, .ro, 0x0, 252, .stored⟩
/-- FW_VERSION of Table 15-4. -/
def tbFwVersion : Fld := ⟨false, 0x30000, 0x108, 0, 1, 0, 8, .ro, 0x0, 255, .tbFwVersion⟩
/-- OPER_VERSION of Table 15-4. -/
def tbOperVersion : Fld := ⟨false, 0x30000, 0x108, 0, 1, 8, 8, .ro, 0x0, 252, .tbOperVersion⟩
/-- SYS_WINDOW of Table 15-4. -/
def tbSysWindow : Fld := ⟨false, 0x30000, 0x10C, 0, 1, 0, 10, .rw, 0x0, 124, .stored⟩
/-- SYS_OFFSET of Table 15-4. -/
def tbSysOffset : Fld := ⟨false, 0x30000, 0x110, 0, 1, 0, 32, .rw, 0x0, 124, .stored⟩
/-- SYS_LENGTH of Table 15-4. -/
def tbSysLength : Fld := ⟨false, 0x30000, 0x114, 0, 1, 0, 32, .rw, 0x0, 124, .stored⟩
/-- SYS_COMMAND of Table 15-4. -/
def tbSysCommand : Fld := ⟨false, 0x30000, 0x118, 0, 1, 0, 1, .wo, 0x0, 0, .stored⟩
/-- SYS_RESULT of Table 15-4. -/
def tbSysResult : Fld := ⟨false, 0x30000, 0x11C, 0, 1, 0, 16, .ro, 0x0, 124, .stored⟩
/-- PEER_ID of Table 15-4. -/
def tbPeerId : Fld := ⟨false, 0x30000, 0x200, 4, 64, 0, 12, .ro, 0x0, 124, .tbPeerId⟩
/-- PEER_STATE of Table 15-4. -/
def tbPeerState : Fld := ⟨false, 0x30000, 0x200, 4, 64, 12, 2, .ro, 0x0, 124, .tbPeerState⟩
/-- PEER_VERSION of Table 15-4. -/
def tbPeerVersion : Fld := ⟨false, 0x30000, 0x200, 4, 64, 16, 8, .ro, 0x0, 124, .tbPeerVersion⟩
/-- FEED_IMAGE of Table 15-4. -/
def tbFeedImage : Fld := ⟨false, 0x30000, 0x400, 4, 256, 0, 16, .rw, 0x0, 252, .stored⟩
/-- FEED_SPAN of Table 15-4. -/
def tbFeedSpan : Fld := ⟨false, 0x30000, 0x400, 4, 256, 16, 4, .rw, 0x0, 252, .stored⟩
/-- FEED_EN of Table 15-4. -/
def tbFeedEn : Fld := ⟨false, 0x30000, 0x400, 4, 256, 20, 1, .rw, 0x0, 252, .stored⟩
/-- KS_STATE of Table 16-11. -/
def ksnKsState : Fld := ⟨false, 0x70000, 0x0, 0, 1, 0, 2, .ro, 0x0, 120, .ksnKsState⟩
/-- BOOT_BANK of Table 16-11. -/
def ksnBootBank : Fld := ⟨false, 0x70000, 0x0, 0, 1, 2, 1, .ro, 0x0, 120, .ksnBootBank⟩
/-- BOOT_NEXT of Table 16-11. -/
def ksnBootNext : Fld := ⟨false, 0x70000, 0x0, 0, 1, 3, 1, .ro, 0x0, 254, .stored⟩
/-- CLAIMED of Table 16-11. -/
def ksnClaimed : Fld := ⟨false, 0x70000, 0x0, 0, 1, 4, 1, .ro, 0x0, 255, .ksnClaimed⟩
/-- LOCKED of Table 16-11. -/
def ksnLocked : Fld := ⟨false, 0x70000, 0x0, 0, 1, 5, 1, .ro, 0x0, 255, .ksnLocked⟩
/-- RNG_OK of Table 16-11. -/
def ksnRngOk : Fld := ⟨false, 0x70000, 0x0, 0, 1, 6, 1, .ro, 0x0, 252, .ksnRngOk⟩
/-- FW_SVN_RUN of Table 16-11. -/
def ksnFwSvnRun : Fld := ⟨false, 0x70000, 0x4, 0, 1, 0, 7, .ro, 0x0, 120, .ksnFwSvnRun⟩
/-- OTP_FW_SVN of Table 16-11. -/
def ksnOtpFwSvn : Fld := ⟨false, 0x70000, 0x4, 0, 1, 8, 7, .ro, 0x0, 255, .ksnOtpFwSvn⟩
/-- ROUTINE_EPOCH of Table 16-11. -/
def ksnRoutineEpoch : Fld := ⟨false, 0x70000, 0x4, 0, 1, 16, 6, .ro, 0x0, 255, .ksnRoutineEpoch⟩
/-- ATTACH_LOSS_MS of Table 16-11. -/
def ksnAttachLossMs : Fld := ⟨false, 0x70000, 0x8, 0, 1, 0, 32, .rw, 0x7530, 252, .stored⟩
/-- ATTACH_UDP_PORT of Table 16-11. -/
def ksnAttachUdpPort : Fld := ⟨false, 0x70000, 0xC, 0, 1, 0, 16, .rw, 0xB799, 252, .stored⟩
/-- FW_DIGESTk of Table 16-11. -/
def ksnFwDigest : Fld := ⟨false, 0x70000, 0x10, 4, 8, 0, 32, .ro, 0x0, 120, .ksnFwDigest⟩
/-- ROM_DIGESTk of Table 16-11. -/
def ksnRomDigest : Fld := ⟨false, 0x70000, 0x30, 4, 8, 0, 32, .ro, 0x0, 252, .ksnRomDigest⟩
/-- AUTH_FAILS of Table 16-11. -/
def ksnAuthFails : Fld := ⟨false, 0x70000, 0x50, 0, 1, 0, 32, .ro, 0x0, 120, .stored⟩
/-- REPORTS_SIGNED of Table 16-11. -/
def ksnReportsSigned : Fld := ⟨false, 0x70000, 0x54, 0, 1, 0, 32, .ro, 0x0, 120, .stored⟩
/-- COUNTER_CLEAR of Table 16-11. -/
def ksnCounterClear : Fld := ⟨false, 0x70000, 0x58, 0, 1, 0, 1, .wo, 0x0, 0, .stored⟩
/-- RANDOMISE of Table 16-12. -/
def lieRandomise : Fld := ⟨false, 0x80000, 0x0, 0, 1, 0, 1, .rw, 0x0, 252, .stored⟩
/-- QUEUE_DEPTH of Table 16-12. -/
def lieQueueDepth : Fld := ⟨false, 0x80000, 0x4, 0, 1, 0, 4, .ro, 0x0, 120, .lieQueueDepth⟩
/-- OPERATIONS of Table 16-12. -/
def lieOperations : Fld := ⟨false, 0x80000, 0x8, 0, 1, 0, 32, .ro, 0x0, 120, .stored⟩
/-- MISMATCHES of Table 16-12. -/
def lieMismatches : Fld := ⟨false, 0x80000, 0xC, 0, 1, 0, 32, .ro, 0x0, 120, .stored⟩
/-- COUNTER_CLEAR of Table 16-12. -/
def lieCounterClear : Fld := ⟨false, 0x80000, 0x10, 0, 1, 0, 1, .wo, 0x0, 0, .stored⟩
/-- SRC_ADDR_LO of Table 16-12. -/
def lieSrcAddrLo : Fld := ⟨false, 0x80000, 0x100, 32, 8, 0, 32, .rw, 0x0, 120, .stored⟩
/-- SRC_ADDR_HI of Table 16-12. -/
def lieSrcAddrHi : Fld := ⟨false, 0x80000, 0x104, 32, 8, 0, 16, .rw, 0x0, 120, .stored⟩
/-- DST_ADDR_LO of Table 16-12. -/
def lieDstAddrLo : Fld := ⟨false, 0x80000, 0x108, 32, 8, 0, 32, .rw, 0x0, 120, .stored⟩
/-- DST_ADDR_HI of Table 16-12. -/
def lieDstAddrHi : Fld := ⟨false, 0x80000, 0x10C, 32, 8, 0, 16, .rw, 0x0, 120, .stored⟩
/-- GO of Table 16-12. -/
def lieGo : Fld := ⟨false, 0x80000, 0x110, 32, 8, 0, 1, .wo, 0x0, 0, .stored⟩
/-- ABORT of Table 16-12. -/
def lieAbort : Fld := ⟨false, 0x80000, 0x110, 32, 8, 1, 1, .wo, 0x0, 0, .stored⟩
/-- BUSY of Table 16-12. -/
def lieBusy : Fld := ⟨false, 0x80000, 0x114, 32, 8, 0, 1, .ro, 0x0, 120, .lieBusy⟩
/-- RUNNING of Table 16-12. -/
def lieRunning : Fld := ⟨false, 0x80000, 0x114, 32, 8, 1, 1, .ro, 0x0, 120, .lieRunning⟩
/-- STATUS of Table 16-12. -/
def lieStatus : Fld := ⟨false, 0x80000, 0x114, 32, 8, 16, 16, .ro, 0x0, 120, .stored⟩
/-- LAST_RUN_FC of Table 16-12. -/
def lieLastRunFc : Fld := ⟨false, 0x80000, 0x118, 32, 8, 0, 32, .ro, 0x0, 120, .stored⟩
/-- PSTATE of Table 17-8. -/
def pwrPstate : Fld := ⟨false, 0x10000, 0x0, 0, 1, 0, 3, .ro, 0x0, 56, .pwrPstate⟩
/-- DEEPEST_AUTO of Table 17-8. -/
def pwrDeepestAuto : Fld := ⟨false, 0x10000, 0x0, 0, 1, 4, 3, .rw, 0x3, 252, .stored⟩
/-- FC_SETTING of Table 17-8. -/
def pwrFcSetting : Fld := ⟨false, 0x10000, 0x0, 0, 1, 8, 2, .rw, 0x0, 252, .stored⟩
/-- PROCHOT_SETTING of Table 17-8. -/
def pwrProchotSetting : Fld := ⟨false, 0x10000, 0x0, 0, 1, 10, 2, .rw, 0x2, 252, .stored⟩
/-- FC_ACTIVE of Table 17-8. -/
def pwrFcActive : Fld := ⟨false, 0x10000, 0x0, 0, 1, 12, 2, .ro, 0x0, 56, .pwrFcActive⟩
/-- PROCHOT_ACTIVE of Table 17-8. -/
def pwrProchotActive : Fld := ⟨false, 0x10000, 0x0, 0, 1, 14, 1, .ro, 0x0, 56, .pwrProchotActive⟩
/-- THERMAL_THROTTLE of Table 17-8. -/
def pwrThermalThrottle : Fld := ⟨false, 0x10000, 0x0, 0, 1, 15, 1, .ro, 0x0, 56, .pwrThermalThrottle⟩
/-- TOKEN_BUDGET of Table 17-8. -/
def pwrTokenBudget : Fld := ⟨false, 0x10000, 0x4, 0, 1, 0, 18, .rw, 0x31800, 252, .stored⟩
/-- TOKENS_RESERVED of Table 17-8. -/
def pwrTokensReserved : Fld := ⟨false, 0x10000, 0x8, 0, 1, 0, 18, .ro, 0x0, 252, .pwrTokensReserved⟩
/-- WAKE_AT_LO of Table 17-8. -/
def pwrWakeAtLo : Fld := ⟨false, 0x10000, 0xC, 0, 1, 0, 32, .rw, 0x0, 252, .stored⟩
/-- WAKE_AT_HI of Table 17-8. -/
def pwrWakeAtHi : Fld := ⟨false, 0x10000, 0x10, 0, 1, 0, 32, .rw, 0x0, 252, .stored⟩
/-- WAKE_LINK of Table 17-8. -/
def pwrWakeLink : Fld := ⟨false, 0x10000, 0x14, 0, 1, 0, 8, .rw, 0xFF, 252, .stored⟩
/-- STANDBY_REQ of Table 17-8. -/
def pwrStandbyReq : Fld := ⟨false, 0x10000, 0x14, 0, 1, 16, 2, .wo, 0x0, 0, .stored⟩
/-- TEMP_C of Table 17-8. -/
def pwrTempC : Fld := ⟨false, 0x10000, 0x18, 0, 1, 0, 8, .ro, 0x0, 56, .stored⟩
/-- THROTTLE_C of Table 17-8. -/
def pwrThrottleC : Fld := ⟨false, 0x10000, 0x18, 0, 1, 8, 8, .rw, 0x5F, 252, .stored⟩
/-- A1_ENTRIES of Table 17-8. -/
def pwrA1Entries : Fld := ⟨false, 0x10000, 0x1C, 0, 1, 0, 32, .ro, 0x0, 252, .stored⟩
/-- A2_ENTRIES of Table 17-8. -/
def pwrA2Entries : Fld := ⟨false, 0x10000, 0x20, 0, 1, 0, 32, .ro, 0x0, 252, .stored⟩
/-- A3_ENTRIES of Table 17-8. -/
def pwrA3Entries : Fld := ⟨false, 0x10000, 0x24, 0, 1, 0, 32, .ro, 0x0, 252, .stored⟩
/-- A4_ENTRIES of Table 17-8. -/
def pwrA4Entries : Fld := ⟨false, 0x10000, 0x28, 0, 1, 0, 32, .ro, 0x0, 252, .stored⟩
/-- THROTTLE_US of Table 17-8. -/
def pwrThrottleUs : Fld := ⟨false, 0x10000, 0x2C, 0, 1, 0, 32, .ro, 0x0, 252, .stored⟩
/-- COUNTER_CLEAR of Table 17-8. -/
def pwrCounterClear : Fld := ⟨false, 0x10000, 0x30, 0, 1, 0, 1, .wo, 0x0, 0, .stored⟩
/-- WARM_RESET of Table 17-9. -/
def rstWarmReset : Fld := ⟨false, 0x20000, 0x0, 0, 1, 0, 1, .wo, 0x0, 0, .stored⟩
/-- SPAN_RESET of Table 17-9. -/
def rstSpanReset : Fld := ⟨false, 0x20000, 0x4, 0, 1, 0, 16, .wo, 0x0, 0, .stored⟩
/-- PIER_RESET of Table 17-9. -/
def rstPierReset : Fld := ⟨false, 0x20000, 0x8, 0, 1, 0, 8, .wo, 0x0, 0, .stored⟩
/-- PORT_RESET of Table 17-9. -/
def rstPortReset : Fld := ⟨false, 0x20000, 0xC, 0, 1, 0, 8, .wo, 0x0, 0, .stored⟩
/-- LAST_RESET of Table 17-9. -/
def rstLastReset : Fld := ⟨false, 0x20000, 0x10, 0, 1, 0, 3, .ro, 0x0, 120, .rstLastReset⟩
/-- WARM_COUNT of Table 17-9. -/
def rstWarmCount : Fld := ⟨false, 0x20000, 0x14, 0, 1, 0, 16, .ro, 0x0, 252, .stored⟩
/-- SPAN_COUNT of Table 17-9. -/
def rstSpanCount : Fld := ⟨false, 0x20000, 0x14, 0, 1, 16, 16, .ro, 0x0, 252, .stored⟩
/-- PIER_COUNT of Table 17-9. -/
def rstPierCount : Fld := ⟨false, 0x20000, 0x18, 0, 1, 0, 16, .ro, 0x0, 252, .stored⟩
/-- PORT_COUNT of Table 17-9. -/
def rstPortCount : Fld := ⟨false, 0x20000, 0x18, 0, 1, 16, 16, .ro, 0x0, 252, .stored⟩
/-- COUNTER_CLEAR of Table 17-9. -/
def rstCounterClear : Fld := ⟨false, 0x20000, 0x1C, 0, 1, 0, 1, .wo, 0x0, 0, .stored⟩
/-- FAULT_WRITTEN of Table 18-7. -/
def rasFaultWritten : Fld := ⟨false, 0xA0000, 0x0, 0, 1, 0, 32, .ro, 0x0, 124, .stored⟩
/-- FAULT_LATCH of Table 18-7. -/
def rasFaultLatch : Fld := ⟨false, 0xA0000, 0x4, 0, 1, 0, 1, .w1c, 0x0, 124, .stored⟩
/-- DEGRADED of Table 18-7. -/
def rasDegraded : Fld := ⟨false, 0xA0000, 0x4, 0, 1, 1, 1, .ro, 0x0, 255, .rasDegraded⟩
/-- RETIRE_THRESHOLD of Table 18-7. -/
def rasRetireThreshold : Fld := ⟨false, 0xA0000, 0x8, 0, 1, 0, 4, .rw, 0x3, 252, .stored⟩
/-- HANDOFF_TIMEOUT_MS of Table 18-7. -/
def rasHandoffTimeoutMs : Fld := ⟨false, 0xA0000, 0x8, 0, 1, 16, 16, .rw, 0xC8, 252, .stored⟩
/-- WEIGHT_SCRUB_FC of Table 18-7. -/
def rasWeightScrubFc : Fld := ⟨false, 0xA0000, 0xC, 0, 1, 0, 16, .rw, 0x40, 252, .stored⟩
/-- TAKEOVERS of Table 18-7. -/
def rasTakeovers : Fld := ⟨false, 0xA0000, 0x10, 0, 1, 0, 32, .ro, 0x0, 124, .stored⟩
/-- REPLAYED_REQUESTS of Table 18-7. -/
def rasReplayedRequests : Fld := ⟨false, 0xA0000, 0x14, 0, 1, 0, 32, .ro, 0x0, 124, .stored⟩
/-- HANDOFFS_OUT of Table 18-7. -/
def rasHandoffsOut : Fld := ⟨false, 0xA0000, 0x18, 0, 1, 0, 32, .ro, 0x0, 124, .stored⟩
/-- HANDOFFS_IN of Table 18-7. -/
def rasHandoffsIn : Fld := ⟨false, 0xA0000, 0x1C, 0, 1, 0, 32, .ro, 0x0, 124, .stored⟩
/-- LINK_REPLAYSj of Table 18-7. -/
def rasLinkReplays : Fld := ⟨false, 0xA0000, 0x20, 4, 3, 0, 32, .ro, 0x0, 124, .stored⟩
/-- LINK_HOLDS of Table 18-7. -/
def rasLinkHolds : Fld := ⟨false, 0xA0000, 0x2C, 0, 1, 0, 32, .ro, 0x0, 124, .stored⟩
/-- WEIGHT_CORRECTED of Table 18-7. -/
def rasWeightCorrected : Fld := ⟨false, 0xA0000, 0x30, 0, 1, 0, 32, .ro, 0x0, 124, .stored⟩
/-- COUNTER_CLEAR of Table 18-7. -/
def rasCounterClear : Fld := ⟨false, 0xA0000, 0x34, 0, 1, 0, 1, .wo, 0x0, 0, .stored⟩
/-- FAULT_RECORD of Table 18-7. -/
def rasFaultRecord : Fld := ⟨false, 0xA0000, 0x1000, 4, 4096, 0, 32, .ro, 0x0, 124, .rasFaultRecord⟩

/-- The fields of one register table. -/
def devIdFields : List Fld :=
  [idPartId, idArchMinor, idArchMajor, idStepC0, idStepC1, idStepIo, idSerialLo, idSerialHi, idActiveD0, idActiveD1, idSpareD0, idSpareD1] ++
  [idFusedMap, idActiveMap, idSpareMap, idRetiredMap]

/-- The fields of one register table. -/
def devKeyFields : List Fld :=
  [keyKeysetsInstalled, keyKeystoreMib, keyMaterialMib, keyPinMibTotal, keyKeyBytesLo, keyKeyBytesHi, keyPinHits, keyTagRefusals, keyMaterialWaits, keyCounterClear]

/-- The fields of one register table. -/
def pierBnFields : List Fld :=
  [bnCacheBlocks, bnSbState, bnParityErrors, bnParityLastRow, bnParityLastLane, bnCacheHits, bnCacheMisses, bnCacheRefetches, bnHoldFc, bnCounterClear]

/-- The fields of one register table. -/
def pierCkFields : List Fld :=
  [ckK0Outstanding, ckK1Outstanding, ckK2Outstanding, ckK0State, ckK1State, ckK2State, ckRemoteTimeoutUs, ckRetryUs, ckElementsLo, ckElementsHi, ckNarrowAccesses, ckPageWaits] ++
  [ckPageWaitUs, ckIssueHoldFc, ckCounterClear]

/-- The fields of one register table. -/
def pierLaFields : List Fld :=
  [laNttBusy, laMmeBusy, laShapeMode, laFtqDepth, laMvValid, laConstTagLo, laConstTagHi, laTshapeTRows, laTshapeTCols, laTshapeTMv, laMemberPoison, laNttOps] ++
  [laMmeActiveFc, laOcHits, laFtqHoldFc, laResidueErrors, laCounterClear]

/-- The fields of one register table. -/
def pierSpFields : List Fld :=
  [spPassBusy, spFssBusy, spSeedValid, spPasses, spRowsLo, spRowsHi, spPrgBlocksLo, spPrgBlocksHi, spFssEvals, spResidueErrors, spCounterClear]

/-- The fields of one register table. -/
def pierSeqFields : List Fld :=
  [seqState, seqActiveBank, seqSwapArmed, seqCallDepth, seqLoopsActive, seqPtokLevel, seqPc, seqRoutineId, seqInRoutine, seqLcIndex, seqImemBank, seqImemTarget] ++
  [seqImemAddr, seqImemData, seqImemWrite, seqSwapArm, seqIssuedLo, seqIssuedHi, seqWaitFc, seqLateLaunches, seqImemCorrected, seqCounterClear, seqA]

/-- The fields of one register table. -/
def pierSpnFields : List Fld :=
  [spnPierState, spnPlaced, spnTakeoverReady, spnSpan, spnStage, spnImageHandle, spnSpareIndex, spnReplaces, spnHeld, spnFrozen, spnSources, spnSendqRows] ++
  [spnFrozenFc, spnHoldsRaised, spnFlitsSentLo, spnFlitsSentHi, spnFlitsReceivedLo, spnFlitsReceivedHi, spnGrantTokens, spnWindowPeak, spnCounterClear]

/-- The fields of one register table. -/
def devXchFields : List Fld :=
  [xchUdpPort, xchRtoInitUs, xchRtoMaxUs, xchRecvTimeoutMs, xchMaxPayload, xchSessionsBound, xchMsgsSentLo, xchMsgsSentHi, xchMsgsReceivedLo, xchMsgsReceivedHi, xchRetransmits, xchDuplicates] ++
  [xchAuthDrops, xchTimeouts, xchConflicts, xchPoisonNotices, xchCounterClear]

/-- The fields of one register table. -/
def devLlmFields : List Fld :=
  [llmCacheSteps, llmScratchMib, llmUnpinnedMib, llmLlmScrubFc, llmLlmCorrected, llmLlmUncorrected, llmLlmLastError, llmLlmCacheHits, llmLlmCacheMisses, llmLlmCacheRefetches, llmCounterClear]

/-- The fields of one register table. -/
def devMcFields : List Fld :=
  [mcGddrTrained, mcWeightP1, mcWeightP2, mcWeightP3, mcGddrScrubMbps, mcCrcRetries, mcEccCorrected, mcLinkFails, mcReadMib, mcCounterClear]

/-- The fields of one register table. -/
def devPrtFields : List Fld :=
  [prtPortEnable, prtSpeed, prtPfcEnable, prtPfcPrio, prtLinkUp, prtSpeedActive, prtMacLo, prtMacHi, prtIpv4, prtIpv6w0, prtIpv6w1, prtIpv6w2] ++
  [prtIpv6w3, prtVlanId, prtVlanEn, prtFcsErrors, prtDrops, prtRxPackets, prtTxPackets, prtCnpReceived, prtSlotState, prtHomePort, prtStandbyPort, prtHeadWait] ++
  [prtOverrun, prtCompWindow, prtCompOffset, prtConsumedLo, prtConsumedHi, prtCompletedLo, prtCompletedHi, prtWinId, prtWinKind, prtWinResidency, prtWinBaseLo, prtWinBaseHi] ++
  [prtWinLength, prtWinRkey, prtWinBitmap, prtWinCommand, prtWinResult, prtRefused, prtScanPeriodNs, prtBuddyId, prtBuddyNone, prtBuddyState, prtJournalUsedKib, prtSessions] ++
  [prtAcceptedLo, prtAcceptedHi, prtCommittedLo, prtCommittedHi, prtStaleWrites, prtCounterClear, prtWinState, prtWinOwner, prtWinIsRemote, prtEpoch]

/-- The fields of one register table. -/
def devTbFields : List Fld :=
  [tbTbNsLo, tbTbNsHi, tbTbFrac, tbIncr, tbSyncState, tbSelNet, tbValidA, tbValidB, tbNetDisagree, tbPtpPortA, tbPtpPortB, tbPreferB] ++
  [tbPtpDomainA, tbPtpDomainB, tbSyncLossMs, tbDisagreeNs, tbStepLimitNs, tbOffsetA, tbOffsetB, tbSteps, tbSyncLosses, tbCounterClear, tbDeviceId, tbIdValid] ++
  [tbSysimgGen, tbFwVersion, tbOperVersion, tbSysWindow, tbSysOffset, tbSysLength, tbSysCommand, tbSysResult, tbPeerId, tbPeerState, tbPeerVersion, tbFeedImage] ++
  [tbFeedSpan, tbFeedEn]

/-- The fields of one register table. -/
def devKsnFields : List Fld :=
  [ksnKsState, ksnBootBank, ksnBootNext, ksnClaimed, ksnLocked, ksnRngOk, ksnFwSvnRun, ksnOtpFwSvn, ksnRoutineEpoch, ksnAttachLossMs, ksnAttachUdpPort, ksnFwDigest] ++
  [ksnRomDigest, ksnAuthFails, ksnReportsSigned, ksnCounterClear]

/-- The fields of one register table. -/
def devLieFields : List Fld :=
  [lieRandomise, lieQueueDepth, lieOperations, lieMismatches, lieCounterClear, lieSrcAddrLo, lieSrcAddrHi, lieDstAddrLo, lieDstAddrHi, lieGo, lieAbort, lieBusy] ++
  [lieRunning, lieStatus, lieLastRunFc]

/-- The fields of one register table. -/
def devPwrFields : List Fld :=
  [pwrPstate, pwrDeepestAuto, pwrFcSetting, pwrProchotSetting, pwrFcActive, pwrProchotActive, pwrThermalThrottle, pwrTokenBudget, pwrTokensReserved, pwrWakeAtLo, pwrWakeAtHi, pwrWakeLink] ++
  [pwrStandbyReq, pwrTempC, pwrThrottleC, pwrA1Entries, pwrA2Entries, pwrA3Entries, pwrA4Entries, pwrThrottleUs, pwrCounterClear]

/-- The fields of one register table. -/
def devRstFields : List Fld :=
  [rstWarmReset, rstSpanReset, rstPierReset, rstPortReset, rstLastReset, rstWarmCount, rstSpanCount, rstPierCount, rstPortCount, rstCounterClear]

/-- The fields of one register table. -/
def devRasFields : List Fld :=
  [rasFaultWritten, rasFaultLatch, rasDegraded, rasRetireThreshold, rasHandoffTimeoutMs, rasWeightScrubFc, rasTakeovers, rasReplayedRequests, rasHandoffsOut, rasHandoffsIn, rasLinkReplays, rasLinkHolds] ++
  [rasWeightCorrected, rasCounterClear, rasFaultRecord]

/-- Every field outside the pier blocks. -/
def devFields : List Fld :=
  devIdFields ++ devKeyFields ++ devXchFields ++ devLlmFields ++ devMcFields ++ devPrtFields ++ devTbFields ++ devKsnFields ++ devLieFields ++ devPwrFields ++ devRstFields ++ devRasFields

/-- Every field of a pier block. -/
def pierFields : List Fld :=
  pierBnFields ++ pierCkFields ++ pierLaFields ++ pierSpFields ++ pierSeqFields ++ pierSpnFields

/-- Every field. -/
def allFields : List Fld := devFields ++ pierFields

end Sys2Proof.Machine
end

