-- ==== Sys2Proof/Machine/PierState.lean ====
section
/-! DEFINITION. The state of a pier and of a span: sequencer, scoreboard, chucks, bench, lathe, spindle, deck queues,
scheduled effects, holds, batches. Register files and tables with a default are lists of (index, value); an index that
is not listed has the default that its accessor names. -/
namespace Sys2Proof.Machine

/-- The parameters of a key set that arithmetic and headers use (Table 2-1, R39). -/
structure Ring where
  logN : Nat := 0
  q : Nat := 0
  p : Nat := 0
  dnum : Nat := 0
  eEnc : Nat := 0
  eRs : Nat := 0
  eKs : Nat := 0
  primes : List Nat := []
  roots : List Nat := []
  lq : List Nat := []
  deriving DecidableEq, Repr

/-- An active loop level (R254): COUNT, first and last instruction of the body, completed iterations. -/
structure LoopSt where
  level : Nat
  count : Nat
  start : Nat
  last : Nat
  lc : Nat
  deriving DecidableEq, Repr

/-- A frame of the call stack (R271); `callPc` is the CALL's own PC, in the code the frame returns to. -/
structure Frame where
  callPc : Nat
  routine : Option Nat
  loops : List LoopSt
  a : List (Nat × W32)
  dyn : List Nat
  strides : List (Nat × W32)
  deriving DecidableEq, Repr

/-- STATE of Table 10-9, without the frozen value, which the span gives. -/
inductive SeqSt where
  | idle
  | running
  | fault
  deriving DecidableEq, Repr

/-- The sequencer (R246). `due` is the span-relative fc of the next issue; `fetched` says that the instruction for it is
already in the command queue. -/
structure Seq where
  st : SeqSt := .idle
  pc : Nat := 0
  routine : Option Nat := none
  due : Nat := 0
  fetched : Bool := false
  bank : Nat := 0
  armed : Bool := false
  loops : List LoopSt := []
  lc : List (Nat × Nat) := []
  a : List (Nat × W32) := []
  dyn : List Nat := []
  strides : List (Nat × W32) := []
  h : List (Nat × Hdr) := []
  stack : List Frame := []
  params : List (Nat × W32) := []
  deriving DecidableEq, Repr

/-- A scoreboard entry that is not free (R150): first row and row count. -/
inductive Sb where
  | filling (row n : Nat)
  | full (row n : Nat)
  | draining (row n readers : Nat)
  deriving DecidableEq, Repr

/-- A chuck descriptor (Table 7-1). -/
structure Desc where
  dir : Bool := false
  indexed : Bool := false
  accumulate : Bool := false
  cacheable : Bool := false
  headers : Bool := false
  reshard : Bool := false
  farKind : Nat := 0
  elemType : Nat := 1
  dims : Nat := 1
  xform : Nat := 0
  sbEntry : Nat := 0
  prime : Nat := 0
  benchRow : Nat := 0
  farBase : Nat := 0
  start : Nat := 0
  limit : Nat := 0
  xarg : Nat := 0
  cls : Nat := 0
  counts : List Nat := []
  strides : List Int := []
  indexRow : Nat := 0
  headerCount : Nat := 0
  headerRow : Nat := 0
  farHeader : Nat := 0
  sharding : List Byte := []
  deriving DecidableEq, Repr

/-- Where an outstanding transfer stands. -/
inductive XfPhase where
  /-- it waits for its scoreboard entry (Table 6-4) -/
  | entryWait
  /-- a timed transfer before its target T (R265) -/
  | timed (target : Nat)
  | moving
  /-- it waits on a DRAINING or FILLING row (R154) -/
  | rowWait
  /-- it waits on a page that is not resident: first such answer and next retry in time-base ns (R184, R185) -/
  | pageWait (since retryAt : Nat)
  /-- every element has moved; what is left is the completion, in issue order (R181) -/
  | moved
  deriving DecidableEq, Repr

/-- What a transfer moves between a bench and the far side: header slot `i`, element `n` in the order in which the walk visits the
far side, or a row of the bench cache. -/
inductive FarItem where
  | hdr (i : Nat) (h : Hdr)
  | elem (n v : Nat)
  | line (row : Nat) (words : List W36)
  deriving DecidableEq, Repr

/-- A flit of 64 bytes between a chuck and the IO die (R28, R30, R31): its transfer, its direction, the fc from which it waits at the
IO link, the fc at whose start what it carries has arrived (0 while it waits), and what it carries. -/
structure Flit where
  pier : Nat
  chuck : Nat
  xfer : Nat
  inb : Bool
  /-- its number among the flits of its transfer -/
  n : Nat
  offered : Nat
  due : Nat := 0
  items : List FarItem
  deriving DecidableEq, Repr

/-- A line of the bench cache that a transfer fills: line, rows still to be written, the fc at whose start the last is stored (R158). -/
structure Fill where
  line : Nat
  left : Nat
  due : Nat
  deriving DecidableEq, Repr

/-- An outstanding chuck transfer (R163 to R185). -/
structure Xfer where
  id : Nat
  didx : Nat
  d : Desc
  start : Nat
  idx : List Int := []
  /-- index rows still to read, and the fc at whose start the last row read is there (R171) -/
  index : Option (Nat × Nat) := none
  phase : XfPhase := .moving
  /-- elements whose access has been made so far, in the order of the walk (blocks for a weight decode) -/
  cursor : Nat := 0
  /-- bench rows that a weight decode writes -/
  outRows : Nat := 0
  /-- header slots read from the bench, and whether every header has been taken -/
  hdrRead : Nat := 0
  hdrDone : Bool := false
  /-- header parts delivered poisoned (R180) -/
  badParts : List Nat := []
  /-- the device fc at whose start the last bench write is stored, or the last far-side write is acknowledged (R148, R181) -/
  storedAt : Nat := 0
  /-- the device fc of the last bench read (Table 6-4) -/
  readAt : Nat := 0
  /-- the target of a timed transfer (R265), and the 1 µs beat of the transfer (R401) -/
  target : Option Nat := none
  beat : Nat := 0
  /-- the source resolved at issue: base address of key data or key-set tag (R110) -/
  src : Nat := 0
  pinned : Bool := false
  zeroKey : Bool := false
  /-- bits of a bench word that is not yet complete; words written, for a weight decode -/
  carry : Nat := 0
  /-- weight blocks that have arrived and are still to decode (R177) -/
  blocks : List Nat := []
  /-- flits on their way between the chuck and the far side, and flits made so far -/
  coming : Nat := 0
  flits : Nat := 0
  /-- words of the bench access, or of the turn buffer's group, that is not yet complete (R174, R182) -/
  part : List (Nat × W36) := []
  /-- bench writes that wait for slot 3, in stream order (R154, R182) -/
  rows : List (List (Nat × W36)) := []
  /-- what bench reads return: the fc at whose start it is there (R148) -/
  lag : List (Nat × List FarItem) := []
  /-- what waits for the far port, and the bits of its head that earlier flits carry -/
  outq : List FarItem := []
  sentBits : Nat := 0
  /-- elements of a cacheable read that the bench cache has delivered, the 256 bytes read last, the line being filled (R158) -/
  served : Nat := 0
  cacheRow : Option Nat := none
  fill : Option Fill := none
  /-- entries that were FILLING when this outbound transfer's entry became DRAINING, and still are (R154) -/
  after : List Nat := []
  /-- its scoreboard transition has taken place (Table 6-4) -/
  settled : Bool := false
  deriving DecidableEq, Repr

/-- A chuck: outstanding transfers in issue order, and those that wait with a hold for one to complete (R181). -/
structure Chuck where
  xfers : List Xfer := []
  waiting : List Xfer := []
  deriving DecidableEq, Repr

/-- An entry of the finished-tile queue (R211). -/
structure FtqEnt where
  id : Nat
  shape : Shape
  mv : List Nat
  member : Option Nat
  words : List Nat
  taken : Bool
  deriving DecidableEq, Repr

/-- A bench access of one slot (R145). -/
structure Access where
  col : Bool
  row : Nat
  lane : Nat
  deriving DecidableEq, Repr

/-- A spindle word (Table 9-1). -/
structure SpinWord where
  op : Nat
  srcA : Nat
  srcB : Nat
  br : Nat
  tap : Bool
  keep : Bool
  prime : Nat
  fixedPrime : Bool
  ring64 : Bool
  imm : Nat
  deriving DecidableEq, Repr

/-- A spindle pass in flight with everything it latched at issue (R231). -/
structure Pass where
  id : Nat
  words : List SpinWord
  shape : Shape
  mv : List Nat
  /-- the tile X, or none for the words `rowsOf` of the queue entry `ent` -/
  x : Option Nat
  ent : Nat
  rowsOf : List Nat
  y : Option Nat
  o0kind : Nat
  o0tile : Nat
  brow : Nat
  dstage : Nat
  o1 : Option Nat
  brs : List (Nat × List W36)
  key : Block
  ctrHi : Nat
  stream : Nat
  base : Nat
  zero : Bool
  ring64 : Bool
  interval : Nat
  delay : Nat
  issue : Nat
  deriving DecidableEq, Repr

/-- A row in a deck send queue (R296): destination pier and row, lanes, words, flits still to inject. -/
structure SendRow where
  dpier : Nat
  drow : Nat
  lanes : Nat
  words : List W36
  flits : Nat
  travel : Nat
  deriving DecidableEq, Repr

/-- A row on its way to this pier: the span-relative fc in which its last flit arrives (R293). -/
structure InRow where
  id : Nat
  arrives : Nat
  drow : Nat
  lanes : Nat
  words : List W36
  deriving DecidableEq, Repr

/-- A scheduled effect of an instruction already issued. -/
inductive ActOp where
  /-- rows presented to the scoreboard 12 fc before their slot (R152) -/
  | present (ranges : List (Nat × Nat))
  /-- `w` words of an access go to row or column `idx` of a tile -/
  | tldRead (tile idx w : Nat) (tcol : Bool) (acc : Access) (zero : Bool)
  | tldEnd (tile : Nat)
  /-- the shape that an inline operation gives its destination, or the one TLD leaves (R190) -/
  | tileShape (tile : Nat) (shape : Shape)
  | tileLine (tile idx : Nat) (tcol : Bool) (words : List W36)
  | tstRead (tile idx w : Nat) (tcol : Bool) (acc : Access) (zero : Bool)
  /-- words stored by a bench write, in lanes 0 to n − 1 of a row or positions 0 to n − 1 of a column -/
  | benchStore (acc : Access) (words : List W36)
  | mvldRead (mv row : Nat)
  | mvSet (mv : Nat) (vals : List Nat)
  | ftqPresent (ent : Nat)
  | ftqPush (ent : FtqEnt)
  | ftqFree (ent : Nat)
  | tileBlock (tile rows cols : Nat) (words : List Nat)
  | tileAll (tile : Nat) (words : List Nat)
  | inttRead (tile : Nat)
  | inttEnd (op : NttOp) (prime : Nat) (zero : Bool)
  | hldRead (h row : Nat)
  | hSet (h : Nat) (v : Hdr)
  | brRead (br : Nat) (acc : Access)
  | brSet (br : Nat) (words : List W36)
  | seedRead (seed row : Nat)
  | seedSet (seed : Nat) (key : Block)
  | spinRow (pass k : Nat)
  | tileRow (tile row : Nat) (words : List W36)
  | passEnd (pass : Nat)
  /-- FSS evaluation: a row read, and the evaluation with its item rows' first, input row, output row, blocks, members -/
  | fsseRead (row : Nat)
  | fsseRun (o : FsseOp) (off : Nat) (bits words : Nat) (blocks : Nat) (zero : Bool)
  | dsendRead (o : DsendOp) (row drow : Nat)
  /-- an entry of so many flits, due at the given fc, presented to the send queue (R296) -/
  | sendqPresent (enters flits : Nat)
  | sendqEnter (r : SendRow)
  deriving DecidableEq, Repr

/-- A scheduled effect: its span-relative fc, whether it falls at the end of that fc or at its start, and the bench slot
that orders stores of one fc (R149). -/
structure Act where
  due : Nat
  atEnd : Bool
  slot : Nat
  op : ActOp
  /-- the spindle pass that it belongs to: the one that reads the head of a full finished-tile queue goes on in a freeze (R212) -/
  pass : Option Nat := none
  deriving DecidableEq, Repr

/-- A pending LAUNCH of KIND 1 (R265). -/
structure TimedAct where
  id : Nat
  target : Nat
  sendSlot : Nat
  deriving DecidableEq, Repr

/-- An error that a mod-127 shadow finds: the engine (0 MME, 1 NTT, 2 spindle), the tile or stage position, the element or lane (R214,
R243, Table 18-4). -/
structure EngErr where
  engine : Nat
  pos : Nat
  elem : Nat
  deriving DecidableEq, Repr

/-- A pier. -/
structure Pier where
  seq : Seq := {}
  sb : List (Nat × Sb) := []
  chucks : List (Nat × Chuck) := []
  bench : List (Nat × W36) := []
  tiles : List (Nat × W36) := []
  /-- the 4 parity bits that each bench and tile word stores, as their difference from the even parity of the word's four 9-bit groups
  (R141, R160, R192, R215): a write leaves none; physics puts them there (log entry 58) -/
  benchPar : List (Nat × BitVec 4) := []
  tilePar : List (Nat × BitVec 4) := []
  /-- words with a parity mismatch in the other structures of R215 and R243: (structure of Table 18-4: 2 operand cache, 3 modulus
  vector, 4 constant store, 5 spindle register; entry or register; lane) -/
  storePar : List (Nat × Nat × Nat) := []
  /-- rows that an FSS evaluation has read: (row, words) (R238) -/
  fssRows : List (Nat × List W36) := []
  shapes : List (Nat × Shape) := []
  /-- operand-cache entries (entry, tile), least recently used first (R193); a copy always equals its tile -/
  oc : List (Nat × Nat) := []
  /-- valid modulus vectors (R195) -/
  mv : List (Nat × List Nat) := []
  ftq : List FtqEnt := []
  constTag : Nat := 0
  poison : List Nat := []
  br : List (Nat × List W36) := []
  seeds : List (Nat × Block) := []
  acc : List Nat := []
  members : List (Nat × Block × Nat) := []
  passes : List Pass := []
  nttBuf : List (Nat × List Nat) := []
  acts : List Act := []
  sendq : List SendRow := []
  /-- entries presented and not yet made: (span-relative fc, flits) (R296) -/
  announced : List (Nat × Nat) := []
  inbound : List InRow := []
  timed : List TimedAct := []
  /-- instruction banks, descriptor tables, program tables, routine RAM, as bytes (R274) -/
  imem : List Host.Cell := []
  /-- (bank × 1,024 + id, offset of the code in routine RAM) of each loaded routine (R273) -/
  routines : List (Nat × Nat) := []
  cacheBlocks : Nat := 0
  /-- lines of the bench cache: (line address, first cache row), least recently used first (R156) -/
  cache : List (Nat × Nat) := []
  /-- the chuck whose turn slot 3 is (R147), and the far port -/
  turn : Nat := 0
  portTurn : Nat := 0
  /-- bench writes of chucks: (device fc at whose start they are stored, words by key) -/
  stores : List (Nat × List (Nat × W36)) := []
  nttUntil : Nat := 0
  mmeUntil : Nat := 0
  /-- the fc after the last array fc of the MME's operation (R209, R217) -/
  mmeArray : Nat := 0
  passUntil : Nat := 0
  fssUntil : Nat := 0
  /-- errors that the pier's engines make when they next compute; physics puts them there (log entry 58) -/
  errors : List EngErr := []
  /-- device fc of each halting fault within the last hour (R464) -/
  faults : List Nat := []
  nextId : Nat := 0
  deriving DecidableEq, Repr

/-- The sources of Table 11-12, in table order (SOURCES bits 2 to 10). -/
inductive HoldSrc where
  | scoreboard
  | chuckIssue
  | armRel
  | waitc
  | waitt
  | launch
  | ftq
  | sendq
  | link
  deriving DecidableEq, Repr

/-- What ARM or REL does when its hold ends (Table 6-4). -/
inductive HoldThen where
  | nothing
  | arm (entry row n : Nat)
  | rel (entry : Nat)
  | launch (a : TimedAct)
  deriving DecidableEq, Repr

/-- A raised hold source: its pier, what it waits for (entries, chucks, a target, a channel), the device fc it was raised
in, and what its instruction does at its end. -/
structure Hold where
  src : HoldSrc
  pier : Nat
  waits : List Nat
  since : Nat
  after : HoldThen := .nothing
  deriving DecidableEq, Repr

/-- A power-token charge: `rate` tokens in each span-relative fc up to `last`; none while the phase is open (R266). -/
structure Charge where
  pier : Nat
  phase : Bool
  rate : Nat
  last : Option Nat
  deriving DecidableEq, Repr

/-- A member of a batch: the request it serves (R258, R378). -/
structure Member where
  session : Nat
  seq : Nat
  /-- the arrival entry reserved for the request (R328) -/
  arrival : Nat := 0
  /-- member's poison code, when one was set on the span -/
  code : Nat := 0
  /-- the first crossing of NOISE_LIMIT and the first poisoned operand are recorded once (R55, R58) -/
  saw203 : Bool := false
  saw204 : Bool := false
  deriving DecidableEq, Repr

/-- A batch of a span (R258, R280). -/
structure Batch where
  serial : Nat
  /-- first 0 value means not yet fixed -/
  launchTs : Nat
  prepTs : Nat
  keyTag : Nat
  ring : Ring
  members : List Member
  /-- channel, slot and beat of a feed launch (R404) -/
  feed : Option (Nat × Nat × Nat) := none
  feedShift : Nat := 0
  prepared : Bool := false
  /-- the batch table's entries (R378), 64 bytes for each member -/
  table : List Byte := []
  /-- launched before and halted without a BOUNDARY record (R471) -/
  replay : Bool := false
  /-- objects committed to inter-span tensors: (address of the header slot, GENERATION) (R470) -/
  commits : List (Nat × Nat) := []
  /-- poisoned headers that the batch has written outside the benches: (address, (member, SHARD_INDEX, POISON_CODE)) (R59) -/
  outs : List (Nat × Nat × Nat × Nat) := []
  deriving DecidableEq, Repr

/-- A directed edge of a span (Table 11-6). -/
structure Edge where
  src : Nat
  dst : Nat
  budget : Nat
  deriving DecidableEq, Repr

/-- Recovery of a span that halted or was reset (R453, R464 to R469). -/
inductive Recovery where
  | none
  /-- zeroing of the benches until the device fc; the pier to self-test, if any; whether requests replay -/
  | resetting (until_ : Nat) (test : Option Nat) (replay : Bool)
  | testing (pier : Nat) (replay : Bool)
  /-- takeover of a pier by a spare: pier, spare, steps done of Table 18-6 -/
  | takeover (pier spare step : Nat)
  deriving DecidableEq, Repr

/-- How a span ends at the end of an fc: with replay (R464), with every request committed poisoned and the span blocked
(R216, R465), or aborted (R186). Each carries the code; the first two the pier to self-test, if any. -/
inductive Stop where
  | replay (code : Nat) (pier : Option Nat)
  | commit (code : Nat) (pier : Option Nat)
  | abort (code : Nat)
  deriving DecidableEq, Repr

/-- A loaded span (R279, R297). -/
structure Span where
  handle : Nat
  imgSpan : Nat
  piers : List Nat
  edges : List Edge
  grants : List Nat
  configured : Bool
  spares : List (Nat × Nat) := []
  links : List Nat := []
  reserved : List Nat := []
  level : Nat := 0
  nextLevel : Nat := 0
  batch : Option Batch := none
  /-- batches fixed for a later launch, first to launch first -/
  fixed : List Batch := []
  running : Bool := false
  relFc : Nat := 0
  held : List Bool := []
  frozen : Bool := false
  holds : List Hold := []
  charges : List Charge := []
  winFc : Nat := 0
  winSum : Nat := 0
  winIndex : Nat := 0
  /-- SHAPE_MODE and GRANT_TOKENS report the span: from its placement or launch to the next reset that returns them (R11, R217) -/
  shown : Bool := true
  /-- the code with which every request of a blocked span commits (R216) -/
  blocked : Option Nat := none
  recovery : Recovery := .none
  /-- a halt or abort raised in this fc, which takes place at its end -/
  stop : Option Stop := none
  /-- code of the fault whose recovery is under way, for R472 -/
  lastCode : Nat := 0
  /-- requests waiting for this span: (session, seq, time-base ns since) (R114) -/
  waiting : List (Nat × Nat × Nat) := []
  /-- BOUNDARY records: batch serial, members (session, seq), and (header slot, GENERATION) of each object committed to an
  inter-span tensor (R470) -/
  boundaries : List (Nat × List (Nat × Nat) × List (Nat × Nat)) := []
  deriving DecidableEq, Repr

end Sys2Proof.Machine
end

