-- ==== Sys2Proof/Machine/HostState.lean ====
section
/-! DEFINITION. The state outside the piers: images, key sets, sessions, requests, partners, windows, exchange streams,
peers, the time servo, keystone, the long-integer engine, power and pins, and what the device has sent. -/
namespace Sys2Proof.Machine

/-- One internal object in GDDR (R347): its base, the MiB it takes, its bytes, and what holds it. -/
structure GObj where
  id : Nat
  base : Nat
  mib : Nat
  bytes : Nat
  deriving DecidableEq, Repr

/-- A kept key object (Table 4-1): its kind, Galois element, index, its internal object; the header is its first 64 bytes. -/
structure KeyObj where
  kind : Nat
  galois : Nat
  boot : Nat
  obj : Nat
  deriving DecidableEq, Repr

/-- An installed key set (R96 to R105). -/
structure KeySet where
  tag : Nat
  ring : Ring
  params : List Byte
  objs : List KeyObj
  constObj : Nat
  images : List Nat
  /-- ERASE_KEYSET in progress: its mode, and the verb that waits for it -/
  erasing : Option Nat := none
  deriving DecidableEq, Repr

/-- A tensor shard held by this device, relocated (Tables 5-2 and 5-3). -/
structure Shard where
  tensor : Nat
  elemType : Nat
  home : Nat
  shard : Nat
  stage : Nat
  header : Nat
  data : Nat
  bytes : Nat
  extents : List Nat
  level : Nat
  object : Nat
  /-- LIMB_FIRST, LIMB_COUNT, SHARD_KIND, SHARD_INDEX, SHARD_COUNT, COEFF_FIRST, COEFF_COUNT of its headers; ciphertexts only (R134) -/
  sharding : List Nat := []
  deriving DecidableEq, Repr

/-- A key entry of a key plan (Table 4-4). -/
structure KeyEnt where
  stage : Nat
  order : Nat
  kind : Nat
  level : Nat
  boot : Nat
  pin : Bool
  hoistFirst : Bool
  hoistMember : Bool
  galois : Nat
  batch : Nat
  deriving DecidableEq, Repr

/-- A material entry of a key plan, and the class it names (Tables 4-4, 4-6). -/
structure MatEnt where
  kind : Nat
  bits : Nat
  pieces : Nat
  degree : Nat
  prime : Nat
  func : Nat
  perReq : Nat
  deriving DecidableEq, Repr

/-- A slot entry of an HXP plan (Table 12-7). -/
structure HxpSlot where
  slot : Nat
  recv : Bool
  op : Nat
  type : Nat
  peer : Nat
  journal : Bool
  discRoute : Bool
  discExit : Bool
  forward : Bool
  step : Nat
  tensor : Nat
  srcTensor : Nat
  bytes : Nat
  material : Nat
  prime : Nat
  limbs : Nat
  shift : Nat
  point : Nat
  timeoutMs : Nat
  mult : Nat
  deriving DecidableEq, Repr

/-- A conditional point (Table 11-7). -/
structure CondPoint where
  point : Nat
  exit : Bool
  k : Nat
  e : Nat
  boundary : Nat
  oblivious : Nat
  disclosed : Nat
  deriving DecidableEq, Repr

/-- What a stage's program consists of after relocation and patching; Viesk writes it into bank 0 again after resets. -/
structure StageProg where
  span : Nat
  stage : Nat
  instr : List Byte
  desc : List Byte
  prog : List Byte
  ram : List Byte
  routines : List (Nat × Nat)
  cacheBlocks : Nat
  remoteUs : Nat
  retryUs : Nat
  paramMap : List Nat
  /-- (first PC, last PC, compute) of the phase plan -/
  phases : List (Nat × Nat × Bool)
  /-- (PC, field, base, edges with signs) of the travel patches -/
  patches : List (Nat × Nat × Int × List (Nat × Bool))
  /-- (tensor, shard) of the weight shards on the pier: slice offset, bytes, CRC -/
  weights : List (Nat × Nat × Nat × Nat × Nat)
  deriving DecidableEq, Repr

/-- A loaded image. -/
structure Image where
  handle : Nat
  owner : Nat
  /-- key of the partner that loaded the image (R87) -/
  loader : List Byte := []
  digest : List Byte
  /-- the image's bytes, from which a takeover places and patches its spans again (R294) -/
  raw : List Byte := []
  /-- device span index of each image span -/
  spans : List Nat
  /-- bit n: image span n uses configured shape mode (R197) -/
  shapeModes : Nat
  ringShape : List Nat
  batchWaitUs : Nat
  pinMib : Nat
  keys : List KeyEnt
  mats : List MatEnt
  shards : List Shard
  stages : List StageProg
  hxp : List HxpSlot
  points : List CondPoint
  arrivalEntries : Nat
  arrivalBytes : Nat
  arrivalBase : Nat
  tableBase : Nat
  llmBase : Nat
  llmBytes : Nat
  gddrBase : Nat
  gddrPart : Nat
  winMap : List (Nat × Nat)
  /-- (pier, internal object) of each backing copy -/
  backing : List (Nat × Nat)
  /-- key-set tag held by each pin slot, keyed by key-entry index (R111) -/
  pins : List (Nat × Nat) := []
  arrivalUsed : List Nat := []
  replacing : Bool := false
  deriving DecidableEq, Repr

/-- A bundle of correlated material in the material store (R115, R118): first serial, items, bytes of one, its object. -/
structure MatBundle where
  first : Nat
  count : Nat
  itemBytes : Nat
  obj : Nat
  deriving DecidableEq, Repr

/-- A material class of a session: next serial expected, lowest unreserved serial, spent serials (R118 to R120). -/
structure MatClass where
  ent : MatEnt
  bundles : List MatBundle
  nextSerial : Nat
  nextFree : Nat
  spent : List Nat
  deriving DecidableEq, Repr

/-- A session (R100, R227, R382, R383). -/
structure Session where
  id : Nat
  slot : Nat
  keyTag : Nat
  policy : Policy
  mask : Block
  nextSeq : Nat := 0
  closing : Option Nat := none
  classes : List MatClass := []
  epoch : Nat := 0
  deriving DecidableEq, Repr

/-- Where an accepted request stands. -/
inductive ReqSt where
  | accepted
  | running
  /-- its output is complete and waits for the lower SEQs of the session (R376) -/
  | output
  /-- its COMMIT record waits for the buddy -/
  | committing
  | committed
  deriving DecidableEq, Repr

/-- An accepted request (R372 to R377), with the policy captured at acceptance (R92) and its reserved material (R119). -/
structure Request where
  session : Nat
  seq : Nat
  slot : Nat
  ring : Nat
  handle : Nat
  span : Nat
  args : List Nat
  policy : Policy
  /-- (material entry index, first serial, count) -/
  ranges : List (Nat × Nat × Nat)
  arrival : Nat
  st : ReqSt := .accepted
  status : Nat := 0
  noiseOver : Bool := false
  replays : Nat := 0
  device : Nat := 0
  handedOff : Bool := false
  commitTime : Nat := 0
  /-- duplicates that wait for the original (R377): ring index of each -/
  repeats : List Nat := []
  /-- what HXP has disclosed: count of indices, their Ring64 element offset in the LLM region, the exit bit of each point, the latest
  first (R94, R325, R378) -/
  discCount : Nat := 0
  discAt : Nat := 0
  exits : List (Nat × Bool) := []
  /-- conditional points behind the request (R93) -/
  passed : List Nat := []
  deriving DecidableEq, Repr

/-- One descriptor of a group on its way through steps 7 and 8 of Table 14-4. -/
structure GroupEnt where
  slot : Nat
  ring : Nat
  desc : List Byte
  /-- 0 when it passed, else the refusal code -/
  code : Nat
  dup : Bool
  req : Option Request
  mat : Option (Nat × MatEnt × MatBundle)
  deriving DecidableEq, Repr

/-- A queue pair (R359, R366). -/
structure Qp where
  qpn : Nat
  slot : Nat
  standby : Bool
  /-- 0 MGMT, 1 NOTIFY, 2 DATA -/
  kind : Nat
  remoteQpn : Nat
  rxPsn : Nat
  txPsn : Nat
  /-- send rate in 1/65,536 of line rate, and the time-base ns of the last CNP (R358) -/
  rate : Nat := 65536
  cnpAt : Nat := 0
  /-- packets retried for want of an acknowledgement: (psn, retries used, time-base ns of the last one) -/
  unacked : List (Nat × Nat × Nat) := []
  failed : Bool := false
  deriving DecidableEq, Repr

/-- A completion record due or written (Table 14-6). -/
structure Completion where
  ring : Nat
  session : Nat
  seq : Nat
  status : Nat
  kind : Nat
  flags : Nat
  device : Nat
  time : Nat
  deriving DecidableEq, Repr

/-- A partner slot (R359, R360, R368). -/
structure Slot where
  partnerKey : List Byte
  keys : List Byte
  ctrIn : Nat
  ctrOut : Nat := 0
  /-- counter of the export bundles' own sequence (R88, R422) -/
  ctrExport : Nat := 0
  home : Nat
  standby : Nat
  onStandby : Bool := false
  overrun : Bool := false
  consumed : Nat := 0
  completed : Nat := 0
  headWait : Nat := 0
  due : List Completion := []
  credit : List Byte := []
  /-- VERB code and TAG of the verb that runs (R380) -/
  verb : Option (Nat × Nat) := none
  lastMgmt : Nat := 0
  closing : Bool := false
  /-- ring slots that the partner of this attachment has written: no other holds a descriptor (R368, log entry 62) -/
  written : List Nat := []
  deriving DecidableEq, Repr

/-- The four values of WIN_STATE. -/
inductive WinSt where
  | free
  | opened
  | draining
  | retired
  deriving DecidableEq, Repr

/-- An entry of the window table (R361 to R367). -/
structure Window where
  st : WinSt := .free
  owner : Nat := 0
  remote : Bool := false
  base : Nat := 0
  length : Nat := 0
  rkey : Nat := 0
  residency : Bool := false
  bitmap : Nat := 0
  epoch : Nat := 0
  /-- the first rejection of this epoch has been recorded (R363) -/
  noted : Bool := false
  deriving DecidableEq, Repr

/-- A journal record (R373, R376, R323). It leaves the journal once nothing needs it: a refused, duplicate or passing descriptor's
when it is acknowledged, a request's when the request has committed (log entry 26). -/
inductive JRec where
  /-- of a request accepted: the captured policy, the reserved material and the arrival entry too (R92, R119, R328) -/
  | group (slot ring code : Nat) (desc : List Byte) (policy : Option Policy) (ranges : List (Nat × Nat × Nat)) (arrival : Nat)
  | commit (session seq : Nat)
  | opening (session seq step : Nat) (payload : List Byte)
  deriving DecidableEq, Repr

/-- A fragment this device has sent and keeps until it is acknowledged (R320, R321). -/
structure TxFrag where
  id : Nat
  session : Nat
  request : Nat
  step : Nat
  type : Nat
  peer : Nat
  frag : Nat
  count : Nat
  payload : List Byte
  seq : Nat
  rtoUs : Nat
  due : Nat
  first : Nat
  deadline : Nat
  serial : Nat
  deriving DecidableEq, Repr

/-- A fragment stored under its identity (R320). -/
structure RxFrag where
  session : Nat
  request : Nat
  step : Nat
  src : Nat
  frag : Nat
  count : Nat
  payload : List Byte
  serial : Nat := 2 ^ 64 - 1
  /-- the identity holds a POISON_NOTICE -/
  notice : Bool := false
  /-- a fragment of this identity with another payload has come: the receive is poisoned (R320) -/
  conflict : Bool := false
  deriving DecidableEq, Repr

/-- The receive and send counters of one stream (R319, R320, R322): session, peer. -/
structure Stream where
  session : Nat
  peer : Nat
  epoch : Nat
  nextSeq : Nat
  rxEpoch : Nat
  seen : List Nat
  highest : Nat
  deriving DecidableEq, Repr

/-- What a receive slot of a request has got (R321, R328, R329). -/
structure RxDone where
  session : Nat
  request : Nat
  step : Nat
  /-- 0 clean, else the poison code it was delivered with -/
  code : Nat
  /-- the device fc in which the slot's operation has been applied, at 64 elements per fc (R329) -/
  ready : Nat := 0
  deriving DecidableEq, Repr

/-- A running receive timeout (R321): session, request, step, time-base ns. -/
structure RxTimer where
  session : Nat
  request : Nat
  step : Nat
  due : Nat
  deriving DecidableEq, Repr

/-- A device entry of the system image (Table 15-1). -/
structure SysDev where
  id : Nat
  buddy : Option Nat
  serial : Nat
  addrA : List Byte
  addrB : List Byte
  deriving DecidableEq, Repr

/-- A channel entry of the system image (Table 15-1), with its stamps on this device (R400): buffers' address, and
ARRIVED, RELEASED, WRITTEN words by slot, and pieces or reads completed by slot. -/
structure Channel where
  id : Nat
  feed : Bool
  dstGddr : Bool
  preferB : Bool
  src : Nat
  dst : Nat
  k : Nat
  pieces : Nat
  reads : Nat
  lag : Nat
  dstSpan : Nat
  bytes : Nat
  base : Nat := 0
  stampAddr : Nat := 0
  written : List (Nat × Nat) := []
  donePieces : List (Nat × Nat) := []
  epoch : Nat := 0
  /-- ARRIVED stamps that wait for their feed launch: (slot, beat, time-base ns of placement) (R404) -/
  feeds : List (Nat × Nat × Nat) := []
  deriving DecidableEq, Repr

/-- The installed system image (R395 to R397). -/
structure SysImg where
  raw : List Byte
  strapIds : Bool
  devices : List SysDev
  /-- the channels that touch this device -/
  channels : List Channel
  deriving DecidableEq, Repr

/-- A peer (R399, R407): PEER_STATE, version, and which of its two connections are up. -/
structure Peer where
  state : Nat := 0
  version : Nat := 0
  upA : Bool := false
  upB : Bool := false
  /-- time-base ns since which both connections are down -/
  downAt : Nat := 0
  deriving DecidableEq, Repr

/-- The PTP port of one network (R389 to R391). -/
structure PtpNet where
  /-- time-base ns of the last Sync accepted, and the ns between the last two -/
  lastSync : Option Nat := none
  interval : Nat := 0
  offset : Int := 0
  delay : Int := 0
  /-- a two-step Sync that waits for its Follow_Up: sequence id, receive ns, correction -/
  pendingSync : Option (Nat × Nat × Int) := none
  /-- the t1 and t2 of the last Sync, and the send time of a Delay_Req with its sequence id -/
  t1 : Int := 0
  t2 : Int := 0
  delayReq : Option (Nat × Nat) := none
  nextSeq : Nat := 0
  /-- the best Announce: (priority1, class, accuracy, variance, priority2, identity) -/
  master : Option (Nat × Nat × Nat × Nat × Nat × Nat) := none
  deriving DecidableEq, Repr

/-- The servo (R391, R392): sum of past offsets, consecutive small offsets, whether an offset is over STEP_LIMIT_NS, whether
the first valid offset has stepped the time base, whether the networks disagree. -/
structure Servo where
  nets : List (Nat × PtpNet) := []
  sum : Int := 0
  small : Nat := 0
  overLimit : Bool := false
  stepped : Bool := false
  apart : Bool := false
  deriving DecidableEq, Repr

/-- A handshake in progress (R421, R424). -/
structure Handshake where
  id : Nat
  port : Nat
  partnerKey : List Byte
  claim : Bool
  operatorKey : List Byte
  transcript : List Byte
  keys : List Byte
  device : Option Nat
  net : Nat
  /-- number of the draw that gave the ephemeral keys -/
  draw : Nat
  deriving DecidableEq, Repr

/-- A firmware bundle in a flash bank (Table 16-4) as boot reads it. -/
structure Bundle where
  bytes : List Byte
  fwVersion : Nat
  svn : Nat
  minEpoch : Nat
  /-- it passes steps 4 and 5 of Table 16-2 -/
  good : Bool
  deriving DecidableEq, Repr

/-- Keystone's OTP (Table 16-1), flash and boot state. -/
structure Keystone where
  vendorFwHash : List Byte := []
  vendorCaHash : List Byte := []
  operatorHash : List Byte := []
  fwSvn : Nat := 0
  routineEpoch : Nat := 0
  lock : Bool := true
  serial : Nat := 0
  macs : List Nat := []
  steps : List Nat := []
  fused : List Nat := []
  spareInit : List Nat := []
  /-- retirement pairs (retired, replaced by or 255), in order (R20) -/
  retired : List (Nat × Nat) := []
  bankA : Option Bundle := none
  bankB : Option Bundle := none
  cert : List Byte := []
  /-- 0 booting, 1 running, 3 BOOT_FAIL; Degraded is derived (Table 16-11) -/
  boot : Nat := 0
  bootBank : Nat := 0
  /-- the bank that the last UPDATE_FW wrote, which later boots try first (R413) -/
  bootFirst : Option Nat := none
  run : Option Bundle := none
  fwDigest : List Byte := []
  romDigest : List Byte := []
  rngOk : Bool := false
  handshakes : List Handshake := []
  saved : Option Bundle := none
  burnDue : Bool := false
  deriving DecidableEq, Repr

/-- An operation in the LIE queue (R429); a slot's, or keystone's own. -/
structure LieOp where
  slot : Nat
  src : Nat
  dst : Nat
  deriving DecidableEq, Repr

/-- The long-integer engine (R426 to R433). -/
structure Lie where
  queue : List LieOp := []
  /-- the operation that runs: its slot, its result slots, the code it will end with, its T, the device fc of its end -/
  running : Option (LieOp × List Byte × Nat × Nat × Nat) := none
  /-- device fc until which the operand RAM is being zeroed -/
  zeroUntil : Nat := 0
  deriving DecidableEq, Repr

/-- Power states (Table 17-2). -/
inductive PState where
  | a0
  | a1
  | a2
  | a3
  | a4
  deriving DecidableEq, Repr

/-- Where a change of power state stands (R441, R444). -/
inductive PMove where
  | steady
  | entering (next : PState) (done : Nat)
  /-- a resume that will begin at a time-base ns, for the event E -/
  | scheduled (at_ : Nat)
  | resuming (done : Nat)
  deriving DecidableEq, Repr

/-- Power, clocks, thermal and reset state (17_power_reset). -/
structure Power where
  state : PState := .a0
  move : PMove := .steady
  prochot : Bool := false
  throttle : Bool := false
  /-- THERMAL_TRIP or SUPPLY_FAULT in force (R439) -/
  trip : Bool := false
  /-- the device is in A4 without GDDR, or enters it -/
  gddrOff : Bool := false
  /-- STANDBY_REQ 1 or 2 that waits for the last commit (R447) -/
  standbyReq : Nat := 0
  /-- WAKE_AT as WAKE_AT_HI last put it in force; 0 for none (R457) -/
  wakeAt : Nat := 0
  lastReset : Nat := 0
  fcActive : Nat := 0
  bootsel : Nat := 0
  nodeId : Nat := 0
  netSplit : Bool := false
  g7rate : Nat := 0
  wakePending : Bool := false
  /-- time-base ns since which TEMP_C has stayed more than 5 °C below THROTTLE_C (R438) -/
  coolAt : Option Nat := none
  /-- ns of the µs that THROTTLE_US counts next -/
  throttleNs : Nat := 0
  /-- THROTTLE records due from onsets in A3 and A4, where the LLM takes no write -/
  lateRecords : Nat := 0
  deriving DecidableEq, Repr

/-- The pins and the JTAG TAP (19_pins_package). -/
structure Pins where
  pwrGood : Bool := false
  resetN : Bool := false
  /-- POR checks failed; the island repeats them (R491): tries left -/
  porTries : Nat := 0
  /-- no check passed within 100 ms: no POR until PWR_GOOD falls and rises again (R491) -/
  porDead : Bool := false
  /-- 0 BYPASS, 1 IDCODE, 2 SAMPLE/PRELOAD, 3 EXTEST -/
  tapIr : Nat := 1
  /-- the boundary register: what SAMPLE/PRELOAD shifted in last -/
  boundary : List Bool := []
  extest : Bool := false
  deriving DecidableEq, Repr

/-- A repair of a store (R466): what it is, where, and the code of requests that wait. -/
structure Repair where
  id : Nat
  /-- Table 18-4's store number -/
  store : Nat
  addr : Nat
  pier : Nat
  deriving DecidableEq, Repr

/-- A verb that waits for an event before it ends (R284 step 4, R105, R383, R452). -/
structure WaitVerb where
  slot : Nat
  tag : Nat
  /-- 1 a LOAD_IMAGE that waits for the replaced image's requests; 3 ERASE_KEYSET; 6 SET_POLICY with CLOSE;
  7 EXPORT_WEIGHTS; 9 a WRITE_REG with WINDOW close and drain -/
  verb : Nat
  key : Nat
  load : Option LoadOp := none
  /-- the image's bytes as steps 1 to 3 read them; for a WRITE_REG what a remote window answers its SYS_COMMAND -/
  raw : List Byte := []
  /-- pairs of a WRITE_REG that come after the one that waits (R381) -/
  pairs : List (Nat × Nat) := []
  /-- the policy that a SET_POLICY waits to put in force, with its key-set tag, response detail and MASK key (R227, R383) -/
  bind : Option (Policy × Nat × List Byte × Block) := none
  /-- windows of an EXPORT_WEIGHTS that are not full yet: id, next offset, epoch at its start (R88, R89) -/
  places : List (Nat × Nat × Nat) := []
  deriving DecidableEq, Repr

/-- What the device sends out, in order. -/
inductive Out where
  /-- a verb response (R379): slot, counter-protected tag, STATUS, detail -/
  | verb (slot tag status : Nat) (detail : List Byte)
  | credit (slot : Nat) (msg : List Byte)
  | hxp (session request step type peer seq frag count epoch serial : Nat) (payload : List Byte)
  | hxpAck (session peer base bitmap : Nat)
  | mirror (buddy : Nat) (recs : List JRec)
  /-- a journaled opening to the buddy, which holds it with the request's record (R475) -/
  | mirrorOpening (buddy session seq step : Nat) (payload : List Byte)
  | mirrorAck (device n : Nat)
  | mirrorRefuse (device session seq : Nat)
  | commitRec (session seq : Nat)
  | sessionState (session keyTag : Nat) (policy : Policy) (mask : Block)
  | handoff (session seq : Nat)
  | remoteWrite (window offset : Nat) (bytes : List Byte)
  /-- element `o`, of an element type, of the data that begins at byte `base` of a remote window takes a value (R41, R124) -/
  | remoteElem (window base elemType o value : Nat)
  | rdmaAck (qpn psn : Nat)
  | rdmaNak (qpn psn : Nat)
  | rdmaData (qpn psn : Nat) (bytes : List Byte)
  | roce (qpn psn : Nat)
  | arpReply (port : Nat) (target mac : List Byte)
  | ndReply (port : Nat) (target mac : List Byte)
  | echoReply (port : Nat) (dst payload : List Byte)
  | handshake (port type : Nat) (bytes : List Byte)
  | delayReq (net seqId : Nat)
  | stamp (channel slot beat : Nat) (arrived : Bool)
  | stripe (device : Nat) (bytes : List Byte)
  | tdo (bits : List Bool)
  | pfc (port : Nat)
  deriving DecidableEq, Repr

end Sys2Proof.Machine
end

