-- ==== Sys2Proof/Machine/State.lean ====
section
/-! DEFINITION. The machine's state as plain data, its faults and refusals, and the state right after reset. -/
namespace Sys2Proof.Machine

/-- Why a step stops with a fault. -/
inductive Fault where
  /-- raised by a command that names a pier, span, slot, port, network, GDDR device or link that the part does not have
  (192 piers, 16 spans, 8 slots, 8 ports, 2 networks, 16 GDDR devices, 3 links): no such command exists. Safe: the model
  stops where the hardware cannot be asked. -/
  | noSuchUnit (index : Nat)
  deriving DecidableEq, Repr

/-- Why a step refuses a command. -/
inductive Refusal where
  /-- raised by an arm of exec whose command has no meaning yet. Safe: nothing follows from it. -/
  | notModelled (mnemonic : String)
  deriving DecidableEq, Repr

/-- Clocks: the device's fc count, the phase of the fast clock against the 1.0 GHz time-base clock, TB_NS, the fraction
in units of 2^−24 ns (TB_FRAC is its upper 16 bits), and the read latches of R387. -/
structure Clk where
  fc : Nat := 0
  phase : Nat := 0
  ns : Nat := 0
  frac : Nat := 0
  latchHi : Nat := 0
  latchFrac : Nat := 0
  deriving DecidableEq, Repr

/-- Cursors of the scrubbers (R342, R353, R460). -/
structure Scrub where
  llm : Nat := 0
  gddr : Nat := 0
  weight : Nat := 0
  imem : Nat := 0
  deriving DecidableEq, Repr

/-- The machine. -/
structure State where
  /-- commands that wait, first in first out -/
  pending : List Instr := []
  /-- the model's own counter of free values drawn (log entry 11) -/
  free : Nat := 1024
  /-- number of the first of the 1,024 draws that gave the windows their starting epochs (R366) -/
  epochDraw : Nat := 0
  clk : Clk := {}
  /-- management registers whose stored value differs from nothing: (address × 32 + lowest bit, value); a field that is
  not listed holds its Reset value -/
  regs : List (Nat × Nat) := []
  /-- weight slices, LLM and GDDR, by device address, in canonical form -/
  mem : List Host.Cell := []
  piers : List (Nat × Pier) := []
  spans : List (Nat × Span) := []
  images : List (Nat × Image) := []
  keysets : List KeySet := []
  sessions : List (Nat × Session) := []
  requests : List Request := []
  slots : List (Nat × Slot) := []
  windows : List (Nat × Window) := []
  qps : List Qp := []
  journal : List JRec := []
  /-- descriptors of the group that waits for the buddy's acknowledgement -/
  group : List GroupEnt := []
  /-- records that this device holds as another device's buddy -/
  mirrored : List MirrorRec := []
  objs : List GObj := []
  tx : List TxFrag := []
  rx : List RxFrag := []
  streams : List Stream := []
  rxDone : List RxDone := []
  rxTimers : List RxTimer := []
  /-- send steps that have fired: (session, request, step) (R321, R329) -/
  sent : List (Nat × Nat × Nat) := []
  sys : Option SysImg := none
  peers : List (Nat × Peer) := []
  servo : Servo := {}
  ks : Keystone := {}
  lie : Lie := {}
  pwr : Power := {}
  pins : Pins := {}
  repairs : List Repair := []
  waits : List WaitVerb := []
  /-- blocks of the LLM's unpinned cache, least recently used first (R338) -/
  llmCache : List Nat := []
  /-- addresses of 8-byte words of the weight tiers that hold a double-bit error (R80); physics puts them there (log entry 58) -/
  badTier : List Nat := []
  /-- lines of the LLM in which two bits of a word have failed; physics puts them there (R341, log entry 58) -/
  badLlm : List Nat := []
  /-- GDDR devices that failed training (R348) -/
  badTraining : List Nat := []
  /-- the device has entered Degraded and recorded it (R473) -/
  degraded : Bool := false
  /-- the device is cut off from its buddy and has stopped (R476) -/
  cutOff : Bool := false
  /-- Spare piers whose self-test runs (R23) -/
  spareTests : List Nat := []
  /-- a re-placement under R469 has failed -/
  placementFailed : Bool := false
  /-- commands carried by frames that ports hold in A3 (R446): port, bytes, command -/
  wakeBuf : List (Nat × Nat × Instr) := []
  /-- ports paused by PFC (R357) -/
  paused : List Nat := []
  /-- ports whose wake buffer is more than half full with PFC on (R446) -/
  pausing : List Nat := []
  scrub : Scrub := {}
  /-- bytes read from each GDDR device that do not fill a MiB yet -/
  gddrRead : List (Nat × Nat) := []
  /-- flits between chucks and the IO die (R30, R31), and by IO link (2 × die, odd inbound) the row whose turn it is -/
  links : List Flit := []
  linkTurn : List (Nat × Nat) := []
  /-- die-to-die flits under replay: link, channel, replays, spans held (R32) -/
  flits : List (Nat × Nat × Nat × List Nat) := []
  /-- SESSIONS_BOUND reads its Reset value: a WARM reset has come and no policy has been set since (R11) -/
  boundHidden : Bool := false
  /-- everything sent, oldest first -/
  out : List Out := []
  /-- batch serials given out -/
  nextSerial : Nat := 0
  /-- identifiers given to internal objects, handshakes, fragments and repairs -/
  nextId : Nat := 1
  deriving DecidableEq, Repr

/-- The firmware bundle that the model's unit carries in flash bank A (log entry 4). -/
def resetBundle : Bundle := { bytes := [], fwVersion := 1, svn := 1, minEpoch := 0, good := true }

/-- The OTP, flash and boot state of the model's unit at reset (log entry 4): no pier fused, the pier of row 11 in every
column held as spare, which meets Table 1-2 and R19. DESIGN CHOICE, unsafe: its step list is empty, so STEP_C0, STEP_C1 and STEP_IO,
which Table 1-3 takes from OTP, all read 0. -/
def resetKeystone : Keystone :=
  { spareInit := [11, 23, 35, 47, 59, 71, 83, 95, 107, 119, 131, 143, 155, 167, 179, 191]
    bankA := some resetBundle }

/-- The machine right after reset: every register at its Reset value, every store as Table 17-7 leaves it at POR, keystone
booting, power and RESET_N high. -/
def State.reset : State :=
  { ks := resetKeystone, pins := { pwrGood := true, resetN := true } }

end Sys2Proof.Machine
end

