-- ==== Sys2Proof/Machine/Ops.lean ====
section
/-! DEFINITION. Operations that every meaning shares: management registers, fault records, memory, piers and spans. -/
namespace Sys2Proof.Machine

/-! ### Management registers in the register store -/

/-- Where instance `i` of field `f` (of pier `p`, for a pier field) is kept: address × 32 + lowest bit (R9, R10). -/
def Fld.key (f : Fld) (p i : Nat) : Nat :=
  (f.base + (if f.pier then 0x01000000 + p * 0x10000 else 0) + f.off + f.stride * i) * 32 + f.lo

/-- Whether store key `k` belongs to field `f`. -/
def Fld.owns (f : Fld) (k : Nat) : Bool :=
  let a := k / 32
  let a' := if f.pier then (if a < 0x01000000 then 0 else (a - 0x01000000) % 0x10000) else a
  let b := f.base + f.off
  decide (k % 32 = f.lo) && (!f.pier || decide (0x01000000 ≤ a)) && decide (b ≤ a') &&
    (if f.stride = 0 then decide (a' = b) else decide ((a' - b) % f.stride = 0) && decide ((a' - b) / f.stride < f.count))

/-- The value of a field that lives in the store: its Reset value while nothing has written it (R10). -/
def State.reg (s : State) (f : Fld) (p i : Nat) : Nat := tget f.reset s.regs (f.key p i)

/-- A field written, its value modulo its width. -/
def State.setReg (s : State) (f : Fld) (p i v : Nat) : State :=
  { s with regs := tput s.regs (f.key p i) (v % 2 ^ f.w) }

/-- The value of a device-wide field. -/
def State.dreg (s : State) (f : Fld) : Nat := s.reg f 0 0

/-- A device-wide field written. -/
def State.setDreg (s : State) (f : Fld) (v : Nat) : State := s.setReg f 0 0 v

/-- A counter increased by `n`, saturating at its width (R162, R477 and the other register chapters). -/
def State.bump (s : State) (f : Fld) (p i n : Nat) : State := s.setReg f p i (satAdd f.w (s.reg f p i) n)

/-- A 64-bit counter held in two fields, increased by `n`, saturating. -/
def State.bump2 (s : State) (lo hi : Fld) (p i n : Nat) : State :=
  let v := satAdd 64 (s.reg lo p i + 2 ^ 32 * s.reg hi p i) n
  (s.setReg lo p i (v % 2 ^ 32)).setReg hi p i (v / 2 ^ 32)

/-- The listed device fields returned to their Reset values. -/
def State.clearRegs (s : State) (fs : List Fld) : State :=
  { s with regs := s.regs.filter fun e => !(fs.any fun f => f.owns e.1) }

/-- Every stored field of pier `p`'s block returned to its Reset value (R162). -/
def State.clearPierRegs (s : State) (p : Nat) : State :=
  { s with regs := s.regs.filter fun e => e.1 / 32 / 0x10000 != 0x100 + p }

/-! ### Memory beyond the benches -/

/-- Base of the LLM scratchpad (R334). -/
def llmBase : Nat := 0x0800000000
/-- Bytes of the scratchpad. -/
def State.scratch (s : State) : Nat := (384 - 32 * s.dreg llmCacheSteps) * 2 ^ 20

/-- Slice base of pier `i` (R15). -/
def sliceBase (i : Nat) : Nat := 0x0400000000 + i * 0x2000000
/-- Device address of byte `x` of pier `p`'s bench (R142). -/
def benchAddr (p x : Nat) : Nat := 0x0100000000 + p * 0x800000 + x
/-- Base of the span of GDDR device `k` (R345). -/
def gddrBase (k : Nat) : Nat := 0x1000000000 + k * 0x100000000
/-- First address of the remote windows (R361). -/
def windowBase : Nat := 0x800000000000

/-- The window table's entry `w`; an id that no close has reached has its starting epoch (R361, R366). -/
def State.win (s : State) (w : Nat) : Window :=
  tget { epoch := 1 + Config.draw (s.epochDraw + w) % 0x7FFF } s.windows w

/-- `n` bytes from device address `a`. -/
def State.rd (s : State) (a n : Nat) : List Byte := mgets s.mem a n

/-- Bytes written from device address `a` on. -/
def State.wr (s : State) (a : Nat) (bs : List Byte) : State := { s with mem := mputs s.mem a bs }

/-- Cells in [lo, hi) made zero. -/
def State.zeroMem (s : State) (lo hi : Nat) : State := { s with mem := mzero s.mem lo hi }

/-! ### Time, identifiers, messages -/

/-- TB_NS (R384). -/
def State.now (s : State) : Nat := s.clk.ns

/-- The time base read with what a free draw answers, and the counter of draws advanced (log entry 11). -/
def State.draw (s : State) : Nat × State := (Config.draw s.free, { s with free := s.free + 1 })

/-- FW_VERSION: of the firmware that runs, or of the bundle in bank A before boot (R406). -/
def State.fwVersion (s : State) : Nat := ((s.ks.run.or s.ks.bankA).map (·.fwVersion)).getD 0

/-- OPER_VERSION: that of the installed system image, and FW_VERSION while none has set it (R406). -/
def State.oper (s : State) : Nat :=
  let v := s.dreg tbOperVersion
  if v = 0 then s.fwVersion else v

/-- FORMAT_VERSION as the device writes it: the current interchange version in bits [15:8] (R48). -/
def verBytes (s : State) : List Byte := leBytes 2 (256 * s.oper)

/-- A fresh identifier. -/
def State.fresh (s : State) : Nat × State := (s.nextId, { s with nextId := s.nextId + 1 })

/-- A message sent. -/
def State.send (s : State) (m : Out) : State := { s with out := s.out ++ [m] }

/-- A command put at the end of the queue. -/
def State.enqueue (s : State) (c : Instr) : State := { s with pending := s.pending ++ [c] }

/-! ### Fault records (R461) -/

/-- The fields of a fault record that its raiser gives (Table 18-2). -/
structure Rec where
  code : Nat
  action : Nat := 0
  unit : Nat := 0
  pier : Nat := 0xFF
  span : Nat := 0xFF
  session : Nat := 0xFFFFFFFFFFFFFFFF
  request : Nat := 0xFFFFFFFFFFFFFFFF
  detail : List Byte := []
  deriving DecidableEq, Repr

/-- The 64 bytes of record `n` (Table 18-2). -/
def recBytes (n time device : Nat) (r : Rec) : List Byte :=
  let body := leBytes 4 n ++ leBytes 2 r.code ++ leBytes 1 r.action ++ leBytes 1 r.unit ++ leBytes 8 time ++
    leBytes 2 (device % 4096) ++ leBytes 1 r.pier ++ leBytes 1 r.span ++ leBytes 8 r.session ++ leBytes 8 r.request ++
    fitBytes 24 r.detail
  body ++ leBytes 4 (crc32 body)

/-- One fault record: ring entry, FAULT_WRITTEN, and FAULT_LATCH for ACTION 4 or higher, in one step (R461, R463). -/
def raise (r : Rec) (s : State) : State :=
  let n := s.dreg rasFaultWritten
  let s1 := s.wr (llmBase + 64 * (n % 256)) (recBytes n s.now (s.dreg tbDeviceId) r)
  let s2 := s1.setDreg rasFaultWritten (n + 1)
  if 4 ≤ r.action then s2.setDreg rasFaultLatch 1 else s2

/-- Resume time of the current power state in ns (Table 17-2). -/
def resumeNs (p : PState) (gddrOff : Bool) : Nat :=
  match p with
  | .a0 => 0
  | .a1 => 200
  | .a2 => 20000
  | .a3 => 2000000
  | .a4 => if gddrOff then 400000000 else 60000000

/-! ### Piers and spans -/

/-- The pier with linear index `p`. -/
def State.pier (s : State) (p : Nat) : Pier := tget {} s.piers p

/-- The pier changed. -/
def State.setPier (s : State) (p : Nat) (x : Pier) : State := { s with piers := tput s.piers p x }

/-- The pier changed by a function. -/
def State.modPier (s : State) (p : Nat) (f : Pier → Pier) : State := s.setPier p (f (s.pier p))

/-- The sequencer of a pier changed by a function. -/
def State.modSeq (s : State) (p : Nat) (f : Seq → Seq) : State := s.modPier p fun x => { x with seq := f x.seq }

/-- A span that no image holds. -/
def noSpan : Span := { handle := 0, imgSpan := 0, piers := [], edges := [], grants := [], configured := false }

/-- The span with device index `k`. -/
def State.span (s : State) (k : Nat) : Span := tget noSpan s.spans k

/-- The span changed. -/
def State.setSpan (s : State) (k : Nat) (x : Span) : State := { s with spans := tput s.spans k x }

/-- The span changed by a function, when it is loaded. -/
def State.modSpan (s : State) (k : Nat) (f : Span → Span) : State :=
  if (tfind s.spans k).isSome then s.setSpan k (f (s.span k)) else s

/-- The span and the stage that pier `p` hosts. -/
def State.spanOf (s : State) (p : Nat) : Option (Nat × Nat) :=
  s.spans.findSome? fun e => if p ∈ e.2.piers then some (e.1, e.2.piers.idxOf p) else none

/-- The pier of a stage. -/
def Span.pierOf (sp : Span) (stage : Nat) : Option Nat := sp.piers[stage]?

/-- The prime with index `x`; 0 past the last (R37). -/
def Ring.prime (r : Ring) (x : Nat) : Nat := r.primes.getD x 0

/-- Q_COUNT + P_COUNT. -/
def Ring.count (r : Ring) : Nat := r.q + r.p

/-! ### The pier maps (R18, R20) -/

/-- The retired piers. -/
def Keystone.retiredPiers (k : Keystone) : List Nat := k.retired.map (·.1)

/-- The spares that have taken over. -/
def Keystone.takenSpares (k : Keystone) : List Nat := (k.retired.map (·.2)).filter (· < 192)

/-- PIER_STATE: 0 Fused, 1 Active, 2 Spare, 3 Retired (Table 11-14, R18 to R20). -/
def State.pierState (s : State) (p : Nat) : Nat :=
  if p ∈ s.ks.fused then 0
  else if p ∈ s.ks.retiredPiers then 3
  else if p ∈ s.ks.spareInit ∧ p ∉ s.ks.takenSpares then 2
  else 1

/-- Piers 0 to 191 in the given state. -/
def State.piersIn (s : State) (st : Nat) : List Nat := (List.range 192).filter fun p => s.pierState p = st

/-- Boot step 8: keystone self-tests every Spare pier (R23). -/
def startSpareTests (s : State) : State := { s with spareTests := s.piersIn 2 }

/-- Travel time in fc between two piers (Table 1-5). -/
def travel (a b : Nat) : Nat :=
  let d := a / 96; let c := a / 12 % 8; let r := a % 12
  let d' := b / 96; let c' := b / 12 % 8; let r' := b % 12
  let cols := if c ≤ c' then c' - c else c - c'
  let rows := if r ≤ r' then r' - r else r - r'
  if d = d' then cols + rows
  else if d < d' then (11 - r) + 10 + cols + r'
  else r + 10 + cols + (11 - r')

/-- Travel time in fc from pier `p` to the IO die's end of its IO link: the columns to the column-7 edge of its row, and the crossing;
the same from the IO die (R14, R28, R30). -/
def trunkHops (p : Nat) : Nat := 7 - p / 12 % 8
def ioCrossing : Nat := 14
def ioTravel (p : Nat) : Nat := trunkHops p + ioCrossing

/-- Whether the device is Degraded (R473): fewer than 88 Active piers on a die, a failed re-placement, a GDDR device that
failed training. -/
def State.isDegraded (s : State) : Bool :=
  decide (((s.piersIn 1).filter (· < 96)).length < 88) || decide (((s.piersIn 1).filter (96 ≤ ·)).length < 88) ||
    s.placementFailed || !s.badTraining.isEmpty

/-- A partner slot changed. -/
def State.modSlot (s : State) (p : Nat) (f : Slot → Slot) : State :=
  { s with slots := s.slots.map fun e => if e.1 = p then (e.1, f e.2) else e }

/-! ### Slots of an exchange plan (R326, R329) -/

/-- Bytes of the object header that a message of a type carries: 64 of a ciphertext, 32 of a share (Table 12-6). -/
def hdrLen (type : Nat) : Nat := if type = 1 ∨ type = 5 then 64 else 32

/-- Data bytes of one member in a slot's tensor. -/
def HxpSlot.dataBytes (h : HxpSlot) : Nat := h.bytes - hdrLen h.type

/-- Bytes that a receive slot's operation stores for one member (R329). -/
def HxpSlot.outBytes (h : HxpSlot) : Nat := if h.op = 3 then h.limbs * (h.dataBytes / 8) * 9 / 2 else h.dataBytes

/-- Elements of what it stores: Ring64 ones, or two Residue36 ones in 9 bytes. -/
def HxpSlot.outElems (h : HxpSlot) : Nat := if h.op = 3 ∨ hdrLen h.type = 64 then h.outBytes * 2 / 9 else h.outBytes / 8

end Sys2Proof.Machine
end

