-- ==== Sys2Proof/Machine/Flags.lean ====
section
/-! DEFINITION. Headers of ciphertexts, shares and keys: fields, validity, poison, and the header arithmetic of Tables 2-7
to 2-9 that the header checks compute (02_encrypted_objects). -/
namespace Sys2Proof
open Sys2Proof.Machine

/-! ### Fields -/

/-- Field of `n` bytes at byte offset `o` of a header (R5, R46). -/
def Hdr.get (h : Hdr) (o n : Nat) : Nat := fld h.toNat (8 * o) (8 * n)

/-- The header with the field replaced. -/
def Hdr.put (h : Hdr) (o n v : Nat) : Hdr := BitVec.ofNat 512 (setFld h.toNat (8 * o) (8 * n) v)

/-- MAGIC of a ciphertext header (Table 2-3), a share header (Table 2-10), a key header (Table 4-2). -/
def ctMagic : Nat := 0x48544331
def shMagic : Nat := 0x48545331
def keyMagic : Nat := 0x48544B31

/-- Whether the header is a share header, by its MAGIC (R180). -/
def Hdr.isShare (h : Hdr) : Bool := h.get 0 4 = shMagic

/-- Interchange version (R48). -/
def Hdr.version (h : Hdr) : Nat := h.get 5 1
def Hdr.flags (h : Hdr) : Nat := h.get 6 2
def Hdr.tag (h : Hdr) : Nat := h.get 8 8
def Hdr.level (h : Hdr) : Nat := fld (h.get 0x10 1) 0 7
def Hdr.logN (h : Hdr) : Nat := h.get 0x11 1
def Hdr.scale (h : Hdr) : Nat := h.get 0x12 2
def Hdr.slots (h : Hdr) : Nat := h.get 0x14 4
def Hdr.noise (h : Hdr) : Nat := h.get 0x18 2
def Hdr.gen (h : Hdr) : Nat := h.get 0x20 8
def Hdr.limbFirst (h : Hdr) : Nat := h.get 0x28 1
def Hdr.limbCount (h : Hdr) : Nat := h.get 0x29 1
def Hdr.compMask (h : Hdr) : Nat := fld (h.get 0x2A 1) 0 3
def Hdr.shardKind (h : Hdr) : Nat := h.get 0x2B 1
def Hdr.shardIndex (h : Hdr) : Nat := h.get 0x2C 2
def Hdr.shardCount (h : Hdr) : Nat := h.get 0x2E 2
def Hdr.coeffFirst (h : Hdr) : Nat := h.get 0x30 4
def Hdr.coeffCount (h : Hdr) : Nat := h.get 0x34 4
def Hdr.auto (h : Hdr) : Nat := h.get 0x38 4
def Hdr.triple (h : Hdr) : Bool := bit h.flags 2
def Hdr.eval (h : Hdr) : Bool := bit h.flags 1
def Hdr.extended (h : Hdr) : Bool := bit h.flags 3
def Hdr.noiseOver (h : Hdr) : Bool := bit h.flags 4
/-- PENDING (Table 2-6). -/
def Hdr.isPending (h : Hdr) : Bool := bit h.auto 31
/-- STEP and CONJ of AUTOMORPHISM or of a key's GALOIS field (Tables 2-6, 4-2). -/
def galoisBits (x : Nat) : Nat := fld x 0 18

/-- Share header fields (Table 2-10). -/
def Hdr.party (h : Hdr) : Nat := h.get 6 1
def Hdr.modulus (h : Hdr) : Nat := h.get 7 1
def Hdr.session (h : Hdr) : Nat := h.get 8 8
def Hdr.epoch (h : Hdr) : Nat := h.get 0x10 4
def Hdr.primeIndex (h : Hdr) : Nat := h.get 0x14 1
def Hdr.count (h : Hdr) : Nat := h.get 0x18 4

/-- Whether POISON is set: FLAGS bit 0 of either form. -/
def Hdr.poisoned (h : Hdr) : Bool := if h.isShare then bit (h.get 0x15 1) 0 else bit h.flags 0

/-- POISON_CODE of either form. -/
def Hdr.code (h : Hdr) : Nat := if h.isShare then h.get 0x16 2 else h.get 0x1C 2

/-- HEADER_CRC recomputed: over bytes 0x00 to 0x1B of a share header, 0x00 to 0x3B of any other (R46, R62). -/
def Hdr.seal (h : Hdr) : Hdr :=
  if h.isShare then h.put 0x1C 4 (crc32 ((hdrBytes h).take 0x1C)) else h.put 0x3C 4 (crc32 ((hdrBytes h).take 0x3C))

/-- Whether HEADER_CRC matches. -/
def Hdr.crcOk (h : Hdr) : Bool :=
  if h.isShare then h.get 0x1C 4 = crc32 ((hdrBytes h).take 0x1C) else h.get 0x3C 4 = crc32 ((hdrBytes h).take 0x3C)

/-- A header as the device writes it anew: FORMAT_VERSION at the current interchange version, every reserved bit 0 (R7, R48). -/
def Hdr.renew (h : Hdr) (oper : Nat) : Hdr :=
  let h1 := (h.put 4 1 0).put 5 1 oper
  if h.isShare then h1.put 0x15 1 (fld (h.get 0x15 1) 0 1)
  else
    let h2 := ((h1.put 6 2 (fld h.flags 0 5)).put 0x10 1 h.level).put 0x2A 1 h.compMask
    ((h2.put 0x1A 2 0).put 0x1E 2 0).put 0x38 4 (galoisBits h.auto + 2 ^ 31 * fld h.auto 31 1)

/-- POISON and POISON_CODE set and HEADER_CRC recomputed (R57, R180). -/
def Hdr.poison (h : Hdr) (code : Nat) : Hdr :=
  (if h.isShare then (h.put 0x15 1 (setFld (h.get 0x15 1) 0 1 1)).put 0x16 2 code
   else (h.put 6 2 (setFld h.flags 0 1 1)).put 0x1C 2 code).seal

end Sys2Proof

namespace Sys2Proof.Machine

/-! ### Validity and versions (R47, R48, R63) -/

/-- Whether the current version `oper` of the device reads interchange version `v` (R48, R406). -/
def readable (oper v : Nat) : Bool := v != 0 && (v == oper || (decide (2 ≤ oper) && v + 1 == oper))

/-- The conditions of R47 on a ciphertext header, against the reference key set's ring. -/
def ctValid (r : Ring) (h : Hdr) : Bool :=
  let n := 2 ^ h.logN
  let last := h.limbFirst + h.limbCount
  decide (h.get 0 4 = ctMagic) && h.crcOk && decide (h.version ≠ 0) && decide (h.logN = r.logN) &&
    decide (h.level + 1 ≤ r.q) &&
    decide (h.slots ≠ 0 ∧ h.slots = 2 ^ Nat.log2 h.slots ∧ 2 * h.slots ≤ n) &&
    (h.triple || !bit h.compMask 2) &&
    (decide (h.limbCount = 0) || decide (last ≤ h.level + 1) ||
      (decide (64 ≤ h.limbFirst ∧ last ≤ 64 + r.p) && h.extended)) &&
    decide (h.coeffFirst + h.coeffCount ≤ n) && decide (h.shardIndex < h.shardCount) &&
    (decide (h.shardKind ≠ 0) || decide (h.shardCount = 1))

/-- The conditions of R63 on a share header. -/
def shValid (r : Ring) (h : Hdr) : Bool :=
  h.isShare && h.crcOk && decide (h.version ≠ 0) && decide (h.party ≤ 2) &&
    (decide (h.modulus = 1) || decide (h.modulus = 2)) &&
    (decide (h.modulus = 1) || decide (h.primeIndex < r.count))

/-! ### Header arithmetic (R53 to R55) -/

/-- The addend of Table 2-9 for a difference in 8.8 units. -/
def lsumD (d : Nat) : Nat :=
  if d < 256 then 256 else if d < 512 then 152 else if d < 768 then 84 else if d < 1024 then 44
  else if d < 1536 then 24 else if d < 2048 then 6 else if d < 3072 then 2 else 1

/-- lsum(a, b) of Table 2-9, in 8.8 units; a rescale's first argument can be negative. -/
def lsum (a b : Int) : Int := max a b + lsumD (a - b).natAbs

/-- A result NOISE: negative is written as 0, 256.00 or more saturates at 0xFFFF (R54). -/
def noiseOf (x : Int) : Nat := if x < 0 then 0 else if 65536 ≤ x then 0xFFFF else x.toNat

/-- lq of R39 in 8.8 units: the v with 2^(v − 1/2) ≤ q^256 < 2^(v + 1/2). -/
def lqOf (q : Nat) : Nat := (Nat.log2 (q ^ 512) + 1) / 2

/-- lq_i of a ring. -/
def Ring.lqAt (r : Ring) (i : Nat) : Nat := r.lq.getD i 0

/-- Whether a result scale at level `l` is in range (R54). -/
def scaleOk (r : Ring) (l : Nat) (s : Int) : Bool :=
  decide (0 ≤ s) && decide (s < 65536) &&
    decide (s < (((List.range (l + 1)).map r.lqAt).foldl (· + ·) 0 : Nat))

/-! ### The checks of Table 2-7 for the classes of Table 10-6 -/

/-- What HCHK passes to its checks. -/
structure ChkArg where
  cls : Nat
  levelArg : Nat
  g : Nat
  spt : Nat
  hoist : Bool
  oper : Nat
  noiseLimit : Nat
  noiseAction : Nat
  deriving DecidableEq, Repr

/-- What the checks answer: the result header, 0 or the code that poisoned it, whether the poison came with an operand,
whether NOISE crossed the limit, whether a key's tag differed (R56). -/
structure ChkRes where
  hd : Hdr
  code : Nat := 0
  consumed : Bool := false
  crossed : Bool := false
  keyTag : Bool := false
  deriving DecidableEq, Repr

/-- GENERATION of a result (R50). -/
def genOf (cls : Nat) (hs : List Hdr) : Nat :=
  match hs with
  | [] => 0
  | a :: r => if cls = 8 ∨ cls = 12 then a.gen
    else min (r.foldl (fun m h => max m h.gen) a.gen + 1) 0xFFFFFFFFFFFFFFFF

/-- LEVEL and LIMB_COUNT of the result where Table 2-8's rule can be applied (Tables 2-8, 10-6). -/
def shapeOf (x : ChkArg) (a : Hdr) : Option (Nat × Nat) :=
  let l := a.level
  let upTo := fun m => if a.limbFirst ≤ 63 then min a.limbCount (m + 1 - a.limbFirst) else a.limbCount
  if x.cls = 6 then (if l = 0 then none else some (l - 1, upTo (l - 1)))
  else if x.cls = 7 then (if l < x.levelArg then none else some (x.levelArg, upTo x.levelArg))
  else some (l, a.limbCount)

/-- The poisoned result of R57: the first operand's header, poisoned, with the GENERATION and LEVEL of the result. -/
def refuse (x : ChkArg) (hs : List Hdr) (a : Hdr) (valid : Bool) (code : Nat) : ChkRes :=
  let a1 := a.renew x.oper
  let h1 := if a.isShare then a1 else a1.put 0x20 8 (genOf x.cls hs)
  let h2 := if a.isShare || !valid then h1 else match shapeOf x a with
    | some (l, n) => (h1.put 0x10 1 l).put 0x29 1 n
    | none => h1
  { hd := h2.poison code, code := code }

/-- Step 4 of Table 2-7 for ciphertexts: domain, SLOTS, TRIPLE, PENDING, and a key of the operands' own tag. Class 5 without
PENDING and HOIST, given a KIND 0x04 key, is a bootstrapping switch (R51; the manual gives it no class of its own), and a hoisted
switch of an operand with PENDING clear has no STEP and CONJ to compare its Galois key with (log entry 66). -/
def formatOk (x : ChkArg) (a : Hdr) (b k : Option Hdr) : Bool :=
  let agree := match b with
    | some b => a.logN == b.logN && a.slots == b.slots && a.eval == b.eval
    | none => true
  let pend := a.isPending || (b.map Hdr.isPending).getD false
  let boot := !a.isPending && !x.hoist && (k.map fun k => k.get 6 1 == 4).getD false
  let form :=
    if x.cls = 0 then !pend && a.triple == (b.map Hdr.triple).getD a.triple
    else if x.cls = 2 then !pend && !a.triple
    else if x.cls = 3 then !pend && !a.triple && !((b.map Hdr.triple).getD false)
    else if x.cls = 4 then !pend && a.triple
    else if x.cls = 5 then a.isPending || x.hoist || boot
    else if x.cls = 8 then true
    else !pend
  let key := match k with
    | none => true
    | some k =>
      if k.tag ≠ a.tag then true
      else if x.cls = 4 then k.get 6 1 == 2
      else if boot then true
      else k.get 6 1 == 3 && (!a.isPending || galoisBits (k.get 0x14 4) == galoisBits a.auto)
  agree && form && key

/-- SCALE of the result before R54 (Table 2-8). -/
def scaleOf (x : ChkArg) (r : Ring) (a : Hdr) (b : Option Hdr) : Int :=
  if x.cls = 2 then a.scale + x.spt
  else if x.cls = 3 then a.scale + (b.map Hdr.scale).getD 0
  else if x.cls = 6 then a.scale - r.lqAt a.level
  else a.scale

/-- NOISE of the result (Table 2-8). -/
def noiseRes (x : ChkArg) (r : Ring) (a : Hdr) (b : Option Hdr) : Nat :=
  noiseOf (if x.cls = 0 then lsum a.noise ((b.map Hdr.noise).getD 0)
    else if x.cls = 1 then lsum a.noise r.eEnc
    else if x.cls = 2 then a.noise + x.g
    else if x.cls = 3 then max a.noise ((b.map Hdr.noise).getD 0) + x.g
    else if x.cls = 4 ∨ x.cls = 5 then lsum a.noise r.eKs
    else if x.cls = 6 then lsum ((a.noise : Int) - r.lqAt a.level) r.eRs
    else a.noise)

/-- COMP_MASK of a tensor product (R53). -/
def compOf (a b : Nat) : Nat :=
  let m := a &&& b
  (if bit m 0 then 1 else 0) + (if bit m 0 && bit m 1 then 2 else 0) + (if bit m 1 then 4 else 0)

/-- The result header when every check passes (Tables 2-8, 10-6, R50, R55). -/
def passed (x : ChkArg) (r : Ring) (hs : List Hdr) (a : Hdr) (b : Option Hdr) (beyond : Bool) : Hdr :=
  let sh := (shapeOf x a).getD (a.level, a.limbCount)
  let f0 := setFld (fld a.flags 0 5) 4 1 (if beyond || hs.any Hdr.noiseOver then 1 else 0)
  let f1 := if x.cls = 3 then setFld f0 2 1 1 else if x.cls = 4 then setFld f0 2 1 0 else f0
  let cm := if x.cls = 3 then compOf a.compMask ((b.map Hdr.compMask).getD 0)
    else if x.cls = 4 then fld a.compMask 0 2 else a.compMask
  let h := (((((((a.renew x.oper).put 6 2 f1).put 0x10 1 sh.1).put 0x29 1 sh.2).put 0x12 2 (scaleOf x r a b).toNat).put 0x18 2
    (noiseRes x r a b)).put 0x20 8 (genOf x.cls hs)).put 0x2A 1 cm
  (if x.cls = 5 then h.put 0x38 4 0 else h).seal

/-- Class 8: shards combined pair by pair (R59). -/
def combine (x : ChkArg) (hs : List Hdr) (a b : Hdr) : ChkRes :=
  let low := fun (p q : Hdr) => if q.shardIndex < p.shardIndex then q else p
  if a.poisoned || b.poisoned then
    let src := if a.poisoned && b.poisoned then low a b else if a.poisoned then a else b
    { hd := (((a.renew x.oper).put 0x2C 2 src.shardIndex).put 0x20 8 (genOf x.cls hs)).poison src.code, code := src.code, consumed := true }
  else if !(formatOk x a (some b) none) then refuse x hs a true 0x020B
  else if a.tag ≠ b.tag then refuse x hs a true 0x0202
  else
    let f := setFld (fld a.flags 0 5) 4 1 (if a.noiseOver || b.noiseOver then 1 else 0)
    { hd := (((a.renew x.oper).put 6 2 f).put 0x2C 2 (low a b).shardIndex).seal }

/-- Steps 1 to 10 of Table 2-7 on ciphertext operands. -/
def ctCheck (x : ChkArg) (r : Ring) (a : Hdr) (b k : Option Hdr) : ChkRes :=
  let hs := a :: b.toList
  if !(hs.all (ctValid r)) then refuse x hs a (ctValid r a) 0x0205
  else if !(hs.all fun h => readable x.oper h.version) then refuse x hs a true 0x0801
  else if x.cls = 8 then combine x hs a (b.getD a)
  else match hs.find? Hdr.poisoned with
    | some h => { refuse x hs a true h.code with consumed := true }
    | none =>
      if x.cls = 12 then { hd := a }
      else if !formatOk x a b k then refuse x hs a true 0x020B
      else if hs.any (fun h => h.tag != a.tag) then refuse x hs a true 0x0202
      else if (k.map fun k => k.tag != a.tag).getD false then { refuse x hs a true 0x0202 with keyTag := true }
      else if ((x.cls = 0 ∨ x.cls = 3) ∧ (b.map Hdr.level).getD a.level ≠ a.level) ∨ (x.cls = 7 ∧ a.level < x.levelArg) then
        refuse x hs a true 0x0207
      else if (x.cls = 2 ∨ x.cls = 3 ∨ x.cls = 6) ∧ a.level = 0 then refuse x hs a true 0x0201
      else if (x.cls = 0 ∧ (b.map Hdr.scale).getD a.scale ≠ a.scale) ∨ (x.cls = 1 ∧ x.spt ≠ a.scale) then
        refuse x hs a true 0x0206
      else if !scaleOk r ((shapeOf x a).getD (a.level, 0)).1 (scaleOf x r a b) then refuse x hs a true 0x0208
      else
        let beyond := decide (x.noiseLimit < noiseRes x r a b)
        if beyond && x.noiseAction == 1 then refuse x hs a true 0x0203
        else { hd := passed x r hs a b beyond, crossed := beyond }

/-- The share fields that must agree (R65): all but PARTY. -/
def shAgree (a b : Hdr) : Bool :=
  a.session == b.session && a.modulus == b.modulus && a.primeIndex == b.primeIndex && a.epoch == b.epoch

/-- Steps 1 to 5 of Table 2-7 on share operands (R63 to R65). -/
def shCheck (x : ChkArg) (r : Ring) (a : Hdr) (b : Option Hdr) : ChkRes :=
  let hs := a :: b.toList
  if !(hs.all (shValid r)) then refuse x hs a false 0x0205
  else if !(hs.all fun h => readable x.oper h.version) then refuse x hs a false 0x0801
  else match hs.find? Hdr.poisoned with
    | some h => { refuse x hs a false h.code with consumed := true }
    | none =>
      if (b.map Hdr.count).getD a.count ≠ a.count then refuse x hs a false 0x020B
      else if x.cls = 9 ∧ ¬ (b.map fun b => shAgree a b && a.party == b.party).getD true then refuse x hs a false 0x020A
      else if x.cls = 10 ∧ ¬ (b.map fun b => shAgree a b && a.party != b.party).getD true then refuse x hs a false 0x020A
      else if x.cls = 11 ∧ a.epoch = 0xFFFFFFFF then refuse x hs a false 0x020A
      else if x.cls = 12 then { hd := a }
      else { hd := if x.cls = 11 then ((a.renew x.oper).put 0x10 4 (a.epoch + 1)).seal else (a.renew x.oper).seal }

/-- The checks of an HCHK class. -/
def hdrCheck (x : ChkArg) (r : Ring) (a : Hdr) (b k : Option Hdr) : ChkRes :=
  if x.cls = 9 ∨ x.cls = 10 ∨ x.cls = 11 ∨ (x.cls = 12 ∧ a.isShare) then shCheck x r a b else ctCheck x r a b k

end Sys2Proof.Machine
end

