-- ==== Sys2Proof/Machine/Spans.lean ====
section
/-! DEFINITION. Holds, halts and the fc of a span (11_spans, R297 to R299), the scoreboard, bench words and the parity checks of a
pier's stores (06_bench R141 to R160, Table 6-4; 08_lathe R215). -/
namespace Sys2Proof.Machine

/-! ### Holds (R297, Table 11-12) -/

/-- The register that counts the fc of a source's holds: HOLD_FC, ISSUE_HOLD_FC, WAIT_FC, FTQ_HOLD_FC (Tables 6-5, 7-7,
10-9, 8-7); none for the send queue and the links. -/
def HoldSrc.counter : HoldSrc → Option Fld
  | .scoreboard => some bnHoldFc
  | .chuckIssue => some ckIssueHoldFc
  | .armRel => some seqWaitFc
  | .waitc => some seqWaitFc
  | .waitt => some seqWaitFc
  | .launch => some seqWaitFc
  | .ftq => some laFtqHoldFc
  | .sendq => none
  | .link => none

/-- Number of a source, which is its SOURCES bit less 2 (Table 11-14). -/
def HoldSrc.index : HoldSrc → Nat
  | .scoreboard => 0
  | .chuckIssue => 1
  | .armRel => 2
  | .waitc => 3
  | .waitt => 4
  | .launch => 5
  | .ftq => 6
  | .sendq => 7
  | .link => 8

/-- A hold source raised on pier `p` of span `k` in this fc. -/
def raiseHold (k p : Nat) (src : HoldSrc) (waits : List Nat) (after : HoldThen) (s : State) : State :=
  (s.modSpan k fun sp =>
    { sp with holds := sp.holds ++ [{ src := src, pier := p, waits := waits, since := s.clk.fc, after := after }] }).bump
      spnHoldsRaised p 0 1

/-- The fc that ends counts for every pier and register of a hold that stands in it, once each (Table 6-6, where HOLD_FC grows by 30
for the reads of one tile). -/
def countHolds (k : Nat) (s : State) : State :=
  let on := ((s.span k).holds.filterMap fun h => h.src.counter.map fun f => (h.pier, f)).eraseDups
  on.foldl (fun s e => s.bump e.2 e.1 0 1) s

/-- The holds of span `k` that `p` picks out end. -/
def endHolds (k : Nat) (p : Hold → Bool) (s : State) : State :=
  s.modSpan k fun sp => { sp with holds := sp.holds.filter fun h => !p h }

/-! ### The end of a span (R186, R216, R464) -/

/-- A halt or abort of span `k` raised in this fc; the first one of an fc stands. -/
def stopSpan (k : Nat) (st : Stop) (s : State) : State :=
  s.modSpan k fun sp => match sp.stop with
    | some _ => sp
    | none => { sp with stop := some st }

/-- A fault of class 0x01 on a pier: its record, and the halt of its span (R216). FTQ codes also self-test (R465). -/
def lathe01 (code p k : Nat) (s : State) : State :=
  stopSpan k (.commit code (if code = 0x0104 ∨ code = 0x0105 then some p else none))
    (raise { code := code, action := 3, unit := 1, pier := p, span := k } s)

/-- A fault of an engine of a pier that replays (R464): its record, and the halt of its span. -/
def replayFault (code p k : Nat) (detail : List Byte) (s : State) : State :=
  stopSpan k (.replay code (some p))
    (raise { code := code, action := 2, unit := 1, pier := p, span := k, detail := detail } s)

/-- DETAIL of 0x0603 and 0x0606. -/
def storeDetail (addr store : Nat) : List Byte := leBytes 6 addr ++ leBytes 1 store

/-- A repair under way. -/
def addRepair (store addr pier : Nat) (s : State) : State :=
  let f := s.fresh
  { f.2 with repairs := f.2.repairs ++ [{ id := f.1, store := store, addr := addr, pier := pier }] }

/-- A double-bit error in a store of pier `p` that its span reads: the span halts and replays after the repair; elsewhere one
record alone. -/
def pierStoreLost (p store addr : Nat) (active : Bool) (s : State) : State :=
  let s1 := addRepair store addr p s
  match s1.spanOf p with
  | some (k, _) =>
    if active ∧ (s1.span k).running then replayFault 0x0603 p k (storeDetail addr store) s1
    else raise { code := 0x0603, action := 0, unit := 1, pier := p, span := k, detail := storeDetail addr store } s1
  | none => raise { code := 0x0603, action := 0, unit := 1, pier := p, detail := storeDetail addr store } s1

/-! ### Scoreboard (R150 to R154) -/

/-- An entry that is not free. -/
def Pier.sbAt (x : Pier) (e : Nat) : Option Sb := tfind x.sb e

/-- The code of an entry's state in SB_STATE: 0 free, 1 FILLING, 2 FULL, 3 DRAINING. -/
def sbCode : Option Sb → Nat
  | none => 0
  | some (.filling _ _) => 1
  | some (.full _ _) => 2
  | some (.draining _ _ _) => 3

/-- Whether rows [a, a+n) and [b, b+m) meet; a range of no rows overlaps nothing (R150). -/
def overlaps (a n b m : Nat) : Bool := decide (0 < n ∧ 0 < m ∧ a < b + m ∧ b < a + n)

/-- Entries FILLING over rows that meet [row, row+n). -/
def Pier.fillingOver (x : Pier) (row n : Nat) : List Nat :=
  x.sb.filterMap fun e => match e.2 with
    | .filling r c => if overlaps row n r c then some e.1 else none
    | _ => none

/-- Every entry that is FILLING. -/
def Pier.fillings (x : Pier) : List Nat :=
  x.sb.filterMap fun e => match e.2 with
    | .filling _ _ => some e.1
    | _ => none

/-- Elements of the whole walk of a descriptor (R165). -/
def Desc.elems (d : Desc) : Nat := d.counts.foldl (· * ·) 1

/-- Whether a transfer's scoreboard transition has come by fc `fc`: the last row of an inbound one is stored, the last read slot of an
outbound one has fallen (Table 6-4). -/
def Xfer.turns (x : Xfer) (fc : Nat) : Bool :=
  if x.d.dir then
    (x.phase == .moved || x.phase == .moving || x.phase == .rowWait) && x.index.isNone && decide (x.d.elems ≤ x.cursor) && decide (x.readAt < fc)
  else x.phase == .moved && decide (x.storedAt ≤ fc)

/-- The transfers of a chuck whose transition may take place now: none before that of an earlier transfer (R181). -/
def ripeOf (fc : Nat) : List Xfer → List Xfer
  | [] => []
  | x :: r => if x.settled then ripeOf fc r else if x.turns fc then x :: ripeOf fc r else []

/-- Those of every chuck of a pier that name entry `e`, with the given direction. -/
def Pier.ripe (x : Pier) (e : Nat) (dir : Bool) (fc : Nat) : List Xfer :=
  x.chucks.flatMap fun c => (ripeOf fc c.2.xfers).filter fun y => y.d.sbEntry == e && y.d.dir == dir

/-- Whether every read of a DRAINING entry has fallen before fc `fc`: writes over its rows may take slot 3 (Table 6-4). -/
def Pier.drained (x : Pier) (e fc : Nat) : Bool :=
  match x.sbAt e with
  | some (.draining _ _ n) => decide (n ≤ (x.ripe e true fc).length)
  | _ => true

/-- Entries DRAINING over rows that meet [row, row+n), other than `own` (R154). -/
def Pier.drainingOver (x : Pier) (own row n fc : Nat) : Bool :=
  x.sb.any fun e => match e.2 with
    | .draining r c _ => e.1 != own && overlaps row n r c && !x.drained e.1 fc
    | _ => false

/-- An access presented to the scoreboard 12 fc before its slot (R152). -/
def present (k p : Nat) (ranges : List (Nat × Nat)) (s : State) : State :=
  let es := (ranges.flatMap fun r => (s.pier p).fillingOver r.1 r.2).eraseDups
  if es.isEmpty then s else raiseHold k p .scoreboard es .nothing s

/-- What a hold does at its end: ARM arms, REL frees, a fifth LAUNCH is posted (Table 6-4, R265). -/
def holdEffect (h : Hold) (s : State) : State :=
  match h.after with
  | .nothing => s
  | .arm e row n => s.modPier h.pier fun x => { x with sb := tput x.sb e (.filling row n) }
  | .rel e => s.modPier h.pier fun x => { x with sb := tdel x.sb e }
  | .launch a => s.modPier h.pier fun x => { x with timed := x.timed ++ [a] }

/-- Holds of pier `p` that wait on entry `e` lose it; one with nothing left to wait for ends, with its effect. -/
def sbRelease (k p e : Nat) (s : State) : State :=
  let waitsOn := fun h : Hold => decide (h.pier = p) && (h.src == .scoreboard || h.src == .armRel) && h.waits.contains e
  let lose := fun h : Hold => if waitsOn h then { h with waits := h.waits.erase e } else h
  let s1 := s.modSpan k fun sp => { sp with holds := sp.holds.map lose }
  let ended := fun h : Hold => decide (h.pier = p) && (h.src == .scoreboard || h.src == .armRel) && h.waits.isEmpty
  let done := (s1.span k).holds.filter ended
  done.foldl (fun s h => holdEffect h s) (endHolds k ended s1)

/-- A transfer no longer waits for entry `e` (R154). -/
def Chuck.filled (c : Chuck) (e : Nat) : Chuck :=
  { c with xfers := c.xfers.map fun x => { x with after := x.after.erase e } }

/-- The last row of entry `e`'s range is stored: FILLING becomes FULL and what waits on it goes on (Table 6-4, R152, R154). -/
def sbFull (p e : Nat) (s : State) : State :=
  match (s.pier p).sbAt e with
  | some (.filling row n) =>
    let s1 := s.modPier p fun x => { x with
      sb := tput x.sb e (.full row n), chucks := tmap (fun _ c => c.filled e) x.chucks }
    match s1.spanOf p with
    | some (k, _) => sbRelease k p e s1
    | none => s1
  | _ => s

/-- A reading transfer's last read slot has fallen: one reader fewer, and a free entry after the last (Table 6-4). -/
def sbReaderDone (p e : Nat) (s : State) : State :=
  match (s.pier p).sbAt e with
  | some (.draining row n r) =>
    if r ≤ 1 then
      let s1 := s.modPier p fun x => { x with sb := tdel x.sb e }
      match s1.spanOf p with
      | some (k, _) => sbRelease k p e s1
      | none => s1
    else s.modPier p fun x => { x with sb := tput x.sb e (.draining row n (r - 1)) }
  | _ => s

/-! ### Bench words (R141 to R149) -/

/-- The key of a bench or tile word. -/
def wkey (row lane : Nat) : Nat := row * 64 + lane

/-- A bench word. -/
def Pier.word (x : Pier) (row lane : Nat) : W36 := mget x.bench (wkey row lane)

/-- The 64 words of a bench row. -/
def Pier.row (x : Pier) (row : Nat) : List W36 := (List.range 64).map fun c => x.word row c

/-- The word positions of an access: lanes of a row, or 64 rows of a lane (R145). -/
def Access.keys (a : Access) : List Nat :=
  (List.range 64).map fun k => if a.col then wkey (a.row + k) a.lane else wkey a.row k

/-- The 64 words of an access. -/
def Pier.read (x : Pier) (a : Access) : List W36 := a.keys.map fun k => mget x.bench k

/-- Bench words written by key, each with the parity of what it holds (R160). -/
def Pier.putBench (x : Pier) (ws : List (Nat × W36)) : Pier :=
  { x with bench := mputAll x.bench ws
           benchPar := if x.benchPar.isEmpty then [] else mputAll x.benchPar (ws.map fun w => (w.1, 0)) }

/-- The four parity bits that a word stores: even parity over bits [8:0], [17:9], [26:18] and [35:27] (R160). -/
def parityOf (w : W36) : BitVec 4 :=
  BitVec.ofNat 4 ((List.range 4).foldl (fun v g =>
    v + 2 ^ g * (((List.range 9).filter fun b => w.getLsbD (9 * g + b)).length % 2)) 0)

/-- The parity bits that the bench stores with the word at `key` (R141). -/
def Pier.benchParity (x : Pier) (key : Nat) : BitVec 4 := parityOf (mget x.bench key) ^^^ mget x.benchPar key

/-- The bank of a bench word (R144). -/
def bankOf (row lane : Nat) : Nat := (row + lane) % 64

/-- Words of `keys` that a read finds with a parity mismatch. -/
def badWords (par : List (Nat × BitVec 4)) (keys : List Nat) : List Nat :=
  if par.isEmpty then [] else keys.filter fun k => mget par k != 0

/-- A read of bench words meets those with a parity mismatch: counters, one 0x0601 record for each, and the halt of the span; the words
are not rewritten (R160). -/
def checkBench (p : Nat) (keys : List Nat) (s : State) : State :=
  match s.spanOf p with
  | none => s
  | some (k, _) => (badWords (s.pier p).benchPar keys).foldl (fun s w =>
      let row := w / 64
      let lane := w % 64
      replayFault 0x0601 p k (leBytes 2 row ++ leBytes 1 lane ++ leBytes 1 (bankOf row lane) ++ leBytes 1 0)
        (((s.bump bnParityErrors p 0 1).setReg bnParityLastRow p 0 row).setReg bnParityLastLane p 0 lane)) s

/-- A read of tile words by an engine of pier `p` meets those with a parity mismatch (R192, R215). -/
def checkTile (p : Nat) (keys : List Nat) (s : State) : State :=
  match s.spanOf p with
  | none => s
  | some (k, _) => (badWords (s.pier p).tilePar keys).foldl (fun s w =>
      replayFault 0x0601 p k (leBytes 2 (w / 64) ++ leBytes 1 (w % 64) ++ leBytes 1 0 ++ leBytes 1 1) s) s

/-- The words of the first rows and columns of a tile. -/
def tileKeys (t rows cols : Nat) : List Nat := (List.range rows).flatMap fun r => (List.range cols).map fun c => t * 4096 + r * 64 + c

/-- A read of another structure of a pier's engines meets its words with a parity mismatch (R215, R243). -/
def checkStore (p part : Nat) (pick : Nat → Bool) (s : State) : State :=
  match s.spanOf p with
  | none => s
  | some (k, _) => ((s.pier p).storePar.filter fun e => e.1 == part && pick e.2.1).foldl (fun s e =>
      replayFault 0x0601 p k (leBytes 2 e.2.1 ++ leBytes 1 e.2.2 ++ leBytes 1 0 ++ leBytes 1 part) s) s

/-- A structure's entry written anew holds right parity. -/
def Pier.cleanStore (x : Pier) (part entry : Nat) : Pier :=
  { x with storePar := x.storePar.filter fun e => !(e.1 == part && e.2.1 == entry) }

/-- Tile words written by key, each with the parity of what it holds (R192). -/
def Pier.putTile (x : Pier) (ws : List (Nat × W36)) : Pier :=
  { x with tiles := mputAll x.tiles ws
           tilePar := if x.tilePar.isEmpty then [] else mputAll x.tilePar (ws.map fun w => (w.1, 0)) }

/-- The keys of the words of a bench row. -/
def rowKeys (row : Nat) : List Nat := (List.range 64).map (wkey row)

/-- The rows that an access covers: first row and count. -/
def Access.rows (a : Access) : Nat × Nat := if a.col then (a.row, 64) else (a.row, 1)

/-! ### Scheduled effects (R148, R190, R232) -/

/-- An effect scheduled on pier `p` for span-relative fc `due`: at its end, or at its start. -/
def sched (p due : Nat) (atEnd : Bool) (slot : Nat) (op : ActOp) (s : State) : State :=
  s.modPier p fun x => { x with acts := x.acts ++ [{ due := due, atEnd := atEnd, slot := slot, op := op }] }

/-- A row of effects scheduled, one for each `k` below `n`. -/
def schedEach (p n : Nat) (due : Nat → Nat) (atEnd : Bool) (slot : Nat) (op : Nat → ActOp) (s : State) : State :=
  s.modPier p fun x => { x with acts := x.acts ++ (List.range n).map fun k =>
      { due := due k, atEnd := atEnd, slot := slot, op := op k } }

/-- Accesses with slots in fc i + 12 + k, presented 12 fc before: the first now, the others later. -/
def presentEach (k p i n : Nat) (acc : Nat → Access) (s : State) : State :=
  let s1 := present k p [(acc 0).rows] s
  s1.modPier p fun x => { x with acts := x.acts ++ (List.range (n - 1)).map fun j =>
    { due := i + 1 + j, atEnd := false, slot := 0, op := .present [(acc (j + 1)).rows] } }

end Sys2Proof.Machine
end

