-- ==== Sys2Proof/Machine/Operands.lean ====
section
/-! DEFINITION. Operand forms of the sequencer's instructions: select fields, members, primes, time targets, the issue
context, and the program state that an issue changes (10_sequencer_isa). -/
namespace Sys2Proof.Machine

/-! ### Register operands (R251, R253) -/

/-- Address register `a`. -/
def Seq.areg (q : Seq) (a : Nat) : W32 := tget 0 q.a a

/-- The address register that a select field adds, or 0 (R251). -/
def Seq.sel (q : Seq) (x : Sel) : Nat := if x.en then (q.areg x.r).toNat else 0

/-- An immediate with its select field: the sum modulo 2^32 (R251). -/
def Seq.eff (q : Seq) (imm : Nat) (x : Sel) : Nat := if x.en then (imm + q.sel x) % 2 ^ 32 else imm

/-- Header register `h` (R246). -/
def Seq.hreg (q : Seq) (h : Nat) : Hdr := tget 0 q.h h

/-- The member that a MEMBER field names, modulo 256; none with ALL (R251, R253). -/
def Seq.member (q : Seq) (m : Mem9) : Option Nat := if m.all then none else some (q.eff m.idx m.arm % 256)

/-- Whether work of a member is suppressed: its bit of the member-poison vector (R210, R240); never with ALL. -/
def Pier.suppressed (x : Pier) (m : Option Nat) : Bool :=
  match m with
  | some i => x.poison.contains i
  | none => false

/-! ### Primes and shapes (R37, R195 to R197) -/

/-- Shape of a tile at launch (R194). -/
def fullShape : Shape := { rows := 64, cols := 64, mv := 0 }

/-- The shape of tile `t` (R194, R197). -/
def Pier.shape (x : Pier) (t : Nat) : Shape := tget fullShape x.shapes t

/-- The entries of modulus vector `v`, if it is valid. -/
def Pier.mvec (x : Pier) (v : Nat) : Option (List Nat) := tfind x.mv v

/-- The primes of the columns of a shape under its vector; an invalid vector gives none. -/
def Pier.colPrimes (x : Pier) (r : Ring) (sh : Shape) : List Nat := ((x.mvec sh.mv).getD []).map r.prime

/-- A tile word. -/
def Pier.tword (x : Pier) (t row col : Nat) : Nat := (mget x.tiles (t * 4096 + row * 64 + col)).toNat

/-- The words of a tile inside a shape, in row-major order. -/
def Pier.block (x : Pier) (t : Nat) (sh : Shape) : List Nat :=
  (List.range sh.rows).flatMap fun r => (List.range sh.cols).map fun c => x.tword t r c

/-- A write to tile `t` invalidates the operand-cache entry that holds it (R193). -/
def Pier.ocDrop (x : Pier) (t : Nat) : Pier := { x with oc := x.oc.filter (fun e => e.2 != t) }

/-- The operand-cache entry of tile `t` made most recently used; a tile that no entry holds takes the lowest invalid entry,
else the least recently used one (R193). -/
def Pier.ocUse (x : Pier) (t : Nat) : Pier :=
  match x.oc.find? (fun e => e.2 = t) with
  | some e => { x with oc := x.oc.filter (fun f => f.2 != t) ++ [e] }
  | none =>
    match (List.range 4).find? (fun n => !(x.oc.any fun e => e.1 = n)) with
    | some n => { x with oc := x.oc ++ [(n, t)] }
    | none =>
      match x.oc with
      | [] => x
      | e :: r => { x with oc := r ++ [(e.1, t)] }

/-- Words of a tile written in a block of `cols` columns from row `r0`, row by row. -/
def Pier.putBlock (x : Pier) (t r0 cols : Nat) (ws : List Nat) : Pier :=
  (x.putTile (ws.mapIdx fun i v => (t * 4096 + (r0 + i / cols) * 64 + i % cols, BitVec.ofNat 36 v))).ocDrop t

/-! ### The issue of an instruction (R247 to R249, R297) -/

/-- Where an instruction issues: pier, span, stage, span-relative fc, and the batch that runs. -/
structure Ctx where
  p : Nat
  k : Nat
  st : Nat
  fc : Nat
  batch : Batch

/-- An empty batch. -/
def noBatch : Batch := { serial := 0, launchTs := 0, prepTs := 0, keyTag := 0, ring := {}, members := [] }

/-- The issue context of a pier: it hosts a stage of a span that runs, is not frozen in this fc and has not halted. -/
def issueAt (s : State) (p : Nat) : Option Ctx :=
  match s.spanOf p with
  | none => none
  | some (k, st) =>
    let sp := s.span k
    if sp.running ∧ ¬ sp.frozen ∧ (s.pier p).seq.st = .running then
      some { p := p, k := k, st := st, fc := sp.relFc, batch := sp.batch.getD noBatch }
    else none

/-- A sequencer instruction: no such pier is a fault; on a sequencer that issues nothing now it has no effect (log entry 3);
otherwise ISSUED counts it and it has its effect (R278). -/
def issueWith (i : Iss) (s : State) (eff : Ctx → State → State) : Host.Outcome State Fault Refusal :=
  if 192 ≤ i.pier then .fault (.noSuchUnit i.pier)
  else match issueAt s i.pier with
    | none => .next s
    | some c => .next (eff c (s.bump2 seqIssuedLo seqIssuedHi i.pier 0 1))

/-! ### Loops and what issues next (R254 to R257) -/

/-- Stride S(a, l) (R246). -/
def Seq.stride (q : Seq) (a l : Nat) : W32 := tget 0 q.strides (4 * a + l)

/-- Every address register changed by `m` times its stride of level `l`, modulo 2^32 (R256). -/
def Seq.stepA (q : Seq) (l : Nat) (m : Int) : Seq :=
  { q with a := (List.range 16).foldl (fun a r =>
      if q.stride r l = 0 then a else tput a r (BitVec.ofInt 32 ((tget 0 a r).toNat + m * (q.stride r l).toInt))) q.a }

/-- The instruction at `pc` has issued: the loops that end on it advance, innermost first, and the PC takes its next value. -/
def loopEnd : List LoopSt → Nat → Seq → Seq
  | [], pc, q => { q with loops := [], pc := pc + 1 }
  | l :: ls, pc, q =>
    if l.last = pc then
      if l.lc + 1 < l.count then
        let q1 := q.stepA l.level 1
        { q1 with loops := { l with lc := l.lc + 1 } :: ls, lc := tput q.lc l.level (l.lc + 1), pc := l.start }
      else
        let q1 := q.stepA l.level (1 - (l.count : Int))
        loopEnd ls pc { q1 with lc := tput q.lc l.level l.count }
    else { q with loops := l :: ls, pc := pc + 1 }

/-- The instruction at the PC has issued in fc `fc`; the next issues `next` fc later (R247). -/
def Seq.advance (q : Seq) (fc next : Nat) : Seq :=
  { loopEnd q.loops q.pc q with due := fc + next, fetched := false }

/-- An instruction that changes no program state but the PC: its effect, then the advance. -/
def issue (i : Iss) (s : State) (eff : Ctx → State → State) : Host.Outcome State Fault Refusal :=
  issueWith i s fun c s => (eff c s).modSeq c.p fun q => q.advance c.fc i.next

/-! ### Time targets (R263) -/

/-- The target of WAITT and LAUNCH. -/
def target (c : Ctx) (q : Seq) (t : TimeOp) : Nat :=
  let x := c.batch.launchTs + t.offset + q.sel t.aroff
  if t.beat then ceilDiv x 1000 * 1000 else x

/-! ### The stage's program as the image holds it -/

/-- The image of span `k`. -/
def State.imageOf (s : State) (k : Nat) : Option Image := tfind s.images (s.span k).handle

/-- The program of stage `st` of span `k`. -/
def State.stageProg (s : State) (k st : Nat) : Option StageProg :=
  (s.imageOf k).bind fun im => im.stages.find? fun g => g.span = (s.span k).imgSpan ∧ g.stage = st

/-- The PC in the stage's own program: of the outermost CALL inside a routine. -/
def Seq.mainPc (q : Seq) : Nat :=
  match q.stack.getLast? with
  | some f => f.callPc
  | none => q.pc

/-! ### Instruction memory (R274) -/

/-- Address in Pier.imem of bank `b`'s instructions, descriptor table, program table or routine RAM (IMEM_TARGET). -/
def imemBase (b target : Nat) : Nat := b * 0x40000 + target * 0x10000

/-- `n` bytes of instruction memory. -/
def Pier.imemRd (x : Pier) (a n : Nat) : List Byte := mgets x.imem a n

/-- A word of the ROM. NULL counts 2 fc, so its first instruction, in fc 1, is a RET with NEXT 1 (R271, Table 10-7); the words
of the other routines are not in the manual (log entry 10). -/
def romWord (id pc : Nat) : IWord := if id = 0 ∧ pc = 0 then 0x03 else Config.rom id pc

/-- The instruction word at `pc` of the active bank, of a loaded routine, or of the ROM (R246, R250, R273). -/
def Pier.iword (x : Pier) (routine : Option Nat) (pc : Nat) : IWord :=
  match routine with
  | none => BitVec.ofNat 128 (leNat (x.imemRd (imemBase x.seq.bank 0 + 16 * pc) 16))
  | some id =>
    if id < 512 then romWord id pc
    else match tfind x.routines (x.seq.bank * 1024 + id) with
      | some off => BitVec.ofNat 128 (leNat (x.imemRd (imemBase x.seq.bank 3 + off + 16 * pc) 16))
      | none => 0

/-! ### Power tokens (R266) -/

/-- A charge of `rate` tokens in each fc up to `last`. -/
def chargeFor (k p rate last : Nat) (s : State) : State :=
  if rate = 0 then s
  else s.modSpan k fun sp => { sp with charges := sp.charges ++ [{ pier := p, phase := false, rate := rate, last := some last }] }

/-- The transfer phase of the phase plan that holds main PC `pc` (R183): first and last PC. -/
def phaseAt (g : Option StageProg) (pc : Nat) : Option (Nat × Nat) :=
  (g.bind fun x => x.phases.find? fun f => f.1 ≤ pc ∧ pc ≤ f.2.1 ∧ ¬ f.2.2).map fun f => (f.1, f.2.1)

/-- Number of chucks named in the low three bits. -/
def chuckCount (m : Nat) : Nat := ((List.range 3).filter fun j => bit m j).length

/-- The WAITC that closes the transfer phase of main PC `pc`: the last instruction of its phase in the plan; for a stage with no plan,
the next WAITC of the program. DEDUCED: log entry 63. -/
def phaseEnd (x : Pier) (g : Option StageProg) (pc : Nat) : Option Nat :=
  if g.any fun t => t.phases.isEmpty then
    ((List.range (4096 - pc)).map (pc + ·)).find? fun n => fld (x.iword none n).toNat 0 8 = 0x05
  else (phaseAt g pc).map (·.2)

/-- The first external CHK or LAUNCH of a transfer phase opens its charge: one token for each chuck that the WAITC at the
phase's end names (R266). -/
def openPhase (c : Ctx) (s : State) : State :=
  let x := s.pier c.p
  if (s.span c.k).charges.any (fun h => h.phase && h.last.isNone && h.pier == c.p) then s
  else match phaseEnd x (s.stageProg c.k c.st) x.seq.mainPc with
    | none => s
    | some last =>
      let w := (x.iword none last).toNat
      s.modSpan c.k fun sp => { sp with charges := sp.charges ++
        [{ pier := c.p, phase := true, rate := chuckCount (fld w 24 3), last := none }] }

/-- The WAITC that ends a transfer phase closes its charge at the fc before the next issue (R266). -/
def closePhase (c : Ctx) (next : Nat) (s : State) : State :=
  let x := s.pier c.p
  match phaseEnd x (s.stageProg c.k c.st) x.seq.mainPc with
  | none => s
  | some last =>
    if x.seq.mainPc = last then
      let close := fun h : Charge =>
        if h.phase && h.last.isNone && h.pier == c.p then { h with last := some (c.fc + next - 1) } else h
      s.modSpan c.k fun sp => { sp with charges := sp.charges.map close }
    else s

/-! ### Tensors and what is written to them (R124, R125, R134, R135, R143) -/

/-- Grain of an element type in elements and in bench words, and elements in a word (Tables 5-1, 6-1). -/
def grainElems (t : Nat) : Nat :=
  match t with
  | 1 => 128
  | 2 => 8
  | 3 => 64
  | 4 => 128
  | _ => 256
def grainWords (t : Nat) : Nat := if t = 1 then 128 else 16
def typeBits (t : Nat) : Nat :=
  match t with
  | 1 => 36
  | 2 => 64
  | 3 => 8
  | 4 => 4
  | _ => 2

/-- Elements in one word, for the types that share words. -/
def perWord (t : Nat) : Nat :=
  match t with
  | 3 => 4
  | 4 => 8
  | 5 => 16
  | _ => 1

/-- Elements that an innermost row of a shard takes, padding included (R124). -/
def Shard.rowElems (sh : Shard) : Nat := grainElems sh.elemType * ceilDiv (sh.extents.getLastD 0) (grainElems sh.elemType)

/-- Elements of a shard's data, padding included. -/
def Shard.elems (sh : Shard) : Nat := sh.extents.dropLast.foldl (· * ·) sh.rowElems

/-- Whether the element at offset `o` of a shard's data is padding (R125). -/
def Shard.isPad (sh : Shard) (o : Nat) : Bool := decide (sh.extents.getLastD 0 ≤ o % max sh.rowElems 1)

/-- The bits of word `w` of a bench shard that hold elements other than padding (R125, Table 6-1). -/
def Shard.wordMask (sh : Shard) (w : Nat) : Nat :=
  if sh.elemType = 1 then (if sh.isPad w then 0 else 2 ^ 36 - 1)
  else if sh.elemType = 2 then (if sh.isPad (w / 2) then 0 else 2 ^ 32 - 1)
  else
    let n := perWord sh.elemType
    let b := typeBits sh.elemType
    (List.range n).foldl (fun m i => if sh.isPad (n * w + i) then m else m + (2 ^ b - 1) * 2 ^ (b * i)) 0

/-- The bench shards of pier `p` in which a written word may have bits that no element takes: padding, or bits [35:32]. -/
def State.benchShards (s : State) (p : Nat) : List Shard :=
  match (s.spanOf p).bind fun e => s.imageOf e.1 with
  | some im => im.shards.filter fun sh => sh.home == 0 && decide (benchAddr p 0 ≤ sh.data ∧ sh.data < benchAddr (p + 1) 0) &&
      (sh.elemType != 1 || decide (sh.extents.getLastD 0 % 128 ≠ 0))
  | none => []

/-- A word as the device writes it at `key`: in a tensor's rows, padding and unassigned bits are zero (R125, R143). -/
def State.tensorWord (shs : List Shard) (p : Nat) (w : Nat × W36) : Nat × W36 :=
  shs.foldl (fun w sh =>
    let base := (sh.data - benchAddr p 0) / 512 * 64
    if base ≤ w.1 ∧ w.1 < base + sh.elems / grainElems sh.elemType * grainWords sh.elemType then
      (w.1, BitVec.ofNat 36 (w.2.toNat &&& sh.wordMask (w.1 - base)))
    else w) w

/-- Bench words written by pier `p`, as the tensors in their rows take them. -/
def State.putBench (s : State) (p : Nat) (ws : List (Nat × W36)) : State :=
  let shs := s.benchShards p
  s.modPier p fun x => x.putBench (if shs.isEmpty then ws else ws.map (State.tensorWord shs p))

/-- Data bytes of a shard outside a bench from byte `at_` on, as the device writes them: padding elements are zero (R41, R125). -/
def Shard.cleanBytes (sh : Shard) (at_ : Nat) (bs : List Byte) : List Byte :=
  if sh.extents.getLastD 0 % grainElems sh.elemType = 0 then bs
  else bs.zipIdx.map fun e =>
    let y := at_ + e.2
    if sh.elemType = 1 then
      if sh.isPad (y / 9 * 2) then 0 else if !sh.isPad (y / 9 * 2 + 1) ∨ y % 9 < 4 then e.1 else if y % 9 = 4 then e.1 &&& 15 else 0
    else if sh.elemType = 2 then (if sh.isPad (y / 8) then 0 else e.1)
    else
      let b := typeBits sh.elemType
      (List.range (8 / b)).foldl (fun v i =>
        if sh.isPad (y * (8 / b) + i) then v &&& ~~~(BitVec.ofNat 8 ((2 ^ b - 1) * 2 ^ (b * i))) else v) e.1

/-- Header slots of a shard: one for each object that it holds (R127, R133, R135). -/
def Shard.slots (sh : Shard) : Nat :=
  if sh.object = 0 then 0
  else if (sh.object = 1 ∧ sh.extents.length = 4) ∨ (sh.object = 2 ∧ sh.extents.length = 2) then sh.extents.headD 1 else 1

/-- A header as the device writes it for an object of a shard: the sharding fields of a ciphertext, COUNT of a share, from the
descriptor (R134, R135). A header whose CRC fails is written as it is. -/
def Shard.stamp (sh : Shard) (h : Hdr) : Hdr :=
  if !h.crcOk then h
  else match sh.object, sh.sharding with
    | 1, [lf, lc, kind, idx, cnt, cf, cc] =>
      if h.isShare then h
      else (((((((h.put 0x28 1 lf).put 0x29 1 lc).put 0x2B 1 kind).put 0x2C 2 idx).put 0x2E 2 cnt).put 0x30 4 cf).put 0x34 4 cc).seal
    | 2, _ => if h.isShare then (h.put 0x18 4 (sh.extents.getLastD 0)).seal else h
    | _, _ => h

/-- A header as HST writes it to a row of pier `p`'s bench: that of a shard's header slot takes the shard's fields (R134). -/
def State.benchHdr (s : State) (p row : Nat) (h : Hdr) : Hdr :=
  match ((s.spanOf p).bind fun e => s.imageOf e.1).bind fun im => im.shards.find? fun sh =>
      sh.home == 0 && decide (benchAddr p (512 * row) < sh.header + 512 * sh.slots ∧ sh.header ≤ benchAddr p (512 * row)) with
  | some sh => sh.stamp h
  | none => h

/-! ### Material classes (R115) -/

/-- Whether the fields of a class lie in the ranges of Table 4-6 and R312. FUNCTION_ID is 0 for triples (DESIGN CHOICE, log entry 66). -/
def MatEnt.valid (e : MatEnt) : Bool :=
  if e.kind = 1 then
    decide (8 ≤ e.bits ∧ e.bits ≤ 64 ∧ 1 ≤ e.pieces ∧ e.pieces ≤ 32 ∧ e.degree ≤ 3 ∧ e.prime = 0) &&
      (if e.func = 0 then decide (e.pieces = 1 ∧ e.degree = 0) else decide (e.pieces = 2 ^ Nat.log2 e.pieces))
  else if e.kind = 2 then decide (e.bits = 0 ∧ e.pieces = 0 ∧ e.degree = 0 ∧ e.prime = 0 ∧ e.func = 0)
  else decide (e.kind = 3 ∧ e.bits = 0 ∧ e.pieces = 0 ∧ e.degree = 0 ∧ e.func = 0)

/-- Two entries name the same class. -/
def MatEnt.same (a b : MatEnt) : Bool := decide (a = { b with perReq := a.perReq })

end Sys2Proof.Machine
end

