-- ==== Sys2Proof/Machine/Sequencer.lean ====
section
/-! DEFINITION. The control, address, time, scoreboard and header instructions of the sequencer (10_sequencer_isa). -/
namespace Sys2Proof.Machine

/-! ### Control -/

/-- NOP (R247): only the issue. -/
def execNop (i : Iss) (s : State) : Host.Outcome State Fault Refusal := issue i s fun _ s => s

/-- A loop begins at the PC; with COUNT 0 its body is passed over as though it had just exited (R254, R257). -/
def Seq.loopStart (q : Seq) (level count body : Nat) : Seq :=
  if count = 0 then loopEnd q.loops (q.pc + body) { q with lc := tput q.lc level 0 }
  else { q with
    loops := { level := level, count := count, start := q.pc + 1, last := q.pc + body, lc := 0 } :: q.loops
    lc := tput q.lc level 0
    pc := q.pc + 1 }

/-- LOOP (R254 to R257). -/
def execLoop (i : Iss) (level count body : Nat) (s : State) : Host.Outcome State Fault Refusal :=
  issueWith i s fun c s => s.modSeq c.p fun q =>
    { q.loopStart level count body with due := c.fc + i.next, fetched := false }

/-- The sequencer inside a routine just called: the frame pushed, A0 to A10 and every stride 0, A11 the argument (R271). -/
def Seq.call (q : Seq) (id arg : Nat) : Seq :=
  { q with
    stack := { callPc := q.pc, routine := q.routine, loops := q.loops, a := q.a.filter (·.1 < 12),
               dyn := q.dyn.filter (· < 12), strides := q.strides } :: q.stack
    routine := some id
    pc := 0
    loops := []
    a := tput (q.a.filter (12 ≤ ·.1)) 11 (BitVec.ofNat 32 arg)
    dyn := q.dyn.filter (12 ≤ ·)
    strides := [] }

/-- CALL (R271): the routine's first instruction issues 1 fc later; NEXT is ignored. -/
def execCall (i : Iss) (id arg : Nat) (s : State) : Host.Outcome State Fault Refusal :=
  issueWith i s fun c s => s.modSeq c.p fun q => { q.call id arg with due := c.fc + 1, fetched := false }

/-- The sequencer back at its caller: the frame restored, A12 to A15 kept (R271). -/
def Seq.ret (q : Seq) : Seq :=
  match q.stack with
  | [] => q
  | f :: r => { q with
    stack := r, routine := f.routine, pc := f.callPc, loops := f.loops
    a := f.a.filter (·.1 < 12) ++ q.a.filter (12 ≤ ·.1)
    dyn := f.dyn.filter (· < 12) ++ q.dyn.filter (12 ≤ ·), strides := f.strides }

/-- RET (R271): what follows the CALL issues NEXT fc after RET. -/
def execRet (i : Iss) (s : State) : Host.Outcome State Fault Refusal :=
  issueWith i s fun c s => s.modSeq c.p fun q => q.ret.advance c.fc i.next

/-- HALT (R276): the stage's batch ends; nothing issues until the next launch. -/
def execHalt (i : Iss) (s : State) : Host.Outcome State Fault Refusal :=
  issueWith i s fun c s => s.modSeq c.p fun q => { q with st := .idle, fetched := false }

/-! ### Waits (R262 to R266) -/

/-- Whether a chuck has a transfer outstanding, timed ones and waiting ones included (R262, R265). -/
def Pier.busyChuck (x : Pier) (j : Nat) : Bool :=
  let ch := tget {} x.chucks j
  !ch.xfers.isEmpty || !ch.waiting.isEmpty

/-- WAITC (R262), and the end of its transfer phase's token charge (R266). -/
def execWaitc (i : Iss) (chucks : Nat) (s : State) : Host.Outcome State Fault Refusal :=
  issue i s fun c s =>
    let busy := (List.range 3).filter fun j => bit chucks j && (s.pier c.p).busyChuck j
    let s1 := closePhase c i.next s
    if busy.isEmpty then s1 else raiseHold c.k c.p .waitc busy .nothing s1

/-- WAITT (R263, R264). -/
def execWaitt (i : Iss) (t : TimeOp) (s : State) : Host.Outcome State Fault Refusal :=
  issue i s fun c s =>
    let x := target c (s.pier c.p).seq t
    if s.now < x then raiseHold c.k c.p .waitt [x] .nothing s else s

/-- PTOK (R266): stage 0 selects the grant level from the next window on. -/
def execPtok (i : Iss) (level : Nat) (s : State) : Host.Outcome State Fault Refusal :=
  issue i s fun c s => if c.st = 0 then s.modSpan c.k fun sp => { sp with nextLevel := level } else s

/-! ### Address registers (R258) -/

/-- ASET: A ← VALUE, static. -/
def execAset (i : Iss) (a value : Nat) (s : State) : Host.Outcome State Fault Refusal :=
  issue i s fun c s => s.modSeq c.p fun q =>
    { q with a := tput q.a a (BitVec.ofNat 32 value), dyn := q.dyn.filter (· != a) }

/-- ASTR: S(A, LEVEL) ← STRIDE. -/
def execAstr (i : Iss) (a level stride : Nat) (s : State) : Host.Outcome State Fault Refusal :=
  issue i s fun c s => s.modSeq c.p fun q =>
    { q with strides := tput q.strides (4 * a + level) (BitVec.ofNat 32 stride) }

/-- AADD: A[D] ← A[S] + IMM modulo 2^32; a sum of a dynamic value is dynamic (R251). -/
def execAadd (i : Iss) (d r imm : Nat) (s : State) : Host.Outcome State Fault Refusal :=
  issue i s fun c s => s.modSeq c.p fun q =>
    { q with a := tput q.a d (q.areg r + BitVec.ofNat 32 imm)
             dyn := if q.dyn.contains r then d :: q.dyn.filter (· != d) else q.dyn.filter (· != d) }

/-- LPARM: A[D] ← launch parameter word, dynamic. -/
def execLparm (i : Iss) (d word : Nat) (s : State) : Host.Outcome State Fault Refusal :=
  issue i s fun c s => s.modSeq c.p fun q =>
    { q with a := tput q.a d (tget 0 q.params word), dyn := d :: q.dyn.filter (· != d) }

/-! ### Scoreboard (R260, Table 6-4) -/

/-- ARM: Free or FULL becomes FILLING; FILLING or DRAINING holds the span until the entry is FULL or free, then arms it. -/
def execArm (i : Iss) (entry row : Nat) (arb : Sel) (count : Nat) (s : State) : Host.Outcome State Fault Refusal :=
  issue i s fun c s =>
    let x := s.pier c.p
    let r := x.seq.eff row arb
    match x.sbAt entry with
    | some (.filling _ _) => raiseHold c.k c.p .armRel [entry] (.arm entry r count) s
    | some (.draining _ _ _) => raiseHold c.k c.p .armRel [entry] (.arm entry r count) s
    | _ => s.modPier c.p fun x => { x with sb := tput x.sb entry (.filling r count) }

/-- REL: FULL becomes free; Free stays; FILLING or DRAINING holds the span until the entry is FULL, then frees it. -/
def execRel (i : Iss) (entry : Nat) (s : State) : Host.Outcome State Fault Refusal :=
  issue i s fun c s =>
    match (s.pier c.p).sbAt entry with
    | none => s
    | some (.full _ _) => s.modPier c.p fun x => { x with sb := tdel x.sb entry }
    | some _ => raiseHold c.k c.p .armRel [entry] (.rel entry) s

/-! ### Header registers (R268 to R270) -/

/-- HLD: the row is read in slot 0 at i + 12; H is written in i + 18. -/
def execHld (i : Iss) (h brow : Nat) (arb : Sel) (s : State) : Host.Outcome State Fault Refusal :=
  issue i s fun c s =>
    let row := (s.pier c.p).seq.eff brow arb
    sched c.p (c.fc + 12) false 0 (.hldRead h row) (present c.k c.p [(row, 1)] s)

/-- HST: H is latched at issue and stored at the end of i + 17, words 16 to 63 zero. -/
def execHst (i : Iss) (h brow : Nat) (arb : Sel) (s : State) : Host.Outcome State Fault Refusal :=
  issue i s fun c s =>
    let x := s.pier c.p
    let row := x.seq.eff brow arb
    let v := (s.benchHdr c.p row (x.seq.hreg h)).toNat
    let ws := (List.range 64).map fun w => if w < 16 then BitVec.ofNat 36 (fld v (32 * w) 32) else (0 : W36)
    sched c.p (c.fc + 17) true 1 (.benchStore { col := false, row := row, lane := 0 } ws) (present c.k c.p [(row, 1)] s)

/-- The member's bit in the member-poison vector set (R210). -/
def poisonMember (p m : Nat) (s : State) : State :=
  s.modPier p fun x => if x.poison.contains m then x else { x with poison := m :: x.poison }

/-- A member of the batch of span `k` changed. -/
def modMember (k m : Nat) (f : Member → Member) (s : State) : State :=
  s.modSpan k fun sp => { sp with batch := sp.batch.map fun b => { b with members := b.members.modify m f } }

/-- The policy that the request of a member captured at acceptance (R92, R269). -/
def State.policyOf (s : State) (m : Member) : Policy :=
  match s.requests.find? (fun r => r.session = m.session ∧ r.seq = m.seq) with
  | some r => r.policy
  | none => {}

/-- The record of a header check: code, member, ACTION. -/
def chkRec (c : Ctx) (m : Member) (code action : Nat) : Rec :=
  { code := code, action := action, unit := 1, pier := c.p, span := c.k, session := m.session, request := m.seq }

/-- The fault records and marks of a header check's answer (R52, R55, R58, R269). -/
def chkEffects (c : Ctx) (i : Nat) (m : Member) (r : ChkRes) (s : State) : State :=
  if r.code ≠ 0 ∨ r.consumed then
    let code := if r.code = 0 then 0x0204 else r.code
    let s1 := poisonMember c.p i (modMember c.k i (fun m => if m.code = 0 then { m with code := code } else m) s)
    if r.consumed then
      if m.saw204 then s1 else raise (chkRec c m 0x0204 1) (modMember c.k i (fun m => { m with saw204 := true }) s1)
    else raise (chkRec c m r.code 1) (if r.keyTag then s1.bump keyTagRefusals 0 0 1 else s1)
  else if r.crossed ∧ ¬ m.saw203 then
    raise (chkRec c m 0x0203 0) (modMember c.k i (fun m => { m with saw203 := true }) s)
  else s

/-- HCHK (R269, R270): the checks of its class on the operand registers, in its issue fc. -/
def execHchk (i : Iss) (o : HchkOp) (s : State) : Host.Outcome State Fault Refusal :=
  issue i s fun c s =>
    let q := (s.pier c.p).seq
    let idx := (q.member o.mem).getD 0
    let setHd := fun (v : Hdr) (s : State) => s.modSeq c.p fun q => { q with h := tput q.h o.hd v }
    if 13 ≤ o.cls then s
    else match c.batch.members[idx]? with
    | none => poisonMember c.p idx (setHd 0 s)
    | some m =>
      let pol := s.policyOf m
      let arg : ChkArg := { cls := o.cls, levelArg := o.level, g := o.g, spt := o.spt, hoist := o.hoist
                            oper := s.oper, noiseLimit := pol.noiseLimit, noiseAction := pol.noiseAction }
      let two := o.cls = 0 ∨ o.cls = 3 ∨ o.cls = 8 ∨ o.cls = 9 ∨ o.cls = 10
      let a := if o.ha = 15 then 0 else q.hreg o.ha
      let b := if two then (if o.hb = 15 then (if o.cls = 9 then none else some 0) else some (q.hreg o.hb)) else none
      let k := if o.cls = 4 ∨ o.cls = 5 then some (if o.hk = 15 then 0 else q.hreg o.hk) else none
      let r := hdrCheck arg c.batch.ring a b k
      chkEffects c idx m r (setHd r.hd s)

end Sys2Proof.Machine
end

