-- ==== Sys2Proof/Machine/Stream.lean ====
section
/-! DEFINITION. What a chuck transfer reads and writes: descriptors, the walk, far-side addresses, bench packing and layout
transforms, carried headers, weight decode, caches (07_chucks R163 to R182, 03_weight_store R78). -/
namespace Sys2Proof.Machine

/-! ### Descriptors (Tables 7-1 to 7-4) -/

/-- The descriptor that 128 bytes spell. -/
def parseDesc (bs : List Byte) : Desc :=
  let op := getLe bs 0 1
  let shape := getLe bs 3 1
  let dims := fld shape 0 3
  { dir := bit op 0, indexed := bit op 1, accumulate := bit op 2, cacheable := bit op 3, headers := bit op 4
    reshard := bit op 5, farKind := getLe bs 1 1, elemType := getLe bs 2 1, dims := dims, xform := fld shape 3 3
    sbEntry := fld (getLe bs 4 1) 0 4, prime := getLe bs 5 1, benchRow := fld (getLe bs 6 2) 0 14
    farBase := fld (getLe bs 8 8) 0 48, start := getLe bs 0x10 4, limit := getLe bs 0x14 4, xarg := getLe bs 0x18 4
    cls := fld (getLe bs 0x1C 1) 0 2
    counts := (List.range dims).map fun d => getLe bs (0x20 + 8 * d) 4
    strides := (List.range dims).map fun d => signed 32 (getLe bs (0x24 + 8 * d) 4)
    indexRow := fld (getLe bs 0x48 2) 0 14, headerCount := getLe bs 0x4A 2, headerRow := fld (getLe bs 0x4C 2) 0 14
    farHeader := fld (getLe bs 0x50 8) 0 48, sharding := slice bs 0x58 16 }

/-- Descriptor `n` of the active bank (R163). -/
def Pier.desc (x : Pier) (n : Nat) : Desc := parseDesc (x.imemRd (imemBase x.seq.bank 1 + 128 * n) 128)

/-- LOG_N, STEP, CONJ, SCALED and SKIP_ZERO of XARG (Table 7-4). -/
def Desc.logN (d : Desc) : Nat := fld d.xarg 24 5
def Desc.skipZero (d : Desc) : Bool := bit d.xarg 1
def Desc.scaled (d : Desc) : Bool := bit d.xarg 0

/-- Elements of one innermost run (R165). -/
def Desc.run (d : Desc) : Nat := d.counts.getLastD 1

/-- Bench words of a run of `n` elements, padded to whole grains (R165, R143). -/
def runWords (t n : Nat) : Nat := ceilDiv n (grainElems t) * grainWords t

/-- Elements that the bench side packs together before it pads: a run, or the whole stream under grain repacking and steering
(R165, R176, R178). -/
def Desc.packRun (d : Desc) : Nat := max (if d.xform = 3 ∨ d.xform = 5 then d.elems else d.run) 1

/-- Bench words of the whole stream (R165, R176, R178). -/
def Desc.words (d : Desc) : Nat := d.elems / d.packRun * runWords d.elemType d.packRun

/-- Where stream element `n` lies in the packed bench side: the first word of its run, and its position in it. -/
def Desc.packed (d : Desc) (n : Nat) : Nat × Nat := (n / d.packRun * runWords d.elemType d.packRun, n % d.packRun)

/-- The stream element that the far side visits as the `n`-th: bit reversal reads each run's grains in group order, group `c` those
with index p, p mod 2^(LOG_N − 13) = c, in ascending p (R174). -/
def Desc.visit (d : Desc) (n : Nat) : Nat :=
  if d.xform = 1 then
    let run := max d.run 1
    let groups := 2 ^ (d.logN - 13)
    let size := max (run / groups) 1
    let w := n % run % size
    n / run * run + (n % run / size + groups * (w / 128)) * 128 + w % 128
  else n

/-- Elements of one group of bit reversal: 64 grains, 128 bench rows (R174). -/
def Desc.groupElems (d : Desc) : Nat := max (d.run / 2 ^ (d.logN - 13)) 1

/-! ### The walk (R165, R171) -/

/-- Cursor coordinates of stream element `n`, dimension 0 first. -/
def coords : List Nat → Nat → List Nat
  | [], _ => []
  | _ :: cs, n =>
    let inner := cs.foldl (· * ·) 1
    (n / max inner 1) :: coords cs (n % max inner 1)

/-- Far-side element offset of stream element `n`. -/
def Xfer.offset (x : Xfer) (n : Nat) : Int :=
  let cs := coords x.d.counts n
  let o := (cs.zip x.d.strides).foldl (fun (o : Int) e => o + e.1 * e.2) (x.start : Int)
  if x.d.indexed then o + x.idx.getD (cs.getD 0 0) 0 else o

/-- Far-side element offset of the `n`-th element that the far side visits (R174). -/
def Xfer.offsetAt (x : Xfer) (n : Nat) : Int := x.offset (x.d.visit n)

/-- Smallest and largest far-side offsets of the walk from START, counts and strides (R167). -/
def Xfer.bounds (x : Xfer) : Int × Int :=
  (x.d.counts.zip x.d.strides).foldl (fun b e =>
    let far := ((e.1 : Int) - 1) * e.2
    if 0 ≤ e.2 then (b.1, b.2 + far) else (b.1 + far, b.2)) ((x.start : Int), (x.start : Int))

/-- The first index whose run leaves 0 to LIMIT − 1 (R171). -/
def Xfer.badIndex (x : Xfer) : Option Nat :=
  let st := x.d.strides.getD 1 0
  let far := ((x.d.run : Int) - 1) * st
  x.idx.findIdx? fun i =>
    let a := (x.start : Int) + i
    let lo := if 0 ≤ st then a else a + far
    let hi := if 0 ≤ st then a + far else a
    decide (lo < 0) || decide ((x.d.limit : Int) ≤ hi)

/-! ### Far-side bytes (R124, R347, R110, R119) -/

/-- Address of byte `y` of the internal object at base `b` (R347). -/
def objAddr (b y : Nat) : Nat := gddrBase (y / 65536 % 16) + b + 65536 * (y / 1048576) + y % 65536

/-- Address of byte `y` of the items that a request has reserved, from serial `first` on (R119). -/
def itemAddr (bs : List MatBundle) (objs : List GObj) (first y : Nat) : Nat :=
  let size := (bs.head?.map (·.itemBytes)).getD 1
  let ser := first + y / max size 1
  match bs.find? (fun b => b.first ≤ ser ∧ ser < b.first + b.count) with
  | some b => objAddr ((objs.find? (fun o => o.id = b.obj)).map (·.base) |>.getD 0) ((ser - b.first) * b.itemBytes + y % max size 1)
  | none => 0

/-- Far byte range of a walk from its offsets (R167). -/
def byteRange (t : Nat) (lo hi : Int) : Nat × Nat :=
  if t = 1 then (9 * (lo.toNat / 2), 9 * (hi.toNat / 2) + 9) else (lo.toNat * typeBits t / 8, (hi.toNat * typeBits t + typeBits t + 7) / 8)

/-- A walk that a descriptor makes without an address register. -/
def Desc.walk (d : Desc) : Xfer := { id := 0, didx := 0, d := d, start := d.start }

/-- Far bytes of the walk, as first byte from FAR_BASE and count; those of a gather or scatter are known at run time only. -/
def Desc.farFoot (d : Desc) : Nat × Nat :=
  if d.elems = 0 ∨ d.indexed then (0, 0)
  else
    let b := d.walk.bounds
    let y := byteRange d.elemType b.1 b.2
    (y.1, y.2 - y.1)

/-- The far bytes of the walk as a region: first address, count; of a gather or scatter, all that LIMIT allows. -/
def Desc.farRange (d : Desc) : Nat × Nat :=
  if d.indexed then (d.farBase, if d.elemType = 1 then 9 * ceilDiv d.limit 2 else ceilDiv (d.limit * typeBits d.elemType) 8)
  else (d.farBase + d.farFoot.1, d.farFoot.2)

/-- GDDR device and channel of a device address (R345, R346). -/
def gddrPlace (a : Nat) : Option (Nat × Nat) :=
  if gddrBase 0 ≤ a ∧ a < gddrBase 16 then some ((a - gddrBase 0) / 0x100000000, a / 2048 % 4) else none

/-- Where the far-side bytes of a transfer lie in this device's memory. -/
inductive FarMap where
  | lin (base : Nat)
  | obj (base skip : Nat)
  | items (bs : List MatBundle) (objs : List GObj) (first : Nat)
  | remote

/-- Address of far byte `y`; none when the bytes lie elsewhere. -/
def FarMap.at (f : FarMap) (y : Nat) : Option Nat :=
  match f with
  | .lin b => some (b + y)
  | .obj b k => some (objAddr b (k + y))
  | .items bs objs first => some (itemAddr bs objs first y)
  | .remote => none

/-- `n` far bytes from byte `y` on. -/
def farRd (s : State) (f : FarMap) (y n : Nat) : List Byte :=
  (List.range n).map fun i => match f.at (y + i) with
    | some a => mget s.mem a
    | none => 0

/-- Element `o` of type `t` in bytes that `rd` reads, as external memory stores it (R41, R124). -/
def elemIn (rd : Nat → Nat → List Byte) (t o : Nat) : Nat :=
  if t = 1 then fld (leNat (rd (9 * (o / 2)) 9)) (36 * (o % 2)) 36
  else if t = 2 then leNat (rd (8 * o) 8)
  else let b := typeBits t; fld (leNat (rd (o * b / 8) 1)) (o * b % 8) b

/-- Element `o` of type `t` as the far side stores it. -/
def farElem (s : State) (f : FarMap) (t o : Nat) : Nat := elemIn (farRd s f) t o

/-- The bytes that hold element `o`, with `v` in its place: byte offset and bytes (R140). -/
def farPatch (s : State) (f : FarMap) (t o v : Nat) : Nat × List Byte :=
  if t = 1 then (9 * (o / 2), leBytes 9 (setFld (leNat (farRd s f (9 * (o / 2)) 9)) (36 * (o % 2)) 36 v))
  else if t = 2 then (8 * o, leBytes 8 v)
  else let b := typeBits t; (o * b / 8, leBytes 1 (setFld (leNat (farRd s f (o * b / 8) 1)) (o * b % 8) b v))

/-- Element `o` written on the far side. -/
def farPut (f : FarMap) (t o v : Nat) (s : State) : State :=
  let w := farPatch s f t o v
  match f.at w.1 with
  | some a => s.wr a w.2
  | none => s

/-- Bytes of an element as a remote answer carries it: whole bytes, least significant first (log entry 14). -/
def wireBytes (t : Nat) : Nat :=
  match t with
  | 1 => 5
  | 2 => 8
  | _ => 1

/-! ### Bench side (R143, R165, R174 to R178) -/

/-- The pieces of an element at position `x` of a run: word, bit, width, value (Table 6-1). -/
def pieces (t x v : Nat) : List (Nat × Nat × Nat × Nat) :=
  match t with
  | 1 => [(x, 0, 36, v)]
  | 2 => [(2 * x, 0, 32, v % 2 ^ 32), (2 * x + 1, 0, 32, v / 2 ^ 32)]
  | 3 => [(x / 4, 8 * (x % 4), 8, v)]
  | 4 => [(x / 8, 4 * (x % 8), 4, v)]
  | _ => [(x / 16, 2 * (x % 16), 2, v)]

/-- One element packed: the bits of the word in progress, and the stream words that it completes, padding included. -/
def packElem (d : Desc) (n v : Nat) (carry : Nat) : Nat × List (Nat × Nat) :=
  let t := d.elemType
  let len := d.packRun
  let w0 := (d.packed n).1
  let x := (d.packed n).2
  let pad := fun (used : Nat) => (List.range (runWords t len - used)).map fun i => (w0 + used + i, 0)
  if perWord t = 1 then
    let used := (if t = 2 then 2 else 1) * (x + 1)
    (0, (pieces t x v).map (fun q => (w0 + q.1, q.2.2.2)) ++ if x + 1 = len then pad used else [])
  else
    let c := carry + v * 2 ^ (typeBits t * (x % perWord t))
    let used := x / perWord t + 1
    if x + 1 = len then (0, (w0 + x / perWord t, c) :: pad used)
    else if (x + 1) % perWord t = 0 then (0, [(w0 + x / perWord t, c)])
    else (c, [])

/-- The Galois element of an automorphism: 5^STEP, or 2N less it with CONJ (R175). -/
def galoisOf (logN step : Nat) (conj : Bool) : Nat :=
  let m := 2 ^ (logN + 1)
  let g := powMod 5 step m
  if conj then m - g else g

/-- Destination of source element `x` of a limb under the automorphism (R175): the j with rev(g·rev(j) + (g−1)/2) = x. -/
def galoisDest (logN g x : Nat) : Nat :=
  let n := 2 ^ logN
  let inv := powMod g (2 ^ (logN - 1) - 1) n
  rev logN (inv * (rev logN x + n - (g - 1) / 2 % n) % n)

/-- Bench key of stream word `w` of an inbound transfer (R165, R174, R175, R178). -/
def destKey (d : Desc) (w : Nat) : Nat :=
  let n := 2 ^ d.logN
  let base := d.benchRow * 64
  match d.xform with
  | 1 => base + w / n * n + rev d.logN (w % n)
  | 2 => base + w / n * n + galoisDest d.logN (galoisOf d.logN (fld d.xarg 0 17) (bit d.xarg 17)) (w % n)
  | 5 => wkey (d.benchRow + 64 * (w / 4096) + w % 64) (w / 64 % 64)
  | _ => base + w

/-- Words of a run that hold elements, padding left out. -/
def elemWords (t n : Nat) : Nat := if t = 2 then 2 * n else ceilDiv n (perWord t)

/-- Rows that the data of a transfer covers in the bench it names (R182): padding is written by an inbound one (R165); an outbound
one reads no row past its last element. -/
def Desc.dataRows (d : Desc) (outRows : Nat) : Nat :=
  if d.xform = 4 then outRows
  else if d.dir ∧ d.xform = 0 ∧ d.elems ≠ 0 then
    ceilDiv ((d.elems / max d.run 1 - 1) * runWords d.elemType d.run + elemWords d.elemType d.run) 64
  else ceilDiv d.words 64

/-- The row footprint of a transfer: data rows and header rows in one range (R182). -/
def Desc.footprint (d : Desc) (outRows : Nat) : Nat × Nat :=
  let n := d.dataRows outRows
  if d.headers ∧ 0 < d.headerCount then
    let lo := min d.benchRow d.headerRow
    let hi := max (d.benchRow + n) (d.headerRow + d.headerCount)
    (lo, hi - lo)
  else (d.benchRow, n)

/-- Whether the run of the `n`-th element is narrow (R138): the far side lies outside a bench, and the innermost stride is not +1, or
a run does not start on a grain, or does not span whole grains (R176 counts a repacked run's grains whole). Every run of a walk
is judged together; each run of a gather or scatter by its own start (R172). The weight tiers have no grains. -/
def Xfer.narrow (x : Xfer) (n : Nat) : Bool :=
  let g := grainElems x.d.elemType
  let outer := (x.d.counts.zip x.d.strides).dropLast
  let starts := if x.d.indexed then (x.offset (n / max x.d.run 1 * max x.d.run 1)) % (g : Int) == 0
    else x.start % g == 0 && outer.all fun e => decide (e.1 ≤ 1) || e.2 % (g : Int) == 0
  x.d.farKind != 0 && x.d.farKind != 4 &&
    (x.d.strides.getLastD 1 != 1 || !starts || (x.d.run % g != 0 && x.d.xform != 3))

/-- Byte of the far side in which the unit of element offset `o` begins, and the bytes of the unit (R124). -/
def unitByte (t o : Nat) : Nat := if t = 1 then 9 * (o / 2) else o * typeBits t / 8
def unitBytes (t : Nat) : Nat := if t = 1 then 9 else if t = 2 then 8 else 1

/-- Memory accesses of a narrow element: one, or two where its 9-byte unit straddles a 64-byte boundary of GDDR (R139). -/
def Xfer.accesses (x : Xfer) (base n : Nat) : Nat :=
  let y := base + unitByte x.d.elemType (x.offsetAt n).toNat
  if x.d.elemType = 1 ∧ (x.d.farKind = 2 ∨ x.d.farKind = 5 ∨ x.d.farKind = 6) ∧ 55 < y % 64 then 2 else 1

/-! ### Weight decode (R71 to R79) -/

/-- A weight header's fields that decode uses. -/
structure WHdr where
  base : Nat
  width : Nat
  sparsity : Nat
  shift : Nat
  rows : Nat
  cols : Nat
  rowZero : Nat
  data : Nat
  deriving DecidableEq, Repr

/-- The weight header at device address `a` (Table 3-2). -/
def weightHdr (s : State) (a : Nat) : WHdr :=
  let b := s.rd a 64
  { base := a, width := fld (getLe b 6 1) 0 2, sparsity := fld (getLe b 6 1) 2 2, shift := fld (getLe b 7 1) 0 6
    rows := getLe b 0x10 4, cols := getLe b 0x14 4, rowZero := getLe b 0x24 4, data := getLe b 0x28 4 }

/-- Bits of a stored value; bytes of an index word; value bytes of a row (Table 3-4, R75). -/
def WHdr.vbits (h : WHdr) : Nat := if h.width = 0 then 8 else if h.width = 1 then 4 else 2
def WHdr.ibytes (h : WHdr) : Nat := if h.sparsity = 1 then 8 else if h.sparsity = 2 then 4 else 0
def WHdr.vbytes (h : WHdr) : Nat :=
  (if h.sparsity = 0 then 64 else if h.sparsity = 1 then 32 else 16) * h.vbits / 8
def WHdr.blockBytes (h : WHdr) : Nat := 128 + 64 * h.ibytes + 64 * h.vbytes

/-- Whether block `b` is stored (R73). -/
def storedBlock (s : State) (h : WHdr) (b : Nat) : Bool := bit (mget s.mem (h.base + 0x40 + b / 8)).toNat (b % 8)

/-- Stored blocks below block `b` (R74). -/
def blocksBelow (s : State) (h : WHdr) (b : Nat) : Nat := ((List.range b).filter (storedBlock s h)).length

/-- End of the stored blocks below block `b` (R74). -/
def sliceEnd (s : State) (h : WHdr) (b : Nat) : Nat := h.base + h.data + blocksBelow s h b * h.blockBytes

/-- The stored value at column `c` of a row, from its index word and its value bytes (R75, R76). -/
def valueAt (h : WHdr) (iw vals c : Nat) : Int :=
  let v := fun n => signed h.vbits (fld vals (h.vbits * n) h.vbits)
  match h.sparsity with
  | 0 => v c
  | 1 =>
    let nib := fld iw (4 * (c / 4)) 4
    if c % 4 = nib % 4 then v (2 * (c / 4)) else if c % 4 = nib / 4 then v (2 * (c / 4) + 1) else 0
  | _ => if c % 4 = fld iw (2 * (c / 4)) 2 then v (c / 4) else 0

/-- The 64 rows of outputs of block `b` modulo `q` (R78). -/
def decodeBlock (s : State) (h : WHdr) (scaled : Bool) (q b : Nat) : List Nat :=
  if storedBlock s h b then
    let a := h.base + h.data + blocksBelow s h b * h.blockBytes
    (List.range 64).flatMap fun r =>
      let m := leNat (s.rd (a + 2 * r) 2)
      let iw := leNat (s.rd (a + 128 + r * h.ibytes) h.ibytes)
      let vals := leNat (s.rd (a + 128 + 64 * h.ibytes + r * h.vbytes) h.vbytes)
      (List.range 64).map fun c =>
        let p := valueAt h iw vals c * m
        ((if scaled then p * ((2 ^ h.shift : Nat) : Int) else p) % ((max q 1 : Nat) : Int)).toNat
  else List.replicate 4096 0

/-! ### Carried headers (R175, R180) -/

/-- The header that a bench row holds (R180). -/
def Pier.hdrAt (x : Pier) (row : Nat) : Hdr :=
  BitVec.ofNat 512 ((List.range 16).foldl (fun v w => v + fld (x.word row w).toNat 0 32 * 2 ^ (32 * w)) 0)

/-- The 64 words of a header row (R180, R268). -/
def hdrWords (h : Hdr) : List W36 :=
  (List.range 64).map fun w => if w < 16 then BitVec.ofNat 36 (fld h.toNat (32 * w) 32) else 0

/-- The Galois load's check of a header, 0 when it passes (R175). -/
def galoisCheck (r : Ring) (oper logN : Nat) (h : Hdr) : Nat :=
  if !ctValid r h then 0x0205
  else if !readable oper h.version then 0x0801
  else if h.poisoned then 0
  else if h.eval ∧ h.coeffFirst = 0 ∧ h.coeffCount = 2 ^ h.logN ∧ h.logN = logN then 0
  else 0x020B

/-- AUTOMORPHISM of a header that a Galois load delivers, composed with a pending one (R51). -/
def composeAuto (h : Hdr) (step : Nat) (conj : Bool) : Nat :=
  let half := 2 ^ (h.logN - 1)
  let k := if h.isPending then (fld h.auto 0 17 + step) % half else step % half
  let c := if h.isPending then (bit h.auto 17 != conj) else conj
  2 ^ 31 + (if c then 2 ^ 17 else 0) + k

/-- A header through a Galois load: the header delivered, and whether its part is delivered as zero. -/
def galoisHdr (r : Ring) (oper : Nat) (d : Desc) (h : Hdr) : Hdr × Bool :=
  let code := galoisCheck r oper d.logN h
  if code ≠ 0 then ((h.renew oper).poison code, true)
  else if h.poisoned then (h, false)
  else (((h.renew oper).put 0x38 4 (composeAuto h (fld d.xarg 0 17) (bit d.xarg 17))).seal, false)

/-- Whether the limb and coefficient ranges of `n` lie within those of `o` (R180). -/
def shardWithin (o n : Hdr) : Bool :=
  decide (o.limbFirst ≤ n.limbFirst) && decide (n.limbFirst + n.limbCount ≤ o.limbFirst + o.limbCount) &&
    decide (o.coeffFirst ≤ n.coeffFirst) && decide (n.coeffFirst + n.coeffCount ≤ o.coeffFirst + o.coeffCount)

/-- A header through RESHARD: the header delivered, and whether its part is delivered as zero. A header that it does not refuse for
its form is written anew with the chuck's SHARDING; of one that it refuses so, every other byte stays as it arrived (R7, R48,
R180). -/
def reshardHdr (r : Ring) (oper : Nat) (sharding : List Byte) (h : Hdr) : Hdr × Bool :=
  let put := fun (h : Hdr) => h.put 0x28 16 (setFld (leNat sharding) 19 5 0)
  let new := put (h.renew oper)
  if h.isShare then (h.poison 0x020B, true)
  else if !ctValid r h then ((put h).poison 0x0205, true)
  else if !readable oper h.version then ((put h).poison 0x0801, true)
  else if h.poisoned then (new.seal, false)
  else if shardWithin h new then (new.seal, false)
  else (new.poison 0x020B, true)

/-- A header as a transfer delivers it: the Galois load first, then RESHARD on what passed it. -/
def carryHdr (r : Ring) (oper : Nat) (d : Desc) (h : Hdr) : Hdr × Bool :=
  let g := if d.xform = 2 ∧ ¬ d.dir then galoisHdr r oper d h else (h, false)
  if d.reshard then
    if g.2 then ((if g.1.isShare then g.1 else (g.1.put 0x28 16 (setFld (leNat d.sharding) 19 5 0)).seal), true)
    else reshardHdr r oper d.sharding g.1
  else g

/-- The part of the stream, out of `n` equal parts, that element `e` of `total` lies in (R180). -/
def partOf (n total e : Nat) : Nat := if total = 0 then 0 else e * n / total

/-! ### Caches (R156 to R158, R338) -/

/-- A cacheable read of GDDR that reaches the LLM: hit, or miss with the block fetched, least recently used out (R338). -/
def llmTouch (block unpinnedMib : Nat) (s : State) : State :=
  let sets := unpinnedMib * 2 ^ 20 / 32768
  if sets = 0 then s
  else if s.llmCache.contains block then
    { s with llmCache := s.llmCache.filter (· != block) ++ [block] }.bump llmLlmCacheHits 0 0 1
  else
    let mates := s.llmCache.filter fun b => b % sets = block % sets
    let kept := if mates.length < 16 then s.llmCache else s.llmCache.filter (· != mates.headD 0)
    { s with llmCache := kept ++ [block] }.bump llmLlmCacheMisses 0 0 1

/-- A cacheable read of a line (address / 2,048) that no bench cache serves: one of GDDR reaches the LLM's unpinned cache (R338). -/
def State.lineTouch (s : State) (line : Nat) : State :=
  if 0x1000000000 ≤ line * 2048 then
    llmTouch line (32 * s.dreg llmCacheSteps - (s.images.map fun e => e.2.pinMib).foldl (· + ·) 0) s
  else s

/-- The way of a line in the bench cache: the row of a free way of its set, or of the least recently used one, and the
lines that stay (R156). -/
def Pier.wayFor (x : Pier) (line : Nat) : Nat × List (Nat × Nat) :=
  let sets := 32 * x.cacheBlocks
  let set := line % max sets 1
  let base := 16384 - 1024 * x.cacheBlocks + set * 32
  let mates := x.cache.filter fun e => e.1 % max sets 1 = set
  match (List.range 4).find? (fun w => !(mates.any fun e => e.2 = base + 8 * w)) with
  | some w => (base + 8 * w, x.cache)
  | none => match mates with
    | [] => (base, x.cache)
    | e :: _ => (e.2, x.cache.filter (fun f => f.1 != e.1))

/-- The 64 words of row `r` of a line as the bench cache holds it (R156). -/
def cacheWords (s : State) (line r : Nat) : List W36 :=
  let bytes := s.rd (line * 2048 + 256 * r) 256
  (List.range 64).map fun i => BitVec.ofNat 36 (getLe bytes (4 * i) 4)

/-- Bytes of the bench cache's line that holds device address `a`, from its rows; none where no way holds the line. -/
def Pier.cacheByte (x : Pier) (a : Nat) : Option Nat :=
  (x.cache.find? fun e => e.1 = a / 2048).map fun e => fld (x.word (e.2 + a % 2048 / 256) (a % 256 / 4)).toNat (8 * (a % 4)) 8

/-- Whether a line is in the bench cache with every row of it stored: no transfer fills it (R158). -/
def Pier.lineReady (x : Pier) (line fc : Nat) : Bool :=
  (x.cache.any fun e => e.1 == line) && !(x.chucks.any fun c => c.2.xfers.any fun y =>
    y.fill.any fun f => f.line == line && (decide (0 < f.left) || decide (fc < f.due)))

end Sys2Proof.Machine
end

