-- ==== Sys2Proof/Machine/Chucks.lean ====
section
/-! DEFINITION. Chuck transfers at their issue: the far side they name, its residency, the checks of the issue fc, the scoreboard
entry they take, index rows and sources (07_chucks R163 to R173, R183, R184; 06_bench R150 to R154; the exchange windows of
15_time_scaleout R400 to R403). -/
namespace Sys2Proof.Machine

/-! ### Windows on the far side (R361, R400 to R402) -/

/-- Window id of a device address at or above 0x8000_0000_0000. -/
def windowOf (a : Nat) : Nat := (a - windowBase) / 2 ^ 32

/-- The exchange channel of window id `w`. -/
def State.channelOf (s : State) (w : Nat) : Option Channel :=
  if w < 1024 then none else s.sys.bind fun i => i.channels.find? fun c => c.id = w - 1024

/-- A channel changed. -/
def State.modChannel (s : State) (id : Nat) (f : Channel → Channel) : State :=
  { s with sys := s.sys.map fun i => { i with channels := i.channels.map fun c => if c.id = id then f c else c } }

/-- Whether this device is the channel's source. -/
def State.isSource (s : State) (c : Channel) : Bool := c.src == s.dreg tbDeviceId

/-- The stamp of a slot that this device holds: RELEASED at the source, ARRIVED at the destination (R400). -/
def State.stampAt (s : State) (c : Channel) (k : Nat) : Nat := leNat (s.rd (c.stampAddr + 8 * k) 8)

/-- The beat whose data an exchange transfer moves: its own beat at the source; at the destination the expected beat (R402). -/
def dataBeat (s : State) (c : Channel) (shift : Nat) (x : Xfer) : Nat :=
  if s.isSource c then x.beat else x.beat - c.lag - shift

/-- The length of window `w` as it stands, when it is registered and remote, or an exchange slot (R167, R292, R401). -/
def State.remoteLen (s : State) (w : Nat) : Option Nat :=
  if w < 1024 then
    let e := s.win w
    if e.st = .opened ∧ e.remote then some e.length else none
  else (s.channelOf w).map fun c => c.bytes

/-! ### Sources (R110, R119, R179) -/

/-- The batch of pier `p`. -/
def State.batchOf (s : State) (p : Nat) : Batch :=
  match s.spanOf p with
  | some (k, _) => (s.span k).batch.getD noBatch
  | none => noBatch

/-! ### Inter-span tensors and BOUNDARY records (R470, R472) -/

/-- The descriptors of every stage of span `k`. -/
def State.spanDescs (s : State) (k : Nat) : List Desc :=
  (s.span k).piers.zipIdx.flatMap fun e =>
    let n := ((s.stageProg k e.2).map fun g => g.desc.length / 128).getD 0
    (List.range n).map (s.pier e.1).desc

/-- Header slots, as a region, of a descriptor that moves to or from the LLM or GDDR. -/
def Desc.slotRegion (d : Desc) : Nat × Nat := (d.farHeader, if d.headers then 64 * d.headerCount else 0)

/-- The LLM and GDDR regions that span `k` names as input, or writes: data and header slots. -/
def State.spanRegions (s : State) (k : Nat) (out : Bool) : List (Nat × Nat) :=
  ((s.spanDescs k).filter fun d => d.dir == out && (d.farKind == 1 || d.farKind == 2)).flatMap fun d =>
    [d.farRange, d.slotRegion]

/-- A span with a batch that has launched and has no BOUNDARY record yet. -/
def Span.unbounded (sp : Span) : Bool := sp.running || (sp.batch.toList ++ sp.fixed).any (·.replay)

/-- Whether span `k` writes what such a batch of another span names as input: it does not launch then (R470). -/
def State.inputsInUse (s : State) (k : Nat) : Bool :=
  s.spans.any fun e => e.1 != k && e.2.unbounded &&
    (s.spanRegions e.1 false).any fun r => (s.spanRegions k true).any fun w => overlaps r.1 r.2 w.1 w.2

/-- Whether the header slot at `a` belongs to a tensor that another span reads than `k`, which writes it. -/
def State.interSpan (s : State) (k a : Nat) : Bool :=
  s.spans.any fun e => e.1 != k && (s.spanDescs e.1).any fun d =>
    !d.dir && (d.farKind == 1 || d.farKind == 2) && overlaps d.slotRegion.1 d.slotRegion.2 a 1

/-- The batch of span `k` has committed objects with these header slots and headers; those of inter-span tensors are kept for
its BOUNDARY record. -/
def noteCommits (k : Nat) (hs : List (Nat × Hdr)) (s : State) : State :=
  let mine := hs.filter fun e => s.interSpan k e.1
  if mine.isEmpty then s
  else s.modSpan k fun sp => { sp with
    batch := sp.batch.map fun b => { b with commits := mine.foldl (fun l e => tput l e.1 e.2.gen) b.commits } }

/-- GENERATION in the latest BOUNDARY record that lists the header slot at `a`. -/
def State.boundaryGen (s : State) (a : Nat) : Option Nat :=
  s.spans.findSome? fun e => e.2.boundaries.reverse.findSome? fun r => tfind r.2.2 a

/-- The member whose object has its header slot at `a`: by its place in the tensor's shard, else its place in the transfer. -/
def memberAt (s : State) (k : Nat) (b : Batch) (a i : Nat) : Nat :=
  let n := b.members.length
  match (s.imageOf k).bind fun im => im.shards.find? fun h => decide (h.header ≤ a ∧ a < h.header + 64 * n) with
  | some h => (a - h.header) / 64
  | none => i

/-- The batch of span `k` has written the header `h` at `a`, the `i`-th of its transfer, outside the benches: a poisoned one is kept for
the commit (R59). -/
def noteOut (k a i : Nat) (h : Hdr) (s : State) : State :=
  match (s.span k).batch with
  | some b =>
    if !h.poisoned ∧ (tfind b.outs a).isNone then s
    else
      let outs := if h.poisoned then tput b.outs a (memberAt s k b a i, if h.isShare then 0 else h.shardIndex, h.code) else tdel b.outs a
      s.modSpan k fun sp => { sp with batch := sp.batch.map fun b => { b with outs := outs } }
  | none => s

/-- A replayed batch reads the object with header slot `a` and header `h`: where a BOUNDARY record gives another GENERATION,
the member is poisoned with 0x0607 and one record is written (R472). -/
def checkReplay (p k i a : Nat) (h : Hdr) (s : State) : State :=
  match (s.span k).batch, s.boundaryGen a with
  | some b, some g =>
    let n := memberAt s k b a i
    match b.members[n]? with
    | some m =>
      if !b.replay ∨ h.gen = g ∨ m.code = 0x0607 then s
      else raise { code := 0x0607, action := 1, unit := 1, pier := p, span := k, session := m.session, request := m.seq }
        (poisonMember p n (modMember k n (fun m => { m with code := 0x0607 }) s))
    | none => s
  | _, _ => s

/-- The key entry that a descriptor names (Table 7-3, FAR_KIND 5). -/
def State.keyEnt (s : State) (k : Nat) (d : Desc) : Option KeyEnt :=
  (s.imageOf k).bind fun im => im.keys[fld d.farBase 0 16]?

/-- The kept key object of the batch's key set that serves a key entry (R100). -/
def State.keyObj (s : State) (tag : Nat) (e : KeyEnt) : Option KeyObj :=
  (s.keysets.find? fun q => q.tag = tag).bind fun q => q.objs.find? fun o =>
    o.kind = e.kind ∧ o.galois = e.galois ∧ o.boot = e.boot

/-- The base of an internal object. -/
def State.objBase (s : State) (id : Nat) : Nat := ((s.objs.find? fun o => o.id = id).map (·.base)).getD 0

/-- Where the far bytes of a transfer of pier `p` lie (Table 7-3). -/
def State.farMap (s : State) (p : Nat) (x : Xfer) : FarMap :=
  let b := s.batchOf p
  match x.d.farKind with
  | 3 => match s.channelOf (windowOf x.d.farBase) with
    | some c =>
      if s.isSource c then .remote
      else .lin (c.base + (dataBeat s c b.feedShift x % max c.k 1) * c.bytes + (x.d.farBase - windowBase) % 2 ^ 32)
    | none => .remote
  | 5 => .obj x.src 64
  | 6 =>
    let m := b.members[fld x.d.farBase 16 8]?
    let ent := fld x.d.farBase 0 8
    match m.bind fun m => (s.requests.find? fun r => r.session = m.session ∧ r.seq = m.seq) with
    | some r =>
      let first := ((r.ranges.find? fun g => g.1 = ent).map (·.2.1)).getD 0
      let im := tfind s.images r.handle
      let cls := (tfind s.sessions r.session).bind fun se =>
        (im.bind fun im => im.mats[ent]?).bind fun e => se.classes.find? fun c => c.ent = { e with perReq := c.ent.perReq }
      .items ((cls.map (·.bundles)).getD []) s.objs first
    | none => .items [] s.objs 0
  | _ => .lin x.d.farBase

/-! ### Faults of a stream (R167, R171, R185) -/

/-- DETAIL of a stream fault: chuck, descriptor, far address, cursor coordinates (Table 18-4). -/
def streamDetail (j : Nat) (x : Xfer) (n : Nat) : List Byte :=
  let o := (x.offsetAt n).toNat
  let far := x.d.farBase + (if x.d.farKind = 4 then o else unitByte x.d.elemType o)
  let cs := coords x.d.counts (x.d.visit n)
  leBytes 1 j ++ leBytes 1 x.didx ++ leBytes 6 far ++ (List.range 5).flatMap fun i => leBytes 3 (cs.getD i 0)

/-- A stream fault: one record, and the abort of the span (R186, Table 7-6). -/
def streamFault (code p k j : Nat) (x : Xfer) (n : Nat) (s : State) : State :=
  stopSpan k (.abort code)
    (raise { code := code, action := 3, unit := 1, pier := p, span := k, detail := streamDetail j x n } s)

/-! ### Page waits (R184, R367, R402) -/

/-- Whether every page that bytes [y, y+n) of a remote window touch is resident (R367). -/
def residentAt (s : State) (e : Window) (y n : Nat) : Bool :=
  (List.range ((y + n - 1) / 65536 - y / 65536 + 1)).all fun i =>
    let page := y / 65536 + i
    bit (mget s.mem (llmBase + e.bitmap + page / 8)).toNat (page % 8)

/-- Whether the access at the cursor may be issued: the residency bits of the pages it touches, header slots that are still to
move included; the stamp of an exchange slot. -/
def accessOk (s : State) (p : Nat) (x : Xfer) : Bool :=
  if x.d.farKind ≠ 3 then true
  else
    let w := windowOf x.d.farBase
    match s.channelOf w with
    | some c =>
      let b := dataBeat s c (s.batchOf p).feedShift x
      let k := b % max c.k 1
      x.cursor != 0 || (if s.isSource c then s.stampAt c k == tget 0xFFFFFFFFFFFFFFFF c.written k else s.stampAt c k == b)
    | none =>
      let e := s.win w
      if !e.residency ∨ x.d.elems ≤ x.cursor then true
      else
        let y := (x.d.farBase - windowBase) % 2 ^ 32 + unitByte x.d.elemType (x.offsetAt x.cursor).toNat
        let h := (x.d.farHeader - windowBase) % 2 ^ 32
        residentAt s e y (unitBytes x.d.elemType) &&
          (!x.d.headers || x.hdrDone || x.d.headerCount == 0 || residentAt s e h (64 * x.d.headerCount))

/-- Elements of the next `n` before the first whose access may not be issued. -/
def Xfer.reach (x : Xfer) (s : State) (p n : Nat) : Nat :=
  if x.d.farKind ≠ 3 then n else ((List.range n).find? fun i => !accessOk s p { x with cursor := x.cursor + i }).getD n

/-- A transfer that moves and may not issue its next access stops at its cursor; PAGE_WAITS counts the stop (R184). -/
def pageStop (p : Nat) (x : Xfer) (s : State) : Xfer × State :=
  ({ x with phase := .pageWait s.now (s.now + 1000 * s.reg ckRetryUs p 0) }, s.bump ckPageWaits p 0 1)

/-- A transfer about to move: it stops when its access is not resident. -/
def tryMove (p : Nat) (x : Xfer) (s : State) : Xfer × State :=
  if x.phase = .moving ∧ x.index.isNone ∧ ¬ accessOk s p x then pageStop p x s else (x, s)

/-! ### Issue (R163, R166, R167, Table 6-4) -/

/-- A chuck. -/
def Pier.chuck (x : Pier) (j : Nat) : Chuck := tget {} x.chucks j

/-- A chuck changed. -/
def State.modChuck (s : State) (p j : Nat) (f : Chuck → Chuck) : State :=
  s.modPier p fun x => { x with chucks := tput x.chucks j (f (x.chuck j)) }

/-- Whether the transfer moves no element (R166). -/
def Xfer.zero (x : Xfer) : Bool := x.d.counts.any (· == 0)

/-- The phase of a transfer whose entry admits it: nothing to move, timed before its target, or moving. -/
def Xfer.startPhase (x : Xfer) (now : Nat) : XfPhase :=
  if x.zero then .moved
  else match x.target with
    | some t => if now < t then .timed t else .moving
    | none => .moving

/-- The scoreboard transition of a transfer's entry (Table 6-4); `false` when the transfer waits for it. An outbound transfer that
names a Free entry reads at once and leaves the entry Free (DESIGN CHOICE, log entry 65). -/
def enterSb (x : Xfer) (pr : Pier) : Pier × Bool :=
  let f := if x.zero then (x.d.benchRow, 0) else x.d.footprint x.outRows
  if x.d.dir then
    match pr.sbAt x.d.sbEntry with
    | some (.full r n) => ({ pr with sb := tput pr.sb x.d.sbEntry (.draining r n 1) }, true)
    | some (.draining r n m) => ({ pr with sb := tput pr.sb x.d.sbEntry (.draining r n (m + 1)) }, true)
    | some (.filling _ _) => (pr, false)
    | none => (pr, true)
  else
    match pr.sbAt x.d.sbEntry with
    | some (.filling _ _) => (pr, false)
    | some (.draining _ _ _) => (pr, false)
    | _ => ({ pr with sb := tput pr.sb x.d.sbEntry (.filling f.1 f.2) }, true)

/-- The FILLING entries that a reading transfer may wait for: those of now, or those of the transfers whose drain it joins, which it
does at once (Table 6-4, log entry 64). -/
def Pier.readerWaits (pr : Pier) (x : Xfer) : List Nat :=
  match pr.sbAt x.d.sbEntry with
  | some (.draining _ _ _) =>
    ((pr.chucks.flatMap fun c => c.2.xfers).find? fun y => y.d.dir && y.d.sbEntry == x.d.sbEntry && y.phase != .entryWait && !y.settled).elim
      pr.fillings (·.after)
  | _ => pr.fillings

/-- A transfer whose entry admits it starts: its phase, and the fc in which it counts as issued (R166). -/
def Xfer.admitted (x : Xfer) (pr : Pier) (now fc : Nat) : Xfer :=
  { x with phase := x.startPhase now, storedAt := fc + 1, readAt := fc, after := pr.readerWaits x }

/-- The transfer takes its place in the chuck, with its entry's transition or a wait for it. -/
def admitXfer (p j : Nat) (x : Xfer) (s : State) : State :=
  let r := enterSb x (s.pier p)
  let x1 := if r.2 then x.admitted (s.pier p) s.now s.clk.fc else { x with phase := .entryWait }
  let m := tryMove p x1 (s.setPier p r.1)
  m.2.modChuck p j fun c => { c with xfers := c.xfers ++ [m.1] }

/-- The indices that index row `r` of a gather or scatter holds (R171). -/
def Pier.indices (pr : Pier) (d : Desc) (r : Nat) : List Int :=
  (List.range (min 64 (d.counts.getD 0 0 - 64 * r))).map fun j => signed 32 (mget pr.bench ((d.indexRow + r) * 64 + j)).toNat

/-- Index rows of a transfer: one for 64 indices (R171). -/
def Desc.indexRows (d : Desc) : Nat := if d.indexed then ceilDiv (d.counts.getD 0 0) 64 else 0

/-- Offset range of a transfer, gathers included. -/
def Xfer.range (x : Xfer) : Int × Int :=
  if x.d.indexed then
    let far := ((x.d.run : Int) - 1) * x.d.strides.getD 1 0
    let los := x.idx.map fun i => (x.start : Int) + i + min far 0
    let his := x.idx.map fun i => (x.start : Int) + i + max far 0
    (los.foldl min (los.headD 0), his.foldl max (his.headD 0))
  else x.bounds

/-- The fault that a transfer meets at issue, or when its last index row has been read, with the cursor that its record names (R167,
R171, R292, R345; R16 for a slice that is not usable). -/
def issueFault (s : State) (p : Nat) (x : Xfer) : Option (Nat × Nat) :=
  if x.zero ∨ x.index.isSome then none
  else
    let b := x.range
    if x.d.indexed ∧ x.badIndex.isSome then some (0x0303, x.badIndex.getD 0 * x.d.run)
    else if ¬ x.d.indexed ∧ (b.1 < 0 ∨ (x.d.limit : Int) ≤ b.2) then some (0x0301, 0)
    else
      let y := byteRange x.d.elemType b.1 b.2
      if x.d.farKind = 1 then
        if llmBase ≤ x.d.farBase + y.1 ∧ x.d.farBase + y.2 ≤ llmBase + s.scratch then none else some (0x0301, 0)
      else if x.d.farKind = 4 then
        if sliceBase p ≤ x.d.farBase ∧ x.d.farBase < sliceBase (p + 1) ∧
            sliceEnd s (weightHdr s x.d.farBase) (b.2.toNat + 1) ≤ sliceBase (p + 1) then none else some (0x0301, 0)
      else if x.d.farKind = 2 then
        let a := x.d.farBase + y.1 - gddrBase 0
        let z := x.d.farBase + y.2 - 1 - gddrBase 0
        if a % 2 ^ 32 < 0xC0000000 ∧ z % 2 ^ 32 < 0xC0000000 ∧ a / 2 ^ 32 = z / 2 ^ 32 then none else some (0x0301, 0)
      else if x.d.farKind = 3 then
        let w := windowOf x.d.farBase
        match s.remoteLen w with
        | none => some (0x0304, 0)
        | some len =>
          let o := (x.d.farBase - windowBase) % 2 ^ 32
          let h := (x.d.farHeader - windowBase) % 2 ^ 32 + 64 * x.d.headerCount
          if len < o + y.2 ∨ (x.d.headers ∧ 0 < x.d.headerCount ∧ len < h) then some (0x0301, 0) else none
      else none

/-- Blocks that a decode visits, in stream order, and those of them that yield rows (R177, R79). -/
def Xfer.blocksOf (x : Xfer) : List Nat := (List.range x.d.elems).map fun n => (x.offset n).toNat
def emits (s : State) (x : Xfer) (b : Nat) : Bool := !x.d.skipZero || storedBlock s (weightHdr s x.d.farBase) b

/-- The source of a key stream: its object's base, whether it is served from a pinned slot, whether it delivers the zero
key of an erased set (R105, R110, R111). -/
def resolveKey (s : State) (k : Nat) (x : Xfer) : Xfer × Bool :=
  let b := (s.span k).batch.getD noBatch
  let idx := fld x.d.farBase 0 16
  let erasing := (s.keysets.find? fun q => q.tag = b.keyTag).bind (·.erasing)
  match (s.keyEnt k x.d).bind fun e => (s.keyObj b.keyTag e).map fun o => (e, o) with
  | some (e, o) =>
    let pinned := e.pin && (((s.imageOf k).map (·.pins)).bind fun ps => tfind ps idx) == some b.keyTag
    ({ x with src := s.objBase o.obj, pinned := pinned, zeroKey := erasing == some 1 }, pinned && erasing != some 1)
  | none => ({ x with zeroKey := true }, false)

/-- A transfer at its issue with its beat, the index rows that it reads, its source and the rows of its weight decode, and whether it takes its key
from a pinned slot (R110, R111, R171, R177, R401). -/
def resolveXfer (s : State) (k : Nat) (x0 : Xfer) : Xfer × Bool :=
  let beat := (x0.target.getD s.now) / 1000
  let x1 := { x0 with beat := beat, index := if x0.d.indexed ∧ ¬ x0.zero then some (x0.d.indexRows, 0) else none }
  let r := if x1.d.farKind = 5 then resolveKey s k x1 else (x1, false)
  ({ r.1 with outRows := if x1.d.xform = 4 then 64 * (r.1.blocksOf.filter (emits s r.1)).length else 0 }, r.2)

/-- A transfer starts: sources resolved, checks of the issue fc, then its place in the chuck. -/
def beginXfer (p k j : Nat) (x0 : Xfer) (s : State) : State :=
  let r := resolveXfer s k x0
  match issueFault s p r.1 with
  | some (code, n) => streamFault code p k j r.1 n s
  | none => admitXfer p j r.1 (if r.2 then s.bump keyPinHits 0 0 1 else s)

/-- The transfer that an issue of descriptor `n` makes: START raised by the select field's value modulo 2^32 (R163, R259). -/
def madeXfer (pr : Pier) (n startAdd : Nat) (target : Option Nat) : Xfer :=
  { id := pr.nextId, didx := n, d := pr.desc n, start := ((pr.desc n).start + startAdd) % 2 ^ 32, target := target }

/-- The descriptor of a transfer with the START of its issue. -/
def Xfer.raised (x : Xfer) : Desc := { x.d with start := x.start }

/-- A transfer issued to chuck `j`: a fifth one holds the span and waits (R181). -/
def issueXfer (c : Ctx) (j didx startAdd : Nat) (target : Option Nat) (s : State) : State :=
  let pr := s.pier c.p
  let x := madeXfer pr didx startAdd target
  let s1 := s.modPier c.p fun pr => { pr with nextId := pr.nextId + 1 }
  let s2 := if x.d.farKind = 0 ∧ target.isNone then s1 else openPhase c s1
  if (pr.chuck j).xfers.length < 4 then beginXfer c.p c.k j x s2
  else raiseHold c.k c.p .chuckIssue [j] .nothing (s2.modChuck c.p j fun ch => { ch with waiting := ch.waiting ++ [x] })

/-- CHK (R259). -/
def execChk (i : Iss) (chuck desc : Nat) (arstart : Sel) (s : State) : Host.Outcome State Fault Refusal :=
  issue i s fun c s => issueXfer c chuck desc ((s.pier c.p).seq.sel arstart) none s

/-- LAUNCH (R263, R265): a timed transfer or a timed exchange send; one whose target has passed fires in this fc. -/
def execLaunch (i : Iss) (o : LaunchOp) (s : State) : Host.Outcome State Fault Refusal :=
  issue i s fun c s =>
    let pr := s.pier c.p
    let t := target c pr.seq o.t
    let late := decide (t ≤ s.now)
    let s1 := if late then s.bump seqLateLaunches c.p 0 1 else s
    if o.kind = 0 then issueXfer c o.chuck o.desc (pr.seq.sel o.arstart) (some t) s1
    else
      let a : TimedAct := { id := pr.nextId, target := t, sendSlot := o.sendSlot }
      let s2 := openPhase c (s1.modPier c.p fun pr => { pr with nextId := pr.nextId + 1 })
      if late then (s2.modPier c.p fun pr => { pr with timed := pr.timed ++ [a] }).enqueue (.timedActionFire c.p a.id)
      else if pr.timed.length < 4 then s2.modPier c.p fun pr => { pr with timed := pr.timed ++ [a] }
      else raiseHold c.k c.p .launch [] (.launch a) s2

end Sys2Proof.Machine
end

