-- ==== Sys2Proof/Machine/Transfers.lean ====
section
/-! DEFINITION. The data path of the chucks: what arrives from and leaves for the far side over the IO links, what is written to
and read from the bench in slot 3, the bench cache, completion and failure (07_chucks R165 to R186; 06_bench R146 to R158;
01_architecture R28 to R31). -/
namespace Sys2Proof.Machine

/-! ### Shared operations -/

/-- A transfer of chuck `j` replaced, by its identifier. -/
def State.setXfer (s : State) (p j : Nat) (x : Xfer) : State :=
  s.modChuck p j fun c => { c with xfers := c.xfers.map fun y => if y.id = x.id then x else y }

/-- A transfer of chuck `j`, by its identifier. -/
def State.xferAt (s : State) (p j id : Nat) : Option Xfer := ((s.pier p).chuck j).xfers.find? fun x => x.id = id

/-- Whether nothing of a transfer is left but its completion: every element accessed, nothing on its way or waiting for slot 3. -/
def Xfer.drained (x : Xfer) : Bool :=
  decide (x.d.elems ≤ x.cursor) && x.index.isNone && x.coming == 0 && x.part.isEmpty && x.rows.isEmpty && x.lag.isEmpty &&
    x.outq.isEmpty && x.blocks.isEmpty && x.fill.isNone && (!x.d.cacheable || x.served == x.cursor)

/-- A transfer all of whose elements have moved and whose words are all on their way. -/
def Xfer.settleMoved (x : Xfer) : Xfer :=
  if (x.phase == .moving || x.phase == .rowWait) && x.drained then { x with phase := .moved } else x

/-- The value that stream element `e` delivers: zero in a part whose header was delivered poisoned, and for a zero key (R105, R180). -/
def masked (x : Xfer) (e v : Nat) : Nat :=
  if x.zeroKey ∨ x.badParts.contains (partOf x.d.headerCount x.d.elems e) then 0 else v

/-- A key stream that ends counts its bytes and fills the pin slot of its entry (R111, Table 4-9). -/
def keyDone (k : Nat) (x : Xfer) (s : State) : State :=
  if x.d.farKind = 5 ∧ x.phase = .moved then
    let s1 := s.bump2 keyKeyBytesLo keyKeyBytesHi 0 0 (x.d.elems * 9 / 2)
    let idx := fld x.d.farBase 0 16
    let tag := ((s.span k).batch.getD noBatch).keyTag
    if ((s.keyEnt k x.d).map (·.pin)).getD false ∧ ¬ x.pinned ∧ ¬ x.zeroKey then
      { s1 with images := tmap (fun h im => if h = (s.span k).handle then { im with pins := tput im.pins idx tag } else im) s1.images }
    else s1
  else s

/-- A transfer put back after some of its work: `.moved`, with its key counted, once nothing of it is left. -/
def afterMove (p k j : Nat) (x : Xfer) (s : State) : State :=
  let y := x.settleMoved
  (if y.phase = x.phase then s else keyDone k y s).setXfer p j y

/-- Elements counted as they are moved, and the accesses of those that are narrow (R139, R185). -/
def countElems (p : Nat) (x : Xfer) (ns : List Nat) (s : State) : State :=
  let s1 := s.bump2 ckElementsLo ckElementsHi p 0 ns.length
  let n := ((ns.filter fun n => x.narrow (x.d.visit n)).map fun n => x.accesses 0 n).foldl (· + ·) 0
  if n = 0 then s1 else s1.bump ckNarrowAccesses p 0 n

/-! ### Flits (R30, R31, R138, R139, Table 7-5) -/

/-- Bits that an item takes of the flits it travels in: a narrow element travels alone (R139). -/
def Xfer.itemBits (x : Xfer) : FarItem → Nat
  | .hdr _ _ => 512
  | .elem n _ => if x.narrow (x.d.visit n) then 512 else typeBits x.d.elemType
  | .line _ _ => 2048

/-- Items in the flits of 64 bytes that carry them: an item comes with its last bit. -/
def chunkItems (bits : FarItem → Nat) : Nat → List FarItem → List FarItem → List (List FarItem)
  | _, cur, [] => if cur.isEmpty then [] else [cur.reverse]
  | used, cur, i :: r =>
    let n := used + bits i
    if n ≤ 512 then chunkItems bits n (i :: cur) r
    else cur.reverse :: (List.replicate ((n - 1) / 512 - 1) [] ++ chunkItems bits ((n - 1) % 512 + 1) [i] r)

/-- The items whose last bit is among the next 512 − `used`, those that stay, and the bits of the first of these that have left. -/
def takeFlit (bits : FarItem → Nat) : Nat → List FarItem → List FarItem × List FarItem × Nat
  | _, [] => ([], [], 0)
  | used, i :: r =>
    if used + bits i ≤ 512 then
      let t := takeFlit bits (used + bits i) r
      (i :: t.1, t.2)
    else ([], i :: r, 512 - used)

/-- The next flit of a queue of whose first item `sent` bits have left. -/
def nextFlit (bits : FarItem → Nat) (sent : Nat) : List FarItem → List FarItem × List FarItem × Nat
  | [] => ([], [], 0)
  | i :: r =>
    if bits i ≤ sent + 512 then
      let t := takeFlit bits (bits i - sent) r
      (i :: t.1, t.2)
    else ([], i :: r, sent + 512)

/-- The die, the IO link's direction and the row of a flit. -/
def Flit.port (f : Flit) : Nat := 2 * (f.pier / 96) + if f.inb then 1 else 0
def Flit.row (f : Flit) : Nat := f.pier % 12

/-- Words that a bit-reversing transfer's turn buffer holds, and those on the way to it (R174). -/
def Xfer.turnWords (x : Xfer) (p : Nat) (links : List Flit) : Nat :=
  x.part.length + 64 * x.rows.length +
    ((links.filter fun f => f.due != 0 && f.inb && f.pier == p && f.xfer == x.id).map fun f => f.items.length).foldl (· + ·) 0

/-- Whether the chuck can take an inbound flit now: the turn buffer of bit reversal holds two groups. -/
def State.roomFor (s : State) (f : Flit) : Bool :=
  match s.xferAt f.pier f.chuck f.xfer with
  | some x => x.d.xform != 1 ||
    (let n := x.turnWords f.pier s.links; n == 0 || decide (n + f.items.length ≤ 2 * x.d.groupElems))
  | none => true

/-- Flits that wait at an IO link and may be accepted in this fc, in their order; the IO die sends a pier one flit an fc, its far port's
limit (R30, Table 7-5). -/
def State.offers (s : State) (port : Nat) : List Flit :=
  let ws := s.links.filter fun f => f.due == 0 && f.port == port && decide (f.offered ≤ s.clk.fc)
  if port % 2 = 0 then ws
  else (ws.foldl (fun l f => if l.any fun g => g.pier == f.pier then l else f :: l) ([] : List Flit)).reverse.filter s.roomFor

/-- The flits of `ws` in the order in which the link takes them: round robin across the rows from row `turn` on (R31). -/
def roundRobin (turn : Nat) (ws : List Flit) : List Flit :=
  let ranked := ws.zipIdx.map fun e =>
    (((ws.take e.2).filter fun g => g.row == e.1.row).length * 12 + (e.1.row + 12 - turn % 12) % 12, e.1)
  (ranked.foldl (fun l e => insertBy (·.1) e l) []).map (·.2)

/-- The flits that IO link `port` accepts in this fc, at most 64: 4,096 B. Each crosses in 14 fc; an inbound one goes on along its row's
trunk, and what it carries can be used from the fc after its arrival (R28, R30, R31). -/
def acceptLink (port : Nat) (s : State) : State :=
  let ws := s.offers port
  if ws.isEmpty then s
  else
    let took := (roundRobin (tget 0 s.linkTurn port) ws).take 64
    let land := fun (f : Flit) => { f with due := s.clk.fc + ioCrossing + if f.inb then trunkHops f.pier + 1 else 0 }
    { s with
      links := s.links.map fun f => if f.due = 0 ∧ took.contains f then land f else f
      linkTurn := tput s.linkTurn port (((took.getLast?.map fun f => f.row + 1).getD 0) % 12) }

/-! ### Into the bench (R165, R174 to R178) -/

/-- Words joined to the access that is being gathered: a row, or a column, is complete with its 64th word (R178, R182). -/
def gather (ws : List (Nat × Nat)) (x : Xfer) : Xfer :=
  ws.foldl (fun x w =>
    let c := (destKey x.d w.1, BitVec.ofNat 36 w.2) :: x.part
    if w.1 % 64 = 63 then { x with part := [], rows := x.rows ++ [c] } else { x with part := c }) x

/-- The words of a group of the turn buffer as whole rows, in ascending row (R174, log entry 65). -/
def turnRows (ws : List (Nat × W36)) : List (List (Nat × W36)) :=
  let tb := ws.foldl (fun tb w => tput tb (w.1 / 64) (w :: tget [] tb (w.1 / 64))) ([] : List (Nat × List (Nat × W36)))
  (tb.foldl (fun l e => insertBy (·.1) e l) []).map (·.2)

/-- An element packed (R165); bit reversal collects it in the turn buffer, and a group is written once its last row has come. -/
def packIn (n v : Nat) (x : Xfer) : Xfer :=
  let r := packElem x.d (x.d.visit n) (masked x (x.d.visit n) v) x.carry
  if x.d.xform = 1 then
    let part := r.2.map (fun w => (destKey x.d w.1, BitVec.ofNat 36 w.2)) ++ x.part
    if (n + 1) % x.d.groupElems = 0 then { x with part := [], rows := x.rows ++ turnRows part } else { x with part := part }
  else gather r.2 { x with carry := r.1 }

/-- The access that writes a header to bench row `row` (R180). -/
def hdrAccess (row : Nat) (h : Hdr) : List (Nat × W36) := (hdrWords h).mapIdx fun w v => (wkey row w, v)

/-- What has come to the chuck becomes bench writes. -/
def takeIn (x : Xfer) : FarItem → Xfer
  | .hdr i h => { x with rows := x.rows ++ [hdrAccess (x.d.headerRow + i) h] }
  | .elem n v => packIn n v x
  | .line row ws => { x with rows := x.rows ++ [ws.mapIdx fun i v => (wkey row i, v)] }

/-- A row that is not complete is written as a part row once nothing more of the transfer is on its way; the turn buffer and a steered
column wait (R178, R182, log entry 65). -/
def flushPart (x : Xfer) : Xfer :=
  if x.part.isEmpty ∨ x.coming ≠ 0 ∨ !x.lag.isEmpty ∨ ((x.d.xform = 1 ∨ x.d.xform = 5) ∧ x.cursor < x.d.elems) then x
  else { x with part := [], rows := x.rows ++ if x.d.xform = 1 then turnRows x.part else [x.part] }

/-- The elements among what has come. -/
def elemsOf (is : List FarItem) : List Nat := is.filterMap fun
  | .elem n _ => some n
  | _ => none

/-- A flit arrives at the chuck. -/
def landIn (k : Nat) (f : Flit) (s : State) : State :=
  match s.xferAt f.pier f.chuck f.xfer with
  | none => s
  | some x =>
    let y := flushPart (f.items.foldl takeIn { x with coming := x.coming - 1 })
    afterMove f.pier k f.chuck y (countElems f.pier x (elemsOf f.items) s)

/-! ### Out of the bench (R170, R180) -/

/-- What an accumulating write stores (R170). -/
def accumulate (t q old v : Nat) : Nat := if t = 1 then (old % max q 1 + v) % max q 1 else (old + v) % 2 ^ 64

/-- Whether far element `o` of a transfer of span `k` is padding of a tensor of the span's image, which the device writes as zero
(R41, R125). -/
def farPad (s : State) (k : Nat) (x : Xfer) (o : Nat) : Bool :=
  let t := x.d.elemType
  match s.imageOf k with
  | some im => im.shards.any fun sh =>
      let y := ((x.d.farBase : Int) - sh.data) * 8
      let e := (o : Int) + (if t = 1 then y / 72 * 2 else y / (typeBits t : Nat))
      sh.home == x.d.farKind && sh.elemType == t && decide (0 ≤ e ∧ e < (sh.elems : Nat)) && sh.isPad e.toNat
  | none => false

/-- An item performed on the far side, in memory or as a message to a remote window. -/
def sendItem (p k : Nat) (x : Xfer) (s : State) : FarItem → State
  | .hdr i h =>
    let s1 := match s.farMap p x with
      | .remote => s.send (.remoteWrite (windowOf x.d.farHeader) ((x.d.farHeader - windowBase) % 2 ^ 32 + 64 * i) (hdrBytes h))
      | _ => s.wr (x.d.farHeader + 64 * i) (hdrBytes h)
    let s2 := noteOut k (x.d.farHeader + 64 * i) i h s1
    if x.d.farKind = 1 ∨ x.d.farKind = 2 then noteCommits k [(x.d.farHeader + 64 * i, h)] s2 else s2
  | .elem n v =>
    let f := s.farMap p x
    let t := x.d.elemType
    let o := (x.offsetAt n).toNat
    let pad := farPad s k x o
    match f with
    | .remote => s.send (.remoteElem (windowOf x.d.farBase) ((x.d.farBase - windowBase) % 2 ^ 32) t o (if pad then 0 else v))
    | _ => farPut f t o (if pad then 0 else if x.d.accumulate then accumulate t ((s.batchOf p).ring.prime x.d.prime) (farElem s f t o) v else v) s
  | .line _ _ => s

/-- A flit reaches the IO die: its writes are performed and acknowledged (R181, log entry 65). -/
def landOut (k : Nat) (f : Flit) (s : State) : State :=
  match s.xferAt f.pier f.chuck f.xfer with
  | none => s
  | some x =>
    let s1 := f.items.foldl (sendItem f.pier k x) s
    afterMove f.pier k f.chuck { x with coming := x.coming - 1, storedAt := s.clk.fc }
      (countElems f.pier x (elemsOf f.items) s1)

/-- The flits that arrive by this fc leave the links and do their work, in order; then each link accepts those of this fc. -/
def linkFc (s : State) : State :=
  if s.links.isEmpty then s
  else
    let here := fun (f : Flit) => f.due != 0 && decide (f.due ≤ s.clk.fc)
    let s1 := (s.links.filter here).foldl (fun s f => match s.spanOf f.pier with
      | some (k, _) => if f.inb then landIn k f s else landOut k f s
      | none => s) { s with links := s.links.filter fun f => !here f }
    (List.range 4).foldl (fun s port => acceptLink port s) s1

/-- The far port of a pier takes one flit, 64 B, in this fc, from its chucks in turn: it reaches the IO link by its row's trunk
(R30, Table 7-5). -/
def farPort (p : Nat) (s : State) : State :=
  let pr := s.pier p
  let order := [pr.portTurn % 3, (pr.portTurn + 1) % 3, (pr.portTurn + 2) % 3]
  match order.findSome? fun j => ((pr.chuck j).xfers.find? fun x => !x.outq.isEmpty).map fun x => (j, x) with
  | none => s
  | some (j, x) =>
    let t := nextFlit x.itemBits x.sentBits x.outq
    let f : Flit := { pier := p, chuck := j, xfer := x.id, inb := false, n := x.flits, offered := s.clk.fc + trunkHops p, items := t.1 }
    let s1 := { s with links := s.links ++ [f] }.modPier p fun pr => { pr with portTurn := j + 1 }
    s1.setXfer p j { x with outq := t.2.1, sentBits := t.2.2, coming := x.coming + 1, flits := x.flits + 1 }

/-- Items that the far side sends to a transfer: their flits wait at the IO link in order. -/
def sendIn (p j : Nat) (x : Xfer) (is : List FarItem) (s : State) : Xfer × State :=
  let fs := chunkItems x.itemBits 0 [] is
  ({ x with coming := x.coming + fs.length, flits := x.flits + fs.length },
    { s with links := s.links ++ fs.mapIdx fun i f =>
        { pier := p, chuck := j, xfer := x.id, inb := true, n := x.flits + i, offered := s.clk.fc, items := f } })

/-! ### Headers (R175, R179, R180) -/

/-- Header `i` of a transfer as it is delivered; a part whose header the chuck refuses is noted, and a fault record carries the code
(R57, R175, R180). -/
def deliverHdr (p : Nat) (x : Xfer) (i : Nat) (h : Hdr) (s : State) : Hdr × Xfer × State :=
  if x.d.farKind = 5 then (if x.zeroKey then (h.put 8 8 0).seal else h, x, s)
  else
    let r := carryHdr (s.batchOf p).ring s.oper x.d h
    if r.2 then
      (r.1, { x with badParts := x.badParts ++ [i] },
        raise { code := r.1.code, action := 1, unit := 1, pier := p, span := ((s.spanOf p).map (·.1)).getD 0 } s)
    else (r.1, x, s)

/-- The header slots that a transfer reads on the far side (R179, R180). -/
def farHdrs (s : State) (x : Xfer) (f : FarMap) (data : List Byte) : List Hdr :=
  (List.range x.d.headerCount).map fun h =>
    if x.d.farKind = 5 then
      (if x.zeroKey ∧ x.src = 0 then (0 : Hdr).put 0 4 keyMagic else hdrOf ((List.range 64).map fun y => mget s.mem (objAddr x.src y)))
    else match f with
      | .remote => hdrOf (slice data (64 * h) 64)
      | .lin _ =>
        let a := match s.channelOf (windowOf x.d.farHeader), x.d.farKind with
          | some _, 3 => (f.at 0).getD 0 - (x.d.farBase - windowBase) % 2 ^ 32 + (x.d.farHeader - windowBase) % 2 ^ 32
          | _, _ => x.d.farHeader
        hdrOf (s.rd (a + 64 * h) 64)
      | _ => 0

/-- The headers of an inbound transfer, once, ahead of its data. -/
def bringHdrs (p : Nat) (x : Xfer) (data : List Byte) (s : State) : List FarItem × Xfer × State :=
  if x.d.headers ∧ ¬ x.hdrDone then
    let raw := farHdrs s x (s.farMap p x) data
    let s1 := match s.spanOf p with
      | some (k, _) => if x.d.farKind = 1 ∨ x.d.farKind = 2 then
          raw.zipIdx.foldl (fun s e => checkReplay p k e.2 (x.d.farHeader + 64 * e.2) e.1 s) s else s
      | none => s
    raw.zipIdx.foldl (fun a e =>
      let r := deliverHdr p a.2.1 e.2 e.1 a.2.2
      (a.1 ++ [FarItem.hdr e.2 r.1], r.2.1, r.2.2)) (([] : List FarItem), { x with hdrDone := true }, s1)
  else ([], { x with hdrDone := true }, s)

/-! ### Arrival of far-side data (R182, R184, R328, R352) -/

/-- A cacheable read without a bench cache touches the LLM's unpinned cache (R157, R338). -/
def touchLines (x : Xfer) (f : FarMap) (n : Nat) (s : State) : State :=
  if x.d.cacheable then
    let ls := ((List.range n).filterMap fun i =>
      (f.at (unitByte x.d.elemType (x.offsetAt (x.cursor + i)).toNat)).map (· / 2048)).eraseDups
    ls.foldl (fun s l => s.lineTouch l) s
  else s

/-- Whether a device address lies in rows of a receive tensor whose member's payload has not been delivered (R328). -/
def rxMissing (s : State) (k : Nat) (a : Nat) : Bool :=
  match s.imageOf k, (s.span k).batch with
  | some im, some b => im.hxp.any fun h => h.recv && (im.shards.find? fun x => x.tensor = h.tensor).any fun sh =>
      let n := max h.outBytes 1
      let inData := decide (sh.data ≤ a ∧ a < sh.data + sh.bytes)
      let inHdr := decide (sh.header ≤ a ∧ a < sh.header + 64 * b.members.length)
      (inData || inHdr) && (b.members[if inData then (a - sh.data) / n else (a - sh.header) / 64]?).any fun m =>
        !(s.rxDone.any fun d => d.session == m.session && d.request == m.seq && d.step == h.step && decide (d.ready ≤ s.clk.fc))
  | _, _ => false

/-- Elements of the next `n` that can be delivered: those before the first that waits for a payload (R328). -/
def rxReady (s : State) (k : Nat) (x : Xfer) (n : Nat) : Nat :=
  if x.d.farKind ≠ 1 then n
  else if x.d.headers && !x.hdrDone && (List.range x.d.headerCount).any (fun i => rxMissing s k (x.d.farHeader + 64 * i)) then 0
  else
    let at_ := fun i => x.d.farBase + unitByte x.d.elemType (x.offsetAt (x.cursor + i)).toNat
    ((List.range n).find? fun i => rxMissing s k (at_ i)).getD n

/-! ### Lines of the LLM that a read finds lost (R341, R466) -/

/-- Requests of a batch or image that touched a lost LLM line: of the span whose batch table it is, of the request whose
arrival entry it is, else every running request of the image (log entry 25). -/
def lineRequests (s : State) (a : Nat) : List (Nat × Nat) :=
  match s.images.find? fun e => overlaps a 64 e.2.llmBase e.2.llmBytes with
  | none => []
  | some (h, im) =>
    let x := a - im.llmBase
    let running := s.requests.filter fun r => r.handle == h && r.st == .running
    let hit :=
      if im.arrivalBase ≤ x then running.filter fun r => r.arrival = (x - im.arrivalBase) / max im.arrivalBytes 1
      else if im.tableBase ≤ x then running.filter fun r => (s.span r.span).imgSpan = (x - im.tableBase) / 16384
      else running
    hit.map fun r => (r.session, r.seq)

/-- A request of a running batch, or one that waits for its launch, will commit poisoned with a code. -/
def poisonRequest (e : Nat × Nat) (code : Nat) (s : State) : State :=
  let mark := fun (m : Member) => if m.session = e.1 ∧ m.seq = e.2 ∧ m.code = 0 then { m with code := code } else m
  let one := fun (b : Batch) => { b with members := b.members.map mark }
  { s with spans := s.spans.map fun x => (x.1, { x.2 with batch := x.2.batch.map one, fixed := x.2.fixed.map one }) }

/-- A double-bit error in a scratchpad line: one record, the line zeroed, the requests that touched it poisoned. -/
def llmLost (a : Nat) (s : State) : State :=
  let hit := lineRequests s a
  let s1 := raise { code := 0x0603, action := if hit.isEmpty then 0 else 1, unit := 2, detail := storeDetail a 2 } s
  let journal := decide (0x1000000 ≤ a ∧ a < 0x2000000)
  let s2 := if journal then addRepair 2 a 0xFF s1 else s1.zeroMem (llmBase + a) (llmBase + a + 64)
  let p := (a - 0x10000) / 0x1000
  let s3 := if 0x10000 ≤ a ∧ p < 8 then s2.modSlot p fun sl => { sl with credit := [] } else s2
  hit.foldl (fun s e => poisonRequest e 0x0603 s) s3

/-- A read of LLM lines meets those of the scratchpad with a double-bit error: each is counted, recorded and lost (R341). -/
def readLines (lines : List Nat) (s : State) : State :=
  if s.badLlm.isEmpty then s
  else (s.badLlm.filter fun l => lines.contains l && decide (64 * l < s.scratch)).foldl (fun s l =>
    llmLost (64 * l) (({ s with badLlm := s.badLlm.erase l }.setDreg llmLlmLastError (64 * l)).bump llmLlmUncorrected 0 0 1)) s

/-- The LLM lines that the next `m` elements of a transfer lie in, and its header slots before they are read. -/
def Xfer.llmLines (x : Xfer) (f : FarMap) (m : Nat) : List Nat :=
  let line := fun a => if llmBase ≤ a ∧ a < gddrBase 0 then some ((a - llmBase) / 64) else none
  let unit := fun i => byteRange x.d.elemType (x.offsetAt (x.cursor + i)) (x.offsetAt (x.cursor + i))
  ((List.range m).flatMap fun i => [f.at (unit i).1, f.at ((unit i).2 - 1)].filterMap fun a => a.bind line) ++
    if x.d.headers && !x.hdrDone then (List.range x.d.headerCount).filterMap fun i => line (x.d.farHeader + 64 * i) else []

/-- What `m` elements from the cursor on bring: weight blocks to decode, elements that the bench cache will deliver, or values that
travel with the headers over the IO link. -/
def bringElems (p j : Nat) (x : Xfer) (f : FarMap) (hdrs : List FarItem) (m : Nat) (value : State → Nat → Nat) (s : State) : Xfer × State :=
  let y := { x with cursor := x.cursor + m }
  if x.d.xform = 4 then
    let bs := (List.range m).map fun i => (x.offsetAt (x.cursor + i)).toNat
    sendIn p j { y with blocks := x.blocks ++ bs.filter (emits s x) } hdrs s
  else if x.d.cacheable ∧ 0 < (s.pier p).cacheBlocks then sendIn p j y hdrs s
  else
    let s1 := touchLines x f m s
    sendIn p j { y with served := y.cursor } (hdrs ++ (List.range m).map fun i => .elem (x.cursor + i) (value s1 i)) s1

/-- `n` elements (blocks, for a weight decode) of an inbound transfer are answered by the far side; `data` is what a remote window
answers. -/
def arrive (p k j : Nat) (x : Xfer) (n : Nat) (data : List Byte) (s : State) : State :=
  let f := s.farMap p x
  let hb := if x.d.headers ∧ ¬ x.hdrDone ∧ f matches .remote then 64 * x.d.headerCount else 0
  let wb := wireBytes x.d.elemType
  let left := x.d.elems - x.cursor
  let m := x.reach s p (min (rxReady s k x (min n left)) (if f matches .remote then (data.length - hb) / wb else left))
  if (f matches .remote ∧ data.length < hb) ∨ (m = 0 ∧ 0 < min n left ∧ x.d.farKind = 1) then s
  else if !accessOk s p x then
    let q := pageStop p x s
    q.2.setXfer p j q.1
  else
    let s0 := if x.d.farKind = 1 ∧ s.badLlm ≠ [] then readLines (x.llmLines f m) s else s
    let h := bringHdrs p x data s0
    let value := fun (s : State) (i : Nat) =>
      if f matches .remote then leNat (slice data (hb + wb * i) wb) else farElem s f x.d.elemType (x.offsetAt (x.cursor + i)).toNat
    let r := bringElems p j h.2.1 f h.1 m value h.2.2
    let t := tryMove p r.1 r.2
    t.2.setXfer p j t.1

/-- A transfer that waits on a page resumes: PAGE_WAIT_US counts the wait (R184). -/
def pageResume (p : Nat) (x : Xfer) (s : State) : Xfer × State :=
  match x.phase with
  | .pageWait since _ => ({ x with phase := .moving }, s.bump ckPageWaitUs p 0 ((s.now - since) / 1000))
  | _ => (x, s)

/-- GDDR device and channel of the burst at a transfer's cursor; none where the data lies elsewhere. -/
def Xfer.burstAt (s : State) (p : Nat) (x : Xfer) : Option (Nat × Nat) :=
  if x.pinned then none
  else ((s.farMap p x).at (unitByte x.d.elemType (x.offsetAt x.cursor).toNat)).bind gddrPlace

/-- Bytes read from GDDR device `d`, counted in READ_MIB (log entry 59). -/
def countRead (d bytes : Nat) (s : State) : State :=
  let v := tget 0 s.gddrRead d + bytes
  { s with gddrRead := tput s.gddrRead d (v % 2 ^ 20) }.bump mcReadMib 0 d (v / 2 ^ 20)

/-- Bytes that `n` elements of a transfer take from GDDR: 64-byte accesses for each narrow element (R139). -/
def Xfer.readBytes (x : Xfer) (n : Nat) : Nat :=
  let m := min n (x.d.elems - x.cursor)
  let bits := (List.range m).map fun i =>
    let e := x.cursor + i
    if x.narrow (x.d.visit e) then 512 * x.accesses 0 e else typeBits x.d.elemType
  bits.foldl (· + ·) 0 / 8

/-- The burst at the cursor fails `failed` times: each reissue counts; one that fails after 8 delivers no data, raises 0x0605
and halts the span that owns the transfer (R352, R464). Otherwise the data arrives. -/
def arriveBurst (p k j : Nat) (x : Xfer) (n failed : Nat) (data : List Byte) (s : State) : State :=
  match x.burstAt s p with
  | none => arrive p k j x n data s
  | some (d, c) =>
    let s1 := s.bump mcCrcRetries 0 d (min failed 8)
    if failed ≤ 8 then countRead d (x.readBytes n) (arrive p k j x n data s1)
    else stopSpan k (.replay 0x0605 none)
      (raise { code := 0x0605, action := 2, unit := 3, span := k, detail := leBytes 1 d ++ leBytes 1 c } (s1.bump mcLinkFails 0 d 1))

/-- CHUCK_DATA_ARRIVAL (R182): `xi` counts the chuck's transfers from the oldest. What the far side answers waits at the IO link and
arrives at the chuck flit by flit (R31). A retry that succeeds is such an arrival. -/
def execChuckDataArrival (p j xi n failed : Nat) (data : List Byte) (s : State) : Host.Outcome State Fault Refusal :=
  if 192 ≤ p then .fault (.noSuchUnit p)
  else match s.spanOf p, ((s.pier p).chuck j).xfers[xi]? with
    | some (k, _), some x =>
      if x.d.dir ∨ x.d.farKind = 0 ∨ x.index.isSome then .next s
      else match x.phase with
        | .moving => .next (arriveBurst p k j x n failed data s)
        | .rowWait => .next (arriveBurst p k j x n failed data s)
        | .pageWait _ _ =>
          if accessOk s p x then
            let r := pageResume p x s
            .next (arriveBurst p k j r.1 n failed data (r.2.setXfer p j r.1))
          else .next s
        | _ => .next s
    | _, _ => .next s

/-! ### The bench side of a row (R143, R165, R178) -/

/-- The bench row, of the packed side, that holds the element at the cursor, and the elements from the cursor on that lie in it. -/
def Xfer.atRow (x : Xfer) : Nat :=
  let t := x.d.elemType
  let q := x.d.packed x.cursor
  x.d.benchRow + (q.1 + (if t = 2 then 2 * q.2 else q.2 / perWord t)) / 64
def rowElems (x : Xfer) : Nat :=
  let t := x.d.elemType
  let q := x.d.packed x.cursor
  let w := q.1 + (if t = 2 then 2 * q.2 else q.2 / perWord t)
  let toEnd := if t = 2 then (64 - w % 64) / 2 else (64 - w % 64) * perWord t - q.2 % perWord t
  min (x.d.packRun - q.2) (max toEnd 1)

/-- Element at position `o` counted from bench row `row` (R143). -/
def Pier.elem (pr : Pier) (t row o : Nat) : Nat :=
  let w := fun i => (mget pr.bench (row * 64 + i)).toNat
  match t with
  | 1 => w o
  | 2 => fld (w (2 * o)) 0 32 + 2 ^ 32 * fld (w (2 * o + 1)) 0 32
  | 3 => fld (w (o / 4)) (8 * (o % 4)) 8
  | 4 => fld (w (o / 8)) (4 * (o % 8)) 4
  | _ => fld (w (o / 16)) (2 * (o % 16)) 2

/-- Position, counted from BENCH_ROW, of stream element `n` in the packed bench side. -/
def packedPos (d : Desc) (n : Nat) : Nat :=
  let q := d.packed n
  q.1 * grainElems d.elemType / grainWords d.elemType + q.2

/-- The far bench row of a local move (R142). -/
def Desc.farRow (d : Desc) : Nat := fld d.farBase 9 14

/-- Elements of a type in a bench row (Table 6-1). -/
def rowCap (t : Nat) : Nat := if t = 2 then 32 else 64 * perWord t

/-- The bench row that a transfer reads next for its data, and the elements that the read takes: of the packed side, or of the far
rows of a local move into BENCH_ROW. -/
def Xfer.dataRow (x : Xfer) : Nat × Nat :=
  if x.d.dir then (x.atRow, min (rowElems x) (x.d.elems - x.cursor))
  else
    let c := rowCap x.d.elemType
    let o := (x.offset x.cursor).toNat
    (x.d.farRow + o / c, min (min (x.d.run - x.cursor % max x.d.run 1) (c - o % c)) (x.d.elems - x.cursor))

/-- The values that the next `m` elements have in the bench. -/
def Xfer.values (x : Xfer) (pr : Pier) (m : Nat) : List FarItem :=
  (List.range m).map fun i =>
    let e := x.cursor + i
    .elem e (if x.d.dir then pr.elem x.d.elemType x.d.benchRow (packedPos x.d e) else pr.elem x.d.elemType x.d.farRow (x.offset e).toNat)

/-- The far row of a local move that what one bench row held goes to, or its column under steering (R178). -/
def localOut (x : Xfer) (es : List (Nat × Nat)) : List (Nat × W36) :=
  let ws := es.flatMap fun e =>
    if x.d.xform = 5 then [(wkey (x.d.farRow + 64 * (e.1 / 4096) + e.1 % 64) (e.1 / 64 % 64), 0, 36, e.2)]
    else (pieces x.d.elemType (x.offset e.1).toNat e.2).map fun q => (x.d.farRow * 64 + q.1, q.2.1, q.2.2.1, q.2.2.2)
  (ws.foldl (fun tb e => tput tb e.1 (setFld (tget 0 tb e.1) e.2.1 e.2.2.1 e.2.2.2)) ([] : List (Nat × Nat))).map fun e =>
    (e.1, BitVec.ofNat 36 e.2)

/-- What a bench read returns goes on: a header is checked as the transfer carries it; elements go to the far port, into the bench's
packing, or to the far row of a local move. -/
def returnItem (p : Nat) (a : Xfer × State) (i : FarItem) : Xfer × State :=
  let x := a.1
  match i with
  | .hdr i h =>
    let r := deliverHdr p x i h a.2
    let y := r.2.1
    if x.d.farKind ≠ 0 then ({ y with outq := y.outq ++ [.hdr i r.1] }, r.2.2)
    else ({ y with rows := y.rows ++ [hdrAccess ((if x.d.dir then fld x.d.farHeader 9 14 else x.d.headerRow) + i) r.1] }, r.2.2)
  | .elem n v =>
    if !x.d.dir then (packIn n v x, a.2)
    else ({ x with outq := x.outq ++ [.elem n (masked x n v)] }, a.2)
  | .line _ _ => a

/-- What one bench access has read is there. -/
def returnRead (p : Nat) (a : Xfer × State) (is : List FarItem) : Xfer × State :=
  let x := a.1
  if x.d.farKind = 0 ∧ x.d.dir ∧ !(elemsOf is).isEmpty then
    let es := is.filterMap fun
      | .elem n v => some (n, masked x n v)
      | _ => none
    ({ x with rows := x.rows ++ [localOut x es] }, a.2)
  else is.foldl (returnItem p) a

/-- The reads whose data is there at the start of this fc (R148). -/
def returnReads (p : Nat) (x : Xfer) (s : State) : Xfer × State :=
  let q := splitBy (fun e => decide (e.1 ≤ s.clk.fc)) x.lag
  if q.1.isEmpty then (x, s)
  else
    let r := q.1.foldl (fun a e => returnRead p a e.2) ({ x with lag := q.2 }, s)
    (flushPart r.1, r.2)

/-! ### Waits for rows (R154, R182) -/

/-- FILLING entries that a read of bench row `r` by a transfer waits for (R154). While the transfer's own entry is DRAINING
over the row, a later FILLING range of another entry is not written there: the read waits only for ranges that were FILLING
before (log entry 64). -/
def Xfer.awaits (x : Xfer) (pr : Pier) (r : Nat) : List Nat :=
  let own := match pr.sbAt x.d.sbEntry with
    | some (.draining a n _) => x.d.dir && overlaps r 1 a n
    | _ => false
  (pr.fillingOver r 1).filter fun e => if own then x.after.contains e else x.d.dir || e != x.d.sbEntry

/-- The place of the first bench write that no DRAINING range of another entry keeps out (R154). -/
def Xfer.nextWrite (x : Xfer) (pr : Pier) (fc : Nat) : Option Nat :=
  x.rows.findIdx? fun ws => !(ws.any fun w => pr.drainingOver x.d.sbEntry (w.1 / 64) 1 fc)

/-- Header rows that a transfer out of or within the bench has still to read. -/
def Xfer.hdrsLeft (x : Xfer) : Nat := if x.d.headers then x.d.headerCount - x.hdrRead else 0

/-- The bench row of the transfer's next header. -/
def Xfer.hdrRow (x : Xfer) : Nat := (if x.d.dir then x.d.headerRow else fld x.d.farHeader 9 14) + x.hdrRead

/-- Bits that a transfer has read and not yet sent: a chuck reads on while they are at most two rows (log entry 65). -/
def Xfer.unsent (x : Xfer) : Nat :=
  ((x.lag.flatMap (·.2)) ++ x.outq).foldl (fun v i => v + x.itemBits i) 0

/-- The bench row that a transfer would read next: an index row, a header row, a row of its data. -/
def Xfer.readRow (x : Xfer) : Option Nat :=
  match x.index with
  | some (n, _) => if 0 < n then some (x.d.indexRow + x.d.indexRows - n) else none
  | none =>
    if !(x.d.dir || x.d.farKind == 0) || !(x.phase == .moving || x.phase == .rowWait) then none
    else if 0 < x.hdrsLeft then some x.hdrRow
    else if x.cursor < x.d.elems ∧ (x.d.farKind = 0 ∨ x.unsent ≤ 4608) then some x.dataRow.1
    else none

/-- Whether a transfer can use slot 3 in this fc: a write that may take place, or a read that waits for no FILLING range. -/
def Xfer.ready (x : Xfer) (pr : Pier) (fc : Nat) : Bool :=
  (x.nextWrite pr fc).isSome || x.readRow.any fun r => (x.awaits pr r).isEmpty

/-- A transfer that has an access to make and may not is waiting on a bench row (Kn_STATE 2); else it moves (R182, R187). -/
def Xfer.noteWait (x : Xfer) (pr : Pier) (fc : Nat) : Xfer :=
  let stuck := (!x.rows.isEmpty || x.readRow.isSome) && !x.ready pr fc
  if x.phase = .moving ∧ stuck then { x with phase := .rowWait }
  else if x.phase = .rowWait ∧ !stuck then { x with phase := .moving }
  else x

/-! ### The bench cache (R156 to R160) -/

/-- The 256 bytes, by address / 256, that a cacheable read takes next from the bench cache; none when every answered element has been
served, or while a line is being filled. -/
def Xfer.cacheNeed (s : State) (p : Nat) (x : Xfer) : Option Nat :=
  if x.d.cacheable ∧ 0 < (s.pier p).cacheBlocks ∧ x.served < x.cursor ∧ x.fill.isNone then
    ((s.farMap p x).at (unitByte x.d.elemType (x.offsetAt x.served).toNat)).map fun a =>
      let z := (a + unitBytes x.d.elemType - 1) / 256
      if a / 256 = z ∨ x.cacheRow = some (a / 256) then z else a / 256
  else none

/-- A miss, or a refetch, begins: the way is taken, and the whole line is fetched in one read (R156, R158). -/
def startFill (p j : Nat) (x : Xfer) (line : Nat) (s : State) : State :=
  let w := (s.pier p).wayFor line
  let s1 := s.modPier p fun pr => { pr with cache := w.2.filter (fun e => e.1 != line) ++ [(line, w.1)] }
  let q := sendIn p j { x with fill := some { line := line, left := 8, due := 0 } }
    ((List.range 8).map fun r => .line (w.1 + r) (cacheWords s line r)) s1
  q.2.setXfer p j q.1

/-- A cacheable read that needs a line that the bench cache does not hold begins its miss (R158). -/
def cacheMiss (p j : Nat) (x : Xfer) (s : State) : State :=
  match x.cacheNeed s p with
  | some r =>
    if (s.pier p).cache.any fun e => e.1 == r / 8 then s
    else startFill p j x (r / 8) ((s.lineTouch (r / 8)).bump bnCacheMisses p 0 1)
  | none => s

/-- Elements from the one served next on that a read of 256 bytes completes. -/
def Xfer.servedBy (s : State) (p : Nat) (x : Xfer) (r : Nat) : List Nat :=
  ((List.range (x.cursor - x.served)).map (x.served + ·)).takeWhile fun n =>
    ((s.farMap p x).at (unitByte x.d.elemType (x.offsetAt n).toNat)).any fun a =>
      (a + unitBytes x.d.elemType - 1) / 256 == r && (a / 256 == r || x.cacheRow == some (a / 256))

/-- A hit: the row of the line is read in slot 3, and the elements that it completes are there 6 fc later; a parity mismatch makes the
chuck fetch the line again (R158, R160). -/
def cacheRead (p j : Nat) (x : Xfer) (r : Nat) (s : State) : State :=
  let pr := s.pier p
  let row := ((pr.cache.find? fun e => e.1 = r / 8).map (·.2)).getD 0 + r % 8
  if !(badWords pr.benchPar (rowKeys row)).isEmpty then
    startFill p j x (r / 8) ((s.modPier p fun pr => { pr with cache := pr.cache.filter fun e => e.1 != r / 8 }).bump bnCacheRefetches p 0 1)
  else
    let ns := x.servedBy s p r
    let f := s.farMap p x
    let rd := fun (y n : Nat) => (List.range n).map fun i =>
      match f.at (y + i) with
      | some a => match pr.cacheByte a with
        | some b => BitVec.ofNat 8 b
        | none => mget s.mem a
      | none => (0 : Byte)
    let is := ns.map fun n => FarItem.elem n (elemIn rd x.d.elemType (x.offsetAt n).toNat)
    let s1 := (s.modPier p fun pr => { pr with cache := pr.cache.filter (fun e => e.1 != r / 8) ++ pr.cache.filter fun e => e.1 == r / 8 })
    (countElems p x ns (s1.bump bnCacheHits p 0 1)).setXfer p j
      { x with served := x.served + ns.length, cacheRow := some r, lag := x.lag ++ if is.isEmpty then [] else [(s.clk.fc + 6, is)] }

/-! ### Slot 3 (R145 to R149, R182) -/

/-- A read of one index row (R171). -/
def readIndex (p j : Nat) (x : Xfer) (left : Nat) (s : State) : State :=
  let r := x.d.indexRows - left
  (checkBench p (rowKeys (x.d.indexRow + r)) s).setXfer p j
    { x with idx := x.idx ++ (s.pier p).indices x.d r, index := some (left - 1, s.clk.fc + 6) }

/-- A read of a header row or of a row of data, 6 fc from slot to data (R148); an element whose page is not resident stops the walk
(R184). -/
def readBench (p j : Nat) (x : Xfer) (s : State) : State :=
  if 0 < x.hdrsLeft then
    let row := x.hdrRow
    let y := { x with lag := x.lag ++ [(s.clk.fc + 6, [.hdr x.hdrRead ((s.pier p).hdrAt row)])], hdrRead := x.hdrRead + 1
                      readAt := s.clk.fc, hdrDone := x.hdrsLeft == 1 }
    (checkBench p (rowKeys row) s).setXfer p j y
  else if !accessOk s p x then
    let q := pageStop p x s
    q.2.setXfer p j q.1
  else
    let r := x.dataRow
    let m := x.reach s p r.2
    let s1 := checkBench p (rowKeys r.1) s
    let s2 := if x.d.farKind = 0 then countElems p x ((List.range m).map (x.cursor + ·)) s1 else s1
    let y := { x with lag := x.lag ++ [(s.clk.fc + 6, x.values (s.pier p) m)], cursor := x.cursor + m, readAt := s.clk.fc, hdrDone := true }
    let t := tryMove p y s2
    t.2.setXfer p j t.1

/-- The words of a bench write as they are stored: an accumulating local move adds to what the far row holds (R170, log entry 65). -/
def Xfer.stored (x : Xfer) (pr : Pier) (q : Nat) (ws : List (Nat × W36)) : List (Nat × W36) :=
  if x.d.farKind = 0 ∧ x.d.dir ∧ x.d.accumulate then
    if x.d.elemType = 1 then ws.map fun w => (w.1, BitVec.ofNat 36 (accumulate 1 q (mget pr.bench w.1).toNat w.2.toNat))
    else ws.map fun w =>
      let lo := w.1 / 2 * 2
      let at_ := fun (k : Nat) => fld ((tget 0 ws k).toNat) 0 32
      let old := fun (k : Nat) => fld (mget pr.bench k).toNat 0 32
      let v := accumulate 2 0 (old lo + 2 ^ 32 * old (lo + 1)) (at_ lo + 2 ^ 32 * at_ (lo + 1))
      (w.1, BitVec.ofNat 36 (if w.1 % 2 = 0 then v % 2 ^ 32 else v / 2 ^ 32))
  else ws

/-- Bench write number `i` of a transfer takes slot 3 of this fc and is stored 6 fc later (R148); a row of the bench cache counts for
its line (R158). -/
def writeBench (p j : Nat) (x : Xfer) (i : Nat) (s : State) : State :=
  let ws := x.rows.getD i []
  let q := (s.batchOf p).ring.prime x.d.prime
  let cached := ws.any fun w => decide (16384 - 1024 * (s.pier p).cacheBlocks ≤ w.1 / 64)
  let fill := if cached then x.fill.map fun f => { f with left := f.left - 1, due := s.clk.fc + 6 } else x.fill
  (s.modPier p fun pr => { pr with stores := pr.stores ++ [(s.clk.fc + 6, x.stored pr q ws)] }).setXfer p j
    { x with rows := x.rows.eraseIdx i, storedAt := s.clk.fc + 6, fill := fill }

/-- A slot-3 access of transfer `x` of chuck `j` (R182): a write before a read. -/
def moveRow (p k j : Nat) (x : Xfer) (s : State) : State :=
  let s1 := match x.nextWrite (s.pier p) s.clk.fc, x.index, x.cacheNeed s p with
    | some i, _, _ => writeBench p j x i s
    | none, some (n, _), _ => readIndex p j x n s
    | none, none, some r => cacheRead p j x r s
    | none, none, none => readBench p j x s
  match s1.xferAt p j x.id with
  | some y => afterMove p k j y s1
  | none => s1

/-- Whether a transfer can use slot 3 in this fc, reads of the bench cache included. -/
def State.wantsSlot (s : State) (p : Nat) (x : Xfer) : Bool :=
  x.ready (s.pier p) s.clk.fc || (x.cacheNeed s p).any fun r => (s.pier p).lineReady (r / 8) s.clk.fc

/-- Slot 3 given to the chucks in turn (R147). -/
def slot3 (p k : Nat) (s : State) : State :=
  let pr := s.pier p
  let order := [pr.turn % 3, (pr.turn + 1) % 3, (pr.turn + 2) % 3]
  match order.findSome? fun j => ((pr.chuck j).xfers.find? fun x => s.wantsSlot p x).map fun x => (j, x) with
  | some (j, x) => moveRow p k j x (s.modPier p fun pr => { pr with turn := j + 1 })
  | none => s

/-! ### One fc of the chucks of a pier -/

/-- A weight decode with no row waiting takes up its next block, one bench row an fc (R15, R79, R177); a block with a word that cannot be
corrected is not delivered (R80). -/
def nextBlock (p j : Nat) (x : Xfer) (s : State) : State :=
  match x.rows, x.blocks with
  | [], b :: r =>
    let h := weightHdr s x.d.farBase
    let a := sliceEnd s h b
    match if storedBlock s h b then s.badTier.find? (fun w => overlaps w 8 a h.blockBytes) else none with
    | some w => pierStoreLost p 0 w true (s.setXfer p j { x with blocks := [] })
    | none =>
      let vs := decodeBlock s h x.d.scaled ((s.batchOf p).ring.prime x.d.prime) b
      let row := fun (i : Nat) => (List.range 64).map fun c =>
        (x.d.benchRow * 64 + x.carry + 64 * i + c, BitVec.ofNat 36 (vs.getD (64 * i + c) 0))
      (s.bump2 ckElementsLo ckElementsHi p 0 4096).setXfer p j
        { x with blocks := r, carry := x.carry + 4096, rows := (List.range 64).map row }
  | _, _ => s

/-- The last index row of a gather or scatter is there: its offsets are checked, and the walk begins (R171). -/
def indexFc (p k j : Nat) (x : Xfer) (s : State) : State :=
  match x.index with
  | some (0, due) =>
    if s.clk.fc < due then s
    else
      let y := { x with index := none }
      let s1 := s.setXfer p j y
      match issueFault s1 p y with
      | some (code, n) => streamFault code p k j y n s1
      | none =>
        let t := tryMove p y s1
        t.2.setXfer p j t.1
  | _ => s

/-- What a transfer does at the start of an fc, before slot 3 is given. -/
def xferFc (p k j id : Nat) (s : State) : State :=
  let on := fun (f : Xfer → State → State) (s : State) => match s.xferAt p j id with
    | some x => f x s
    | none => s
  let back := fun (x : Xfer) (s : State) =>
    let r := returnReads p x s
    let y := { r.1 with fill := r.1.fill.bind fun f => if f.left = 0 ∧ f.due ≤ s.clk.fc then none else some f }
    afterMove p k j y r.2
  on (fun x s => s.setXfer p j (x.noteWait (s.pier p) s.clk.fc))
    (on (cacheMiss p j) (on (nextBlock p j) (on (indexFc p k j) (on back s))))

/-- One fc of the chucks of pier `p` of span `k`; `free` says that the deck leaves them slot 3 (R147). -/
def chuckFc (p k : Nat) (free : Bool) (s : State) : State :=
  let ids := (s.pier p).chucks.flatMap fun c => c.2.xfers.map fun x => (c.1, x.id)
  if ids.isEmpty then s
  else
    let s1 := ids.foldl (fun s e => xferFc p k e.1 e.2 s) s
    farPort p (if free then slot3 p k s1 else s1)

/-! ### Waits, completion and failure (R154, R181, R184, R185) -/

/-- CHUCK_RESUME (R154) for one transfer: one whose entry now admits it takes it; one that waited on a bench row and no longer has to
moves on. -/
def resumeOne (p j : Nat) (x : Xfer) (s : State) : State :=
  if x.phase = .entryWait then
    let r := enterSb x (s.pier p)
    if r.2 then
      let m := tryMove p (x.admitted (s.pier p) s.now s.clk.fc) (s.setPier p r.1)
      m.2.setXfer p j m.1
    else s
  else if x.phase = .rowWait then s.setXfer p j (x.noteWait (s.pier p) s.clk.fc)
  else s

/-- CHUCK_RESUME. -/
def execChuckResume (p j : Nat) (s : State) : Host.Outcome State Fault Refusal :=
  if 192 ≤ p then .fault (.noSuchUnit p)
  else .next (((s.pier p).chuck j).xfers.foldl (fun s x => resumeOne p j x s) s)

/-- Holds that wait for chuck `j` of pier `p`: WAITC loses it when it has nothing outstanding (R262). -/
def waitcRelease (k p j : Nat) (s : State) : State :=
  if (s.pier p).busyChuck j then s
  else
    let lose := fun h : Hold => if h.pier = p ∧ h.src = .waitc then { h with waits := h.waits.erase j } else h
    endHolds k (fun h => h.pier == p && h.src == .waitc && h.waits.isEmpty)
      (s.modSpan k fun sp => { sp with holds := sp.holds.map lose })

/-- The first transfer that waits with a hold takes the place that became free, and its hold ends (R181). -/
def admitWaiting (p k j : Nat) (s : State) : State :=
  match ((s.pier p).chuck j).waiting with
  | [] => s
  | x :: r =>
    let s1 := s.modChuck p j fun c => { c with waiting := r }
    let mine := fun h : Hold => h.pier == p && h.src == .chuckIssue && h.waits == [j]
    let s2 := match (s1.span k).holds.find? mine with
      | some h => s1.modSpan k fun sp => { sp with holds := sp.holds.erase h }
      | none => s1
    beginXfer p k j x s2

/-- The stamp that a completed exchange transfer brings (R403). -/
def exchangeDone (p : Nat) (x : Xfer) (s : State) : State :=
  if x.d.farKind ≠ 3 then s
  else match s.channelOf (windowOf x.d.farBase) with
    | none => s
    | some c =>
      let b := dataBeat s c (s.batchOf p).feedShift x
      let k := b % max c.k 1
      let n := tget 0 c.donePieces k + 1
      let src := s.isSource c
      if n < (if src then c.pieces else c.reads) then s.modChannel c.id fun c => { c with donePieces := tput c.donePieces k n }
      else
        (s.modChannel c.id fun c => { c with donePieces := tdel c.donePieces k
                                             written := if src then tput c.written k b else c.written }).send
          (.stamp c.id k b src)

/-- The scoreboard transition at a transfer's completion, unless it has taken place (Table 6-4). -/
def settle (p : Nat) (x : Xfer) (s : State) : State :=
  if x.settled then s else if x.d.dir then sbReaderDone p x.d.sbEntry s else sbFull p x.d.sbEntry s

/-- Whether the oldest transfer of a chuck has moved and its last write is stored or acknowledged (R181). -/
def Xfer.complete (x : Xfer) (fc : Nat) : Bool := x.phase == .moved && decide (x.storedAt ≤ fc)

/-- CHUCK_TRANSFER_DONE (R181): the oldest transfer completes. -/
def execChuckTransferDone (p j : Nat) (s : State) : Host.Outcome State Fault Refusal :=
  if 192 ≤ p then .fault (.noSuchUnit p)
  else match s.spanOf p, ((s.pier p).chuck j).xfers with
    | some (k, _), x :: r =>
      if x.complete s.clk.fc then
        let s1 := s.modChuck p j fun c => { c with xfers := r }
        .next (waitcRelease k p j (admitWaiting p k j (exchangeDone p x (settle p x s1))))
      else .next s
    | _, _ => .next s

/-- A transfer's scoreboard transition has taken place. -/
def markSettled (p id : Nat) (s : State) : State :=
  s.modPier p fun pr => { pr with
    chucks := tmap (fun _ c => { c with xfers := c.xfers.map fun x => if x.id = id then { x with settled := true } else x }) pr.chucks }

/-- Whether a transfer with the given direction still holds entry `e`. -/
def Pier.heldBy (pr : Pier) (e : Nat) (dir : Bool) : Bool :=
  pr.chucks.any fun c => c.2.xfers.any fun x => x.d.sbEntry == e && x.d.dir == dir && !x.settled && x.phase != .entryWait

/-- SB_RANGE_FULL (R152, R181): the last row of a FILLING range is stored. The range of a transfer is full when that transfer may settle;
one that ARM declared, when the deck's rows have come. -/
def execSbRangeFull (p entry : Nat) (s : State) : Host.Outcome State Fault Refusal :=
  if 192 ≤ p then .fault (.noSuchUnit p)
  else match (s.pier p).sbAt entry with
    | some (.filling _ _) =>
      match (s.pier p).ripe entry false s.clk.fc with
      | x :: _ => .next (sbFull p entry (markSettled p x.id s))
      | [] => if (s.pier p).heldBy entry false then .next s else .next (sbFull p entry s)
    | _ => .next s

/-- SB_DRAIN_DONE (Table 6-4, R181): the last read slot of a reading transfer has fallen: one reader fewer, or the entry is free. -/
def execSbDrainDone (p entry : Nat) (s : State) : Host.Outcome State Fault Refusal :=
  if 192 ≤ p then .fault (.noSuchUnit p)
  else match (s.pier p).sbAt entry, (s.pier p).ripe entry true s.clk.fc with
    | some (.draining _ _ _), x :: _ => .next (sbReaderDone p entry (markSettled p x.id s))
    | _, _ => .next s

/-- The first transfer of a chuck that moves to or from a remote window, or waits on a page of one. -/
def Pier.remoteXfer (pr : Pier) (j : Nat) : Option Xfer :=
  (pr.chuck j).xfers.find? fun x => x.d.farKind == 3 && match x.phase with
    | .moving => true
    | .rowWait => true
    | .pageWait _ _ => true
    | _ => false

/-- CHUCK_PAGE_STOP (R184): a remote answer of not resident stops the walk at its cursor. -/
def execChuckPageStop (p j : Nat) (s : State) : Host.Outcome State Fault Refusal :=
  if 192 ≤ p then .fault (.noSuchUnit p)
  else match (s.pier p).remoteXfer j with
    | some x => match x.phase with
      | .pageWait _ _ => .next s
      | _ =>
        let r := pageStop p (flushPart x) s
        .next (r.2.setXfer p j r.1)
    | none => .next s

/-- CHUCK_RETRY (R184): the access at the cursor is tried again. This device knows the answer of a window with a residency bitmap and of
an exchange slot, and resumes the walk where it is resident; the answer of another window to a read comes as data, and a write to
one is made again, which a remote answer of not resident stops again. -/
def execChuckRetry (p j : Nat) (s : State) : Host.Outcome State Fault Refusal :=
  if 192 ≤ p then .fault (.noSuchUnit p)
  else match (s.pier p).remoteXfer j with
    | some x => match x.phase with
      | .pageWait since _ =>
        let w := windowOf x.d.farBase
        let known := (s.channelOf w).isSome || (s.win w).residency
        if (known ∨ x.d.dir) ∧ accessOk s p x then
          let r := pageResume p x s
          .next (r.2.setXfer p j r.1)
        else .next (s.setXfer p j { x with phase := .pageWait since (s.now + 1000 * s.reg ckRetryUs p 0) })
      | _ => .next s
    | none => .next s

/-- CHUCK_REMOTE_TIMEOUT (R185): 0x0302, and the span aborts. -/
def execChuckRemoteTimeout (p j : Nat) (s : State) : Host.Outcome State Fault Refusal :=
  if 192 ≤ p then .fault (.noSuchUnit p)
  else match s.spanOf p, (s.pier p).remoteXfer j with
    | some (k, _), some x => match x.phase with
      | .pageWait since _ =>
        if since + 1000 * s.reg ckRemoteTimeoutUs p 0 ≤ s.now then .next (streamFault 0x0302 p k j x x.cursor s) else .next s
      | _ => .next s
    | _, _ => .next s

/-- STREAM_REMOTE_ERROR (R185): 0x0304, and the span aborts. -/
def execStreamRemoteError (p j : Nat) (s : State) : Host.Outcome State Fault Refusal :=
  if 192 ≤ p then .fault (.noSuchUnit p)
  else match s.spanOf p, (s.pier p).remoteXfer j with
    | some (k, _), some x => .next (streamFault 0x0304 p k j x x.cursor s)
    | _, _ => .next s

end Sys2Proof.Machine
end

