-- ==== Sys2Proof/Machine/Launch.lean ====
section
/-! DEFINITION. Requests, batches and the life of a span: forming a batch, preparing and launching it, its end, halts,
replay, commit and completion (04_key_material R114, 10 R247, 14 R376 to R378, 17 R453, 18 R464 to R472). -/
namespace Sys2Proof.Machine

/-! ### Lookups -/

/-- The accepted request with this session and SEQ. -/
def State.request (s : State) (se q : Nat) : Option Request := s.requests.find? fun r => r.session = se ∧ r.seq = q

/-- A request changed. -/
def State.modRequest (s : State) (se q : Nat) (f : Request → Request) : State :=
  { s with requests := s.requests.map fun r => if r.session = se ∧ r.seq = q then f r else r }

/-- A session changed. -/
def State.modSession (s : State) (id : Nat) (f : Session → Session) : State :=
  { s with sessions := s.sessions.map fun e => if e.1 = id then (e.1, f e.2) else e }

/-- An image changed. -/
def State.modImage (s : State) (h : Nat) (f : Image → Image) : State :=
  { s with images := s.images.map fun e => if e.1 = h then (e.1, f e.2) else e }

/-- Whether the system image declares a buddy (R374). -/
def State.hasBuddy (s : State) : Bool := s.dreg prtBuddyNone == 0

/-- An accepted request that has not committed. -/
def Request.live (r : Request) : Bool := r.st != .committed

/-! ### Completion records (R377, Table 14-6) -/

/-- The 64 bytes of completion `c`. -/
def compBytes (c : Nat) (x : Completion) : List Byte :=
  let b := leBytes 8 c ++ leBytes 8 x.ring ++ leBytes 8 x.session ++ leBytes 8 x.seq ++ leBytes 2 x.status ++
    leBytes 1 x.kind ++ leBytes 1 x.flags ++ leBytes 2 (x.device % 4096) ++ leBytes 2 0 ++ leBytes 8 x.time ++ leBytes 12 0
  b ++ leBytes 4 (crc32 b)

/-- The completion window of slot `p`, when it is open, remote and the slot's own. -/
def State.compWindow (s : State) (p : Nat) : Option Nat :=
  let w := s.reg prtCompWindow 0 p
  let e := s.win w
  if e.st = .opened ∧ e.remote ∧ e.owner = p then some w else none

/-- The records due to slot `p` written in order; while the window is not open they stay due (R377). -/
def writeCompletions (p : Nat) (s : State) : State :=
  match tfind s.slots p, (if s.cutOff then none else s.compWindow p) with
  | some sl, some w =>
    let base := 64 * s.reg prtCompOffset 0 p
    let s1 := (sl.due.zipIdx).foldl (fun s e =>
      s.send (.remoteWrite w (base + 64 * ((sl.completed + e.2) % 16384)) (compBytes (sl.completed + e.2) e.1))) s
    s1.modSlot p fun sl => { sl with completed := sl.completed + sl.due.length, due := [] }
  | some sl, none => if sl.closing then s.modSlot p fun sl => { sl with due := [] } else s
  | none, _ => s

/-- A record made due, and what can be written written. -/
def complete (p : Nat) (x : Completion) (s : State) : State :=
  writeCompletions p (s.modSlot p fun sl => { sl with due := sl.due ++ [x] })

/-! ### Commit (R376, R120) -/

/-- Serials of the request's ranges, by material entry. -/
def Request.serials (r : Request) : List (Nat × Nat) :=
  r.ranges.flatMap fun g => (List.range g.2.2).map fun i => (g.1, g.2.1 + i)

/-- Items of a class spent: overwritten with zeros; a bundle whose items are all spent is released (R118, R120). -/
def spendItems (se : Nat) (ent : MatEnt) (serials : List Nat) (s : State) : State :=
  match tfind s.sessions se with
  | none => s
  | some x =>
    let hit := fun (c : MatClass) => decide (c.ent = { ent with perReq := c.ent.perReq })
    match x.classes.find? hit with
    | none => s
    | some c =>
      let s1 := serials.foldl (fun s n => match c.bundles.find? (fun b => b.first ≤ n ∧ n < b.first + b.count) with
        | some b =>
          let base := s.objBase b.obj
          (List.range b.itemBytes).foldl (fun s y => s.wr (objAddr base ((n - b.first) * b.itemBytes + y)) [0]) s
        | none => s) s
      let spent := c.spent ++ serials.filter (fun n => !c.spent.contains n)
      let ended := fun (b : MatBundle) => (List.range b.count).all fun i => spent.contains (b.first + i)
      let gone := (c.bundles.filter ended).map (·.obj)
      let upd := fun (c : MatClass) =>
        if hit c then { c with spent := spent, bundles := c.bundles.filter fun b => !ended b } else c
      let s2 := s1.modSession se fun x => { x with classes := x.classes.map upd }
      { s2 with objs := s2.objs.filter fun o => !gone.contains o.id }

/-- The request's reserved material spent (R120). -/
def spendRequest (r : Request) (s : State) : State :=
  match tfind s.images r.handle with
  | none => s
  | some im => r.ranges.foldl (fun s g => match im.mats[g.1]? with
    | some e => spendItems r.session e ((List.range g.2.2).map (g.2.1 + ·)) s
    | none => s) s

/-- The commands that waits for the last commit enqueue: close of a session, erasure of a key set, replacement of an image. -/
def drainEvents (r : Request) (s : State) : State :=
  let quiet := fun (p : Request → Bool) => s.requests.all fun x => !(x.live && p x)
  let tagOf := fun se => ((tfind s.sessions se).map (·.keyTag)).getD 0
  let s1 := if ((tfind s.sessions r.session).bind (·.closing)).isSome && quiet (fun x => x.session == r.session) then
    s.enqueue (.sessionCloseDone r.session) else s
  let t := tagOf r.session
  let s2 := if s.keysets.any (fun k => k.tag == t && k.erasing.isSome) && quiet (fun x => tagOf x.session == t) then
    s1.enqueue (.eraseKeysetDone t) else s1
  if ((tfind s.images r.handle).map (·.replacing)).getD false && quiet (fun x => x.handle == r.handle) then
    s2.enqueue (.loadImageReplaceDrained r.handle) else s2

/-- The completion record of a request. -/
def Request.completion (r : Request) (ring kind now : Nat) : Completion :=
  { ring := ring, session := r.session, seq := r.seq, status := r.status, kind := kind
    flags := (if r.handedOff then 1 else 0) + (if r.noiseOver then 2 else 0), device := r.device, time := now }

/-- A request commits (R376): its material is spent, its arrival entry freed, its record and those of its duplicates
become due, and waits that it ends end. -/
def commitNow (r : Request) (s : State) : State :=
  let s1 := s.modRequest r.session r.seq fun x => { x with st := .committed, commitTime := s.now, repeats := [] }
  let s2 := s1.bump2 prtCommittedLo prtCommittedHi 0 0 1
  let s3 := s2.modImage r.handle fun im => { im with arrivalUsed := im.arrivalUsed.filter (· != r.arrival) }
  let mine := fun (j : JRec) => match j with
    | .opening a b _ _ => a == r.session && b == r.seq
    | .commit a b => a == r.session && b == r.seq
    | .group _ _ _ d _ _ _ => getLe d 0x10 8 == r.session && getLe d 0x18 8 == r.seq
  let s4 := spendRequest r { s3 with
    journal := s3.journal.filter fun j => !mine j
    sent := s3.sent.filter fun t => !(t.1 == r.session && t.2.1 == r.seq)
    rx := s3.rx.filter fun t => !(t.session == r.session && t.request == r.seq)
    rxDone := s3.rxDone.filter fun t => !(t.session == r.session && t.request == r.seq)
    rxTimers := s3.rxTimers.filter fun t => !(t.session == r.session && t.request == r.seq) }
  let s5 := complete r.slot (r.completion r.ring 0 s.now) s4
  let s6 := r.repeats.foldl (fun s n => complete r.slot (r.completion n 2 s.now) s) s5
  drainEvents r s6

/-- Requests of a session commit in SEQ order: the lowest that has not committed, when its output is complete, gets its
COMMIT record; with a buddy it waits for the acknowledgement (R376). -/
def advanceCommits (se : Nat) : Nat → State → State
  | 0, s => s
  | n + 1, s =>
    let live := s.requests.filter fun r => r.session = se && r.live
    let low := live.foldl (fun m r => match m with
      | none => some r
      | some (x : Request) => if r.seq < x.seq then some r else some x) (none : Option Request)
    match low with
    | none => s
    | some r =>
      if r.st = .output then
        let s1 := { s with journal := s.journal ++ [.commit se r.seq] }
        if s.hasBuddy then
          (s1.modRequest se r.seq fun x => { x with st := .committing }).send (.commitRec se r.seq)
        else advanceCommits se n (commitNow r s1)
      else s

/-- The STATUS of an output that is complete with `code`: what an earlier span of the request left, and 0x0202 for every request that
remains when its key set is erased at once (R60, R105; log entry 67). -/
def State.outputStatus (s : State) (r : Request) (code : Nat) : Nat :=
  let tag := ((tfind s.sessions r.session).map (·.keyTag)).getD 0
  if code ≠ 0 then code
  else if r.status ≠ 0 then r.status
  else if s.keysets.any fun k => k.tag == tag && k.erasing == some 1 then 0x0202 else 0

/-- The output of a request is complete, with a poison code or 0 (R60, R376). -/
def outputDone (se q code : Nat) (s : State) : State :=
  match s.request se q with
  | none => s
  | some r =>
    if r.st = .accepted ∨ r.st = .running then
      advanceCommits se s.requests.length
        (s.modRequest se q fun r => { r with st := .output, status := s.outputStatus r code, device := s.dreg tbDeviceId })
    else s

/-- The buddy has acknowledged a COMMIT record (R376). -/
def commitAcked (se q : Nat) (s : State) : State :=
  match s.request se q with
  | some r => if r.st = .committing then advanceCommits se s.requests.length (commitNow r s) else s
  | none => s

/-! ### Forming a batch (R114, R280) -/

/-- Whether launches may be fixed: after boot, with a valid time, not Degraded, tripped or cut off from the buddy (R388, R410,
R439, R473, R476). -/
def State.mayFix (s : State) : Bool :=
  !s.degraded && !s.pwr.trip && !s.cutOff && s.dreg tbSyncState != 0 && s.ks.boot == 1

/-- Whether launches may take place: in A0 too (R448). -/
def State.mayLaunch (s : State) : Bool := s.mayFix && s.pwr.state == .a0

/-- BATCH of the first key entry, by ORDER, of the first stage of the span that has one; 256 when the plan has none (R114). A request
counts as one ciphertext (log entry 67). -/
def State.batchSize (s : State) (k : Nat) : Nat :=
  match s.imageOf k with
  | none => 256
  | some im =>
    let mine := im.keys.filter fun e => (im.stages[e.stage]?).any fun g => g.span = (s.span k).imgSpan
    let first := mine.foldl (fun b e => match b with
      | some (x : KeyEnt) => if e.stage < x.stage ∨ (e.stage = x.stage ∧ e.order < x.order) then some e else b
      | none => some e) (none : Option KeyEnt)
    (first.map (·.batch)).getD 256

/-- Key-set tag of a session. -/
def State.tagOf (s : State) (se : Nat) : Nat := ((tfind s.sessions se).map (·.keyTag)).getD 0

/-- Ring of an installed key set. -/
def State.ringOf (s : State) (tag : Nat) : Ring := ((s.keysets.find? fun k => k.tag = tag).map (·.ring)).getD {}

/-- The requests that span `k` holds under the key set of request `w`, at most BATCH. -/
def State.under (s : State) (k : Nat) (w : Nat × Nat × Nat) : List (Nat × Nat × Nat) :=
  ((s.span k).waiting.filter fun x => s.tagOf x.1 = s.tagOf w.1).take (s.batchSize k)

/-- The requests that a batch of span `k` would join when it has to launch: those under the oldest one's key set. -/
def State.joinable (s : State) (k : Nat) : List (Nat × Nat × Nat) :=
  match (s.span k).waiting with
  | [] => []
  | w :: _ => s.under k w

/-- The requests of a key set of which BATCH wait, the set of the oldest such request first; none when no batch is full. -/
def State.fullBatch (s : State) (k : Nat) : List (Nat × Nat × Nat) :=
  (((s.span k).waiting.map (s.under k)).find? fun ws => decide (s.batchSize k ≤ ws.length)).getD []

/-- A batch of the given requests fixed to launch at `at_` (R114, R448). -/
def fixBatch (k : Nat) (ws : List (Nat × Nat × Nat)) (at_ : Nat) (s : State) : State :=
  let tag := s.tagOf ((ws.headD (0, 0, 0)).1)
  let start := max (at_ - Config.prepNs) (s.now + resumeNs s.pwr.state s.pwr.gddrOff)
  let b : Batch :=
    { serial := s.nextSerial, launchTs := start + Config.prepNs, prepTs := start, keyTag := tag, ring := s.ringOf tag
      members := ws.map fun w => { session := w.1, seq := w.2.1, arrival := ((s.request w.1 w.2.1).map (·.arrival)).getD 0 } }
  let s1 := { s with nextSerial := s.nextSerial + 1 }
  let s2 := ws.foldl (fun s w => s.modRequest w.1 w.2.1 fun r => { r with st := .running }) s1
  s2.modSpan k fun sp => { sp with
    fixed := sp.fixed ++ [b], waiting := sp.waiting.filter fun w => !ws.contains w }

/-- Whether span `k` can take a new batch: none runs or is fixed, it is not blocked or recovering. -/
def Span.open (sp : Span) : Bool :=
  sp.batch.isNone && sp.fixed.isEmpty && sp.blocked.isNone && sp.recovery == .none && !sp.piers.isEmpty

/-- The scheduler's look at span `k`: a full batch is fixed at once (R114), whatever other key sets wait. -/
def trySchedule (k : Nat) (s : State) : State :=
  let ws := s.fullBatch k
  if (s.span k).open && s.mayFix && !ws.isEmpty then
    fixBatch k ws (s.now + Config.prepNs) s
  else s

/-- BATCH_WAIT of the image of span `k`, in ns. -/
def State.waitNs (s : State) (k : Nat) : Nat := 1000 * ((s.imageOf k).map (·.batchWaitUs)).getD 0

/-- BATCH_WAIT (R114): the launch is fixed for the moment at which the oldest ciphertext has waited BATCH_WAIT. -/
def execBatchWait (k : Nat) (s : State) : Host.Outcome State Fault Refusal :=
  if 16 ≤ k then .fault (.noSuchUnit k)
  else
    let ws := s.joinable k
    let since := (ws.headD (0, 0, 0)).2.2
    if (s.span k).open && s.mayFix && !ws.isEmpty && decide (since + s.waitNs k ≤ s.now + Config.prepNs) then
      .next (fixBatch k ws (since + s.waitNs k) s)
    else .next s

/-- An accepted request joins its span's queue; on a blocked span it commits poisoned at once (R216). -/
def admitRequest (r : Request) (s : State) : State :=
  match (s.span r.span).blocked with
  | some code => outputDone r.session r.seq code s
  | none => trySchedule r.span (s.modSpan r.span fun sp => { sp with waiting := sp.waiting ++ [(r.session, r.seq, s.now)] })

/-! ### Conditional points (R93 to R95) -/

/-- Whether a captured policy permits the opening at a point (R93). -/
def Policy.permits (p : Policy) (c : CondPoint) : Bool :=
  if c.exit then bit p.discKind 1 && bit p.exitMask c.boundary else bit p.discKind 0 && decide (c.k ≤ p.maxK)

/-- Where a request goes on when its batch on span `k` has ended, along the points `cs` that it has not passed: the span of the form
that runs next, and the points then behind it; none when its output is complete, as it is at a boundary whose disclosed exit bit
is 1 (Table 3-8). A form whose span is `k` itself has run there. -/
def Image.routeFrom (im : Image) (r : Request) (k : Nat) : List CondPoint → List Nat → Option (Nat × List Nat)
  | [], _ => none
  | c :: cs, done =>
    let open_ := r.policy.permits c
    if c.exit ∧ open_ ∧ tfind r.exits c.point = some true then none
    else
      let j := im.spans.getD (if open_ ∧ c.disclosed ≠ 0xFF then c.disclosed else c.oblivious) k
      if j = k then im.routeFrom r k cs (done ++ [c.point]) else some (j, done ++ [c.point])

/-- The points that a request has not passed, in ascending order of POINT (DESIGN CHOICE, log entry 67). -/
def Image.pointsLeft (im : Image) (r : Request) : List CondPoint :=
  (im.points.filter fun c => !r.passed.contains c.point).foldl (fun l c => insertBy (·.point) c l) []

/-- Poison of a member's output: that of the poisoned shard with the lowest SHARD_INDEX among those it has written, else the first
code that its batch met (R59, R60). -/
def Batch.outCode (b : Batch) (i : Nat) (m : Member) : Nat :=
  match (b.outs.filter fun e => e.2.1 = i).foldl (fun x e => match x with
    | some (y : Nat × Nat) => if e.2.2.1 < y.1 then some (e.2.2.1, e.2.2.2) else x
    | none => some (e.2.2.1, e.2.2.2)) none with
  | some y => if y.2 = 0 then m.code else y.2
  | none => m.code

/-- A member's batch on span `k` has ended: the request joins the span of its next conditional form, or its output is complete. -/
def memberEnds (k : Nat) (im : Option Image) (b : Batch) (e : Member × Nat) (s0 : State) : State :=
  let m := e.1
  let code := b.outCode e.2 m
  let s := s0.modRequest m.session m.seq fun r => { r with noiseOver := r.noiseOver || m.saw203 }
  match s.request m.session m.seq, im with
  | some r, some im =>
    (match (if r.st = .running then im.routeFrom r k (im.pointsLeft r) r.passed else none) with
      | some (j, done) =>
        admitRequest { r with span := j } (s.modRequest m.session m.seq fun r =>
          { r with st := .accepted, span := j, passed := done, status := if r.status = 0 then code else r.status })
      | none => outputDone m.session m.seq code s)
  | _, _ => outputDone m.session m.seq code s

/-! ### Preparation (R201, R227, R378) -/

/-- The batch-table entry of a member (R378). -/
def tableEntry (s : State) (m : Member) : List Byte :=
  match s.request m.session m.seq with
  | none => leBytes 8 m.session ++ leBytes 8 m.seq ++ List.replicate 48 0
  | some r =>
    let w12 := r.discCount % 256 + (match r.exits with
      | (_, b) :: _ => 256 + (if b then 512 else 0)
      | [] => 0)
    leBytes 8 m.session ++ leBytes 8 m.seq ++ ((List.range 7).flatMap fun i => leBytes 4 (r.args.getD i 0)) ++
      leBytes 4 (s.dreg tbDeviceId + (if r.handedOff then 4096 else 0)) ++ leBytes 4 w12 ++ leBytes 4 r.discAt ++ leBytes 8 0

/-- Offset of the batch table of image span `k` in the image's LLM region (log entry 17). -/
def Image.tableAt (im : Image) (k : Nat) : Nat := im.tableBase + 16384 * k

/-- Batch `b` becomes span `k`'s batch: constant stores, member tables and batch table are filled. -/
def prepareBatch (k : Nat) (b : Batch) (s : State) : State :=
  let table := if b.feed.isSome then b.table else b.members.flatMap (tableEntry s)
  let keys := b.members.zipIdx.map fun e => (e.2, ((tfind s.sessions e.1.session).map (·.mask)).getD 0, e.1.seq)
  let s1 := s.modSpan k fun sp => { sp with batch := some { b with prepared := true, table := table } }
  let s2 := (s.span k).piers.foldl (fun s p => s.modPier p fun x => { x with constTag := b.keyTag, members := keys }) s1
  match s.imageOf k with
  | some im => s2.wr (llmBase + im.llmBase + im.tableAt (s.span k).imgSpan) table
  | none => s2

/-- Whether a store that a batch of span `k` under key set `tag` reads is under repair (R466). -/
def State.repairing (s : State) (k tag : Nat) : Bool :=
  s.repairs.any fun r =>
    if r.store ≤ 1 then (s.span k).piers.contains r.pier
    else if r.store = 3 ∨ r.store = 5 then
      s.keysets.any fun q => q.tag == tag && (q.constObj == r.addr || q.objs.any fun o => o.obj == r.addr)
    else r.store == 4 && s.sessions.any fun e => e.2.keyTag == tag && e.2.classes.any fun c => c.bundles.any fun b => b.obj == r.addr

/-- BATCH_PREPARE: the fixed batch is prepared. -/
def execBatchPrepare (k : Nat) (s : State) : Host.Outcome State Fault Refusal :=
  if 16 ≤ k then .fault (.noSuchUnit k)
  else
    let sp := s.span k
    match sp.fixed with
    | [] => .next s
    | b :: r =>
      if sp.batch.isSome ∨ sp.recovery ≠ .none ∨ sp.blocked.isSome ∨ !s.mayLaunch ∨ s.repairing k b.keyTag ∨ s.now < b.prepTs then .next s
      else .next (prepareBatch k b (s.modSpan k fun sp => { sp with fixed := r }))

/-! ### Launch (R247, R258, R276) -/

/-- Launch parameter word n (R258, Table 11-9). -/
def paramWord (im : Image) (k : Nat) (b : Batch) (map : List Nat) (n : Nat) : Nat :=
  if n = 0 then b.members.length
  else if n = 1 then b.serial % 2 ^ 32
  else if n = 2 then b.serial / 2 ^ 32 % 2 ^ 32
  else
    let v := map.getD (n - 3) 0xFF
    if v < 16 then getLe b.table (4 * v) 4
    else if v = 0x10 then im.tableAt k / 8
    else if v = 0x11 then
      ((List.range b.members.length).filter fun i => getLe b.table (64 * i + 48) 4 % 512 != 0).length
    else 0

/-- A pier as its span launches (R155, R159, R194, R210, R226, R247, R276): swap, sequencer, tiles, cache, tables. -/
def launchPier (im : Image) (k : Nat) (b : Batch) (g : Option StageProg) (x : Pier) : Pier :=
  let blocks := (g.map (·.cacheBlocks)).getD 0
  let map := (g.map (·.paramMap)).getD []
  let rows := fun n => (16384 - 1024 * n) * 64
  let bank := if x.seq.armed then 1 - x.seq.bank else x.seq.bank
  { x with
    seq := { bank := bank, st := .running
             params := (List.range 32).map fun n => (n, BitVec.ofNat 32 (paramWord im k b map n)) }
    tiles := [], tilePar := [], storePar := x.storePar.filter fun e => e.1 == 4 || (e.1 == 5 && decide (e.2.1 < 4))
    fssRows := [], mmeArray := 0, shapes := [], oc := [], mv := [], poison := [], seeds := [], cache := [], ftq := [], passes := []
    nttBuf := [], acts := [], sendq := [], announced := [], inbound := [], timed := []
    nttUntil := 0, mmeUntil := 0, passUntil := 0, fssUntil := 0
    bench := if blocks < x.cacheBlocks then mzero x.bench (rows x.cacheBlocks) (rows blocks)
      else mzero x.bench (rows blocks) (rows x.cacheBlocks)
    cacheBlocks := blocks }

/-- The instruction of pier `p` of span `k`, when one is due in this fc, is fetched (R247). -/
def fetchPier (k p : Nat) (s : State) : State :=
  let sp := s.span k
  let x := s.pier p
  if sp.running ∧ ¬ sp.frozen ∧ x.seq.st = .running ∧ x.seq.due = sp.relFc ∧ ¬ x.seq.fetched then
    let s1 := s.modSeq p fun q => { q with fetched := true }
    match decodeWord p (x.iword x.seq.routine x.seq.pc).toNat with
    | some c => s1.enqueue c
    | none => s1
  else s

/-- The instructions of span `k` due in this fc are fetched. -/
def fetchDue (k : Nat) (s : State) : State := (s.span k).piers.foldl (fun s p => fetchPier k p s) s

/-- The instructions of every span due in this fc are fetched, in ascending order of pier, in which their records stand (R461). -/
def fetchAll (s : State) : State :=
  let ps := (s.spans.flatMap fun e => e.2.piers.map fun p => (p, e.1)).foldl (fun l e => insertBy (·.1) e l) ([] : List (Nat × Nat))
  ps.foldl (fun s e => fetchPier e.2 e.1 s) s

/-- REMOTE_TIMEOUT_US and RETRY_US of the stage record; zero leaves the reset value (R187). -/
def setTimeouts (p : Nat) (g : Option StageProg) (s : State) : State :=
  let t := (g.map (·.remoteUs)).getD 0
  let r := (g.map (·.retryUs)).getD 0
  (s.setReg ckRemoteTimeoutUs p 0 (if t = 0 then ckRemoteTimeoutUs.reset else t)).setReg ckRetryUs p 0
    (if r = 0 then ckRetryUs.reset else r)

/-- What of a request's receives a launch maps anew to the member's slot: payloads stored as they are; in a replay every receive, each
waiting for the replayed send that it answers (R328; DESIGN CHOICE, log entry 67). -/
def remapRecvs (im : Image) (replay : Bool) (m : Member) (s : State) : State :=
  let mine := fun (se rq : Nat) => se == m.session && rq == m.seq
  let plain := fun (step : Nat) => im.hxp.any fun h => h.recv && h.step == step && h.op == 0
  if replay then
    { s with rxDone := s.rxDone.filter fun d => !mine d.session d.request
             rxTimers := s.rxTimers.filter fun d => !mine d.session d.request
             sent := s.sent.filter fun d => !mine d.1 d.2.1 }
  else { s with rxDone := s.rxDone.filter fun d => !(mine d.session d.request && d.code == 0 && plain d.step) }

/-- Span `k` of image `im` at span-relative fc 0 with the prepared batch `b`: every stage issues PC 0. -/
def launchBatch (k : Nat) (b : Batch) (im : Image) (s : State) : State :=
  let b1 := { b with members := b.members.map fun m => { m with code := 0, saw203 := false, saw204 := false } }
  let s1 := (b.members.foldl (fun s m => remapRecvs im b.replay m s) s).modSpan k fun sp => { sp with
    batch := some b1, running := true, shown := true, relFc := 0, held := [], frozen := false, holds := [], charges := []
    level := 0, nextLevel := 0, winFc := 0, winSum := 0, winIndex := 0, stop := none }
  let s2 := (s.span k).piers.zipIdx.foldl (fun s e =>
    let g := s.stageProg k e.2
    setTimeouts e.1 g ((s.modPier e.1 (launchPier im (s.span k).imgSpan b1 g)).setReg spnWindowPeak e.1 0 0)) s1
  fetchDue k s2

/-- LAUNCH_TIMESTAMP (R247, R470): the launch timestamp is reached; a launch waits while the batch's output is the input of a
batch without a BOUNDARY record. -/
def execLaunchTimestamp (k : Nat) (s : State) : Host.Outcome State Fault Refusal :=
  if 16 ≤ k then .fault (.noSuchUnit k)
  else
    let sp := s.span k
    match sp.batch, s.imageOf k with
    | some b, some im =>
      if sp.running ∨ !b.prepared ∨ s.now < b.launchTs ∨ sp.recovery ≠ .none ∨ !s.mayLaunch ∨ s.repairing k b.keyTag ∨ s.inputsInUse k then .next s
      else .next (launchBatch k b im s)
    | _, _ => .next s

/-! ### The end of a batch (R276, R470) -/

/-- Nothing of a pier is left to run: its stage has halted, no transfer, effect, row or flit is under way. -/
def Pier.quiet (x : Pier) : Bool :=
  x.seq.st != .running && x.acts.isEmpty && x.sendq.isEmpty && x.inbound.isEmpty && x.timed.isEmpty &&
    x.stores.isEmpty && x.chucks.all fun c => c.2.xfers.isEmpty && c.2.waiting.isEmpty

/-- A span whose stages have all halted with nothing outstanding ends its batch: its requests' outputs are complete, a
BOUNDARY record is written, the seed keys are zeroed (R226, R470). -/
def endBatch (k : Nat) (s : State) : State :=
  let sp := s.span k
  match sp.batch with
  | none => s
  | some b =>
    let s1 := s.modSpan k fun sp => { sp with
      running := false, batch := none, charges := [], holds := [], held := [], frozen := false
      boundaries := (sp.boundaries ++ [(b.serial, b.members.map (fun m => (m.session, m.seq)), b.commits)]).drop
        (sp.boundaries.length - 255) }
    let s2 := sp.piers.foldl (fun s p => s.modPier p fun x => { x with seeds := [] }) s1
    let s3 := if b.feed.isSome then s2 else
      b.members.zipIdx.foldl (fun s e => memberEnds k (s.imageOf k) b e s) s2
    trySchedule k s3

/-! ### Halts, resets and replay (R186, R216, R453, R464, R465, R471) -/

/-- Every pier of the span stops: chucks, waits, scoreboard and everything scheduled are dropped, with the far-side writes that the IO
die has not taken yet (R186). -/
def abortPiers (k : Nat) (fault : Bool) (s0 : State) : State :=
  let s := { s0 with links := s0.links.filter fun f => !(s0.span k).piers.contains f.pier }
  (s.span k).piers.foldl (fun s p => s.modPier p fun x => { x with
    seq := { x.seq with st := if fault then .fault else .idle, fetched := false }
    sb := [], chucks := [], acts := [], sendq := [], announced := [], inbound := [], timed := [], stores := []
    passes := [], ftq := [], nttBuf := [], seeds := [], fssRows := [], mmeArray := 0 }) s

/-- The current program in bank 0, the other bank zero (R277, Table 17-7): what Viesk writes before the next launch. -/
def Pier.rebank (x : Pier) : Pier :=
  let b := x.seq.bank
  { x with
    imem := x.imem.filterMap fun e => if e.1 / 0x40000 = b then some (e.1 % 0x40000, e.2) else none
    routines := x.routines.filterMap fun e => if e.1 / 1024 = b then some (e.1 % 1024, e.2) else none
    seq := { x.seq with bank := 0, armed := false } }

/-- What a span reset leaves of a pier (R161, Table 17-7): bench, tiles, lathe, spindle and sequencer state at their Reset
values, constant store and member table empty, the current program in bank 0. -/
def clearPier (x : Pier) : Pier :=
  let y := x.rebank
  { imem := y.imem, routines := y.routines, faults := x.faults, nextId := x.nextId }

/-- The span's current batch leaves it. -/
def dropBatch (k : Nat) (s : State) : State :=
  s.modSpan k fun sp => { sp with
    batch := none, running := false, charges := [], holds := [], held := [], frozen := false, stop := none }

/-- The members of a batch commit once, poisoned with `code` (R186, R216). -/
def poisonMembers (b : Batch) (code : Nat) (s : State) : State :=
  if b.feed.isSome then s else b.members.foldl (fun s m => outputDone m.session m.seq code s) s

/-- Span `k` relaunches batch `b` after its recovery: the same members and serial at a new timestamp; a request replayed
4 times commits poisoned with the last fault's code (R471, R472). -/
def replayBatch (k : Nat) (b : Batch) (code : Nat) (s : State) : State :=
  let s1 := b.members.foldl (fun s m => match s.request m.session m.seq with
    | some r =>
      if !r.live || b.feed.isSome then s
      else if 4 ≤ r.replays then outputDone m.session m.seq code s
      else (s.modRequest m.session m.seq fun r => { r with replays := r.replays + 1 }).bump rasReplayedRequests 0 0 1
    | none => s) s
  let again := b.feed.isSome || b.members.any fun m => ((s1.request m.session m.seq).map fun r => r.st == .running).getD false
  if again then
    s1.modSpan k fun sp => { sp with fixed := { b with prepTs := s.now, launchTs := s.now + Config.prepNs, prepared := false, replay := true, commits := [], outs := [] } :: sp.fixed }
  else s1

/-- A span reset (R453): abort, 16,384 fc of zeroing, and what follows it. -/
def resetSpan (k code : Nat) (test : Option Nat) (s : State) : State :=
  let sp := s.span k
  let s1 := abortPiers k (code != 0) s
  let s2 := sp.piers.foldl (fun s p => (s.modPier p clearPier).clearPierRegs p) s1
  let s3 := dropBatch k s2
  let s4 := { s3 with llmCache := [] }.modSpan k fun sp => { sp with
    recovery := .resetting (s.clk.fc + 16384) test true, lastCode := code, shown := false, level := 0, nextLevel := 0 }
  match sp.batch with
  | some b => replayBatch k b code s4
  | none => s4

/-- A span reset command: SPAN_COUNT, and the reset. -/
def spanResetCmd (k : Nat) (s : State) : State := resetSpan k 0 none (s.bump rstSpanCount 0 0 1)

/-- The stop of span `k` takes place, at the end of the fc in which it was raised. -/
def applyStop (k : Nat) (s : State) : State :=
  let sp := s.span k
  match sp.stop with
  | none => s
  | some (.replay code pier) =>
    let s1 := match pier with
      | some p => s.modPier p fun x => { x with faults := x.faults ++ [s.now] }
      | none => s
    resetSpan k code pier s1
  | some (.commit code pier) =>
    let s1 := dropBatch k (abortPiers k true s)
    let s2 := s1.modSpan k fun sp => { sp with
      blocked := some code, waiting := [], fixed := []
      recovery := match pier with
        | some p => .testing p false
        | none => .none }
    let s3 := (sp.batch.toList ++ sp.fixed).foldl (fun s b => poisonMembers b code s) s2
    sp.waiting.foldl (fun s w => outputDone w.1 w.2.1 code s) s3
  | some (.abort code) =>
    let s1 := dropBatch k (abortPiers k true s)
    trySchedule k (match sp.batch with
      | some b => poisonMembers b code s1
      | none => s1)

/-- SPAN_RESET_DONE (R161, R453): the benches are zero; the span goes on to its self-test, or is free to launch again. -/
def execSpanResetDone (k : Nat) (s : State) : Host.Outcome State Fault Refusal :=
  if 16 ≤ k then .fault (.noSuchUnit k)
  else match (s.span k).recovery with
    | .resetting fc test replay =>
      if s.clk.fc < fc then .next s
      else match test with
        | some p => .next (s.modSpan k fun sp => { sp with recovery := .testing p replay })
        | none => .next (trySchedule k (s.modSpan k fun sp => { sp with recovery := .none }))
    | _ => .next s

end Sys2Proof.Machine
end

