-- ==== Sys2Proof/Machine/Aes.lean ====
section
/-! DEFINITION. AES-128 (FIPS 197), which the manual names for the PRG and the FSS gates (R228, R309). PRESUMED: the
algorithm is taken from the standard (log entry 13). -/
namespace Sys2Proof.Machine

/-- Multiplication by x in GF(2^8). -/
def xtime (a : Nat) : Nat := if a < 128 then 2 * a else (2 * a) % 256 ^^^ 0x1B

/-- Product in GF(2^8), over the low `f` bits of `b`. -/
def gmulAux : Nat → Nat → Nat → Nat
  | 0, _, _ => 0
  | f + 1, a, b => (if b % 2 = 1 then a else 0) ^^^ gmulAux f (xtime a) (b / 2)

/-- Product in GF(2^8). -/
def gmul (a b : Nat) : Nat := gmulAux 8 a b

/-- Inverse in GF(2^8) as a^254, 0 for 0. -/
def ginv (a : Nat) : Nat :=
  let a2 := gmul a a
  let a4 := gmul a2 a2
  let a8 := gmul a4 a4
  let a16 := gmul a8 a8
  let a32 := gmul a16 a16
  let a64 := gmul a32 a32
  let a128 := gmul a64 a64
  gmul a128 (gmul a64 (gmul a32 (gmul a16 (gmul a8 (gmul a4 a2)))))

/-- Rotation of a byte to the left. -/
def rotl8 (a n : Nat) : Nat := (a * 2 ^ n) % 256 + a / 2 ^ (8 - n)

/-- The S-box. -/
def sbox (a : Nat) : Nat :=
  let b := ginv a
  b ^^^ rotl8 b 1 ^^^ rotl8 b 2 ^^^ rotl8 b 3 ^^^ rotl8 b 4 ^^^ 0x63

/-- The next round key, 16 bytes, with round constant `rc`. -/
def nextKey (k : List Nat) (rc : Nat) : List Nat :=
  let g := fun i => nth k i 0
  let w0 := [g 0 ^^^ sbox (g 13) ^^^ rc, g 1 ^^^ sbox (g 14), g 2 ^^^ sbox (g 15), g 3 ^^^ sbox (g 12)]
  let w1 := List.zipWith (· ^^^ ·) w0 [g 4, g 5, g 6, g 7]
  let w2 := List.zipWith (· ^^^ ·) w1 [g 8, g 9, g 10, g 11]
  let w3 := List.zipWith (· ^^^ ·) w2 [g 12, g 13, g 14, g 15]
  w0 ++ w1 ++ w2 ++ w3

/-- SubBytes and ShiftRows on 16 bytes in column order. -/
def subShift (s : List Nat) : List Nat := (List.range 16).map fun i => sbox (nth s ((i + 4 * (i % 4)) % 16) 0)

/-- MixColumns. -/
def mixCols (s : List Nat) : List Nat :=
  (List.range 16).map fun i =>
    let c := 4 * (i / 4)
    let r := i % 4
    let g := fun j => nth s (c + (r + j) % 4) 0
    gmul 2 (g 0) ^^^ gmul 3 (g 1) ^^^ g 2 ^^^ g 3

/-- The rounds over the listed round constants; the last round leaves MixColumns out. -/
def aesRounds : List Nat → List Nat → List Nat → List Nat
  | [], s, _ => s
  | rc :: rcs, s, k =>
    let k' := nextKey k rc
    let t := subShift s
    let u := if rcs.isEmpty then t else mixCols t
    aesRounds rcs (List.zipWith (· ^^^ ·) u k') k'

/-- AES-128 of 16 bytes under a key of 16 bytes. -/
def aesBytes (key msg : List Byte) : List Byte :=
  let k := key.map BitVec.toNat
  let s := List.zipWith (· ^^^ ·) (msg.map BitVec.toNat) k
  (aesRounds [1, 2, 4, 8, 16, 32, 64, 128, 27, 54] s k).map (BitVec.ofNat 8)

/-- AES-128 on 128-bit integers given least significant byte first (R228). -/
def aes (key msg : Nat) : Nat := leNat (aesBytes (leBytes 16 key) (leBytes 16 msg))

end Sys2Proof.Machine
end

