-- ==== Sys2Proof/Machine/Deck.lean ====
section
/-! DEFINITION. The deck: sends, the send queue and arrivals (10_sequencer_isa R261, 11_spans R283, R293, R296). -/
namespace Sys2Proof.Machine

/-- Flits of a row of `lanes` words (R261). -/
def flitsOf (lanes : Nat) : Nat := ceilDiv (lanes * 9) 128

/-- Rows in the queue after fc `a` to `a + n − 1`: in each, the rows due enter and one flit of the head row leaves (R296). -/
def queueAt : Nat → Nat → List Nat → List (Nat × Nat) → List Nat
  | 0, _, q, _ => q
  | n + 1, a, q, due =>
    let q1 := q ++ ((due.filter fun e => e.1 = a).map (·.2))
    let q2 := match q1 with
      | [] => []
      | f :: r => if f ≤ 1 then r else (f - 1) :: r
    queueAt n (a + 1) q2 due

/-- An entry of `flits` flits due in fc `enters`, presented in fc `now` (R296): a hold when the queue will hold 16 rows. -/
def actSendqPresent (k p now enters flits : Nat) (s : State) : State :=
  let x := s.pier p
  let rows := (queueAt (enters - now) now (x.sendq.map (·.flits)) x.announced).length
  let s1 := s.modPier p fun x => { x with announced := x.announced ++ [(enters, flits)] }
  if 16 ≤ rows then raiseHold k p .sendq [enters] .nothing s1 else s1

/-- A row enters the send queue. -/
def actSendqEnter (p due : Nat) (r : SendRow) (s : State) : State :=
  s.modPier p fun x => { x with sendq := x.sendq ++ [r], announced := x.announced.erase (due, r.flits) }

/-- One flit of the head row enters the deck in fc `fc`; the row's last flit arrives its edge's travel time later (R293). -/
def injectFlit (k p fc : Nat) (s : State) : State :=
  match (s.pier p).sendq with
  | [] => s
  | r :: rest =>
    let s1 := s.bump2 spnFlitsSentLo spnFlitsSentHi p 0 1
    if 1 < r.flits then s1.modPier p fun x => { x with sendq := { r with flits := r.flits - 1 } :: rest }
    else
      let s2 := s1.modPier p fun x => { x with sendq := rest }
      if r.dpier ∈ (s.span k).piers then
        s2.modPier r.dpier fun x =>
          { x with nextId := x.nextId + 1
                   inbound := x.inbound ++ [{ id := x.nextId, arrives := fc + r.travel, drow := r.drow
                                              lanes := r.lanes, words := r.words }] }
      else s2

/-- The row that a deck send makes: destination pier of the stage, its travel time (R283, Table 1-5). -/
def sendRow (s : State) (k p dstage drow lanes : Nat) (words : List W36) : SendRow :=
  let d := (s.span k).piers.getD dstage p
  { dpier := d, drow := drow, lanes := lanes, words := words.take lanes, flits := flitsOf lanes, travel := travel p d }

/-- DSEND (R261): row k is read in slot 3 in fc i + 12 + f k and enters the send queue in fc i + 18 + f k. -/
def execDsend (i : Iss) (o : DsendOp) (s : State) : Host.Outcome State Fault Refusal :=
  issue i s fun c s =>
    let q := (s.pier c.p).seq
    let f := flitsOf o.lanes
    let row := q.eff o.brow o.arb
    let drow := q.eff o.drow o.ard
    let s1 := present c.k c.p [(row, 1)] s
    let s2 := s1.modPier c.p fun x => { x with acts := x.acts ++
      ((List.range (o.n - 1)).map fun k =>
        ({ due := c.fc + f * (k + 1), atEnd := false, slot := 0, op := .present [(row + k + 1, 1)] } : Act)) ++
      ((List.range o.n).map fun k =>
        ({ due := c.fc + 6 + f * k, atEnd := false, slot := 3, op := .sendqPresent (c.fc + 18 + f * k) f } : Act)) }
    schedEach c.p o.n (fun k => c.fc + 12 + f * k) false 3 (fun k => .dsendRead o (row + k) (drow + k)) s2

/-- A row of a DSEND is read; it enters the send queue 6 fc later. -/
def actDsendRead (k p due : Nat) (o : DsendOp) (row drow : Nat) (s : State) : State :=
  sched p (due + 6) false 4 (.sendqEnter (sendRow s k p o.dstage drow o.lanes ((s.pier p).row row)))
    (checkBench p (rowKeys row) s)

/-- DECK_ROW_ARRIVAL (R293): a row whose last flit arrived in fc a takes slot 3 in a + 1 and is stored at the end of a + 6. -/
def execDeckRowArrival (p row : Nat) (s : State) : Host.Outcome State Fault Refusal :=
  if 192 ≤ p then .fault (.noSuchUnit p)
  else match s.spanOf p, (s.pier p).inbound.find? (fun r => r.id = row) with
    | some (k, _), some r =>
      if (s.span k).relFc < r.arrives then .next s
      else
        let s1 := s.modPier p fun x => { x with inbound := x.inbound.filter fun y => y.id != row }
        let s2 := s1.bump2 spnFlitsReceivedLo spnFlitsReceivedHi p 0 (flitsOf r.lanes)
        .next (sched p (r.arrives + 6) true 3 (.benchStore { col := false, row := r.drow, lane := 0 } r.words) s2)
    | _, _ => .next s

end Sys2Proof.Machine
end

