-- ==== Sys2Proof/Machine/Keccak.lean ====
section
/-! DEFINITION. SHA3-256 and SHAKE256 (FIPS 202), which the manual names for tags, digests and the DCF keys (R99, R284,
R309, R420, R422). PRESUMED: the algorithm is taken from the standard (log entry 13). -/
namespace Sys2Proof.Machine

/-- Rotation offset of lane x + 5y. -/
def keccakRot : List Nat :=
  [0, 1, 62, 28, 27, 36, 44, 6, 55, 20, 3, 10, 43, 25, 39, 41, 45, 15, 21, 8, 18, 2, 61, 56, 14]

/-- Round constants of the 24 rounds. -/
def keccakRc : List (BitVec 64) :=
  [0x0000000000000001, 0x0000000000008082, 0x800000000000808A, 0x8000000080008000, 0x000000000000808B,
   0x0000000080000001, 0x8000000080008081, 0x8000000000008009, 0x000000000000008A, 0x0000000000000088,
   0x0000000080008009, 0x000000008000000A] ++
  [0x000000008000808B, 0x800000000000008B, 0x8000000000008089, 0x8000000000008003, 0x8000000000008002,
   0x8000000000000080, 0x000000000000800A, 0x800000008000000A, 0x8000000080008081, 0x8000000000008080,
   0x0000000080000001, 0x8000000080008008]

/-- Lane i of a state of 25 lanes. -/
def lane (a : List (BitVec 64)) (i : Nat) : BitVec 64 := nth a i 0

/-- One round: theta, rho and pi, chi, iota. -/
def keccakRound (a : List (BitVec 64)) (rc : BitVec 64) : List (BitVec 64) :=
  let c := (List.range 5).map fun x => lane a x ^^^ lane a (x + 5) ^^^ lane a (x + 10) ^^^ lane a (x + 15) ^^^ lane a (x + 20)
  let d := (List.range 5).map fun x => lane c ((x + 4) % 5) ^^^ (lane c ((x + 1) % 5)).rotateLeft 1
  let t := (List.range 25).map fun i => lane a i ^^^ lane d (i % 5)
  -- lane (x, y) moves to (y, 2x + 3y)
  let b := (List.range 25).map fun i =>
    let x' := i % 5
    let y' := i / 5
    let x := (x' + 3 * y') % 5
    let src := x + 5 * x'
    (lane t src).rotateLeft (nth keccakRot src 0)
  let e := (List.range 25).map fun i =>
    lane b i ^^^ (~~~ lane b ((i % 5 + 1) % 5 + 5 * (i / 5)) &&& lane b ((i % 5 + 2) % 5 + 5 * (i / 5)))
  match e with
  | [] => []
  | l :: ls => (l ^^^ rc) :: ls

/-- Keccak-f[1600]. -/
def keccakF (a : List (BitVec 64)) : List (BitVec 64) := keccakRc.foldl keccakRound a

/-- The 17 lanes of one 136-byte block, little-endian. -/
def blockLanes (b : List Byte) : List (BitVec 64) :=
  (List.range 25).map fun i => if i < 17 then BitVec.ofNat 64 (getLe b (8 * i) 8) else 0

/-- Absorb `n` blocks of 136 bytes. -/
def absorb : Nat → List Byte → List (BitVec 64) → List (BitVec 64)
  | 0, _, a => a
  | n + 1, bs, a => absorb n (bs.drop 136) (keccakF (List.zipWith (· ^^^ ·) a (blockLanes (bs.take 136))))

/-- The first 136 bytes of a state. -/
def rateBytes (a : List (BitVec 64)) : List Byte := (a.take 17).flatMap fun l => leBytes 8 l.toNat

/-- Squeeze `n` blocks. -/
def squeeze : Nat → List (BitVec 64) → List Byte
  | 0, _ => []
  | n + 1, a => rateBytes a ++ squeeze n (keccakF a)

/-- The message with domain byte `d`, padded to whole blocks of 136 bytes. -/
def pad136 (d : Nat) (m : List Byte) : List Byte :=
  let z := 136 - m.length % 136
  if z = 1 then m ++ [BitVec.ofNat 8 (d + 128)]
  else m ++ [BitVec.ofNat 8 d] ++ List.replicate (z - 2) 0 ++ [0x80]

/-- The sponge at rate 136: `d` is the domain byte, `n` the output bytes. -/
def sponge136 (d n : Nat) (m : List Byte) : List Byte :=
  let p := pad136 d m
  (squeeze (n / 136 + 1) (absorb (p.length / 136) p (List.replicate 25 0))).take n

/-- SHA3-256. -/
def sha3 (m : List Byte) : List Byte := sponge136 0x06 32 m

/-- SHAKE256 with `n` output bytes. -/
def shake256 (n : Nat) (m : List Byte) : List Byte := sponge136 0x1F n m

/-- ASCII bytes of a string. -/
def ascii (s : String) : List Byte := s.toList.map fun c => BitVec.ofNat 8 c.toNat

end Sys2Proof.Machine
end

