-- ==== Sys2Proof/Machine/Lathe.lean ====
section
/-! DEFINITION. The lathe: tile loads and stores, the constant store, modulus vectors, the NTT unit, the modular matrix
engine and the finished-tile queue (08_lathe, R188 to R217). -/
namespace Sys2Proof

/-- First tile, tiles, log of the elements held, first node (R203, R205). -/
def NttOp.first (o : NttOp) : Nat := if o.logN = 15 then 8 * o.half else 0
def NttOp.tiles (o : NttOp) : Nat := if o.logN = 15 then 8 else 16
def NttOp.size (o : NttOp) : Nat := if o.logN = 15 then 15 else 16
def NttOp.node (o : NttOp) : Nat := if o.logN = 17 then 2 + o.sub else 1
def NttOp.cycles (o : NttOp) : Nat := if o.logN = 15 then 1958 else 4134
def NttOp.lead (o : NttOp) : Nat := if o.logN = 15 then 422 else 1062

end Sys2Proof

namespace Sys2Proof.Machine

/-! ### Shapes and members of an operation (R197 to R200, R210) -/

/-- The shape that an operation latches for a tile: the tile's configured shape, or the instruction's in inline mode. -/
def latch (s : State) (c : Ctx) (tile : Nat) (inline : Shape) : Shape :=
  if (s.span c.k).configured then (s.pier c.p).shape tile else inline

/-- In inline mode the destination takes the instruction's shape at the operation's last effect (R190). -/
def shapeAtEnd (c : Ctx) (due tile : Nat) (sh : Shape) (s : State) : State :=
  if (s.span c.k).configured then s else sched c.p due true 7 (.tileShape tile sh) s

/-- Whether the member that a field names is suppressed at issue (R210, R240). -/
def Pier.zeroed (x : Pier) (m : Mem9) : Bool := x.suppressed (x.seq.member m)

/-! ### TLD and TST (Tables 8-1, 8-3, 10-4) -/

/-- Access `k` of TLD or TST. -/
def lineAcc (row0 : Nat) (o : LineOp) (k : Nat) : Access :=
  let row := (((row0 : Int) + (k : Int) * o.step) % 16384).toNat
  if o.bcol then { col := true, row := row, lane := (o.lane + k) % 64 } else { col := false, row := row, lane := 0 }

/-- Lines of a tile of this shape, and words in each (R199). -/
def lineLimits (o : LineOp) (sh : Shape) : Nat × Nat := if o.tcol then (sh.cols, sh.rows) else (sh.rows, sh.cols)

/-- Words that line `idx` holds inside the shape: none past the last line. -/
def lineWords (o : LineOp) (sh : Shape) (idx : Nat) : Nat :=
  let l := lineLimits o sh
  if idx < l.1 then l.2 else 0

/-- TLD (Table 8-1): access k is read in fc i + 12 + k and written 10 fc later. -/
def execTld (i : Iss) (o : LineOp) (s : State) : Host.Outcome State Fault Refusal :=
  issue i s fun c s =>
    let x := s.pier c.p
    let sh := latch s c o.tile o.shape
    if (lineLimits o sh).1 < o.n then lathe01 0x0101 c.p c.k s
    else
      let row := x.seq.eff o.brow o.arb
      let zero := x.zeroed o.mem
      let s1 := presentEach c.k c.p c.fc o.n (lineAcc row o) s
      let s2 := schedEach c.p o.n (fun k => c.fc + 12 + k) false 0
        (fun k => .tldRead o.tile (o.tidx + k) (lineWords o sh (o.tidx + k)) o.tcol (lineAcc row o k) zero) s1
      shapeAtEnd c (c.fc + o.n + 21) o.tile sh (sched c.p (c.fc + o.n + 21) true 8 (.tldEnd o.tile) s2)

/-- A TLD access is read; its words reach the tile at the end of the fc 10 later (R190). -/
def actTldRead (p due tile idx w : Nat) (tcol : Bool) (acc : Access) (zero : Bool) (s : State) : State :=
  if w = 0 then s
  else
    let ws := (((s.pier p).read acc).take w).map fun v => if zero then (0 : W36) else v
    sched p (due + 10) true 0 (.tileLine tile idx tcol ws) (checkBench p acc.keys s)

/-- A tile row or column is written; the cache entry that holds the tile becomes invalid (R193). -/
def actTileLine (p tile idx : Nat) (tcol : Bool) (ws : List W36) (s : State) : State :=
  s.modPier p fun x => (x.putTile (ws.mapIdx fun i v =>
    (tile * 4096 + (if tcol then i * 64 + idx else idx * 64 + i), v))).ocDrop tile

/-- TST (Table 8-1): line k is read in fc i + 10 + k and stored at the end of i + 17 + k. -/
def execTst (i : Iss) (o : LineOp) (s : State) : Host.Outcome State Fault Refusal :=
  issue i s fun c s =>
    let x := s.pier c.p
    let sh := latch s c o.tile o.shape
    if (lineLimits o sh).1 < o.n then lathe01 0x0101 c.p c.k s
    else
      let row := x.seq.eff o.brow o.arb
      let zero := x.zeroed o.mem
      schedEach c.p o.n (fun k => c.fc + 10 + k) false 0
        (fun k => .tstRead o.tile (o.tidx + k) (lineWords o sh (o.tidx + k)) o.tcol (lineAcc row o k) zero)
        (presentEach c.k c.p c.fc o.n (lineAcc row o) s)

/-- A tile line is read; it is stored in the bench at the end of the fc 7 later (R148). -/
def actTstRead (p due tile idx w : Nat) (tcol : Bool) (acc : Access) (zero : Bool) (s : State) : State :=
  let x := s.pier p
  let ws := (List.range w).map fun i =>
    if zero then (0 : W36) else BitVec.ofNat 36 (if tcol then x.tword tile i idx else x.tword tile idx i)
  let keys := (List.range w).map fun i => tile * 4096 + if tcol then i * 64 + idx else idx * 64 + i
  if w = 0 then s else sched p (due + 7) true 1 (.benchStore acc ws) (checkTile p keys s)

/-- Words of an access are stored (R148). -/
def actBenchStore (p : Nat) (acc : Access) (ws : List W36) (s : State) : State := s.putBench p (acc.keys.zip ws)

/-! ### The constant store (R201, R202, Table 8-4) -/

/-- x^(−1) mod a prime. -/
def invMod (x q : Nat) : Nat := powMod x (q - 2) q

/-- Entries of table `t` (Table 10-4: 0 FLO, 1 FHI, 2 ILO, 3 IHI, 4 NINV, 5 PMOD, 6 PINV), in rows of 64. -/
def constRows (r : Ring) (t : Nat) : Nat :=
  if t = 0 ∨ t = 2 then 2 ^ (r.logN - 8) / 64 else if t = 1 ∨ t = 3 then 4 else 2

/-- Entry `e` of table `t` for prime index, or row, `x`. -/
def constEntry (r : Ring) (t x e : Nat) : Nat :=
  let q := r.prime x
  let psi := r.roots.getD x 0
  let two := 2 ^ (r.logN + 1)
  let step := 2 ^ (r.logN - 8)
  match t with
  | 0 => powMod psi (rev r.logN e) q
  | 1 => powMod psi (rev r.logN (e * step)) q
  | 2 => powMod psi (two - rev r.logN e) q
  | 3 => powMod psi (two - rev r.logN (e * step)) q
  | 4 => if e < r.count then invMod (2 ^ r.logN) (r.prime e) else 0
  | 5 => if e < r.count then q % r.prime e else 0
  | _ => if e < r.count ∧ e ≠ x then invMod (q % r.prime e) (r.prime e) else 0

/-- CLD (Table 8-1): row k is written at the end of fc i + 4 + k. -/
def execCld (i : Iss) (o : CldOp) (s : State) : Host.Outcome State Fault Refusal :=
  issue i s fun c s =>
    let x := s.pier c.p
    let r := c.batch.ring
    let sh := latch s c o.tile o.shape
    let px := x.seq.eff o.x o.arx
    if sh.rows < o.n ∨ constRows r o.table < o.crow + o.n then lathe01 0x0101 c.p c.k s
    else if o.table ≠ 4 ∧ r.count ≤ px then lathe01 0x0103 c.p c.k s
    else
      let zero := x.zeroed o.mem
      let row := fun k => (List.range sh.cols).map fun e =>
        if zero then (0 : W36) else BitVec.ofNat 36 (constEntry r o.table px (64 * (o.crow + k) + e))
      let s1 := (checkStore c.p 4 (fun _ => true) s).modPier c.p fun x => { x with acts := x.acts ++ ((List.range o.n).filter (o.trow + · < sh.rows)).map fun k =>
        { due := c.fc + 4 + k, atEnd := true, slot := 0, op := .tileLine o.tile (o.trow + k) false (row k) } }
      shapeAtEnd c (c.fc + o.n + 3) o.tile sh s1

/-! ### Modulus vectors and TCFG (R195, R196, R198) -/

/-- MVLD (Table 8-1): read in fc i + 12, set in fc i + 21. -/
def execMvld (i : Iss) (mv brow : Nat) (arb : Sel) (s : State) : Host.Outcome State Fault Refusal :=
  issue i s fun c s =>
    let row := (s.pier c.p).seq.eff brow arb
    sched c.p (c.fc + 12) false 0 (.mvldRead mv row) (present c.k c.p [(row, 1)] s)

/-- The row of an MVLD is read. -/
def actMvldRead (p due mv row : Nat) (s : State) : State :=
  sched p (due + 9) false 0 (.mvSet mv (((s.pier p).row row).map fun w => w.toNat % 128)) (checkBench p (rowKeys row) s)

/-- In its last fc the MVLD makes the vector valid, or raises 0x0103 and leaves it as it was (R195). -/
def actMvSet (k p mv : Nat) (vals : List Nat) (s : State) : State :=
  let r := ((s.span k).batch.getD noBatch).ring
  if vals.any (fun v => r.count ≤ v) then lathe01 0x0103 p k s
  else s.modPier p fun x => { x.cleanStore 3 mv with mv := tput x.mv mv vals }

/-- TCFG (R198): the tile's shape from its issue fc on. -/
def execTcfg (i : Iss) (tile : Nat) (fromReg : Bool) (areg : Nat) (shape : Shape) (s : State) :
    Host.Outcome State Fault Refusal :=
  issue i s fun c s =>
    let x := s.pier c.p
    let v := (x.seq.areg areg).toNat
    let sh : Shape := if fromReg then { rows := fld v 0 7, cols := fld v 8 7, mv := fld v 16 2 } else shape
    let s1 := s.modPier c.p fun x => x.ocDrop tile
    if 1 ≤ sh.rows ∧ sh.rows ≤ 64 ∧ 1 ≤ sh.cols ∧ sh.cols ≤ 64 ∧ (x.mvec sh.mv).isSome then
      s1.modPier c.p fun x => { x with shapes := tput x.shapes tile sh }
    else lathe01 0x0102 c.p c.k s1

/-- An inline operation's shape takes its place. -/
def actTileShape (p tile : Nat) (sh : Shape) (s : State) : State :=
  s.modPier p fun x => { x with shapes := tput x.shapes tile sh }

/-! ### The NTT unit (R203 to R206) -/

/-- One conditional subtraction (R42). -/
def reduce1 (q x : Nat) : Nat := if q ≤ x then x - q else x

/-- Butterfly layers below node `k` of a block of 2^n elements, from coefficient to evaluation order. -/
def nttDown (q : Nat) (w : Nat → Nat) : Nat → Nat → List Nat → List Nat
  | 0, _, xs => xs
  | n + 1, k, xs =>
    let lo := xs.take (2 ^ n)
    let hi := (xs.drop (2 ^ n)).map fun v => v * w k % q
    nttDown q w n (2 * k) (List.zipWith (fun a b => (a + b) % q) lo hi) ++
      nttDown q w n (2 * k + 1) (List.zipWith (fun a b => (a + q - b) % q) lo hi)

/-- The inverse layers, without the factor of N. -/
def nttUp (q : Nat) (w : Nat → Nat) : Nat → Nat → List Nat → List Nat
  | 0, _, xs => xs
  | n + 1, k, xs =>
    let lo := nttUp q w n (2 * k) (xs.take (2 ^ n))
    let hi := nttUp q w n (2 * k + 1) (xs.drop (2 ^ n))
    List.zipWith (fun a b => (a + b) % q) lo hi ++ List.zipWith (fun a b => (a + q - b) * w k % q) lo hi

/-- W(k) = ψ^rev_n(k), and its inverse (R204). -/
def twiddle (r : Ring) (x n k : Nat) : Nat := powMod (r.roots.getD x 0) (rev n k) (r.prime x)
def twiddleInv (r : Ring) (x n k : Nat) : Nat := powMod (r.roots.getD x 0) (2 ^ (n + 1) - rev n k) (r.prime x)

/-- The transform of the words held (R204, R205). -/
def nttRun (r : Ring) (o : NttOp) (x : Nat) (xs : List Nat) : List Nat :=
  nttDown (r.prime x) (twiddle r x o.logN) o.size o.node (xs.map (reduce1 (r.prime x)))
def inttRun (r : Ring) (o : NttOp) (x : Nat) (xs : List Nat) : List Nat :=
  let q := r.prime x
  (nttUp q (twiddleInv r x o.logN) o.size o.node (xs.map (reduce1 q))).map fun v => v * invMod (2 ^ o.logN) q % q

/-- The 4,096 words of a tile. -/
def Pier.tile (x : Pier) (t : Nat) : List Nat := x.block t fullShape

/-- Checks, charges and counters that NTT and INTT share; `eff` has the prime index and whether the member is suppressed. -/
def nttIssue (i : Iss) (o : NttOp) (s : State) (eff : Ctx → Nat → Bool → State → State) : Host.Outcome State Fault Refusal :=
  issue i s fun c s =>
    let x := s.pier c.p
    let px := x.seq.eff o.prime o.arp
    let full := fun t => (latch s c (o.first + t) fullShape).rows == 64 && (latch s c (o.first + t) fullShape).cols == 64
    if !((List.range o.tiles).all full) then lathe01 0x0101 c.p c.k s
    else if c.batch.ring.count ≤ px then lathe01 0x0103 c.p c.k s
    else
      let s1 := (chargeFor c.k c.p 4 (c.fc + o.cycles - 1) (checkStore c.p 4 (fun _ => true) s)).bump laNttOps c.p 0 1
      eff c px (x.zeroed o.mem) (s1.modPier c.p fun x => { x with nttUntil := c.fc + o.cycles })

/-- NTT (R204): tile t is final at i + 1,062 + 192 (t + 1), or i + 422 + 192 (t + 1) at LOG_N 15. -/
def execNtt (i : Iss) (o : NttOp) (s : State) : Host.Outcome State Fault Refusal :=
  nttIssue i o s fun c px zero s =>
    let x := s.pier c.p
    let xs := (List.range o.tiles).flatMap fun t => x.tile (o.first + t)
    let ys := if zero then xs.map (fun _ => 0) else nttRun c.batch.ring o px xs
    schedEach c.p o.tiles (fun t => c.fc + o.lead + 192 * (t + 1) - 1) true 0
      (fun t => .tileAll (o.first + t) ((ys.drop (4096 * t)).take 4096))
      (checkTile c.p ((List.range o.tiles).flatMap fun t => tileKeys (o.first + t) 64 64) s)

/-- A tile of an INTT is read. -/
def actInttRead (p tile : Nat) (s : State) : State :=
  (checkTile p (tileKeys tile 64 64) s).modPier p fun x => { x with nttBuf := tput x.nttBuf tile (x.tile tile) }

/-- INTT (R204): tile t is read in fc i + 192 t; every tile is final in fc i + c − 1. -/
def execIntt (i : Iss) (o : NttOp) (s : State) : Host.Outcome State Fault Refusal :=
  nttIssue i o s fun c px zero s =>
    let s1 := actInttRead c.p o.first s
    let s2 := s1.modPier c.p fun x => { x with acts := x.acts ++ (List.range (o.tiles - 1)).map fun t =>
      { due := c.fc + 192 * (t + 1), atEnd := false, slot := 0, op := .inttRead (o.first + t + 1) } }
    sched c.p (c.fc + o.cycles - 1) true 0 (.inttEnd o px zero) s2

/-- Every word of a tile is written. -/
def actTileAll (p tile : Nat) (ws : List Nat) (s : State) : State := s.modPier p fun x => x.putBlock tile 0 64 ws

/-- The INTT's result reaches its tiles. -/
def actInttEnd (k p : Nat) (o : NttOp) (px : Nat) (zero : Bool) (s : State) : State :=
  let x := s.pier p
  let r := ((s.span k).batch.getD noBatch).ring
  let xs := (List.range o.tiles).flatMap fun t => tget [] x.nttBuf (o.first + t)
  let ys := if zero then xs.map (fun _ => 0) else inttRun r o px xs
  (List.range o.tiles).foldl (fun s t => actTileAll p (o.first + t) ((ys.drop (4096 * t)).take 4096) s)
    (s.modPier p fun x => { x with nttBuf := x.nttBuf.filter fun e => !((List.range o.tiles).any fun t => e.1 == o.first + t) })

/-! ### The modular matrix engine (R207 to R209) -/

/-- Rows of a tile inside a shape, each element reduced once against its column's prime (R208). -/
def Pier.matrix (x : Pier) (r : Ring) (t : Nat) (sh : Shape) : List (List Nat) :=
  let qs := x.colPrimes r sh
  (List.range sh.rows).map fun i => (List.range sh.cols).map fun j => reduce1 (qs.getD j 0) (x.tword t i j)

/-- Σ a_j × b_j. -/
def dot (a b : List Nat) : Nat := (List.zipWith (· * ·) a b).foldl (· + ·) 0

/-- The result of an MME operation, row by row (R208). -/
def mmeResult (matrix acc : Bool) (qs : List Nat) (a b c : List (List Nat)) : List Nat :=
  let rows := a.zipIdx.map fun e =>
    let cr := c.getD e.2 []
    (List.range (qs.length)).map fun j =>
      let p := if matrix then dot e.1 (b.map fun row => row.getD j 0) else e.1.getD j 0 * (b.getD e.2 []).getD j 0
      ((if acc then cr.getD j 0 else 0) + p) % max (qs.getD j 1) 1
  rows.flatten

/-- Entries that the queue will hold at the fc of a push, without it: those in it and pushed before, less those freed
before (R212). -/
def Pier.ftqAt (x : Pier) (fc : Nat) : Nat :=
  let before := fun a : Act => decide (a.due < fc)
  let pushes := (x.acts.filter fun a => match a.op with
    | .ftqPush _ => before a
    | _ => false).length
  let frees := (x.acts.filter fun a => match a.op with
    | .ftqFree _ => before a
    | _ => false).length
  x.ftq.length + pushes - frees

/-- A push presented 12 fc before it (R212). -/
def actFtqPresent (k p due ent : Nat) (s : State) : State :=
  if 8 ≤ (s.pier p).ftqAt (due + 12) then raiseHold k p .ftq [ent] .nothing s else s

/-- A push made. -/
def actFtqPush (p : Nat) (e : FtqEnt) (s : State) : State := s.modPier p fun x => { x with ftq := x.ftq ++ [e] }

/-- An entry freed at the end of the fc of its last read (R234). -/
def actFtqFree (p ent : Nat) (s : State) : State := s.modPier p fun x => { x with ftq := x.ftq.filter fun e => e.id != ent }

/-- The result's block is written as a whole (R190). -/
def actTileBlock (p tile cols : Nat) (ws : List Nat) (s : State) : State := s.modPier p fun x => x.putBlock tile 0 cols ws

/-- Whether the shapes fit and every vector that they name is valid (Table 8-3). -/
def mmeFits (x : Pier) (matrix : Bool) (a b c : Shape) : Bool :=
  (if matrix then a.rows == c.rows && a.cols == b.rows && b.cols == c.cols
   else a.rows == b.rows && a.rows == c.rows && a.cols == b.cols && a.cols == c.cols) &&
    (x.mvec a.mv).isSome && (x.mvec b.mv).isSome && (x.mvec c.mv).isSome

/-- Array fc of an operation (R209). -/
def mmeFc (matrix : Bool) (a c : Shape) : Nat :=
  if matrix then ceilDiv c.rows 32 * ceilDiv c.cols 32 * a.cols else ceilDiv (c.rows * c.cols) 1024

/-- The words that an MME operation reads, checked for parity: A and C from their tiles, B from its operand-cache entry or its tile,
and the modulus vectors (R193, R215). -/
def checkMme (p : Nat) (acc : Bool) (o : MmeOp) (a b c : Shape) (s : State) : State :=
  let s1 := checkTile p (tileKeys o.a a.rows a.cols ++ if acc then tileKeys o.c c.rows c.cols else []) s
  let s2 := match (s.pier p).oc.find? fun e => e.2 = o.b with
    | some e => checkStore p 2 (· == e.1) s1
    | none => checkTile p (tileKeys o.b b.rows b.cols) s1
  checkStore p 3 (fun v => v == a.mv || v == b.mv || v == c.mv) s2

/-- An MME operation: operands as they stand at issue (R190), result at the end of fc i + a + 11. -/
def mme (i : Iss) (matrix acc : Bool) (o : MmeOp) (s : State) : Host.Outcome State Fault Refusal :=
  issue i s fun c s =>
    let x := s.pier c.p
    let r := c.batch.ring
    let sa := latch s c o.a o.shA
    let sb := latch s c o.b o.shB
    let sc := latch s c o.c o.shC
    if !mmeFits x matrix sa sb sc then lathe01 0x0101 c.p c.k s
    else
      let a := mmeFc matrix sa sc
      let qs := (x.colPrimes r sc).take sc.cols
      let zero := x.zeroed o.mem
      let ws := if zero then List.replicate (sc.rows * sc.cols) 0
        else mmeResult matrix acc qs (x.matrix r o.a sa) (x.matrix r o.b sb) (x.matrix r o.c sc)
      let hit := x.oc.any fun e => e.2 = o.b
      let s1 := (chargeFor c.k c.p 8 (c.fc + a - 1) (checkMme c.p acc o sa sb sc s)).bump laMmeActiveFc c.p 0 1
      let s2 := if hit then s1.bump laOcHits c.p 0 1 else s1
      let s3 := s2.modPier c.p fun x => { x.ocUse o.b with mmeUntil := c.fc + a + 12, mmeArray := c.fc + a, nextId := x.nextId + 1 }
      let last := c.fc + a + 11
      if o.qdest then
        let e : FtqEnt := { id := x.nextId, shape := sc, mv := (x.mvec sc.mv).getD [], member := x.seq.member o.mem
                            words := ws, taken := false }
        let s4 := sched c.p last true 5 (.ftqPush e) s3
        if a = 1 then actFtqPresent c.k c.p c.fc e.id s4
        else sched c.p (c.fc + a - 1) false 5 (.ftqPresent e.id) s4
      else shapeAtEnd c last o.c sc (sched c.p last true 0 (.tileBlock o.c sc.rows sc.cols ws) s3)

/-- MMUL: C = A·B. -/
def execMmul (i : Iss) (o : MmeOp) (s : State) : Host.Outcome State Fault Refusal := mme i true false o s
/-- MMAC: C = C + A·B. -/
def execMmac (i : Iss) (o : MmeOp) (s : State) : Host.Outcome State Fault Refusal := mme i true true o s
/-- EMUL: C = A∘B. -/
def execEmul (i : Iss) (o : MmeOp) (s : State) : Host.Outcome State Fault Refusal := mme i false false o s
/-- EMAC: C = C + A∘B. -/
def execEmac (i : Iss) (o : MmeOp) (s : State) : Host.Outcome State Fault Refusal := mme i false true o s

end Sys2Proof.Machine
end

