-- ==== Sys2Proof/Machine/Spindle.lean ====
section
/-! DEFINITION. The spindle: passes, broadcast registers, seed keys and FSS evaluation (09_spindle R218 to R245,
12_exchange_engine R309). -/
namespace Sys2Proof.Machine

/-! ### Spindle words (R219 to R222, Tables 9-1 to 9-3) -/

/-- The word that 64 bits spell. -/
def parseSpin (w : Nat) : SpinWord :=
  { op := fld w 0 5, srcA := fld w 5 3, srcB := fld w 8 3, br := fld w 11 2, tap := bit w 13, keep := bit w 14
    prime := fld w 16 7, fixedPrime := bit w 23, ring64 := bit w 24, imm := fld w 32 32 }

/-- Word `e` of the active program table. -/
def Pier.spinWord (x : Pier) (e : Nat) : SpinWord := parseSpin (leNat (x.imemRd (imemBase x.seq.bank 2 + 8 * e) 8))

/-- Stages of the multiplier class: MUL, MAC, RESCALE, BFLY; their latency is 3 fc, of all others 1 fc (Table 9-3). -/
def SpinWord.mult (w : SpinWord) : Bool := w.op == 4 || w.op == 5 || w.op == 7 || w.op == 8
def SpinWord.latency (w : SpinWord) : Nat := if w.mult then 3 else 1

/-- Whether the operation has an operand B: not PASS, NEG, ACC, MASK, UNMASK, SHR. -/
def SpinWord.usesB (w : SpinWord) : Bool := !(w.op == 0 || w.op == 3 || w.op == 6 || w.op == 9 || w.op == 10 || w.op == 13)

/-- Whether the stage draws the PRG value (R228). -/
def SpinWord.prg (w : SpinWord) : Bool :=
  w.srcA == 6 || (w.usesB && w.srcB == 6) || w.op == 9 || w.op == 10

/-- Whether the stage changes the accumulator. -/
def SpinWord.accum (w : SpinWord) : Bool := w.op == 5 || w.op == 6

/-- PRG element counter's low bits of element `n` of row `k` (R228): E in residue mode, e in Ring64 mode. -/
def Pass.counter (a : Pass) (k n : Nat) : Nat := a.base + (if a.ring64 then 32 else 64) * k + n

/-- The PRG value of an element (R228). -/
def Pass.prgValue (a : Pass) (k n : Nat) : Nat :=
  let e := a.counter k n
  let block := fun (x : Nat) => aes a.key.toNat (a.ctrHi % 2 ^ 64 * 2 ^ 64 + a.stream * 2 ^ 48 + x % 2 ^ 48)
  if a.ring64 then
    let v := block (e / 2)
    if e % 2 = 0 then v % 2 ^ 64 else v / 2 ^ 64
  else block e

/-- AES blocks that a row of `n` elements draws (R229, R242). -/
def Pass.blocks (a : Pass) (k n : Nat) : Nat :=
  if n = 0 then 0 else if a.ring64 then (a.counter k (n - 1)) / 2 - a.counter k 0 / 2 + 1 else n

/-- An element of a list of words: the word of lane `n`, or the pair of lanes 2n and 2n + 1 (R221). -/
def elemOf (ring64 : Bool) (ws : List Nat) (n : Nat) : Nat :=
  if ring64 then fld (ws.getD (2 * n) 0) 0 32 + 2 ^ 32 * fld (ws.getD (2 * n + 1) 0) 0 32 else ws.getD n 0

/-- What one element carries through the chain: PREV, the accumulator before the row and now, the second output. -/
structure Chain where
  prev : Nat
  before : Nat
  acc : Nat
  tap : Nat := 0

/-- What the stages of one element read. -/
structure Elem where
  r : Ring
  row : Nat
  lane : Nat
  x : Nat
  y : Nat
  prg : Nat
  lanePrime : Nat
  brs : Nat → List Nat

/-- Value of a source code (Table 9-2). -/
def sourceVal (e : Elem) (w : SpinWord) (c : Chain) (src : Nat) : Nat :=
  match src with
  | 0 => c.prev
  | 1 => e.x
  | 2 => e.y
  | 3 => elemOf w.ring64 (e.brs w.br) e.lane
  | 4 => elemOf w.ring64 (e.brs w.br) e.row
  | 5 => if w.ring64 then wrap 64 (signed 32 w.imm) else w.imm
  | 6 => e.prg
  | _ => c.before

/-- lift(B) of RESCALE (R223). -/
def liftB (b qp q : Nat) : Nat := if b ≤ (qp - 1) / 2 then b else b + q - qp

/-- A stage in residue mode (R222 to R224): its result, the accumulator, the second output of BFLY. -/
def stageResidue (e : Elem) (w : SpinWord) (c : Chain) : Chain :=
  let t := if w.fixedPrime then w.prime else e.lanePrime
  let q := max (e.r.prime t) 1
  let v := e.prg % q
  let a := reduce1 q (sourceVal { e with prg := v } w c w.srcA)
  let b0 := sourceVal { e with prg := v } w c w.srcB
  let b := reduce1 q b0
  let acc := c.acc % q
  let put := fun (x : Nat) => { c with prev := x % q, tap := if w.tap then x % q else c.tap }
  match w.op with
  | 0 => put a
  | 1 => put (a + b)
  | 2 => put (a + q - b)
  | 3 => put (q - a)
  | 4 => put (a * b)
  | 5 => { put (acc + a * b) with acc := (acc + a * b) % q }
  | 6 => { put (acc + a) with acc := (acc + a) % q }
  | 7 =>
    let qp := max (e.r.prime w.prime) 1
    put ((a + q - liftB (reduce1 qp b0) qp q % q) * constEntry e.r 6 w.prime t)
  | 8 =>
    let tw := b * reduce1 q ((e.brs w.br).getD e.lane 0) % q
    { put (a + tw) with tap := (a + q - tw) % q }
  | 9 => put (a + v)
  | 10 => put (a + q - v)
  | 11 => put (if b ≤ a then 1 else 0)
  | 12 => put (if reduce1 q c.prev ≠ 0 then a else b)
  | _ => put a

/-- A stage in Ring64 mode (R222). -/
def stageRing64 (e : Elem) (w : SpinWord) (c : Chain) : Chain :=
  let m := 2 ^ 64
  let a := sourceVal e w c w.srcA
  let b := sourceVal e w c w.srcB
  let put := fun (x : Nat) => { c with prev := x % m, tap := if w.tap then x % m else c.tap }
  match w.op with
  | 0 => put a
  | 1 => put (a + b)
  | 2 => put (a + m - b)
  | 3 => put (m - a)
  | 4 => put (a * b)
  | 5 => { put (c.acc + a * b) with acc := (c.acc + a * b) % m }
  | 6 => { put (c.acc + a) with acc := (c.acc + a) % m }
  | 9 => put (a + e.prg)
  | 10 => put (a + m - e.prg)
  | 11 => put (if signed 64 b ≤ signed 64 a then 1 else 0)
  | 12 => put (if c.prev ≠ 0 then a else b)
  | 13 => put (wrap 64 (signed 64 a / ((2 ^ (w.imm % 64) : Nat) : Int)))
  | _ => put a

/-- One stage: the accumulator is cleared as row 0 reaches it with KEEP 0 (R225), then the operation. -/
def stage (e : Elem) (c : Chain) (w : SpinWord) : Chain :=
  let c1 := if w.accum && e.row == 0 && !w.keep then { c with acc := 0 } else c
  if w.ring64 then stageRing64 e w c1 else stageResidue e w c1

/-! ### Rows of a pass (R232, Table 9-5) -/

/-- Elements of a row. -/
def Pass.width (a : Pass) : Nat := if a.ring64 then ceilDiv a.shape.cols 2 else a.shape.cols

/-- Words of lanes 0 to COLS − 1 that elements fill. -/
def Pass.lanesOf (a : Pass) (vs : List Nat) : List W36 :=
  ((if a.ring64 then vs.flatMap fun v => [v % 2 ^ 32, v / 2 ^ 32 % 2 ^ 32] else vs).take a.shape.cols).map (BitVec.ofNat 36 ·)

/-- A row through the chain: first and second output, and the accumulator after it. -/
def Pass.run (a : Pass) (r : Ring) (k : Nat) (xs ys acc : List Nat) : List Nat × List Nat × List Nat :=
  let brs := fun n => (tget [] a.brs n).map BitVec.toNat
  let draws := a.words.any SpinWord.prg
  let cs := (List.range a.width).map fun n =>
    let e : Elem := { r := r, row := k, lane := n, x := elemOf a.ring64 xs n, y := elemOf a.ring64 ys n
                      prg := if draws then a.prgValue k n else 0, lanePrime := a.mv.getD n 0, brs := brs }
    let before := elemOf a.ring64 acc n
    a.words.foldl (stage e) { prev := e.x, before := before, acc := before }
  let accs := (cs.map (·.acc)).flatMap fun v => if a.ring64 then [v % 2 ^ 32, v / 2 ^ 32] else [v]
  let cleared := k == 0 && a.words.any fun w => w.accum && !w.keep
  (cs.map (·.prev), cs.map (·.tap),
    if a.words.any SpinWord.accum then accs ++ (if cleared then [] else acc.drop accs.length) else acc)

/-- Fc in which row k is written (Table 9-5). -/
def Pass.exitFc (a : Pass) (k : Nat) : Nat := a.issue + 3 + (k + 1) * a.interval + a.delay

/-- An effect of pass `pass` scheduled. -/
def schedPass (p pass due : Nat) (atEnd : Bool) (slot : Nat) (op : ActOp) (s : State) : State :=
  s.modPier p fun x => { x with acts := x.acts ++ [{ due := due, atEnd := atEnd, slot := slot, op := op, pass := some pass }] }

/-- What a row of a pass reads, checked for parity: its tiles' rows and the spindle's registers (R215, R243). -/
def checkRow (p row : Nat) (a : Pass) (s : State) : State :=
  let line := fun (t : Option Nat) => (t.toList).flatMap fun t => (List.range a.shape.cols).map fun c => t * 4096 + row * 64 + c
  checkStore p 5 (fun _ => true) (checkTile p (line a.x ++ line a.y) s)

/-- A row is read: its outputs are scheduled for e_k, and it is counted with its PRG blocks; a suppressed pass writes zeros and leaves the
accumulator at zero (R240, R245). -/
def actSpinRow (k p due pass row : Nat) (s : State) : State :=
  let x := s.pier p
  match x.passes.find? fun a => a.id = pass with
  | none => s
  | some a =>
    let r := ((s.span k).batch.getD noBatch).ring
    let line := fun (t : Nat) => (List.range a.shape.cols).map fun c => x.tword t row c
    let xs := match a.x with
      | some t => line t
      | none => (a.rowsOf.drop (row * a.shape.cols)).take a.shape.cols
    let ys := match a.y with
      | some t => line t
      | none => []
    let zs := List.replicate a.width 0
    let o := if a.zero then (zs, zs, []) else a.run r row xs ys x.acc
    let e := due + 1 + a.delay
    let w0 := a.lanesOf o.1
    let draws := if a.words.any SpinWord.prg then a.blocks row a.width else 0
    let s1 := (((checkRow p row a s).modPier p fun x => { x with acc := o.2.2 }).bump2 spRowsLo spRowsHi p 0 1).bump2
      spPrgBlocksLo spPrgBlocksHi p 0 draws
    let s2 := match a.o0kind with
      | 1 => schedPass p pass (e + 5) true 2 (.benchStore { col := false, row := a.brow + row, lane := 0 } w0) s1
      | 2 => schedPass p pass e true 2 (.tileRow a.o0tile row w0) s1
      | 3 => schedPass p pass e false 4 (.sendqEnter (sendRow s k p a.dstage (a.brow + row) a.shape.cols w0)) s1
      | _ => s1
    match a.o1 with
    | some t => schedPass p pass e true 2 (.tileRow t row (a.lanesOf o.2.1)) s2
    | none => s2

/-- A row of a tile destination is written. -/
def actTileRow (p tile row : Nat) (ws : List W36) (s : State) : State := actTileLine p tile row false ws s

/-- A pass ends. -/
def actPassEnd (p pass : Nat) (s : State) : State :=
  s.modPier p fun x => { x with passes := x.passes.filter fun a => a.id != pass }

/-! ### SPIN (R230 to R236) -/

/-- The queue entry that a pass with X = 16 takes: the oldest that no pass has taken (R234). -/
def Pier.ftqHead (x : Pier) : Option FtqEnt := x.ftq.find? fun e => !e.taken

/-- Whether Y, and each tile destination, has X's rows and columns (R231, R252). -/
def spinFits (x : Pier) (o : SpinOp) (sh : Shape) : Bool :=
  let same := fun t => (x.shape t).rows == sh.rows && (x.shape t).cols == sh.cols
  (o.y == 31 || same o.y) && (o.o0kind != 2 || same o.o0tile) && (o.o1 == 31 || same o.o1)

/-- Whether a word uses a PRIME past the key set's last (R231). -/
def badPrime (count : Nat) (w : SpinWord) : Bool := !w.ring64 && (w.fixedPrime || w.op == 7) && decide (count ≤ w.prime)

/-- The key and CTR_HI of a pass (R227, R228). -/
def Pier.passKey (x : Pier) (keysel : Nat) (m : Option Nat) (ctr : Nat) : Block × Nat :=
  if keysel = 0 then
    match x.members.find? (fun e => e.1 = m.getD 256) with
    | some e => e.2
    | none => (0, 0)
  else (tget 0 x.seeds (keysel - 1), ctr)

/-- Effects of a pass that starts: charges, counters, rows, presentations, and its end. -/
def startPass (c : Ctx) (a : Pass) (deckFlits : Nat) (s : State) : State :=
  let r := a.shape.rows
  let cyc := 4 + r * a.interval + a.delay
  let s1 := chargeFor c.k c.p (if 32 < a.shape.cols then 3 else 2) (c.fc + cyc - 1) s
  let s4 := (s1.bump spPasses c.p 0 1).modPier c.p fun x =>
    { x with passes := x.passes ++ [a], passUntil := max x.passUntil (c.fc + cyc), nextId := x.nextId + 1 }
  let s5 := (List.range r).foldl (fun s k => schedPass c.p a.id (c.fc + 2 + (k + 1) * a.interval) false 0 (.spinRow a.id k) s) s4
  let early := fun (k : Nat) (s : State) =>
    let at_ := a.exitFc k - 12
    if a.o0kind = 1 then
      if at_ = c.fc then present c.k c.p [(a.brow + k, 1)] s else schedPass c.p a.id at_ false 0 (.present [(a.brow + k, 1)]) s
    else if a.o0kind = 3 then
      if at_ = c.fc then actSendqPresent c.k c.p c.fc (a.exitFc k) deckFlits s
      else schedPass c.p a.id at_ false 3 (.sendqPresent (a.exitFc k) deckFlits) s
    else s
  let s6 := (List.range r).foldl (fun s k => early k s) s5
  let s7 := if a.x.isNone then schedPass c.p a.id (c.fc + 2 + r * a.interval) true 6 (.ftqFree a.ent) s6 else s6
  let dests := (if a.o0kind = 2 then [a.o0tile] else []) ++ a.o1.toList
  sched c.p (c.fc + cyc - 1) true 9 (.passEnd a.id)
    (dests.foldl (fun s t => shapeAtEnd c (c.fc + cyc - 1) t a.shape s) s7)

/-- SPIN (R231 to R236). -/
def execSpin (i : Iss) (o : SpinOp) (s : State) : Host.Outcome State Fault Refusal :=
  issue i s fun c s =>
    let x := s.pier c.p
    let q := x.seq
    let head := if o.x = 16 then x.ftqHead else none
    if o.x = 16 ∧ head.isNone then lathe01 0x0105 c.p c.k s
    else
      let words := (List.range o.stages).map fun n => x.spinWord (o.entry + n)
      let sh := match head with
        | some e => e.shape
        | none => x.shape o.x
      let mv := match head with
        | some e => some e.mv
        | none => x.mvec sh.mv
      let ring64 := words.any fun w => w.ring64
      if !spinFits x o sh || (mv.isNone && words.any fun w => !w.fixedPrime && !w.ring64) then
        lathe01 0x0101 c.p c.k s
      else if words.any (badPrime c.batch.ring.count) then lathe01 0x0103 c.p c.k s
      else
        let m := match head with
          | some e => e.member
          | none => q.member o.mem
        let key := x.passKey o.keysel m (q.sel o.arctr)
        let interval := if words.any SpinWord.prg then ceilDiv sh.cols (if ring64 then 32 else 8) else 1
        let a : Pass :=
          { id := x.nextId, words := words, shape := sh, mv := mv.getD [], x := if o.x = 16 then none else some o.x
            ent := (head.map (·.id)).getD 0, rowsOf := (head.map (·.words)).getD []
            y := if o.y = 31 then none else some o.y, o0kind := o.o0kind, o0tile := o.o0tile, brow := q.eff o.brow o.arb
            dstage := o.dstage, o1 := if o.o1 = 31 then none else some o.o1, brs := x.br, key := key.1, ctrHi := key.2
            stream := o.stream, base := q.sel o.arbase, zero := x.suppressed m, ring64 := ring64, interval := interval
            delay := max ((words.map SpinWord.latency).foldl (· + ·) 0) 8, issue := c.fc }
        let s1 := s.modPier c.p fun x => { x with
          ftq := x.ftq.map fun e => if some e.id = head.map (·.id) then { e with taken := true } else e }
        startPass c a (flitsOf sh.cols) s1

/-! ### SBLD and SKLD (R226) -/

/-- SBLD: read in slot 2 in fc i + 12, written in fc i + 18. -/
def execSbld (i : Iss) (br brow : Nat) (arb : Sel) (bcol : Bool) (lane : Nat) (s : State) :
    Host.Outcome State Fault Refusal :=
  issue i s fun c s =>
    let row := (s.pier c.p).seq.eff brow arb
    let acc : Access := { col := bcol, row := row, lane := if bcol then lane else 0 }
    sched c.p (c.fc + 12) false 2 (.brRead br acc) (present c.k c.p [acc.rows] s)

def actBrRead (p due br : Nat) (acc : Access) (s : State) : State :=
  sched p (due + 6) true 0 (.brSet br ((s.pier p).read acc)) (checkBench p acc.keys s)

def actBrSet (p br : Nat) (ws : List W36) (s : State) : State :=
  s.modPier p fun x => { x.cleanStore 5 br with br := tput x.br br ws }

/-- SKLD: key byte 4w + j is bits [8j+7:8j] of word w. -/
def execSkld (i : Iss) (seed brow : Nat) (arb : Sel) (s : State) : Host.Outcome State Fault Refusal :=
  issue i s fun c s =>
    let row := (s.pier c.p).seq.eff brow arb
    sched c.p (c.fc + 12) false 2 (.seedRead seed row) (present c.k c.p [(row, 1)] s)

def actSeedRead (p due seed row : Nat) (s : State) : State :=
  let x := s.pier p
  let v := (List.range 4).foldl (fun v w => v + fld (x.word row w).toNat 0 32 * 2 ^ (32 * w)) 0
  sched p (due + 6) true 0 (.seedSet seed (BitVec.ofNat 128 v)) (checkBench p (rowKeys row) s)

def actSeedSet (p seed : Nat) (key : Block) (s : State) : State :=
  s.modPier p fun x => { x.cleanStore 5 (4 + seed) with seeds := tput x.seeds seed key }

/-! ### FSS evaluation (R116, R238, R239, R309) -/

/-- K0, K1, K2 of R309. -/
def fssKey (n : Nat) : Nat :=
  leNat ((sha3 (ascii (if n = 0 then "HOLTELLE-DCF-0" else if n = 1 then "HOLTELLE-DCF-1" else "HOLTELLE-DCF-2"))).take 16)

/-- `w` words of the expansion of seed `s` under K2 from block number `b` with step `st`. -/
def fssWords (k2 s b st w : Nat) : List Nat :=
  ((List.range (ceilDiv w 2)).flatMap fun j =>
    let v := aes k2 (s ^^^ (b + st * j))
    [v % 2 ^ 64, v / 2 ^ 64]).take w

/-- Words added, or subtracted for evaluator bit 1, modulo 2^64. -/
def addWords (sub : Bool) (a b : List Nat) : List Nat :=
  List.zipWith (fun x y => if sub then (x + 2 ^ 64 - y) % 2 ^ 64 else (x + y) % 2 ^ 64) a b

/-- `w` Ring64 words at byte `o` of an item. -/
def itemWords (item : List Byte) (o w : Nat) : List Nat := (List.range w).map fun j => getLe item (o + 8 * j) 8

/-- The levels from k on, `f` of them: seed, control bit, V. -/
def fssLevels (keys : Nat → Nat) (item : List Byte) (n w y : Nat) (b : Bool) :
    Nat → Nat → Nat → Bool → List Nat → Nat × Bool × List Nat
  | 0, _, s, t, v => (s, t, v)
  | f + 1, k, s, t, v =>
    let d := if bit y (n - 1 - k) then 1 else 0
    let o := 0x20 + k * (24 + 8 * w)
    let vs := fssWords (keys 2) s d 2 w
    let c := aes (keys d) s ^^^ s
    let c1 := if t then c ^^^ getLe item o 16 else c
    let tc := (c % 2 == 1) != (t && bit (getLe item (o + 16) 1) d)
    let vs1 := if t then addWords false vs (itemWords item (o + 24) w) else vs
    fssLevels keys item n w y b f (k + 1) (c1 - c1 % 2) tc (addWords b v vs1)

/-- The W output words of an item at tree point `y` (R309). -/
def fssEval (item : List Byte) (n w y : Nat) (b : Bool) : List Nat :=
  let r := fssLevels fssKey item n w y b n 0 (getLe item 0 16) b (List.replicate w 0)
  let f := fssWords (fssKey 2) r.1 0x80000000 1 w
  addWords b r.2.2 (if r.2.1 then addWords false f (itemWords item (0x20 + n * (24 + 8 * w)) w) else f)

/-- Bytes of an item (R116). -/
def fssItemBytes (n w : Nat) : Nat := 64 * ceilDiv (32 + n * (24 + 8 * w) + 8 * w) 64

/-- The material entry that FSSE names. -/
def State.matOf (s : State) (k n : Nat) : MatEnt :=
  (((s.imageOf k).bind fun im => im.mats[n]?)).getD
    { kind := 0, bits := 0, pieces := 0, degree := 0, prime := 0, func := 0, perReq := 0 }

/-- The bench rows of an FSSE (R238): first row and rows of its items, its inputs and its outputs, each from its row operand plus the
select field's value modulo 2^32 (R251). -/
def fsseRows (q : Seq) (o : FsseOp) (bytes w : Nat) : List (Nat × Nat) :=
  [(q.eff o.itemRow o.arb, ceilDiv (o.g * bytes) 256), (q.eff o.xhatRow o.arb, ceilDiv o.g 32), (q.eff o.outRow o.arb, ceilDiv (o.g * w) 32)]

/-- AES blocks, slot-2 accesses and cycle count of an FSSE (R239). -/
def fsseBlocks (g n w : Nat) : Nat := g * (n * (1 + ceilDiv w 2) + ceilDiv w 2)
def fsseSlots (g bytes w : Nat) : Nat := ceilDiv (g * bytes) 256 + ceilDiv g 32 + ceilDiv (g * w) 32
def fsseCycles (g n w bytes : Nat) : Nat := 30 + max (ceilDiv (fsseBlocks g n w) 8) (fsseSlots g bytes w)

/-- FSSE (R238, R239): its rows are presented at issue; it reads one row in slot 2 of each fc from i + 12 on and writes its output rows in
the last of the fc to i + c − 1 (log entry 66). -/
def execFsse (i : Iss) (o : FsseOp) (s : State) : Host.Outcome State Fault Refusal :=
  issue i s fun c s =>
    let x := s.pier c.p
    let m := s.matOf c.k o.mentry
    let w := m.pieces * (m.degree + 1)
    let bytes := fssItemBytes m.bits w
    let tree := if m.func = 0 then 0 else Nat.log2 m.pieces
    let cyc := fsseCycles o.g m.bits w bytes
    let ranges := fsseRows x.seq o bytes w
    let reads := (ranges.take 2).flatMap fun r => (List.range r.2).map (r.1 + ·)
    let st1 := chargeFor c.k c.p 3 (c.fc + cyc - 1) (present c.k c.p ranges s)
    let st2 := schedEach c.p reads.length (fun k => c.fc + 12 + k) false 2 (fun k => .fsseRead (reads.getD k 0)) st1
    sched c.p (c.fc + cyc - ceilDiv (o.g * w) 32) false 2
      (.fsseRun o (x.seq.sel o.arb) (m.bits * 64 + tree) w (fsseBlocks o.g m.bits w) (x.zeroed o.mem))
      (st2.modPier c.p fun x => { x with fssUntil := max x.fssUntil (c.fc + cyc), fssRows := [] })

/-- A row of an FSSE is read. -/
def actFsseRead (p row : Nat) (s : State) : State :=
  (checkBench p (rowKeys row) s).modPier p fun x => { x with fssRows := tput x.fssRows row (x.row row) }

/-- Ring64 element `o`, counted from bench row `row`, of the rows that an FSSE has read. -/
def Pier.fssElem (x : Pier) (row o : Nat) : Nat :=
  let ws := tget [] x.fssRows (row + o / 32)
  elemOf true (ws.map BitVec.toNat) (o % 32)

/-- The evaluations, counted with their blocks, and the rows that they write, one in slot 2 of each fc from `due` on; `nt` is
n × 64 + t. A suppressed one writes zeros and leaves the accumulator at zero (R240). -/
def actFsseRun (p due : Nat) (o : FsseOp) (off nt w blocks : Nat) (zero : Bool) (s : State) : State :=
  let x := s.pier p
  let n := nt / 64
  let t := nt % 64
  let bytes := fssItemBytes n w
  let at_ := fun (row : Nat) => if o.arb.en then (row + off) % 2 ^ 32 else row
  let one := fun g =>
    let item := (List.range (bytes / 8)).flatMap fun e => leBytes 8 (x.fssElem (at_ o.itemRow) (g * (bytes / 8) + e))
    let xh := x.fssElem (at_ o.xhatRow) g
    fssEval item n w (xh % 2 ^ (n - t) * 2 ^ t) o.eval
  let vs := if zero then List.replicate (o.g * w) 0 else (List.range o.g).flatMap one
  let ws : List W36 := vs.flatMap fun v => [BitVec.ofNat 36 (v % 2 ^ 32), BitVec.ofNat 36 (v / 2 ^ 32)]
  let s1 := (s.modPier p fun x => { x with fssRows := [], acc := if zero then [] else x.acc }).bump spFssEvals p 0 o.g
  (List.range (ceilDiv ws.length 64)).foldl (fun s r =>
    sched p (due + r + 5) true 2 (.benchStore { col := false, row := at_ o.outRow + r, lane := 0 } ((ws.drop (64 * r)).take 64)) s)
    (s1.bump2 spPrgBlocksLo spPrgBlocksHi p 0 blocks)

end Sys2Proof.Machine
end

