-- ==== Sys2Proof/Machine/Advance.lean ====
section
/-! DEFINITION. One fc of a running span: scheduled effects, deck injection, token windows, holds and freezes, and the
commands of the span's hold sources (11_spans R293 to R298; 10 R264 to R267, R274, R275; 08 R212; 01 R32). -/
namespace Sys2Proof.Machine

/-! ### Scheduled effects (R148, R190, R232) -/

/-- A scheduled effect of pier `p` of span `k` takes place. -/
def doAct (k p : Nat) (a : Act) (s : State) : State :=
  match a.op with
  | .present rs => present k p rs s
  | .tldRead t idx w tcol acc zero => actTldRead p a.due t idx w tcol acc zero s
  | .tldEnd t => s.modPier p fun x => x.ocUse t
  | .tileShape t sh => actTileShape p t sh s
  | .tileLine t idx tcol ws => actTileLine p t idx tcol ws s
  | .tstRead t idx w tcol acc zero => actTstRead p a.due t idx w tcol acc zero s
  | .benchStore acc ws => actBenchStore p acc ws s
  | .mvldRead mv row => actMvldRead p a.due mv row s
  | .mvSet mv vs => actMvSet k p mv vs s
  | .ftqPresent e => actFtqPresent k p a.due e s
  | .ftqPush e => actFtqPush p e s
  | .ftqFree e => actFtqFree p e s
  | .tileBlock t _ cols ws => actTileBlock p t cols ws s
  | .tileAll t ws => actTileAll p t ws s
  | .inttRead t => actInttRead p t s
  | .inttEnd o px zero => actInttEnd k p o px zero s
  | .hldRead h row => sched p (a.due + 6) false 0 (.hSet h ((s.pier p).hdrAt row)) (checkBench p (rowKeys row) s)
  | .hSet h v => s.modSeq p fun q => { q with h := tput q.h h v }
  | .brRead br acc => actBrRead p a.due br acc s
  | .brSet br ws => actBrSet p br ws s
  | .seedRead n row => actSeedRead p a.due n row s
  | .seedSet n key => actSeedSet p n key s
  | .spinRow pass row => actSpinRow k p a.due pass row s
  | .tileRow t row ws => actTileRow p t row ws s
  | .passEnd pass => actPassEnd p pass s
  | .fsseRead row => actFsseRead p row s
  | .fsseRun o off bits words blocks zero => actFsseRun p a.due o off bits words blocks zero s
  | .dsendRead o row drow => actDsendRead k p a.due o row drow s
  | .sendqPresent enters flits => actSendqPresent k p a.due enters flits s
  | .sendqEnter r => actSendqEnter p a.due r s

/-- The effects of pier `p` that a predicate picks out take place in ascending slot order and leave the list (R149). -/
def runActs (k p : Nat) (pick : Act → Bool) (s : State) : State :=
  let q := splitBy pick (s.pier p).acts
  let now := q.1.foldl (fun l a => insertBy (·.slot) a l) []
  now.foldl (fun s a => doAct k p a s) (s.modPier p fun x => { x with acts := q.2 })

/-! ### Token windows (R266, R267) -/

/-- Tokens charged in span-relative fc `f`. -/
def Span.tokens (sp : Span) (f : Nat) : Nat :=
  (sp.charges.map fun c => if (c.last.map fun l => decide (f ≤ l)).getD true then c.rate else 0).foldl (· + ·) 0

/-- The span meter checks the window that ends: WINDOW_PEAK, 0x0504 and the halt over the grant, the level of the next. -/
def windowEnd (k : Nat) (s : State) : State :=
  let sp := s.span k
  let grant := sp.grants.getD sp.level 0
  let s1 := sp.piers.foldl (fun s p => s.setReg spnWindowPeak p 0 (max (s.reg spnWindowPeak p 0) sp.winSum)) s
  let s2 := s1.modSpan k fun sp => { sp with winFc := 0, winSum := 0, winIndex := sp.winIndex + 1, level := sp.nextLevel }
  if sp.winSum ≤ grant then s2
  else
    stopSpan k (.commit 0x0504 none)
      (raise { code := 0x0504, action := 3, unit := 0, span := k, detail := leBytes 4 sp.winIndex ++ leBytes 1 sp.level } s2)

/-- TOKEN_WINDOW_END (R266): the window's 64th unfrozen fc has ended. -/
def execTokenWindowEnd (k : Nat) (s : State) : Host.Outcome State Fault Refusal :=
  if 16 ≤ k then .fault (.noSuchUnit k)
  else if (s.span k).running ∧ 64 ≤ (s.span k).winFc then .next (windowEnd k s) else .next s

/-- The unfrozen fc that ends is charged; charges that are over leave the list. -/
def meterFc (k : Nat) (s : State) : State :=
  let f := (s.span k).relFc
  let s1 := s.modSpan k fun sp => { sp with
    winSum := sp.winSum + sp.tokens f, winFc := sp.winFc + 1
    charges := sp.charges.filter fun c => (c.last.map fun l => decide (f < l)).getD true }
  if 64 ≤ (s1.span k).winFc then windowEnd k s1 else s1

/-! ### Errors that mod-127 shadows find (R214, R243, R464) -/

/-- Whether an engine of a pier computes in span-relative fc `f`: 0 the MME, 1 the NTT engine, 2 the spindle (Table 18-4). -/
def Pier.computes (x : Pier) (engine f : Nat) : Bool :=
  match engine with
  | 0 => decide (f < x.mmeUntil)
  | 1 => decide (f < x.nttUntil)
  | _ => decide (f < x.passUntil) || decide (f < x.fssUntil)

/-- The shadow of an engine of pier `p`, stage `st` of span `k`, differs from its result: the engine's counter, one record with ACTION 2,
the halt of the span. -/
def foundErr (k st p : Nat) (e : EngErr) (s : State) : State :=
  replayFault 0x0602 p k (leBytes 1 e.engine ++ leBytes 1 e.pos ++ leBytes 2 e.elem ++ leBytes 2 st)
    (s.bump (if e.engine = 2 then spResidueErrors else laResidueErrors) p 0 1)

/-- The errors that the piers of span `k` meet in this fc: those of an engine that computes, in ascending order of pier (R461). -/
def findErrors (k : Nat) (s : State) : State :=
  let sp := s.span k
  let ps := sp.piers.foldl (fun l p => insertBy id p l) []
  ps.foldl (fun s p =>
    let x := s.pier p
    let q := splitBy (fun (e : EngErr) => x.computes e.engine sp.relFc) x.errors
    if q.1.isEmpty then s
    else q.1.foldl (fun s e => foundErr k (sp.piers.idxOf p) p e s) (s.modPier p fun x => { x with errors := q.2 })) s

/-! ### Held and frozen fc (R297, R298) -/

/-- Whether the span was held 12 fc before the current one; `held` lists the fc before the current one, the latest first. -/
def Span.heldBack (sp : Span) : Bool := sp.held.getD 11 false

/-- SPAN_FREEZE (R297): the span was held 12 fc ago. -/
def execSpanFreeze (k : Nat) (s : State) : Host.Outcome State Fault Refusal :=
  if 16 ≤ k then .fault (.noSuchUnit k)
  else if (s.span k).running ∧ (s.span k).heldBack then .next (s.modSpan k fun sp => { sp with frozen := true }) else .next s

/-- SPAN_THAW (R297): the span was not held 12 fc ago. -/
def execSpanThaw (k : Nat) (s : State) : Host.Outcome State Fault Refusal :=
  if 16 ≤ k then .fault (.noSuchUnit k)
  else if (s.span k).heldBack then .next s else .next (s.modSpan k fun sp => { sp with frozen := false })

/-- Frozen fc since the freeze began: of those held, each froze 12 fc later. -/
def frozenFor (since fc : Nat) : Nat := fc - (since + 11)

/-- Bench writes of pier `p`'s chucks whose fc has come are stored (R148). -/
def storeDue (p : Nat) (s : State) : State :=
  let q := splitBy (fun w : Nat × List (Nat × W36) => decide (w.1 ≤ s.clk.fc)) (s.pier p).stores
  if q.1.isEmpty then s
  else q.1.foldl (fun s w => s.putBench p w.2) (s.modPier p fun x => { x with stores := q.2 })

/-- The end of an fc of a span: in an unfrozen one the effects that fall at its end; then slot 3's chuck writes, whichever it was
(R149, R153). -/
def endFc (k : Nat) (s : State) : State :=
  let sp := s.span k
  sp.piers.foldl (fun s p =>
    storeDue p (if sp.frozen then s else runActs k p (fun a => a.atEnd && decide (a.due ≤ sp.relFc)) s)) s

/-- The spindle pass that reads the head entry of pier `p`'s full finished-tile queue goes on in the fc that would be span-relative
fc `f` (R212). -/
def headPass (k p f : Nat) (s : State) : State :=
  match (s.pier p).ftq.find? fun e => e.taken with
  | none => s
  | some e =>
    let pass := ((s.pier p).passes.find? fun a => a.x.isNone ∧ a.ent = e.id).map (·.id)
    let own := fun (a : Act) => pass.isSome && a.pass == pass
    runActs k p (fun a => own a && !a.atEnd && decide (a.due ≤ f))
      (runActs k p (fun a => own a && a.atEnd && decide (a.due < f)) s)

/-- What goes on while a span is frozen: the pass that reads the head entry of a full finished-tile queue, the injection of
a full send queue, and FROZEN_FC (R212, R296, R298). -/
def frozenFc (k : Nat) (s : State) : State :=
  let sp := s.span k
  sp.piers.foldl (fun s p =>
    let s0 := s.bump spnFrozenFc p 0 1
    let mine := fun (src : HoldSrc) => sp.holds.find? fun h => h.pier == p && h.src == src
    let s1 := match mine .ftq with
      | some h => headPass k p (sp.relFc + frozenFor h.since s.clk.fc) s0
      | none => s0
    if (mine .sendq).isSome then injectFlit k p sp.relFc s1 else s1) s

/-- One unfrozen fc: effects of the new fc begin, the MME's array counts it, flits leave (R217, R247, R296). -/
def unfrozenFc (k : Nat) (s : State) : State :=
  let s0 := s.modSpan k fun sp => { sp with relFc := sp.relFc + 1 }
  let sp := s0.span k
  let f := sp.relFc
  let array := fun (p : Nat) (s : State) => if f < (s.pier p).mmeArray then s.bump laMmeActiveFc p 0 1 else s
  let s1 := sp.piers.foldl (fun s p => array p (runActs k p (fun a => !a.atEnd && decide (a.due ≤ f)) s)) s0
  sp.piers.foldl (fun s p => injectFlit k p f s) s1

/-- A running span passes from one device fc to the next. -/
def advanceSpan (k : Nat) (s : State) : State :=
  if !(s.span k).running then s
  else
    let s0 := countHolds k (endFc k s)
    let s1 := if (s0.span k).frozen then s0 else meterFc k s0
    if (s1.span k).stop.isSome then applyStop k s1
    else
      let s2 := s1.modSpan k fun sp => { sp with held := ((!sp.holds.isEmpty) :: sp.held).take 12 }
      let s3 := s2.modSpan k fun sp => { sp with frozen := sp.heldBack }
      if (s3.span k).frozen then frozenFc k s3 else unfrozenFc k s3

/-! ### The ends of hold sources -/

/-- WAITT_TARGET (R264): the time base has reached what a WAITT of the pier waits for. -/
def execWaittTarget (p : Nat) (s : State) : Host.Outcome State Fault Refusal :=
  if 192 ≤ p then .fault (.noSuchUnit p)
  else match s.spanOf p with
    | some (k, _) => .next (endHolds k (fun h => h.pier == p && h.src == .waitt && h.waits.all (· ≤ s.now)) s)
    | none => .next s

/-- FTQ_OVERFLOW (R212): the full queue has an entry free for the push, or nothing can free one; the span halts. -/
def execFtqOverflow (p : Nat) (s : State) : Host.Outcome State Fault Refusal :=
  if 192 ≤ p then .fault (.noSuchUnit p)
  else match s.spanOf p with
    | none => .next s
    | some (k, _) =>
      let x := s.pier p
      let mine := fun (h : Hold) => h.pier == p && h.src == .ftq
      let room := decide (x.ftq.length < 8)
      if !((s.span k).frozen && (s.span k).holds.any mine) || !(room || x.ftq.all fun e => !e.taken) then .next s
      else
        let push := x.acts.find? fun a => match a.op with
          | .ftqPush _ => true
          | _ => false
        let s1 := match push with
          | some a => if room then doAct k p a (s.modPier p fun x => { x with acts := x.acts.erase a }) else s
          | none => s
        .next (lathe01 0x0104 p k (endHolds k mine s1))

/-- SENDQ_OVERFLOW (R296): the full send queue has room; the span halts. -/
def execSendqOverflow (p : Nat) (s : State) : Host.Outcome State Fault Refusal :=
  if 192 ≤ p then .fault (.noSuchUnit p)
  else match s.spanOf p with
    | none => .next s
    | some (k, _) =>
      let mine := fun (h : Hold) => h.pier == p && h.src == .sendq
      if (s.span k).holds.any mine ∧ (s.pier p).sendq.length < 16 then
        .next (stopSpan k (.commit 0x0505 (some p))
          (raise { code := 0x0505, action := 3, unit := 1, pier := p, span := k } (endHolds k mine s)))
      else .next s

/-! ### Die-to-die replay (R32, R467) -/

/-- FLIT_REPLAY: a flit of a link has been replayed so many times; from the second on, every span with traffic on the link is
held until the flit is delivered, and one record is written. The spans with traffic on the link in that fc are the command's word. -/
def execFlitReplay (link channel replays : Nat) (spans : List Nat) (s : State) : Host.Outcome State Fault Refusal :=
  if 3 ≤ link then .fault (.noSuchUnit link)
  else
    let known := s.flits.any fun f => f.1 == link && f.2.1 == channel
    let s1 := s.bump rasLinkReplays 0 link 1
    if replays < 2 ∨ known then .next s1
    else
      let hold : Hold := { src := .link, pier := 255, waits := [link, channel], since := s.clk.fc }
      let s2 := spans.foldl (fun s k => s.modSpan k fun sp => { sp with holds := sp.holds ++ [hold] }) s1
      let s3 := { s2 with flits := s2.flits ++ [(link, channel, replays, spans)] }.bump rasLinkHolds 0 0 spans.length
      .next (raise { code := 0x0608, action := 0, unit := 4
                     detail := leBytes 1 link ++ leBytes 1 channel ++ leBytes 2 replays } s3)

/-- FLIT_DELIVERED: the flit passes, and the holds that it gave end. -/
def execFlitDelivered (link channel : Nat) (s : State) : Host.Outcome State Fault Refusal :=
  if 3 ≤ link then .fault (.noSuchUnit link)
  else match s.flits.find? fun f => f.1 = link ∧ f.2.1 = channel with
    | none => .next s
    | some f =>
      let s1 := { s with flits := s.flits.filter fun g => !(g.1 == link && g.2.1 == channel) }
      .next (f.2.2.2.foldl (fun s k => endHolds k (fun h => h.src == .link && h.waits == [link, channel]) s) s1)

/-! ### Instruction memory (R274 to R276) -/

/-- IMEM_WRITE of 1 on pier `p`: the 16 bytes of IMEM_DATA at IMEM_ADDR of the bank and target staged, and IMEM_ADDR moves on. -/
def execImemWrite (p : Nat) (staged : Option (Nat × Nat × Nat)) (data : Nat) (s : State) : Host.Outcome State Fault Refusal :=
  if 192 ≤ p then .fault (.noSuchUnit p)
  else if s.pierState p ≠ 1 then .next (raise { code := 0x0501, action := 0, unit := 1, pier := p } s)
  else
    let sd := (List.range 4).foldl (fun s k => s.setReg seqImemData p k (fld data (32 * k) 32)) s
    let s0 := match staged with
      | some g => ((sd.setReg seqImemBank p 0 g.1).setReg seqImemTarget p 0 g.2.1).setReg seqImemAddr p 0 (g.2.2 / 16)
      | none => sd
    let x := s0.pier p
    let bank := s0.reg seqImemBank p 0
    let addr := s0.reg seqImemAddr p 0
    if bank = x.seq.bank ∨ x.seq.armed then .next (raise { code := 0x0502, action := 0, unit := 1, pier := p } s0)
    else
      let a := imemBase bank (s0.reg seqImemTarget p 0) + 16 * addr
      .next ((s0.modPier p fun x => { x with imem := mputs x.imem a (leBytes 16 data) }).setReg seqImemAddr p 0 (addr + 1))

/-- SWAP_ARM of pier `p` written: 1 arms the swap of its next launch, 0 cancels it. -/
def execSwapArm (p value : Nat) (s : State) : Host.Outcome State Fault Refusal :=
  if 192 ≤ p then .fault (.noSuchUnit p)
  else if s.pierState p ≠ 1 then .next (raise { code := 0x0501, action := 0, unit := 1, pier := p } s)
  else .next (s.modSeq p fun q => { q with armed := value % 2 == 1 })

end Sys2Proof.Machine
end

