-- ==== Sys2Proof/Machine/PublicKey.lean ====
section
/-! DEFINITION. What the long-integer engine computes (R426 to R428, Table 16-8): X25519 of RFC 7748, P-384 of FIPS 186-5,
modular powers. PRESUMED: the curve constants and formulas come from those standards (log entry 13). -/
namespace Sys2Proof.Machine

/-! ### X25519 (RFC 7748) -/

/-- The prime 2^255 − 19. -/
def p25519 : Nat := 2 ^ 255 - 19

/-- One ladder step on (X2, Z2, X3, Z3) for base `u` and the scalar bit `b`. -/
def ladderStep (u : Nat) (b : Bool) (x2 z2 x3 z3 : Nat) : Nat × Nat × Nat × Nat :=
  let p := p25519
  let sub := fun a c => (a + p - c % p) % p
  let l := if b then (x3, z3, x2, z2) else (x2, z2, x3, z3)
  let a := (l.1 + l.2.1) % p
  let d := sub l.1 l.2.1
  let aa := a * a % p
  let dd := d * d % p
  let e := sub aa dd
  let da := sub l.2.2.1 l.2.2.2 * a % p
  let cb := (l.2.2.1 + l.2.2.2) * d % p
  let xo := (da + cb) * (da + cb) % p
  let y := sub da cb
  let zo := u * (y * y % p) % p
  let xd := aa * dd % p
  let zd := e * ((aa + 121665 * e) % p) % p
  if b then (xo, zo, xd, zd) else (xd, zd, xo, zo)

/-- The ladder over the low `n` bits of `k`, highest first. -/
def ladder (k u : Nat) : Nat → Nat × Nat × Nat × Nat → Nat × Nat × Nat × Nat
  | 0, s => s
  | n + 1, s => ladder k u n (ladderStep u (k.testBit n) s.1 s.2.1 s.2.2.1 s.2.2.2)

/-- X25519 of a scalar and a u-coordinate below p. -/
def x25519 (k u : Nat) : Nat :=
  let k1 := k % 2 ^ 254 / 8 * 8 + 2 ^ 254
  let r := ladder k1 u 255 (1, 0, u, 1)
  r.1 * powMod r.2.1 (p25519 - 2) p25519 % p25519

/-! ### P-384 (FIPS 186-5) -/

def p384 : Nat := 2 ^ 384 - 2 ^ 128 - 2 ^ 96 + 2 ^ 32 - 1
def n384 : Nat := 0xFFFFFFFFFFFFFFFFFFFFFFFFFFFFFFFFFFFFFFFFFFFFFFFFC7634D81F4372DDF581A0DB248B0A77AECEC196ACCC52973
def b384 : Nat := 0xB3312FA7E23EE7E4988E056BE3F82D19181D9C6EFE8141120314088F5013875AC656398D8A2ED19D2A85C8EDD3EC2AEF
def gx384 : Nat := 0xAA87CA22BE8B05378EB1C71EF320AD746E1D3B628BA79B9859F741E082542A385502F25DBF55296C3A545E3872760AB7
def gy384 : Nat := 0x3617DE4A96262C6F5D9E98BF9292DC29F8F41DBD289A147CE9DA3113B5F0B8C00A60B1CE1D7E819D7A431D7C90EA0E5F

/-- Whether (x, y) lies on the curve. -/
def onCurve (x y : Nat) : Bool := (y * y) % p384 == (x * x * x + (p384 - 3) * x + b384) % p384

/-- Sum of two points; none is the point at infinity. -/
def pointAdd (a b : Option (Nat × Nat)) : Option (Nat × Nat) :=
  match a, b with
  | none, b => b
  | a, none => a
  | some (x1, y1), some (x2, y2) =>
    let p := p384
    if x1 = x2 ∧ (y1 + y2) % p = 0 then none
    else
      let m := if x1 = x2 then (3 * x1 * x1 + (p - 3)) % p * powMod (2 * y1) (p - 2) p % p
        else (y2 + p - y1) % p * powMod (x2 + p - x1) (p - 2) p % p
      let x := (m * m + 2 * p - x1 - x2) % p
      some (x, (m * (x1 + p - x) + p - y1) % p)

/-- `k` times a point, over the low `n` bits of `k`. -/
def pointMul : Nat → Nat → Option (Nat × Nat) → Option (Nat × Nat)
  | 0, _, _ => none
  | n + 1, k, q =>
    let h := pointMul n (k / 2) (pointAdd q q)
    if k % 2 = 1 then pointAdd q h else h

/-- ECDSA signature of digest `e` by `d` with nonce `k`. -/
def ecdsaSign (d e k : Nat) : Nat × Nat :=
  let r := ((pointMul 384 k (some (gx384, gy384))).map (·.1)).getD 0 % n384
  (r, powMod k (n384 - 2) n384 * (e + r * d) % n384)

/-- ECDSA verification. -/
def ecdsaVerify (qx qy e r s : Nat) : Bool :=
  let w := powMod s (n384 - 2) n384
  match pointAdd (pointMul 384 (e * w % n384) (some (gx384, gy384))) (pointMul 384 (r * w % n384) (some (qx, qy))) with
  | some q => q.1 % n384 == r
  | none => false

/-! ### The operations of Table 16-8 -/

/-- c_W(L) and M(L) in fc (R426, R427). -/
def wmacFc (l : Nat) : Nat := 32 + ceilDiv (l * l) 512 + 2 * l
def montFc (l : Nat) : Nat := 3 * wmacFc l + 88

/-- Operand slots of an operation and its result slots; none for an unknown OP. -/
def lieSlots (op : Nat) : Option (Nat × Nat) :=
  if op = 1 then some (2, 1) else if op = 2 then some (3, 1) else if op = 3 then some (2, 2)
  else if op = 4 then some (5, 1) else if op = 5 then some (2, 1) else if op = 6 then some (4, 1) else none

/-- Whether the operation allows L (Table 16-8), and with RANDOMISE (R428). -/
def lieLenOk (op l : Nat) (rand : Bool) : Bool :=
  if op = 1 then l == 4
  else if op = 2 ∨ op = 3 ∨ op = 4 then l == 6
  else if op = 5 then l == 48 || l == 64
  else op == 6 && decide (4 ≤ l) && decide (l ≤ 64) && !(rand && l == 64)

/-- T of an operation (Table 16-9); `order` says that ORDER is given. -/
def lieTime (op l : Nat) (rand order : Bool) : Nat :=
  let t := fun n l => 2 * n * montFc l + 64
  if op = 1 then t (if rand then 2820 else 2818) 4
  else if op = 2 then t (if rand then 12054 else 10388) 6
  else if op = 3 then t (if rand then 12452 else 10786) 6
  else if op = 4 then t 15778 6
  else if op = 5 then t 19 l
  else if rand then t (80 * l + (if order then 96 else 16)) (l + 1)
  else t (80 * l + 16) l

/-- Whether an operation draws random bits (R415, R428). -/
def lieRandom (op : Nat) (rand : Bool) : Bool := op == 3 || (rand && (op == 1 || op == 2 || op == 6))

/-- What an operation answers for its operands: the code it ends with, and its results (Table 16-8, in the order of its last
column); `rnd` is what it draws. -/
def lieRun (op : Nat) (a : Nat → Nat) (rand : Bool) (rnd : Nat) : Nat × List Nat :=
  if op = 1 then
    let u := a 1 % 2 ^ 255
    if p25519 ≤ u then (0x0701, [])
    else
      let r := x25519 (a 0) u
      if r = 0 then (0x0702, []) else (0, [r])
  else if op = 2 then
    if a 0 = 0 ∨ n384 ≤ a 0 ∨ p384 ≤ a 1 ∨ p384 ≤ a 2 then (0x0701, [])
    else if !onCurve (a 1) (a 2) then (0x0702, [])
    else (0, [((pointMul 384 (a 0) (some (a 1, a 2))).map (·.1)).getD 0])
  else if op = 3 then
    if a 0 = 0 ∨ n384 ≤ a 0 then (0x0701, [])
    else
      let s := ecdsaSign (a 0) (a 1) (1 + rnd % (n384 - 1))
      (0, [s.1, s.2])
  else if op = 4 then
    if p384 ≤ a 0 ∨ p384 ≤ a 1 then (0x0701, [])
    else if !onCurve (a 0) (a 1) then (0x0702, [])
    else if a 3 = 0 ∨ n384 ≤ a 3 ∨ a 4 = 0 ∨ n384 ≤ a 4 then (0x0701, [])
    else (0, [if ecdsaVerify (a 0) (a 1) (a 2) (a 3) (a 4) then 1 else 0])
  else if op = 5 then
    if a 0 % 2 = 0 ∨ a 1 = 0 ∨ a 0 ≤ a 1 then (0x0701, [])
    else (0, [powMod (a 1) 65537 (a 0)])
  else
    if a 0 % 2 = 0 ∨ a 1 = 0 ∨ a 0 ≤ a 1 ∨ a 2 = 0 then (0x0701, [])
    else (0, [powMod (a 1) (a 2 + (if rand then rnd % 2 ^ 64 * a 3 else 0)) (a 0)])

end Sys2Proof.Machine
end

