-- ==== Sys2Proof/Machine/Store.lean ====
section
/-! DEFINITION. Space: internal objects, image regions and exchange buffers (13_memory_system R334 to R347, R495), and the
reading of window ranges (14_host_ports R361). -/
namespace Sys2Proof.Machine

/-! ### Space in GDDR (R345, R347, R495) -/

/-- First span offset of the save areas: internal objects lie below it (R347). -/
def gddrLimit : Nat := 0xBE900000

/-- Whether [a, a+n) and [b, b+m) meet. -/
def meet (a n b m : Nat) : Bool := decide (0 < n ∧ 0 < m ∧ a < b + m ∧ b < a + n)

/-- Span offsets in use on some device: image regions, internal objects, local windows, exchange buffers: (offset, length). -/
def State.gddrUsed (s : State) : List (Nat × Nat) :=
  let g := gddrBase 0
  (s.images.map fun e => (e.2.gddrBase, e.2.gddrPart)) ++ (s.objs.map fun o => (o.base, 65536 * o.mib)) ++
    (s.windows.filterMap fun e =>
      if (e.2.st = .opened ∨ e.2.st = .draining) ∧ ¬ e.2.remote ∧ g ≤ e.2.base then some ((e.2.base - g) % 2 ^ 32, e.2.length) else none) ++
    (match s.sys with
      | some i => i.channels.filterMap fun c => if g ≤ c.base then some ((c.base - g) % 2 ^ 32, c.k * c.bytes) else none
      | none => [])

/-- Whether no used range meets [a, a+n). -/
def freeIn (used : List (Nat × Nat)) (a n : Nat) : Bool := used.all fun u => !meet a n u.1 u.2

/-- Smallest and largest of the candidates that pass. -/
def lowest (c : List Nat) (ok : Nat → Bool) : Option Nat := (c.filter ok).foldl (fun m x => some (min x (m.getD x))) none
def highest (c : List Nat) (ok : Nat → Bool) : Option Nat := (c.filter ok).foldl (fun m x => some (max x (m.getD x))) none

/-- The base of a new internal object of `z` bytes: the highest free multiple of 65,536 (R347). -/
def State.objPlace (s : State) (z : Nat) : Option Nat :=
  let n := 65536 * ceilDiv z (2 ^ 20)
  let used := s.gddrUsed
  let tops := gddrLimit :: used.map (·.1)
  highest (tops.filterMap fun t => if n ≤ t then some ((t - n) / 65536 * 65536) else none)
    fun b => decide (b + n ≤ gddrLimit) && freeIn used b n

/-- A new internal object holding `bs`: its identifier; none when nothing is free (R347). -/
def allocObj (bs : List Byte) (s : State) : Option (Nat × State) :=
  match s.objPlace bs.length with
  | none => none
  | some b =>
    let f := s.fresh
    let s1 := { f.2 with objs := f.2.objs ++ [{ id := f.1, base := b, mib := ceilDiv bs.length (2 ^ 20), bytes := bs.length }] }
    some (f.1, (bs.zipIdx).foldl (fun s e => s.wr (objAddr b e.2) [e.1]) s1)

/-- The bytes of an internal object from `y` on. -/
def objRd (s : State) (id y n : Nat) : List Byte := (List.range n).map fun i => mget s.mem (objAddr (s.objBase id) (y + i))

/-- An internal object fails its check: one record, and its repair is queued (R466, Table 18-5). -/
def storeLost (store pier id : Nat) (s : State) : State :=
  addRepair store id pier (raise { code := 0x0606, action := 0, unit := 3, pier := pier, detail := storeDetail (gddrBase 0 + s.objBase id) store } s)

/-- The bytes of an internal object zeroed, on every GDDR device. -/
def zeroObj (o : GObj) (s : State) : State :=
  (List.range 16).foldl (fun s k => s.zeroMem (gddrBase k + o.base) (gddrBase k + o.base + 65536 * o.mib)) s

/-- Internal objects zeroed and released. -/
def freeObjs (ids : List Nat) (s : State) : State :=
  let gone := s.objs.filter fun o => ids.contains o.id
  let s1 := gone.foldl (fun s o => zeroObj o s) s
  { s1 with objs := s1.objs.filter fun o => !ids.contains o.id }

/-- S of an image whose GDDR_BYTES is `n` (R495). -/
def partSize (n : Nat) : Nat := 2048 * ceilDiv n 32768

/-- G for parts of `n` bytes: the lowest free multiple of 2,048 (R495). -/
def State.regionPlace (s : State) (n : Nat) : Option Nat :=
  let used := s.gddrUsed
  lowest (0 :: used.map fun u => ceilDiv (u.1 + u.2) 2048 * 2048)
    fun g => decide (g + n ≤ gddrLimit) && freeIn used g n

/-! ### Space in the LLM (R334, R336, R337) -/

/-- LLM offsets in use: system area, image regions, local windows, exchange buffers and stamps. -/
def State.llmUsed (s : State) : List (Nat × Nat) :=
  let inLlm := fun a => llmBase ≤ a && decide (a < gddrBase 0)
  (0, 0x2000000) :: (s.images.map fun e => (e.2.llmBase, e.2.llmBytes)) ++
    (s.windows.filterMap fun e =>
      if (e.2.st = .opened ∨ e.2.st = .draining) ∧ ¬ e.2.remote ∧ inLlm e.2.base then some (e.2.base - llmBase, e.2.length) else none) ++
    (match s.sys with
      | some i => i.channels.flatMap fun c =>
          (if inLlm c.base then [(c.base - llmBase, c.k * c.bytes)] else []) ++
            (if inLlm c.stampAddr then [(c.stampAddr - llmBase, 128)] else [])
      | none => [])

/-- The lowest free LLM offset, a multiple of `al`, for `n` bytes. -/
def State.llmPlace (s : State) (al n : Nat) : Option Nat :=
  let used := s.llmUsed
  lowest (used.map fun u => ceilDiv (u.1 + u.2) al * al) fun a => decide (a + n ≤ s.scratch) && freeIn used a n

/-- MiB of the cache part that no image pins (R337). -/
def State.unpinned (s : State) : Nat := 32 * s.dreg llmCacheSteps - (s.images.map fun e => e.2.pinMib).foldl (· + ·) 0

/-- Whether every GDDR device trained (R348). -/
def State.gddrOk (s : State) : Bool := s.badTraining.isEmpty

/-! ### Window ranges (R361, R362) -/

/-- Whether window `w` is open and belongs to slot `p`. -/
def State.ownWindow (s : State) (p w : Nat) : Bool :=
  let e := s.win w
  decide (e.st = .opened) && decide (e.owner = p)

/-- The bytes of a range of an own window: of device memory for a local window, as the command brings them for a remote
one; none when the range does not lie in an open window of the slot. -/
def readRange (s : State) (p : Nat) (r : WinRange) : Option (List Byte) :=
  let e := s.win r.window
  if !s.ownWindow p r.window || decide (e.length < r.offset + r.length) then none
  else if e.remote then (if r.remote.length = r.length then some r.remote else none)
  else some (s.rd (e.base + r.offset) r.length)

/-- Bytes written to a range of a window: device memory, or a remote write. -/
def writeRange (w off : Nat) (bs : List Byte) (s : State) : State :=
  let e := s.win w
  if e.remote then s.send (.remoteWrite w off bs) else s.wr (e.base + off) bs

end Sys2Proof.Machine
end

