-- ==== Sys2Proof/Machine/Lie.lean ====
section
/-! DEFINITION. The long-integer engine: mailboxes, queue, operations (16_security R426 to R433). -/
namespace Sys2Proof.Machine

/-- SRC_ADDR and DST_ADDR of slot `p`'s mailbox. -/
def State.lieSrc (s : State) (p : Nat) : Nat := s.reg lieSrcAddrLo 0 p + 2 ^ 32 * s.reg lieSrcAddrHi 0 p
def State.lieDst (s : State) (p : Nat) : Nat := s.reg lieDstAddrLo 0 p + 2 ^ 32 * s.reg lieDstAddrHi 0 p

/-- Bytes of the operand block at `a`, by the OP of its header, and of its result block; a header alone for an unknown OP. -/
def State.lieBlocks (s : State) (a : Nat) : Nat × Nat :=
  match lieSlots (getLe (s.rd a 64) 0 1) with
  | some n => (64 + 512 * n.1, 64 + 512 * n.2)
  | none => (64, 64)

/-- Whether both blocks of an operation lie wholly inside one open local window of its slot (R429). -/
def State.lieWindowOk (s : State) (o : LieOp) : Bool :=
  let n := s.lieBlocks o.src
  s.windows.any fun e => decide (e.2.st = .opened) && !e.2.remote && e.2.owner == o.slot &&
    decide (e.2.base ≤ o.src ∧ o.src + n.1 ≤ e.2.base + e.2.length ∧ e.2.base ≤ o.dst ∧ o.dst + n.2 ≤ e.2.base + e.2.length)

/-- Whether one open local window of slot `p` holds `n` bytes from `a` on (R431: it is closed otherwise). -/
def State.lieFits (s : State) (p a n : Nat) : Bool :=
  s.windows.any fun e => decide (e.2.st = .opened) && !e.2.remote && e.2.owner == p && decide (e.2.base ≤ a ∧ a + n ≤ e.2.base + e.2.length)

/-- Whether slot `p` has an operation that has not ended. -/
def Lie.busy (l : Lie) (p : Nat) : Bool := (l.queue.any fun o => o.slot == p) || (l.running.any fun r => r.1.slot == p)

/-- The queue replaced. -/
def State.setLie (s : State) (l : Lie) : State := { s with lie := l }

/-- GO: the slot's operation joins the queue, or is refused at once (R429). -/
def lieGoCmd (p : Nat) (s : State) : State :=
  let o : LieOp := { slot := p, src := s.lieSrc p, dst := s.lieDst p }
  if s.lie.busy p then s.setReg lieStatus 0 p 0x0402
  else if !s.lieWindowOk o then s.setReg lieStatus 0 p 0x0705
  else s.setLie { s.lie with queue := s.lie.queue ++ [o] }

/-- An operation of slot `p` ends with a code: STATUS and LAST_RUN_FC; keystone's own (slot 8) has no mailbox. -/
def lieEnd (p code t : Nat) (s : State) : State :=
  if p < 8 then (s.setReg lieStatus 0 p code).setReg lieLastRunFc 0 p t else s

/-- ABORT (R432): a queued operation leaves the queue, a running one stops at once (log entry 33); with nothing pending nothing changes. -/
def lieAbortCmd (p : Nat) (s : State) : State :=
  if (s.lie.queue.any fun o => o.slot == p) then
    (s.setLie { s.lie with queue := s.lie.queue.filter fun o => o.slot != p }).setReg lieStatus 0 p 0x0704
  else match s.lie.running with
    | some (o, _, _, t, _) =>
      if o.slot = p then lieEnd p 0x0704 t (s.setLie { s.lie with running := none, zeroUntil := s.clk.fc + 256 }) else s
    | none => s

/-- GO written by slot `p`. -/
def execGo (p : Nat) (s : State) : Host.Outcome State Fault Refusal :=
  if 8 ≤ p then .fault (.noSuchUnit p) else .next (lieGoCmd p s)

/-- ABORT written by slot `p`. -/
def execAbort (p : Nat) (s : State) : Host.Outcome State Fault Refusal :=
  if 8 ≤ p then .fault (.noSuchUnit p) else .next (lieAbortCmd p s)

/-- Keystone's own X25519 operations join the queue (R429). -/
def lieOwn (n : Nat) (s : State) : State :=
  s.setLie { s.lie with queue := s.lie.queue ++ List.replicate n { slot := 8, src := 0, dst := 0 } }

/-- Operand slot `i` of a block, in L words. -/
def lieOperand (bs : List Byte) (l i : Nat) : Nat := getLe bs (64 + 512 * i) (8 * l)

/-- Result slots as bytes. -/
def resultSlots (vs : List Nat) : List Byte := vs.flatMap (leBytes 512)

/-- The head of the queue is read: it runs for its T, or ends at once (R428, R430, R431, R415). -/
def lieStart (o : LieOp) (rest : List LieOp) (s : State) : State :=
  let rand := s.dreg lieRandomise = 1
  let bs := s.rd o.src (s.lieBlocks o.src).1
  let op := getLe bs 0 1
  let l := getLe bs 1 1
  let s0 := s.setLie { s.lie with queue := rest }
  let run := fun (vs : List Nat) (code t : Nat) (s : State) =>
    s.setLie { s.lie with running := some (o, resultSlots vs, code, t, s.clk.fc + t) }
  let stop := fun (code : Nat) => (lieEnd o.slot code 0 s0).setLie { s0.lie with zeroUntil := s.clk.fc + 256 }
  if 8 ≤ o.slot then run [] 0 (lieTime 1 4 rand false) s0
  else if !s.lieWindowOk o then stop 0x0401
  else if (lieSlots op).isNone ∨ !lieLenOk op l rand then stop 0x0705
  else if lieRandom op rand ∧ !s.ks.rngOk then stop 0x0707
  else
    let d := s0.draw
    let s1 := if lieRandom op rand then d.2 else s0
    let r := lieRun op (lieOperand bs l) rand d.1
    run r.2 r.1 (lieTime op l rand (decide (lieOperand bs l 3 ≠ 0))) s1

/-- LIE_OP_START: nothing runs and the operand RAM is zero; the head of the queue starts. -/
def execLieOpStart (s : State) : Host.Outcome State Fault Refusal :=
  if s.lie.running.isSome ∨ s.clk.fc < s.lie.zeroUntil then .next s
  else match s.lie.queue with
    | [] => .next s
    | o :: rest => .next (lieStart o rest s)

/-- LIE_OP_DONE (R431): T has passed; `mismatch` says that the two runs differ. -/
def execLieOpDone (mismatch : Bool) (s : State) : Host.Outcome State Fault Refusal :=
  match s.lie.running with
  | none => .next s
  | some (o, res, code, t, done) =>
    if s.clk.fc < done then .next s
    else
      let s1 := (s.setLie { s.lie with running := none, zeroUntil := s.clk.fc + 256 }).bump lieOperations 0 0 1
      if mismatch then
        .next (lieEnd o.slot 0x0703 t (raise { code := 0x0703, action := 0, unit := 6 } (s1.bump lieMismatches 0 0 1)))
      else if 8 ≤ o.slot then .next s1
      else if code ≠ 0 then .next (lieEnd o.slot code t s1)
      else if !s.lieFits o.slot o.dst (64 + res.length) then .next (lieEnd o.slot 0x0401 t s1)
      else .next (lieEnd o.slot 0 t (s1.wr o.dst (leBytes 64 0 ++ res)))

end Sys2Proof.Machine
end

