-- ==== Sys2Proof/Machine/RegRead.lean ====
section
/-! DEFINITION. Reading management registers: what each derived field reports, and the word at an address (R9 to R11, and the
register tables of each chapter). -/
namespace Sys2Proof.Machine

/-! ### Pier fields (Tables 6-5, 7-7, 8-7, 9-7, 10-9, 11-14) -/

/-- Kn_STATE: 0 idle, 1 moving, 2 waiting on a bench row, 3 waiting on a remote page; a timed transfer before its target is idle. -/
def Chuck.state (c : Chuck) : Nat :=
  let has := fun (f : XfPhase → Bool) => c.xfers.any fun x => f x.phase
  if has (fun h => match h with | .pageWait _ _ => true | _ => false) then 3
  else if has (fun h => match h with | .rowWait => true | .entryWait => true | _ => false) then 2
  else if has (fun h => match h with | .moving => true | .moved => true | _ => false) then 1
  else 0

/-- Bits of a predicate on 0 to n − 1. -/
def maskOf (n : Nat) (p : Nat → Bool) : Nat := (List.range n).foldl (fun v i => if p i then v + 2 ^ i else v) 0

/-- The pier's span, its device index, and the stage; none for a pier that is not placed. -/
def State.place (s : State) (p : Nat) : Option (Nat × Nat × Span) := (s.spanOf p).map fun e => (e.1, e.2, s.span e.1)

/-- What a derived pier field reports. -/
def pierVal (h : Home) (s : State) (p i : Nat) : Nat :=
  let x := s.pier p
  let pl := s.place p
  let now := (pl.map fun e => e.2.2.relFc).getD 0
  let run := (pl.map fun e => e.2.2.running).getD false
  let frozen := (pl.map fun e => e.2.2.running && e.2.2.frozen).getD false
  let b := fun (q : Bool) => if q then 1 else 0
  match h with
  | .bnCacheBlocks => x.cacheBlocks
  | .bnSbState => (List.range 16).foldl (fun v n => v + 4 ^ n * sbCode (x.sbAt n)) 0
  | .ckK0Outstanding => (tget ({} : Chuck) x.chucks 0).xfers.length
  | .ckK1Outstanding => (tget ({} : Chuck) x.chucks 1).xfers.length
  | .ckK2Outstanding => (tget ({} : Chuck) x.chucks 2).xfers.length
  | .ckK0State => (tget ({} : Chuck) x.chucks 0).state
  | .ckK1State => (tget ({} : Chuck) x.chucks 1).state
  | .ckK2State => (tget ({} : Chuck) x.chucks 2).state
  | .laNttBusy => b (run && decide (now < x.nttUntil))
  | .laMmeBusy => b (run && decide (now < x.mmeUntil))
  | .laShapeMode => match pl with
    | some (k, _, sp) => b (sp.shown && ((s.imageOf k).map fun im => bit im.shapeModes sp.imgSpan).getD false)
    | none => 0
  | .laFtqDepth => x.ftq.length
  | .laMvValid => maskOf 4 fun v => (tfind x.mv v).isSome
  | .laConstTagLo => x.constTag % 2 ^ 32
  | .laConstTagHi => x.constTag / 2 ^ 32
  | .laTshapeTRows => (x.shape i).rows
  | .laTshapeTCols => (x.shape i).cols
  | .laTshapeTMv => (x.shape i).mv
  | .laMemberPoison => maskOf 32 fun m => x.poison.contains (32 * i + m)
  | .spPassBusy => b (run && decide (now < x.passUntil))
  | .spFssBusy => b (run && decide (now < x.fssUntil))
  | .spSeedValid => maskOf 2 fun n => (tfind x.seeds n).isSome
  | .seqState => if frozen then 2 else match x.seq.st with
    | .idle => 0
    | .running => 1
    | .fault => 3
  | .seqActiveBank => x.seq.bank
  | .seqSwapArmed => b x.seq.armed
  | .seqSwapArm => b x.seq.armed
  | .seqCallDepth => x.seq.stack.length
  | .seqLoopsActive => maskOf 4 fun l => x.seq.loops.any fun e => e.level == l
  | .seqPtokLevel => (pl.map fun e => e.2.2.level).getD 0
  | .seqPc => x.seq.pc
  | .seqRoutineId => x.seq.routine.getD 0
  | .seqInRoutine => b x.seq.routine.isSome
  | .seqLcIndex => tget 0 x.seq.lc i
  | .seqA => (x.seq.areg i).toNat
  | .spnPierState => s.pierState p
  | .spnPlaced => b pl.isSome
  | .spnTakeoverReady => match pl with
    | some (_, _, sp) => b (tfind sp.spares p).isSome
    | none => 0
  | .spnSpan => (pl.map (·.1)).getD 0
  | .spnStage => (pl.map (·.2.1)).getD 0
  | .spnImageHandle => (pl.map (·.2.2.handle)).getD 0
  | .spnSpareIndex => match pl with
    | some (_, _, sp) => tget 0xFF sp.spares p
    | none => 0xFF
  | .spnReplaces => ((s.ks.retired.find? fun e => e.2 = p).map (·.1)).getD 0xFF
  | .spnHeld => match pl with
    | some (_, _, sp) => b !sp.holds.isEmpty
    | none => 0
  | .spnFrozen => b frozen
  | .spnSources => match pl with
    | some (_, _, sp) => maskOf 9 fun n => sp.holds.any fun e => e.pier == p && e.src.index == n
    | none => 0
  | .spnSendqRows => x.sendq.length
  | .spnGrantTokens => match pl with
    | some (_, _, sp) => if sp.shown then sp.grants.getD sp.level 0 else 0
    | none => 0
  | _ => 0

/-! ### Device fields -/

/-- The MiB of the internal objects named. -/
def State.mibOf (s : State) (ids : List Nat) : Nat :=
  ((s.objs.filter fun o => ids.contains o.id).map (·.mib)).foldl (· + ·) 0

/-- FC_ACTIVE's cause (R436): the slowest of the settings in force. -/
def State.fcWanted (s : State) : Nat :=
  let f := s.dreg pwrFcSetting
  let p := if s.pwr.prochot then s.dreg pwrProchotSetting else 0
  let t := if s.pwr.throttle then 2 else 0
  max f (max p t)

/-- KS_STATE (Table 16-11, R439). -/
def State.ksState (s : State) : Nat :=
  if s.ks.boot = 1 then (if s.isDegraded || s.pwr.trip then 2 else 1) else s.ks.boot

/-- The peers of Table 15-4 in ascending order of id: entry i. -/
def State.peerAt (s : State) (i : Nat) : Option (Nat × Peer) := s.peers[i]?

/-- A 32-bit register k of a digest (Table 16-11). -/
def digestWord (d : List Byte) (k : Nat) : Nat := getLe d (4 * k) 4

/-- What a derived device field reports. -/
def devVal (h : Home) (s : State) (i : Nat) : Nat :=
  let b := fun (q : Bool) => if q then 1 else 0
  let win := s.win i
  match h with
  | .idStepC0 => s.ks.steps.getD 0 0
  | .idStepC1 => s.ks.steps.getD 1 0
  | .idStepIo => s.ks.steps.getD 2 0
  | .idSerialLo => s.ks.serial % 2 ^ 32
  | .idSerialHi => s.ks.serial / 2 ^ 32
  | .idActiveD0 => ((s.piersIn 1).filter (· < 96)).length
  | .idActiveD1 => ((s.piersIn 1).filter (96 ≤ ·)).length
  | .idSpareD0 => ((s.piersIn 2).filter (· < 96)).length
  | .idSpareD1 => ((s.piersIn 2).filter (96 ≤ ·)).length
  | .idFusedMap => maskOf 32 fun n => s.pierState (32 * i + n) == 0
  | .idActiveMap => maskOf 32 fun n => s.pierState (32 * i + n) == 1
  | .idSpareMap => maskOf 32 fun n => s.pierState (32 * i + n) == 2
  | .idRetiredMap => maskOf 32 fun n => s.pierState (32 * i + n) == 3
  | .keyKeysetsInstalled => s.keysets.length
  | .keyKeystoreMib => s.mibOf (s.keysets.flatMap fun k => k.constObj :: k.objs.map (·.obj))
  | .keyMaterialMib => s.mibOf (s.sessions.flatMap fun e => e.2.classes.flatMap fun c => c.bundles.map (·.obj))
  | .keyPinMibTotal => (s.images.map fun e => e.2.pinMib).foldl (· + ·) 0
  | .xchSessionsBound => if s.boundHidden then 0 else (s.sessions.filter fun e => e.2.policy.c.isSome || e.2.policy.h.isSome).length
  | .llmScratchMib => s.scratch / 2 ^ 20
  | .llmUnpinnedMib => s.unpinned
  | .prtMacLo => s.ks.macs.getD i 0 % 2 ^ 32
  | .prtMacHi => s.ks.macs.getD i 0 / 2 ^ 32
  | .prtSlotState => match tfind s.slots i with
    | some x => if x.onStandby then 2 else 1
    | none => 0
  | .prtHomePort => ((tfind s.slots i).map (·.home)).getD 0
  | .prtStandbyPort => ((tfind s.slots i).map (·.standby)).getD 0
  | .prtHeadWait => ((tfind s.slots i).map (·.headWait)).getD 0
  | .prtOverrun => b (((tfind s.slots i).map (·.overrun)).getD false)
  | .prtConsumedLo => ((tfind s.slots i).map (·.consumed)).getD 0 % 2 ^ 32
  | .prtConsumedHi => ((tfind s.slots i).map (·.consumed)).getD 0 / 2 ^ 32
  | .prtCompletedLo => ((tfind s.slots i).map (·.completed)).getD 0 % 2 ^ 32
  | .prtCompletedHi => ((tfind s.slots i).map (·.completed)).getD 0 / 2 ^ 32
  | .prtJournalUsedKib => Config.journalKib s.journal.length ((s.journal.map fun j => match j with
    | .opening _ _ _ p => p.length
    | _ => 0).foldl (· + ·) 0) % 2 ^ 15
  | .prtSessions => s.sessions.length
  | .prtWinState => match win.st with
    | .free => 0
    | .opened => 1
    | .draining => 2
    | .retired => 3
  | .prtWinOwner => win.owner
  | .prtWinIsRemote => b win.remote
  | .prtEpoch => win.epoch
  | .tbTbNsLo => s.clk.ns % 2 ^ 32
  | .tbTbNsHi => s.clk.latchHi
  | .tbTbFrac => s.clk.latchFrac
  | .tbFwVersion => s.fwVersion
  | .tbOperVersion => s.oper
  | .tbPeerId => ((s.peerAt i).map (·.1)).getD 0
  | .tbPeerState => ((s.peerAt i).map (·.2.state)).getD 0
  | .tbPeerVersion => ((s.peerAt i).map (·.2.version)).getD 0
  | .ksnKsState => s.ksState
  | .ksnBootBank => s.ks.bootBank
  | .ksnClaimed => b !s.ks.operatorHash.isEmpty
  | .ksnLocked => b s.ks.lock
  | .ksnRngOk => b s.ks.rngOk
  | .ksnFwSvnRun => (s.ks.run.map (·.svn)).getD 0
  | .ksnOtpFwSvn => s.ks.fwSvn
  | .ksnRoutineEpoch => s.ks.routineEpoch
  | .ksnFwDigest => digestWord s.ks.fwDigest i
  | .ksnRomDigest => digestWord s.ks.romDigest i
  | .lieQueueDepth => s.lie.queue.length + (if s.lie.running.isSome then 1 else 0)
  | .lieBusy => b (s.lie.busy i)
  | .lieRunning => b (s.lie.running.any fun r => r.1.slot == i)
  | .pwrPstate => match s.pwr.state with
    | .a0 => 0
    | .a1 => 1
    | .a2 => 2
    | .a3 => 3
    | .a4 => 4
  | .pwrFcActive => s.pwr.fcActive
  | .pwrProchotActive => b s.pwr.prochot
  | .pwrThermalThrottle => b s.pwr.throttle
  | .pwrTokensReserved => (s.spans.map fun e => (e.2.grants.foldl max 0)).foldl (· + ·) 0
  | .rstLastReset => s.pwr.lastReset
  | .rasDegraded => b s.isDegraded
  | .rasFaultRecord => leNat (s.rd (llmBase + 64 * (i / 16) + 4 * (i % 16)) 4)
  | _ => 0

/-! ### Words (R9, R10) -/

/-- The value of instance `i` of a field. -/
def State.value (s : State) (f : Fld) (p i : Nat) : Nat :=
  if f.acc = .wo then 0
  else if f.home = .stored then s.reg f p i
  else (if f.pier then pierVal f.home s p i else devVal f.home s i) % 2 ^ f.w

/-- The pier of a management address, and the offset in its block; none outside the pier blocks. -/
def pierOfAddr (a : Nat) : Option (Nat × Nat) :=
  if 0x01000000 ≤ a ∧ a < 0x01000000 + 192 * 0x10000 then some ((a - 0x01000000) / 0x10000, (a - 0x01000000) % 0x10000) else none

/-- The instance of a field at an address, if the field lies there. -/
def Fld.at (f : Fld) (a : Nat) : Option Nat :=
  let b := f.base + f.off
  if a < b then none
  else if f.stride = 0 then (if a = b then some 0 else none)
  else if (a - b) % f.stride = 0 ∧ (a - b) / f.stride < f.count then some ((a - b) / f.stride) else none

/-- The fields of a management address, with pier and instance. -/
def fieldsAt (a : Nat) : List (Fld × Nat × Nat) :=
  match pierOfAddr a with
  | some (p, o) => pierFields.filterMap fun f => (f.at o).map fun i => (f, p, i)
  | none => devFields.filterMap fun f => (f.at a).map fun i => (f, 0, i)

/-- The word at a management address: its fields; reserved bits and addresses read zero (R10). An absent or retired pier shows
only its status fields (R22, R162). -/
def State.regWord (s : State) (a : Nat) : Nat :=
  (fieldsAt a).foldl (fun v e =>
    let live := !e.1.pier || s.pierState e.2.1 == 1 || decide (e.1.off < 8)
    v + 2 ^ e.1.lo * (if live then s.value e.1 e.2.1 e.2.2 else e.1.reset)) 0

end Sys2Proof.Machine
end

