-- ==== Sys2Proof/Machine/Gate.lean ====
section
/-! DEFINITION. What stands between a port and a command: the power state (17_power_reset R445, R446), and the admission of
management verbs (14_host_ports R379, R380; 16_security R422). -/
namespace Sys2Proof.Machine

/-! ### Resume (R441, R444, R445) -/

/-- Resume begins at once; the entry of A1 or A2 is abandoned, that of A3 or A4 completes first (R445). -/
def startResume (s : State) : State :=
  let go := fun (p : PState) => { s with pwr := { s.pwr with move := .resuming (s.now + resumeNs p s.pwr.gddrOff) } }
  match s.pwr.move with
  | .resuming _ => s
  | .entering .a1 _ => go .a1
  | .entering .a2 _ => go .a2
  | .entering _ _ => { s with pwr := { s.pwr with wakePending := true } }
  | .scheduled _ => go s.pwr.state
  | .steady => if s.pwr.state = .a0 then s else go s.pwr.state

/-- Whether every unit is ready: A0 with no move under way. -/
def State.awake (s : State) : Bool := s.pwr.state == .a0 && match s.pwr.move with
  | .resuming _ => false
  | _ => true

/-- Whether the ports are off: in A4, and while it is entered (Table 17-2, R445). -/
def State.portsOff (s : State) : Bool := s.pwr.state == .a4 || match s.pwr.move with
  | .entering .a4 _ => true
  | _ => false

/-- Whether ports hold frames in their wake buffers: in A3, and while it is entered (R446). -/
def State.holdsFrames (s : State) : Bool := s.pwr.state == .a3 || match s.pwr.move with
  | .entering .a3 _ => true
  | _ => false

/-! ### Frames (R357, R445, R446) -/

/-- Bytes that port `k`'s wake buffer holds. -/
def State.wakeBytes (s : State) (k : Nat) : Nat := ((s.wakeBuf.filter fun e => e.1 = k).map (·.2.1)).foldl (· + ·) 0

/-- A frame of `n` bytes that A3 holds: buffered in arrival order, or dropped when the 256 KiB are full; PFC pauses the
sender while the buffer is more than half full; resume begins (R446). -/
def holdFrame (k n : Nat) (c : Instr) (s : State) : State :=
  let s1 :=
    if s.wakeBytes k + n ≤ 262144 then { s with wakeBuf := s.wakeBuf ++ [(k, n, c)] } else s.bump prtDrops 0 k 1
  let s2 :=
    if s1.reg prtPfcEnable 0 k = 1 ∧ 131072 < s1.wakeBytes k ∧ !s1.pausing.contains k then
      { s1 with pausing := k :: s1.pausing }.send (.pfc k)
    else s1
  startResume s2

/-- A frame on port `k` that the device accepts, of `n` bytes: no port answers before boot is complete or in A4; A3 holds it. -/
def onPort (k n : Nat) (c : Instr) (s : State) (run : State → State) : Host.Outcome State Fault Refusal :=
  if 8 ≤ k then .fault (.noSuchUnit k)
  else if s.ks.boot ≠ 1 ∨ s.portsOff ∨ s.reg prtPortEnable 0 k = 0 then .next s
  else
    .next (if s.holdsFrames then holdFrame k n c s else run (s.bump prtRxPackets 0 k 1))

/-- A message of a peer connection or of the buddy, on network `net`. -/
def onPeer (net n : Nat) (c : Instr) (s : State) (run : State → State) : Host.Outcome State Fault Refusal :=
  if 2 ≤ net then .fault (.noSuchUnit net)
  else if s.ks.boot ≠ 1 ∨ s.portsOff then .next s
  else .next (if s.holdsFrames then holdFrame (4 * net) n c s else run s)

/-- The port of slot `p`'s active set, or of the set named. -/
def Slot.port (sl : Slot) (standby : Bool) : Nat := if standby then sl.standby else sl.home

/-! ### Verbs (R379, R380, R422) -/

/-- A verb response sent on the slot's active set (R379, R422): the slot's counter and TX_PACKETS count it. -/
def sendVerb (p tag status : Nat) (detail : List Byte) (s : State) : State :=
  let k := ((tfind s.slots p).map fun sl => sl.port sl.onStandby).getD 0
  ((s.bump prtTxPackets 0 k 1).modSlot p fun sl => { sl with ctrOut := sl.ctrOut + 1 }).send (.verb p tag status detail)

/-- A verb response, after which the slot's verb has ended. A slot that has been freed gets none. -/
def respond (p tag status : Nat) (detail : List Byte) (s : State) : State :=
  if ((tfind s.slots p).bind (·.verb)).any fun v => v.2 == tag then
    sendVerb p tag status detail (s.modSlot p fun sl => { sl with verb := none })
  else s

/-- A verb that ends with a code and one fault record of class 0x07 (Table 16-10). -/
def respondFault (p tag code : Nat) (s : State) : State :=
  respond p tag code [] (raise { code := code, action := 0, unit := 6 } s)

/-- Whether a device-wide verb of a slot other than `p` runs. -/
def State.wideOther (s : State) (p : Nat) : Bool := s.slots.any fun e => e.1 != p && match e.2.verb with
  | some (v, _) => v == 1 || v == 2 || v == 3 || v == 5 || v == 0x109
  | none => false

/-- Whether a device-wide verb runs (R380); 0x109 stands for a WRITE_REG that writes CACHE_STEPS. -/
def State.wideVerb (s : State) : Bool := s.slots.any fun e => match e.2.verb with
  | some (v, _) => v == 1 || v == 2 || v == 3 || v == 5 || v == 0x109
  | none => false

/-- A verb request: dropped when its slot is not attached or its tag or counter fails; answered BUSY while the slot's verb
runs, or a device-wide one against a device-wide one; before it runs, A1 and A2 end (R422, R360, R380, R445). -/
def onVerb (r : VerbReq) (verb n : Nat) (wide : Bool) (c : Instr) (s : State) (run : State → State) :
    Host.Outcome State Fault Refusal :=
  if 8 ≤ r.slot then .fault (.noSuchUnit r.slot)
  else match tfind s.slots r.slot with
    | none => .next s
    | some sl =>
      let good := r.ok && decide (sl.ctrIn < r.ctr) && !sl.closing
      if good && !s.awake && !s.holdsFrames && s.ks.boot == 1 && !s.portsOff then
        .next (startResume { s with wakeBuf := s.wakeBuf ++ [(sl.port r.standby, n + 64, c)] })
      else onPort (sl.port r.standby) (n + 64) c s fun s =>
        if !good then s
        else
          let s1 := s.modSlot r.slot fun sl => { sl with ctrIn := r.ctr, lastMgmt := s.now, onStandby := r.standby }
          if sl.verb.isSome ∨ (wide ∧ s.wideVerb) then
            sendVerb r.slot r.tag 0x0402 [] s1
          else run (s1.modSlot r.slot fun sl => { sl with verb := some (verb, r.tag) })

/-- A waiting verb removed from the list of those that wait. -/
def State.dropWait (s : State) (p : Nat) : State := { s with waits := s.waits.filter fun w => w.slot != p }

/-- An UNKNOWN_VERB is answered with DESC_INVALID (Table 14-7). -/
def execUnknownVerb (r : VerbReq) (verb : Nat) (s : State) : Host.Outcome State Fault Refusal :=
  onVerb r verb 0 false (.unknownVerb r verb) s fun s => respond r.slot r.tag 0x0406 [] s

end Sys2Proof.Machine
end

