-- ==== Sys2Proof/Machine/Submission.lean ====
section
/-! DEFINITION. Submission windows: scans, descriptor checks, the group's journal and mirror, acceptance, credits
(14_host_ports R368 to R375; 04_key_material R106, R118, R119). -/
namespace Sys2Proof.Machine

/-! ### Material (R115 to R119) -/

/-- ITEM_BYTES of a class (R116, R117). -/
def MatEnt.itemBytes (e : MatEnt) : Nat :=
  let w := e.pieces * (e.degree + 1)
  if e.kind = 1 then 64 * ceilDiv (32 + e.bits * (24 + 8 * w) + 8 * w) 64 else if e.kind = 2 then 3072 else 1728

/-- The class that a bundle header names (R115). -/
def bundleClass (h : List Byte) : MatEnt :=
  { kind := getLe h 7 1, bits := getLe h 0x20 1, pieces := getLe h 0x21 1, degree := getLe h 0x22 1
    prime := getLe h 0x23 1, func := getLe h 0x24 2, perReq := 0 }

/-- The bundle that a MATERIAL descriptor names, or the code that refuses it (R118): codes that the manual does not give
are free values by the condition that fails. -/
def checkBundle (s : State) (p : Nat) (d : List Byte) : Except Nat (MatEnt × List Byte) :=
  let w := getLe d 0x20 2
  match readRange s p { window := w, offset := getLe d 0x24 4, length := getLe d 0x28 4, remote := [] } with
  | none => .error (Config.refusal 0)
  | some b =>
    let h := b.take 64
    let e := bundleClass h
    let n := getLe h 0x18 4
    let items := b.drop 64
    let se := getLe h 8 8
    if b.length < 64 ∨ getLe h 0 4 ≠ 0x48544D31 ∨ getLe h 0x3C 4 ≠ crc32 (h.take 0x3C) ∨ getLe h 5 1 = 0 then .error 0x0205
    else if !readable s.oper (getLe h 5 1) then .error 0x0801
    else if !e.valid ∨ n = 0 ∨ 2 ^ 20 < n then .error (Config.refusal 1)
    else match tfind s.sessions se with
      | none => .error (Config.refusal 2)
      | some x =>
        if e.kind = 3 ∧ (s.ringOf x.keyTag).count ≤ e.prime then .error (Config.refusal 1) else
        let cls := x.classes.find? fun c => c.ent.same e
        if x.slot ≠ p then .error (Config.refusal 2)
        else if getLe h 6 1 ≠ (if x.policy.roleH then 2 else 0) then .error (Config.refusal 3)
        else if getLe h 0x1C 4 ≠ e.itemBytes ∨ getLe h 0x28 8 ≠ n * e.itemBytes ∨ items.length < n * e.itemBytes then
          .error (Config.refusal 4)
        else if getLe h 0x10 8 ≠ ((cls.map (·.nextSerial)).getD 0) then .error (Config.refusal 5)
        else if cls.isNone ∧ 16 ≤ x.classes.length then .error (Config.refusal 6)
        else if getLe h 0x30 4 ≠ crc32 (items.take (n * e.itemBytes)) then .error (Config.refusal 7)
        else if !s.gddrOk ∨ (s.objPlace (n * e.itemBytes)).isNone then .error 0x0402
        else .ok (e, items.take (n * e.itemBytes))

/-- A bundle's items join their class (R118), whose place among the session's classes stays (R122). -/
def addBundle (se : Nat) (e : MatEnt) (items : List Byte) (s : State) : State :=
  match allocObj items s with
  | none => s
  | some (id, s1) =>
    let n := items.length / max e.itemBytes 1
    s1.modSession se fun x =>
      let c := (x.classes.find? fun c => c.ent.same e).getD { ent := e, bundles := [], nextSerial := 0, nextFree := 0, spent := [] }
      let b : MatBundle := { first := c.nextSerial, count := n, itemBytes := e.itemBytes, obj := id }
      let c1 := { c with bundles := c.bundles ++ [b], nextSerial := c.nextSerial + n }
      { x with classes := if x.classes.any fun c => c.ent.same e then x.classes.map fun c => if c.ent.same e then c1 else c
                          else x.classes ++ [c1] }

/-- The ranges that a request reserves of the session's classes, none when some class has too few (R119). -/
def reserve (x : Session) (mats : List MatEnt) : Option (List (Nat × Nat × Nat)) :=
  (mats.zipIdx).foldl (fun r e => r.bind fun l =>
    let n := e.1.perReq
    match x.classes.find? (fun c => c.ent.same e.1) with
    | some c => if c.nextFree + n ≤ c.nextSerial then some (l ++ [(e.2, c.nextFree, n)]) else none
    | none => if n = 0 then some (l ++ [(e.2, 0, 0)]) else none) (some [])

/-- The classes of a session after a reservation. -/
def takeRanges (mats : List MatEnt) (rs : List (Nat × Nat × Nat)) (x : Session) : Session :=
  let taken := fun (c : MatClass) => ((rs.filter fun g => (mats[g.1]?).any fun e => c.ent.same e).map (·.2.2)).foldl (· + ·) 0
  { x with classes := x.classes.map fun c => { c with nextFree := c.nextFree + taken c } }

/-! ### Descriptor checks (R370, R372, Table 14-4) -/

/-- The lowest free arrival entry of an image; entry 0 when the plan has no receive slot (R326, R328). -/
def arrivalFor (im : Image) : Option Nat :=
  if im.arrivalEntries = 0 then some 0 else (List.range im.arrivalEntries).find? fun i => !im.arrivalUsed.contains i

/-- The policy that a request accepted at `now` captures: a disclosure block past its NOT_AFTER permits nothing (R92, R93). -/
def Policy.captured (p : Policy) (now : Nat) : Policy :=
  if p.notAfter ≠ 0 ∧ p.notAfter < now then { p with discKind := 0 } else p

/-- Whether the key set under `tag` is installed and no erasure of it has begun (R105). -/
def State.setLive (s : State) (tag : Nat) : Bool := (s.keysets.find? fun k => k.tag = tag).any fun k => k.erasing.isNone

/-- Whether the key set of session `se` has begun to be erased: acceptance under it has stopped (R105). -/
def State.seErased (s : State) (se : Nat) : Bool := (tfind s.sessions se).any fun x => !s.setLive x.keyTag

/-- What the checks of steps 1 to 6 answer for the descriptor `d` with index `n`: a record for the group, or a wait. -/
def checkDesc (s : State) (p n : Nat) (d : List Byte) : Except Nat GroupEnt :=
  let kind := getLe d 8 1
  let se := getLe d 0x10 8
  let seq := getLe d 0x18 8
  let refuse := fun (code : Nat) => (Except.ok { slot := p, ring := n, desc := d, code := code, dup := false, req := none, mat := none })
  let pass := fun (r : Option Request) (m : Option (Nat × MatEnt × MatBundle)) =>
    (Except.ok { slot := p, ring := n, desc := d, code := 0, dup := false, req := r, mat := m })
  if getLe d 0x3C 4 ≠ crc32 (d.take 0x3C) ∨ kind = 0 ∨ 3 < kind ∨ (kind = 1 ∧ 15 < getLe d 9 1) ∨ getLe d 0xB 1 = 0 then
    refuse 0x0406
  else if !readable s.oper (getLe d 0xB 1) then refuse 0x0801
  else match tfind s.sessions se with
    | none => refuse 0x0408
    | some x =>
      if x.slot ≠ p ∨ x.closing.isSome ∨ !s.setLive x.keyTag then refuse 0x0408
      else if kind = 3 then pass none none
      else if kind = 2 then
        match checkBundle s p d with
        | .error c => refuse c
        | .ok (e, items) =>
          pass none (some (se, e, { first := 0, count := items.length / max e.itemBytes 1, itemBytes := e.itemBytes, obj := 0 }))
      else
        let h := getLe d 0xC 2
        let k := getLe d 9 1
        match tfind s.images h with
        | none => refuse 0x0406
        | some im =>
          let bound := (s.keysets.find? fun q => q.tag = x.keyTag).any fun q => q.images.contains h
          if !bound ∨ im.spans.length ≤ k ∨ im.replacing then refuse 0x0406
          else if x.policy.h.isNone ∧ ¬ x.policy.roleH ∧ (im.hxp.any fun t => t.peer == 2) then refuse 0x0503
          else if s.degraded ∨ s.pwr.trip then refuse 0x040B
          else if seq < x.nextSeq ∧ x.nextSeq ≤ seq + 4096 then
            .ok { slot := p, ring := n, desc := d, code := 0, dup := true, req := none, mat := none }
          else if seq ≠ x.nextSeq then refuse 0x0407
          else match reserve x im.mats, arrivalFor im with
            | some rs, some a =>
              pass (some { session := se, seq := seq, slot := p, ring := n, handle := h, span := im.spans.getD k 0
                           args := (List.range 7).map fun i => getLe d (0x20 + 4 * i) 4
                           policy := x.policy.captured s.now, ranges := rs, arrival := a }) none
            | _, _ => .error 1

/-- The effects of a record of an acknowledged group (R373); a record whose key set began to be erased while the group waited is
refused like a descriptor of such a session (R105). -/
def acceptEnt (g : GroupEnt) (s : State) : State :=
  let s1 := s.modSlot g.slot fun sl => { sl with consumed := sl.consumed + 1 }
  let se := getLe g.desc 0x10 8
  let seq := getLe g.desc 0x18 8
  let done := fun (status kind : Nat) (s : State) => complete g.slot
    { ring := g.ring, session := se, seq := seq, status := status, kind := kind, flags := 0
      device := s.dreg tbDeviceId, time := s.now } s
  if g.code ≠ 0 then done g.code 1 (s1.bump prtRefused 0 g.slot 1)
  else if !g.dup && s1.seErased se then done 0x0408 1 (s1.bump prtRefused 0 g.slot 1)
  else if g.dup then
    match s1.request se seq with
    | some r =>
      if r.live then s1.modRequest se seq fun r => { r with repeats := r.repeats ++ [g.ring] }
      else complete g.slot (r.completion g.ring 2 s1.now) s1
    | none => done 0 2 s1
  else match g.req with
    | some r =>
      let s2 := s1.modSession se fun x => { x with nextSeq := x.nextSeq + 1 }
      let s3 := match tfind s2.images r.handle with
        | some im => (s2.modSession se (takeRanges im.mats r.ranges)).modImage r.handle fun im =>
            if im.arrivalEntries = 0 then im else { im with arrivalUsed := r.arrival :: im.arrivalUsed }
        | none => s2
      let keep := s3.requests.filter fun x => x.live || !(x.session == se && decide (x.seq + 4096 ≤ seq))
      admitRequest r ({ s3 with requests := keep ++ [r] }.bump2 prtAcceptedLo prtAcceptedHi 0 0 1)
    | none =>
      match g.mat with
      | some (x, e, _) =>
        (match checkBundle s1 g.slot g.desc with
          | .ok (_, items) => done 0 0 (addBundle x e items s1)
          | .error c => done c 1 s1)
      | none => done 0 0 s1

/-- Whether the journal has room for one record more (R372 step 7). -/
def State.journalRoom (s : State) (extra : Nat) : Bool :=
  let bytes := (s.journal.map fun j => match j with
    | .opening _ _ _ p => p.length
    | _ => 0).foldl (· + ·) 0
  decide (Config.journalKib (s.journal.length + extra + 1) bytes ≤ 16384)

/-- Descriptors of slot `p` from its head on, `fuel` of them; `t` is the state as though those before were accepted. -/
def scanSlot (p : Nat) : Nat → Nat → State → List GroupEnt → List GroupEnt × Nat × Bool
  | 0, _, _, acc => (acc, 0, false)
  | fuel + 1, n, t, acc =>
    let d := t.rd (llmBase + 0x100000 + p * 0x100000 + 64 * (n % 16384)) 64
    let idx := getLe d 0 8
    if !((tfind t.slots p).any fun sl => sl.written.contains (n % 16384)) then (acc, 0, false)
    else if idx ≠ n then (acc, 0, decide (n < idx) && decide (idx % 16384 = n % 16384))
    else match checkDesc t p n d with
      | .error w => (acc, w, false)
      | .ok g =>
        if !t.journalRoom acc.length then (acc, 2, false)
        else scanSlot p fuel (n + 1) (acceptEnt g t) (acc ++ [g])

/-- The record that a refused, duplicate or passing descriptor writes in the journal: of a request, with the captured policy and the
reservations (R92, R119, R328, R373). -/
def GroupEnt.record (g : GroupEnt) : JRec :=
  .group g.slot g.ring g.code g.desc (g.req.map (·.policy)) ((g.req.map (·.ranges)).getD []) ((g.req.map (·.arrival)).getD 0)

/-- Slot `p` scanned: its group, OVERRUN, HEAD_WAIT (R370, R372). -/
def scanOne (p : Nat) (s : State) : State :=
  match tfind s.slots p with
  | none => s
  | some sl =>
    if sl.closing then s else
    let r := scanSlot p 256 sl.consumed s []
    let s1 := if r.2.2 ∧ ¬ sl.overrun then raise { code := 0x040C, action := 0, unit := 8 } s else s
    let s2 := s1.modSlot p fun sl => { sl with overrun := sl.overrun || r.2.2, headWait := r.2.1 }
    let s3 := if r.2.1 = 1 then s2.bump keyMaterialWaits 0 0 1 else s2
    { s3 with group := s3.group ++ r.1, journal := s3.journal ++ r.1.map GroupEnt.record }

/-! ### Credits (R375, Table 14-5) -/

/-- The 32 bytes of slot `p`'s credit message, without its time. -/
def creditBody (s : State) (p : Nat) (sl : Slot) : List Byte :=
  let flags := (if sl.overrun then 1 else 0) + (if sl.onStandby then 2 else 0) + (if s.degraded then 4 else 0)
  verBytes s ++ leBytes 1 p ++ leBytes 1 sl.headWait ++ leBytes 2 (s.dreg tbDeviceId % 4096) ++ leBytes 2 flags ++
    leBytes 8 sl.consumed ++ leBytes 8 sl.completed

/-- A credit message and the status block, when CONSUMED, COMPLETED, HEAD_WAIT or a flag has changed. -/
def credit (p : Nat) (s : State) : State :=
  match tfind s.slots p with
  | none => s
  | some sl =>
    let b := creditBody s p sl
    if sl.credit = b then s
    else
      let msg := b ++ leBytes 8 s.now
      ((s.modSlot p fun sl => { sl with credit := b }).send (.credit p msg)).wr (llmBase + 0x10000 + p * 0x1000) msg

/-! ### Acceptance (R373, R374) -/

/-- The first `n` records of the group take effect; the slots of the rest wait for the buddy, their records dropped. Records
that nothing needs any more leave the journal (log entry 26). -/
def settleGroup (n : Nat) (s : State) : State :=
  let ok := s.group.take n
  let cut := s.group.drop n
  let past := ok.filter fun g => decide (g.code ≠ 0) || g.dup || g.req.isNone || s.seErased (getLe g.desc 0x10 8)
  let drop := (cut ++ past).map GroupEnt.record
  let s1 := { s with group := [], journal := s.journal.filter fun j => !drop.contains j }
  let s2 := cut.foldl (fun s g => s.modSlot g.slot fun sl => { sl with headWait := 3 }) s1
  ok.foldl (fun s g => acceptEnt g s) s2

/-- WINDOW_SCAN (R370): due completions are tried again, the slots are scanned in order, credits are written. While a group
waits for its acknowledgement no descriptor is read. -/
def execWindowScan (s : State) : Host.Outcome State Fault Refusal :=
  if s.dreg tbSyncState = 0 ∨ s.ks.boot ≠ 1 ∨ s.cutOff ∨ s.pwr.state = .a3 ∨ s.pwr.state = .a4 then .next s
  else
    let slots := List.range 8
    let s1 := slots.foldl (fun s p => writeCompletions p s) s
    let s2 := if s1.group.isEmpty ∧ s1.pwr.standbyReq = 0 then slots.foldl (fun s p => scanOne p s) s1 else s1
    let s3 := if s2.hasBuddy then
        if s2.dreg prtBuddyState = 2 then settleGroup 0 s2
        else if s1.group.isEmpty ∧ ¬ s2.group.isEmpty then s2.send (.mirror (s2.dreg prtBuddyId) (s2.group.map GroupEnt.record)) else s2
      else settleGroup s2.group.length s2
    .next (slots.foldl (fun s p => credit p s) s3)

/-- MIRROR_ACK (R373): the buddy has acknowledged the first `n` records of the group. -/
def execMirrorAck (n : Nat) (s : State) : Host.Outcome State Fault Refusal :=
  onPeer 0 64 (.mirrorAck n) s fun s => if s.group.isEmpty then s else settleGroup n s

/-- COMMIT_ACK (R376): the buddy has acknowledged the COMMIT record. -/
def execCommitAck (se q : Nat) (s : State) : Host.Outcome State Fault Refusal :=
  onPeer 0 64 (.commitAck se q) s (commitAcked se q)

/-! ### As another device's buddy (R106, R373) -/

/-- Whether this device may acknowledge a mirrored record (R106). -/
def mayMirror (s : State) (r : MirrorRec) : Bool :=
  !r.work || r.opening.isSome || ((s.keysets.any fun k => k.tag == r.keysetTag && k.erasing.isNone) &&
    match tfind s.sessions r.session with
    | some x => x.keyTag == r.keysetTag && r.ranges.all fun g =>
        match x.classes[g.1]? with
        | some c => decide (g.2.1 + g.2.2 ≤ c.nextSerial)
        | none => decide (g.2.2 = 0)
    | none => false)

/-- MIRROR_RECORDS: records up to the first that R106 refuses are held and acknowledged. -/
def execMirrorRecords (recs : List MirrorRec) (s : State) : Host.Outcome State Fault Refusal :=
  onPeer 0 (64 + 256 * recs.length) (.mirrorRecords recs) s fun s =>
  let ok := recs.takeWhile fun r => mayMirror s r
  let s1 := { s with mirrored := s.mirrored ++ ok }
  let dev := ((recs.head?).map (·.device)).getD 0
  let s2 := if ok.isEmpty then s1 else s1.send (.mirrorAck dev ok.length)
  match recs.drop ok.length with
  | r :: _ => s2.send (.mirrorRefuse r.device r.session r.seq)
  | [] => s2

end Sys2Proof.Machine
end

