-- ==== Sys2Proof/Machine/Exchange.lean ====
section
/-! DEFINITION. The exchange engine: send slots, receive slots, HXP messages, retransmission and timeouts
(12_exchange_engine R302 to R332). -/
namespace Sys2Proof.Machine

/-! ### Endpoints and streams (R303, R319, R320, R322) -/

/-- The binding of party `q` in a session: C, H, or S when the device is the helper (R304). -/
def Policy.peer (p : Policy) (q : Nat) : Option PeerBind := if q = 1 then p.c else p.h

/-- The party that the device is in a session. -/
def Policy.self (p : Policy) : Nat := if p.roleH then 2 else 0

/-- The stream to and from a peer of a session. -/
def State.stream (s : State) (se q : Nat) : Stream :=
  (s.streams.find? fun x => x.session = se ∧ x.peer = q).getD
    { session := se, peer := q, epoch := ((tfind s.sessions se).map (·.epoch)).getD 0, nextSeq := 0, rxEpoch := 0, seen := [], highest := 0 }

/-- A stream replaced. -/
def State.putStream (s : State) (x : Stream) : State :=
  { s with streams := s.streams.filter (fun y => !(y.session == x.session && y.peer == x.peer)) ++ [x] }

/-- Every SEQ below it has been received, and those received of the 64 from there on (Table 12-6). -/
def Stream.ackBase (x : Stream) : Nat :=
  (List.range (x.highest + 2)).foldl (fun b n => if b = n ∧ x.seen.contains n then n + 1 else b) (x.highest - 1024)
def Stream.ackBits (x : Stream) (b : Nat) : Nat :=
  (List.range 64).foldl (fun v i => if x.seen.contains (b + i) then v + 2 ^ i else v) 0

/-- One transmission of a fragment, with a new SEQ (R320). -/
def transmit (f : TxFrag) (s : State) : TxFrag × State :=
  let st := s.stream f.session f.peer
  let s1 := s.putStream { st with nextSeq := st.nextSeq + 1 }
  let s2 := (s1.bump2 xchMsgsSentLo xchMsgsSentHi 0 0 1).send
    (.hxp f.session f.request f.step f.type f.peer st.nextSeq f.frag f.count st.epoch f.serial f.payload)
  ({ f with seq := st.nextSeq, due := s.now + 1000 * f.rtoUs }, s2)

/-- A payload cut into fragments (R319). -/
def fragments (n : Nat) (bs : List Byte) : Nat → List (List Byte)
  | 0 => []
  | k + 1 => bs.take n :: fragments n (bs.drop n) k

/-- A message queued: its fragments transmitted and kept until acknowledged (R321). -/
def sendMessage (se rq step type peer serial timeoutMs : Nat) (bs : List Byte) (s : State) : State :=
  let mx := s.dreg xchMaxPayload
  let n := max (ceilDiv bs.length mx) 1
  ((fragments mx bs n).zipIdx).foldl (fun s e =>
    let id := s.fresh
    let f : TxFrag :=
      { id := id.1, session := se, request := rq, step := step, type := type, peer := peer, frag := e.2, count := n
        payload := e.1, seq := 0, rtoUs := s.dreg xchRtoInitUs, due := 0, first := s.now
        deadline := s.now + 1000000 * timeoutMs, serial := serial }
    let r := transmit f id.2
    { r.2 with tx := r.2.tx ++ [r.1] }) s

/-! ### Objects of members (R45, R126, R327, R328) -/

/-- The LLM shards of a tensor of an image, and the first of them. -/
def Image.shardsOf (im : Image) (t : Nat) : List Shard := im.shards.filter fun x => x.tensor = t
def Image.shardOf (im : Image) (t : Nat) : Option Shard := im.shards.find? fun x => x.tensor = t

/-- The header slot of member `m` in a tensor. -/
def memberHdr (s : State) (sh : Shard) (m : Nat) : Hdr := hdrOf (s.rd (sh.header + 64 * m) 64)

/-- The device address of a receive slot's payload in the arrival entry of a request: the entry holds the payloads of the plan's
receive slots in plan order, each in a multiple of 64 bytes (R328; log entry 17). -/
def Image.arrivalAt (im : Image) (r : Request) (h : HxpSlot) : Nat :=
  let before := (im.hxp.takeWhile fun t => t.slot != h.slot || !t.recv).filter (·.recv)
  Machine.llmBase + im.llmBase + im.arrivalBase + r.arrival * im.arrivalBytes + (before.map fun t => ceilDiv t.bytes 64 * 64).foldl (· + ·) 0

/-- TIMEOUT_MS of a slot (R321). -/
def State.slotTimeout (s : State) (h : HxpSlot) : Nat := if h.timeoutMs = 0 then s.dreg xchRecvTimeoutMs else h.timeoutMs

/-- Items of its material entry that a slot's opening uses: an FSS key for each element, a triple item for each 128 (R116, R117;
DESIGN CHOICE, log entry 67). -/
def Image.itemsOf (im : Image) (h : HxpSlot) : Nat :=
  match im.mats[h.material]? with
  | some e => if e.kind = 1 then h.dataBytes / 8 else ceilDiv (h.dataBytes / 8) 128
  | none => 0

/-- Items that the steps before a slot's, in its direction, use of its material entry: a class is consumed in serial order, and no
item serves two steps (R120, R121). -/
def Image.itemsBefore (im : Image) (h : HxpSlot) : Nat :=
  ((im.hxp.filter fun t => t.recv == h.recv && t.material == h.material && decide (t.step < h.step)).map im.itemsOf).foldl (· + ·) 0

/-- The serial that messages of a slot carry for a request, that of the step's first item; all ones if none (R121). -/
def serialOf (im : Image) (r : Request) (h : HxpSlot) : Nat :=
  if h.material = 0xFF then 2 ^ 64 - 1
  else ((r.ranges.find? fun g => g.1 = h.material).map (·.2.1)).getD 0 + im.itemsBefore h

/-- The items that a slot's step uses are spent (R120, R121). -/
def spendStep (im : Image) (r : Request) (h : HxpSlot) (s : State) : State :=
  match im.mats[h.material]?, r.ranges.find? (fun g => g.1 = h.material) with
  | some e, some g =>
    let mine := (List.range (im.itemsOf h)).map (serialOf im r h + ·)
    spendItems r.session e (mine.filter fun n => decide (n < g.2.1 + g.2.2)) s
  | _, _ => s

/-- The send slot that a receive slot answers: to the same peer, the last step not above its own, of the matching type. -/
def Image.answered (im : Image) (h : HxpSlot) : Option HxpSlot :=
  let ok := fun (t : HxpSlot) => !t.recv && t.peer == h.peer && decide (t.step ≤ h.step) &&
    ((h.type == 2 && t.type == 1) || (h.type == 4 && t.type == 4) || (h.type == 4 && t.type == 3))
  (im.hxp.filter ok).foldl (fun b t => match b with
    | some (x : HxpSlot) => if x.step < t.step then some t else b
    | none => some t) none

/-- The receive slot that answers a send slot. -/
def Image.answering (im : Image) (t : HxpSlot) : Option HxpSlot :=
  im.hxp.find? fun h => h.recv && ((im.answered h).map (·.slot)) == some t.slot

/-- The running batch that serves a request: span and member index. -/
def State.memberOf (s : State) (se rq : Nat) : Option (Nat × Nat) :=
  s.spans.findSome? fun e => e.2.batch.bind fun b =>
    (b.members.findIdx? fun m => m.session = se ∧ m.seq = rq).map fun i => (e.1, i)

/-- The poisoned object of a slot's kind for its shard `sh`, with zero data: its header names the session's set and ring and the
shard's level and sharding (R57, R134, R135, R324; log entry 67). -/
def poisonObj (s : State) (sh : Shard) (se : Nat) (h : HxpSlot) (code : Nat) : Hdr :=
  let z : Hdr := 0
  sh.stamp (if hdrLen h.type = 64 then
    (((((((z.put 0 4 ctMagic).put 5 1 s.oper).put 8 8 (s.tagOf se)).put 0x10 1 (sh.level % 128)).put 0x11 1
      (s.ringOf (s.tagOf se)).logN).put 0x14 4 1).put 0x2A 1 3).poison code
  else
    ((((((z.put 0 4 shMagic).put 5 1 s.oper).put 6 1 h.peer).put 7 1 1).put 8 8 se).put 0x18 4 (h.dataBytes / 8)).poison code)

/-! ### Receive operations (R306, R325, R328, R329) -/

/-- A member's object written to its place in a tensor: header slot, with the shard's fields, and data, padding zero (R125, R134). -/
def putMember (sh : Shard) (m : Nat) (h : Hdr) (stride : Nat) (data : List Byte) (s : State) : State :=
  (s.wr (sh.header + 64 * m) (hdrBytes (sh.stamp h))).wr (sh.data + m * stride) (sh.cleanBytes (m * stride) data)

/-- The fragments of one identity set, in order, when all have come. -/
def payloadOf (s : State) (se rq step src : Nat) : Option (List Byte) :=
  let fs := s.rx.filter fun f => f.session = se ∧ f.request = rq ∧ f.step = step ∧ f.src = src
  match fs with
  | [] => none
  | f :: _ =>
    let parts := (List.range f.count).map fun i => (fs.find? fun g => g.frag = i).map (·.payload)
    if parts.any Option.isNone then none else some (parts.flatMap fun x => x.getD [])

/-- Ring64 elements of data bytes. -/
def ring64s (bs : List Byte) : List Nat := (List.range (bs.length / 8)).map fun i => getLe bs (8 * i) 8

/-- `n` values in runs of `k`. -/
def unitsOf (k : Nat) : Nat → List Nat → List (List Nat)
  | 0, _ => []
  | n + 1, vs => vs.take k :: unitsOf k n (vs.drop k)

/-- The disclosed values of a route or exit opening, when they pass R325: count, and the exit bit of the point. The values of a route
point are K ascending indices below E for each routing unit (R94), one unit after another. -/
def disclosed (im : Image) (h : HxpSlot) (vs : List Nat) : Option (Nat × Option (Nat × Bool)) :=
  match im.points.find? (fun c => c.point = h.point) with
  | none => none
  | some c =>
    if c.exit then some (0, some (c.point, vs.headD 0 % 2 == 1))
    else
      let us := unitsOf c.k (vs.length / max c.k 1) vs
      let up := us.all fun u => ((u.zip (u.drop 1)).all fun e => decide (e.1 < e.2)) && u.all (· < c.e)
      if vs ≠ [] ∧ vs.length % max c.k 1 = 0 ∧ up then some (vs.length, none) else none

/-- What a receive slot stores for a member: header, data, data bytes of one member in the tensor, the code that poisoned it, and
whether the poison came with a share (R58). -/
structure RecvRes where
  hd : Hdr
  data : List Byte
  bytes : Nat
  code : Nat := 0
  consumed : Bool := false
  /-- a check of Table 2-7 refuses the operation -/
  refused : Bool := false
  deriving DecidableEq, Repr

/-- The checks of Table 2-7 on the share that arrived and the device's own: of a reconstruction by R65, of COMBINE_EXIT, whose two
moduli differ, by R63 and R58 alone (R306, R329). -/
def recvCheck (s : State) (r : Ring) (h : HxpSlot) (a b : Hdr) : ChkRes :=
  let x : ChkArg := { cls := 10, levelArg := 0, g := 0, spt := 0, hoist := false, oper := s.oper, noiseLimit := 0, noiseAction := 0 }
  if h.op = 1 then
    let one := fun (c : Hdr) => shCheck { x with cls := 12 } r c none
    let first := one a
    if first.code ≠ 0 ∨ first.consumed then first else one b
  else shCheck x r a (some b)

/-- The result of a receive slot's operation on the payload `bs` of member `m` (R306, R317, R329). -/
def recvResult (s : State) (im : Image) (r : Ring) (h : HxpSlot) (m : Nat) (bs : List Byte) : RecvRes :=
  let hd := hdrOf (bs.take (hdrLen h.type))
  let data := bs.drop (hdrLen h.type)
  let own := im.shardOf h.srcTensor
  let oh := (own.map fun sh => memberHdr s sh m).getD 0
  let chk := recvCheck s r h hd oh
  let out := h.outBytes
  let base := ((own.map (·.data)).getD 0) + m * (if h.op = 1 then h.dataBytes / 8 * 9 / 2 else h.dataBytes)
  if h.op = 0 then { hd := hd, data := data, bytes := h.dataBytes, code := if hd.poisoned then hd.code else 0 }
  else if chk.code ≠ 0 ∨ chk.consumed then
    { hd := if hd.isShare then (hd.renew s.oper).poison chk.code
            else ((im.shardOf h.tensor).map fun sh => poisonObj s sh oh.session h chk.code).getD (hd.poison chk.code)
      data := List.replicate out 0, bytes := out, code := chk.code, consumed := chk.consumed, refused := !chk.consumed }
  else
    let hd0 := ((hd.renew s.oper).put 6 1 0).seal
    if h.op = 1 then
      let q := r.prime h.prime
      let vs := (ring64s data).zipIdx.map fun e => (e.1 + (farElem s (.lin base) 1 e.2 + (q - 1) / 2) % max q 1) % 2 ^ 64
      { hd := hd0, data := vs.flatMap (leBytes 8), bytes := out }
    else
      let ys := (ring64s data).zipIdx.map fun e => (e.1 + leNat (s.rd (base + 8 * e.2) 8)) % 2 ^ 64
      if h.op = 2 then { hd := hd0, data := ys.flatMap (leBytes 8), bytes := out }
      else
        let res := (List.range h.limbs).flatMap fun l => ys.map fun y =>
          (signed 64 y * h.mult * ((2 ^ h.shift : Nat) : Int) % ((max (r.prime l) 1 : Nat) : Int)).toNat
        let pairs := (List.range (res.length / 2)).flatMap fun i => leBytes 9 (res.getD (2 * i) 0 + 2 ^ 36 * res.getD (2 * i + 1) 0)
        { hd := hd0, data := pairs, bytes := out }

/-- A receive is done, what it delivers being in place after `fcs` fc: no timer runs for it. -/
def recvDone (se rq step code fcs : Nat) (s : State) : State :=
  { s with rxDone := s.rxDone ++ [{ session := se, request := rq, step := step, code := code, ready := s.clk.fc + fcs }]
           rxTimers := s.rxTimers.filter fun t => !(t.session == se && t.request == rq && t.step == step) }

/-- Whether a receive of a request has been delivered. -/
def State.isDone (s : State) (se rq step : Nat) : Bool :=
  s.rxDone.any fun d => d.session == se && d.request == rq && d.step == step

/-- A poisoned object delivered to a receive slot (R57, R321, R324). -/
def deliverPoison (k m : Nat) (im : Image) (h : HxpSlot) (se rq code : Nat) (s : State) : State :=
  let s1 := match im.shardOf h.tensor with
    | some sh =>
      putMember sh m (poisonObj s sh se h code) h.outBytes (List.replicate h.outBytes 0) s
    | none => s
  recvDone se rq h.step code 0 (modMember k m (fun x => if x.code = 0 then { x with code := code } else x) s1)

/-- POISON_NOTICE to a peer (R324). -/
def sendNotice (se rq : Nat) (t : HxpSlot) (code : Nat) (s : State) : State :=
  (sendMessage se rq t.step 6 t.peer (2 ^ 64 - 1) (s.slotTimeout t) (leBytes 2 code) s).bump xchPoisonNotices 0 0 1

/-- A journaled opening: the payload of an identity, written whole before its first transmission and sent to the buddy, which holds
the request's record; the step's items are spent (R120, R323, R475; log entry 67). -/
def journalOpening (im : Image) (r : Request) (t : HxpSlot) (bs : List Byte) (s : State) : State :=
  let known := s.journal.any fun j => match j with
    | .opening a b c _ => a == r.session && b == r.seq && c == t.step
    | _ => false
  if !t.journal || known then s
  else
    let s1 := { s with journal := s.journal ++ [.opening r.session r.seq t.step bs] }
    let s2 := if s.hasBuddy then s1.send (.mirrorOpening (s.dreg prtBuddyId) r.session r.seq t.step bs) else s1
    spendStep im r t s2

/-- The payload that goes out under an identity: the journaled one where there is one (R322, R323). -/
def outPayload (s : State) (r : Request) (t : HxpSlot) (bs : List Byte) : List Byte :=
  (s.journal.findSome? fun j => match j with
    | .opening a b c p => if a = r.session ∧ b = r.seq ∧ c = t.step then some p else none
    | _ => none).getD bs

/-- The fault record of a receive that the header checks refuse, one 0x0204 for a request's first poisoned share (R57, R58, R65). -/
def recvRecord (k m : Nat) (r : Request) (x : RecvRes) (s : State) : State :=
  let rec_ := fun (code : Nat) =>
    ({ code := code, action := 1, unit := 7, span := k, session := r.session, request := r.seq } : Rec)
  if x.consumed then
    if (((s.span k).batch.bind fun b => b.members[m]?).map (·.saw204)).getD true then s
    else raise (rec_ 0x0204) (modMember k m (fun m => { m with saw204 := true }) s)
  else if x.refused then raise (rec_ x.code) s
  else s

/-- A receive timeout started, unless one runs or the receive is done (R321). -/
def startTimer (se rq : Nat) (h : HxpSlot) (from_ : Nat) (s : State) : State :=
  if s.isDone se rq h.step ∨ (s.rxTimers.any fun t => t.session == se && t.request == rq && t.step == h.step) then s
  else { s with rxTimers := s.rxTimers ++ [{ session := se, request := rq, step := h.step, due := from_ + 1000000 * s.slotTimeout h }] }

/-- The message of a send slot goes out for a request: the timeout of the receive that answers it starts (R321). -/
def sendFires (im : Image) (r : Request) (t : HxpSlot) (s : State) : State :=
  let s1 := { s with sent := s.sent ++ [(r.session, r.seq, t.step)] }
  match im.answering t with
  | some h => startTimer r.session r.seq h s.now s1
  | none => s1

/-- A receive slot's operation for member `m` of span `k`, when the payload is complete and, for an operation on the device's
own share, the send that it answers has fired (R328, R329). -/
def tryRecv (k m : Nat) (im : Image) (h : HxpSlot) (r : Request) (s : State) : State :=
  let ready := h.op == 0 || (match im.answered h with
    | some t => s.sent.contains (r.session, r.seq, t.step)
    | none => true)
  let notice := s.rx.find? fun f => f.notice && f.session == r.session && f.request == r.seq && f.step == h.step && f.src == h.peer
  let other := s.rx.any fun f => !f.notice && f.session == r.session && f.request == r.seq && f.step == h.step && f.src == h.peer &&
    f.serial != serialOf im r h
  let clash := s.rx.any fun f => f.conflict && f.session == r.session && f.request == r.seq && f.step == h.step && f.src == h.peer
  if s.isDone r.session r.seq h.step then s
  else if clash then deliverPoison k m im h r.session r.seq 0x0404 s
  else if h.material ≠ 0xFF ∧ other then
    spendStep im r h (raise { code := 0x020A, action := 1, unit := 7, span := k, session := r.session, request := r.seq }
      (deliverPoison k m im h r.session r.seq 0x020A s))
  else if notice.isSome then deliverPoison k m im h r.session r.seq (leNat ((notice.map (·.payload)).getD [])) s
  else if !ready then s
  else match payloadOf s r.session r.seq h.step h.peer, im.shardOf h.tensor with
    | some bs, some sh =>
      let ring := ((s.span k).batch.getD noBatch).ring
      let x := recvResult s im ring h m bs
      let disc := (im.answered h).any fun t => t.discRoute || t.discExit
      let bad := x.code ≠ 0 ∨ x.consumed
      let dv := if disc ∧ ¬ bad then disclosed im ((im.answered h).getD h) ((ring64s x.data).take x.hd.count) else some (0, none)
      match dv with
      | none => raise { code := 0x0405, action := 1, unit := 7, span := k, session := r.session, request := r.seq }
          (deliverPoison k m im h r.session r.seq 0x0405 s)
      | some v =>
        let s1 := recvRecord k m r x (putMember sh m x.hd x.bytes x.data s)
        let s2 := if disc then s1.modRequest r.session r.seq fun q =>
            { q with discCount := if v.2.isNone then v.1 else q.discCount
                     discAt := if v.2.isNone then (sh.data + m * x.bytes - llmBase - im.llmBase) / 8 else q.discAt
                     exits := v.2.toList ++ q.exits } else s1
        let s3 := recvDone r.session r.seq h.step x.code (ceilDiv h.outElems 64) s2
        if h.op = 1 ∧ h.forward then
          let t := (im.hxp.find? fun t => !t.recv && t.step == h.step + 1).getD
            { h with recv := false, op := 0, type := 3, peer := 2, step := h.step + 1, journal := false, material := 0xFF }
          let s4 := sendFires im r t s3
          if bad then sendNotice r.session r.seq t x.code s4
          else
            let bs := outPayload s4 r t ((hdrBytes x.hd).take 32 ++ x.data)
            sendMessage r.session r.seq t.step 3 2 (serialOf im r t) (s4.slotTimeout t) bs (journalOpening im r t bs s4)
        else s3
    | _, _ => s

/-- Every receive of a request looked at again. -/
def tryRecvs (se rq : Nat) (s : State) : State :=
  match s.memberOf se rq, s.request se rq with
  | some (k, m), some r =>
    (match s.imageOf k with
      | some im => (im.hxp.filter (·.recv)).foldl (fun s h => tryRecv k m im h r s) s
      | none => s)
  | _, _ => s

/-! ### Send slots (R307, R324, R325, R327) -/

/-- In place of a poisoned ciphertext its notice goes to C, and the share that the device holds for the step is poisoned with the same
code (R60). -/
def poisonOwn (m : Nat) (im : Image) (t : HxpSlot) (code : Nat) (s : State) : State :=
  match (if t.type = 1 then im.answering t else none) with
  | some h =>
    (match im.shardOf h.srcTensor with
      | some sh =>
        let n := if h.op = 1 then h.dataBytes / 8 * 9 / 2 else h.dataBytes
        let hd := memberHdr s sh m
        if hd.poisoned then s else putMember sh m ((hd.renew s.oper).poison code) n (List.replicate n 0) s
      | none => s)
  | none => s

/-- What a send slot sends for a member: the payload, or the code of the notice in its place, and whether the object itself is
poisoned or the policy denies the opening. -/
structure Sending where
  payload : List Byte
  notice : Option Nat
  poisoned : Bool
  denied : Bool
  deriving DecidableEq, Repr

/-- The member's object read from the slot's tensor: an object of several shards is gathered, poisoned with the code of the poisoned
shard of lowest SHARD_INDEX (R59); refused by R307 or by the captured policy (R325), a notice goes in its place. -/
def memberMessage (k m : Nat) (im : Image) (t : HxpSlot) (sh : Shard) (r : Request) (s : State) : Sending :=
  let shs := im.shardsOf t.tensor
  let hds := shs.map fun x => memberHdr s x m
  let worst := (hds.filter Hdr.poisoned).foldl (fun b h => match b with
    | some (x : Hdr) => if h.shardIndex < x.shardIndex then some h else b
    | none => some h) none
  let hd := worst.getD (memberHdr s sh m)
  let data := if shs.length ≤ 1 then s.rd (sh.data + m * t.dataBytes) t.dataBytes
    else shs.flatMap fun x => let n := x.bytes / max x.slots 1; s.rd (x.data + m * n) n
  let exitPrime := ((im.hxp.filter fun h => h.recv && h.op == 1 && decide (t.step ≤ h.step)).head?).map (·.prime)
  let ring := ((s.span k).batch.getD noBatch).ring
  let denied := !hd.poisoned && (t.discRoute || t.discExit) && !((im.points.find? fun c => c.point = t.point).any r.policy.permits)
  { payload := (hdrBytes hd).take (hdrLen t.type) ++ data, poisoned := hd.poisoned, denied := denied
    notice := if hd.poisoned then some hd.code
      else if denied then some 0x0405
      else if t.type = 1 ∧ (exitPrime.any fun j => decide (ring.lqAt j < hd.scale + 512)) then some 0x0208
      else none }

/-- A payload sent under a slot's identity, the journaled one where there is one, else journaled where the slot says so (R322, R323). -/
def sendPayload (im : Image) (r : Request) (t : HxpSlot) (payload : List Byte) (s : State) : State :=
  let bs := outPayload s r t payload
  sendMessage r.session r.seq t.step t.type t.peer (serialOf im r t) (s.slotTimeout t) bs (journalOpening im r t bs s)

/-- A send slot fires for member `m` (R327). -/
def sendMember (k m : Nat) (im : Image) (t : HxpSlot) (r : Request) (s : State) : State :=
  match im.shardOf t.tensor with
  | none => s
  | some sh =>
    let x := memberMessage k m im t sh r s
    let s2 := sendFires im r t s
    match x.notice with
    | some code =>
      let s3 := if x.poisoned then poisonOwn m im t code s2
        else raise { code := code, action := 1, unit := 7, span := k, session := r.session, request := r.seq }
          (modMember k m (fun x => if x.code = 0 then { x with code := code } else x) s2)
      let s4 := sendNotice r.session r.seq t code s3
      if x.denied then (match im.answering t with
        | some h => deliverPoison k m im h r.session r.seq 0x0405 s4
        | none => s4) else s4
    | none => sendPayload im r t x.payload s2

/-- A send slot fires: a message for each member below M, in order. -/
def fireSlot (k slot : Nat) (s : State) : State :=
  match s.imageOf k, (s.span k).batch with
  | some im, some b =>
    (match im.hxp.find? fun t => t.slot = slot ∧ ¬ t.recv with
      | some t => (b.members.zipIdx).foldl (fun s e =>
          match s.request e.1.session e.1.seq with
          | some r => tryRecvs r.session r.seq (sendMember k e.2 im t r s)
          | none => s) s
      | none => s)
  | _, _ => s

/-- TIMED_ACTION_FIRE (R265): the time base has reached the target of action `id` of pier `p`: a send slot is handed over, or
the data of a timed transfer moves; a LAUNCH that waited with a hold is posted. -/
def execTimedActionFire (p id : Nat) (s : State) : Host.Outcome State Fault Refusal :=
  if 192 ≤ p then .fault (.noSuchUnit p)
  else match s.spanOf p with
    | none => .next s
    | some (k, _) =>
      match (s.pier p).timed.find? (fun a => a.id = id) with
      | some a =>
        if s.now < a.target then .next s
        else
          let s1 := s.modPier p fun x => { x with timed := x.timed.filter fun b => b.id != id }
          let s2 := match (s1.span k).holds.find? (fun h => h.pier == p && h.src == .launch) with
            | some h => holdEffect h (s1.modSpan k fun sp => { sp with holds := sp.holds.erase h })
            | none => s1
          .next (fireSlot k a.sendSlot s2)
      | none =>
        let hit := fun (x : Xfer) => x.id == id && match x.phase with
          | .timed t => decide (t ≤ s.now)
          | _ => false
        match [0, 1, 2].findSome? (fun j => (((s.pier p).chuck j).xfers.find? hit).map fun x => (j, x)) with
        | some (j, x) =>
          let r := tryMove p { x with phase := .moving } s
          .next (r.2.setXfer p j r.1)
        | none => .next s

/-! ### Messages that arrive (R319 to R322) -/

/-- A message of a bound session, from the endpoint bound to its party, whose tag holds and whose header can be read. -/
def authentic (s : State) (m : HxpMsg) : Bool :=
  m.ok && readable s.oper m.version && match tfind s.sessions m.session with
    | some x => (x.policy.peer m.src).any fun b => b.addr == m.addr && b.port == m.udp && m.dst == x.policy.self
    | none => false

/-- Fragments acknowledged: SEQ below `base`, or with its bit set in the bitmap (R321). -/
def ackFrags (se q base bits : Nat) (s : State) : State :=
  { s with tx := s.tx.filter fun f => !(f.session == se && f.peer == q &&
      (decide (f.seq < base) || (decide (f.seq < base + 64) && bit bits (f.seq - base)))) }

/-- A received SEQ noted; `none` for a replay (R320, R322). -/
def noteSeq (m : HxpMsg) (s : State) : Option State :=
  let st0 := s.stream m.session m.src
  let st := if st0.rxEpoch < m.epoch then { st0 with rxEpoch := m.epoch, seen := [], highest := 0 } else st0
  if m.epoch < st.rxEpoch ∨ st.seen.contains m.seq ∨ m.seq + 1024 < st.highest then none
  else
    let hi := max st.highest m.seq
    some (s.putStream { st with seen := (m.seq :: st.seen).filter fun n => decide (hi ≤ n + 1024), highest := hi })

/-- The acknowledgement of what a peer has sent (Table 12-6). -/
def sendAck (se q : Nat) (s : State) : State :=
  let st := s.stream se q
  s.send (.hxpAck se q st.ackBase (st.ackBits st.ackBase))

/-- The image of a request's message and the receive slot that takes it. -/
def State.recvSlot (s : State) (m : HxpMsg) : Option (Request × Image × HxpSlot) :=
  (s.request m.session m.request).bind fun r => (tfind s.images r.handle).bind fun im =>
    (im.hxp.find? fun h => h.recv && h.step == m.step && h.peer == m.src).map fun h => (r, im, h)

/-- A new fragment's bytes stored in the arrival entry of its request: every fragment but the last is of one length (R319, R328). -/
def putArrival (m : HxpMsg) (s : State) : State :=
  match s.recvSlot m with
  | some (r, im, h) =>
    let n := m.payload.length
    let off := if m.fragIndex + 1 = m.fragCount then h.bytes - n else m.fragIndex * n
    if off + n ≤ h.bytes then s.wr (im.arrivalAt r h + off) m.payload else s
  | none => s

/-- The send slot whose message answers what a receive slot takes: H's opening for a masked input, the other party's for an opening,
the next in step order (R322; DESIGN CHOICE, log entry 67). -/
def Image.reply (im : Image) (h : HxpSlot) : Option HxpSlot :=
  (im.hxp.filter fun t => !t.recv && t.type == 4 && (h.type == 3 || h.type == 4) && t.peer == h.peer && decide (h.step ≤ t.step)).foldl
    (fun b t => match b with
      | some (x : HxpSlot) => if t.step < x.step then some t else b
      | none => some t) none

/-- A message that this device has answered comes again: at its first fragment the answer goes out again, with the same payload, unless
the first one still waits for its acknowledgement and is sent again for that (R322). -/
def answerAgain (m : HxpMsg) (s : State) : State :=
  match s.recvSlot m with
  | some (r, im, h) =>
    (match im.reply h with
      | some t =>
        let waits := s.tx.any fun f => f.session == r.session && f.request == r.seq && f.step == t.step
        if m.fragIndex ≠ 0 ∨ waits ∨ (r.session, r.seq, t.step) ∉ s.sent then s
        else match im.shardOf t.tensor, s.memberOf r.session r.seq with
          | some sh, some (k, i) =>
            let x := memberMessage k i im t sh r s
            (match x.notice with
              | some code => sendNotice r.session r.seq t code s
              | none => sendPayload im r t x.payload s)
          | _, _ => s
      | none => s)
  | none => s

/-- A fragment by its identity (R320): stored, a duplicate, or a conflict. -/
def storeFrag (notice : Bool) (m : HxpMsg) (s : State) : State :=
  let mine := fun (f : RxFrag) => decide (f.session = m.session ∧ f.request = m.request ∧ f.step = m.step ∧ f.src = m.src ∧ f.frag = m.fragIndex)
  match s.rx.find? mine with
  | none =>
    let s1 := { s with rx := s.rx ++
      [{ session := m.session, request := m.request, step := m.step, src := m.src, frag := m.fragIndex
         count := m.fragCount, payload := m.payload, serial := m.serial, notice := notice }] }
    sendAck m.session m.src (if notice then s1 else putArrival m s1)
  | some f =>
    if f.payload = m.payload then answerAgain m (sendAck m.session m.src (s.bump xchDuplicates 0 0 1))
    else
      let marked := { s with rx := s.rx.map fun f => if mine f then { f with conflict := true } else f }
      let s1 := raise { code := 0x0404, action := 1, unit := 7, session := m.session, request := m.request } (marked.bump xchConflicts 0 0 1)
      match s1.memberOf m.session m.request with
      | some (k, i) =>
        (match (s1.imageOf k).bind fun im => (im.hxp.find? fun h => h.recv && h.step == m.step && h.peer == m.src).map fun h => (im, h) with
          | some (im, h) => if s1.isDone m.session m.request m.step then s1 else deliverPoison k i im h m.session m.request 0x0404 s1
          | none => s1)
      | none => s1

/-- A message that carries an object (types 2 to 5), or a notice (type 6). -/
def receive (m : HxpMsg) (s : State) : State :=
  if !authentic s m then s.bump xchAuthDrops 0 0 1
  else match noteSeq m s with
    | none => s
    | some s0 =>
      let s1 := ackFrags m.session m.src m.ack 0 s0
      match s1.request m.session m.request with
      | none => s1
      | some r =>
        if !r.live then s1
        else
          let s2 := storeFrag false m (s1.bump2 xchMsgsReceivedLo xchMsgsReceivedHi 0 0 1)
          tryRecvs m.session m.request s2

/-- A POISON_NOTICE (R324): the receive slot's object is delivered poisoned with the notice's code. -/
def receiveNotice (m : HxpMsg) (s : State) : State :=
  if !authentic s m then s.bump xchAuthDrops 0 0 1
  else match noteSeq m s with
    | none => s
    | some s0 =>
      let s1 := ackFrags m.session m.src m.ack 0 s0
      match s1.request m.session m.request with
      | none => s1
      | some r =>
        if !r.live then s1
        else
          let s2 := storeFrag true m (s1.bump2 xchMsgsReceivedLo xchMsgsReceivedHi 0 0 1)
          match s2.recvSlot m, s2.memberOf m.session m.request with
          | some (_, im, h), some (k, i) =>
            if s2.isDone m.session m.request m.step then s2
            else deliverPoison k i im h m.session m.request (leNat (m.payload.take 2)) s2
          | _, _ => s2

/-- An ACK (Table 12-6): what it acknowledges is sent no more. -/
def receiveAck (m : HxpMsg) (s : State) : State :=
  if !authentic s m then s.bump xchAuthDrops 0 0 1
  else match noteSeq m s with
    | none => s
    | some s0 =>
      let s1 := s0.bump2 xchMsgsReceivedLo xchMsgsReceivedHi 0 0 1
      ackFrags m.session m.src (getLe m.payload 0 8) (getLe m.payload 8 8) (ackFrags m.session m.src m.ack 0 s1)

/-- Bytes of an HXP frame. -/
def hxpBytes (m : HxpMsg) : Nat := m.payload.length + 160

/-- DECRYPT_SHARE. -/
def execDecryptShare (m : HxpMsg) (s : State) : Host.Outcome State Fault Refusal :=
  onPort m.port (hxpBytes m) (.decryptShare m) s (receive m)
/-- MASKED_INPUT, at a device in role H. -/
def execMaskedInput (m : HxpMsg) (s : State) : Host.Outcome State Fault Refusal :=
  onPort m.port (hxpBytes m) (.maskedInput m) s (receive m)
/-- OPEN. -/
def execOpenMsg (m : HxpMsg) (s : State) : Host.Outcome State Fault Refusal :=
  onPort m.port (hxpBytes m) (.openMsg m) s (receive m)
/-- RETURN_CT. -/
def execReturnCt (m : HxpMsg) (s : State) : Host.Outcome State Fault Refusal :=
  onPort m.port (hxpBytes m) (.returnCt m) s (receive m)
/-- POISON_NOTICE. -/
def execPoisonNotice (m : HxpMsg) (s : State) : Host.Outcome State Fault Refusal :=
  onPort m.port (hxpBytes m) (.poisonNotice m) s (receiveNotice m)
/-- ACK. -/
def execAck (m : HxpMsg) (s : State) : Host.Outcome State Fault Refusal :=
  onPort m.port (hxpBytes m) (.ack m) s (receiveAck m)
/-- A TYPE that Table 12-6 calls invalid: dropped and counted. -/
def execHxpInvalidType (m : HxpMsg) (s : State) : Host.Outcome State Fault Refusal :=
  onPort m.port (hxpBytes m) (.hxpInvalidType m) s fun s => s.bump xchAuthDrops 0 0 1

/-- HXP_RETRANSMIT (R321): a fragment whose RTO has passed is sent again, its RTO doubled up to RTO_MAX_US; past the step's
timeout it is given up. -/
def execHxpRetransmit (id : Nat) (s : State) : Host.Outcome State Fault Refusal :=
  match s.tx.find? fun f => f.id = id with
  | none => .next s
  | some f =>
    if s.now < f.due then .next s
    else if f.deadline ≤ s.now then .next { s with tx := s.tx.filter fun g => g.id != id }
    else
      let r := transmit { f with rtoUs := min (2 * f.rtoUs) (s.dreg xchRtoMaxUs) } (s.bump xchRetransmits 0 0 1)
      .next { r.2 with tx := r.2.tx.map fun g => if g.id = id then r.1 else g }

/-- HXP_TIMEOUT (R321): a receive that has not come delivers its member's data poisoned with 0x0403. -/
def execHxpTimeout (se rq step : Nat) (s : State) : Host.Outcome State Fault Refusal :=
  match s.rxTimers.find? fun t => t.session = se ∧ t.request = rq ∧ t.step = step with
  | none => .next s
  | some t =>
    if s.now < t.due then .next s
    else
      let s1 := raise { code := 0x0403, action := 1, unit := 7, session := se, request := rq } (s.bump xchTimeouts 0 0 1)
      let s2 := { s1 with rxTimers := s1.rxTimers.filter fun u => !(u.session == se && u.request == rq && u.step == step) }
      match s2.memberOf se rq with
      | some (k, i) =>
        (match (s2.imageOf k).bind fun im => (im.hxp.find? fun h => h.recv && h.step == step).map fun h => (im, h) with
          | some (im, h) => .next (deliverPoison k i im h se rq 0x0403 s2)
          | none => .next s2)
      | none => .next s2

/-- At a launch each member's slot takes the payloads in its request's arrival entry; receives that answer no send start their
timeout (R321, R328). -/
def launchRecvs (k : Nat) (s : State) : State :=
  match s.imageOf k, (s.span k).batch with
  | some im, some b =>
    if im.hxp.any (·.recv) then
      b.members.foldl (fun s m =>
        let s1 := (im.hxp.filter fun h => h.recv && (im.answered h).isNone).foldl (fun s h => startTimer m.session m.seq h b.launchTs s) s
        tryRecvs m.session m.seq s1) s
    else s
  | _, _ => s

end Sys2Proof.Machine
end

