-- ==== Sys2Proof/Machine/Image.lean ====
section
/-! DEFINITION. Images as byte strings: header, sections, span and stage records, weight shards, tensor descriptors, key plan,
HXP plan, and the static checks of LOAD_IMAGE (11_spans R281 to R285; 03 R71 to R82, R90; 04 R107, R108; 05 R127 to R135;
07 R166 to R173; 10 R273; 12 R326, R330; 16 R414). -/
namespace Sys2Proof.Machine

/-! ### Refusals (R285, Table 11-11) -/

/-- A REJECT_DETAIL before it is laid out: REASON, STAGE, PC, SECTION, SPAN_FC. -/
structure Reject where
  reason : Nat
  stage : Nat := 0xFFFF
  pc : Nat := 0xFFFF
  sect : Nat := 0xFFFFFFFF
  fc : Nat := 0xFFFFFFFF
  deriving DecidableEq, Repr

/-- The 16 bytes of REJECT_DETAIL. -/
def Reject.bytes (r : Reject) : List Byte :=
  leBytes 2 r.reason ++ leBytes 2 r.stage ++ leBytes 2 r.pc ++ leBytes 2 0 ++ leBytes 4 r.sect ++ leBytes 4 r.fc

/-- The first refusal of a list. -/
def firstReject (l : List (Option Reject)) : Option Reject := l.findSome? id

/-- A refusal unless the condition holds. -/
def must (b : Bool) (r : Reject) : Option Reject := if b then none else some r

/-! ### Header and sections (Tables 11-1 to 11-3) -/

/-- A section table entry. -/
structure Sect where
  kind : Nat
  span : Nat
  stage : Nat
  offset : Nat
  length : Nat
  crc : Nat
  deriving DecidableEq, Repr

/-- SPAN_COUNT, SHAPE_MODES, LLM_BYTES, GDDR_BYTES, WINDOW_SLOTS, IMAGE_LENGTH. -/
def imgSpans (bs : List Byte) : Nat := getLe bs 8 1
def imgShapes (bs : List Byte) : Nat := getLe bs 6 2
def imgLength (bs : List Byte) : Nat := getLe bs 0x10 8
def imgLlm (bs : List Byte) : Nat := getLe bs 0x18 8
def imgGddr (bs : List Byte) : Nat := getLe bs 0x20 8
def imgSlots (bs : List Byte) : Nat := getLe bs 0x28 2

/-- The section table. -/
def sections (bs : List Byte) : List Sect :=
  (List.range (getLe bs 0xC 4)).map fun i =>
    let o := 0x40 + 32 * i
    { kind := getLe bs o 1, span := getLe bs (o + 1) 1, stage := getLe bs (o + 2) 2, offset := getLe bs (o + 8) 8
      length := getLe bs (o + 16) 8, crc := getLe bs (o + 24) 4 }

/-- A section's bytes. -/
def Sect.bytes (x : Sect) (bs : List Byte) : List Byte := slice bs x.offset x.length

/-- The bytes of the section of a kind that the image holds at most once; empty when absent. -/
def oneSect (bs : List Byte) (kind : Nat) : List Byte := (((sections bs).find? fun x => x.kind = kind).map (·.bytes bs)).getD []

/-- The bytes of a stage's section of a kind. -/
def stageSect (bs : List Byte) (kind span stage : Nat) : List Byte :=
  (((sections bs).find? fun x => x.kind = kind ∧ x.span = span ∧ x.stage = stage).map (·.bytes bs)).getD []

/-- Entries of `w` bytes of a byte string. -/
def entries (w : Nat) (bs : List Byte) : List (List Byte) := (List.range (bs.length / max w 1)).map fun i => slice bs (w * i) w

/-- A span record (Table 11-4). -/
structure SpanRec where
  stages : Nat
  firstStage : Nat
  dieMask : Nat
  rigid : Bool
  grants : List Nat
  firstEdge : Nat
  edges : Nat
  firstPatch : Nat
  patches : Nat
  deriving DecidableEq, Repr

/-- The span records. -/
def spanRecs (bs : List Byte) : List SpanRec :=
  (entries 64 (oneSect bs 1)).map fun r =>
    { stages := getLe r 0 2, firstStage := getLe r 2 2, dieMask := fld (getLe r 4 1) 0 2, rigid := bit (getLe r 5 1) 0
      grants := (List.range 4).map fun g => getLe r (8 + 4 * g) 4, firstEdge := getLe r 0x18 4, edges := getLe r 0x1C 4
      firstPatch := getLe r 0x20 4, patches := getLe r 0x24 4 }

/-- A stage record (Table 11-5). -/
structure StageRec where
  span : Nat
  stage : Nat
  die : Nat
  col : Nat
  row : Nat
  cacheBlocks : Nat
  remoteUs : Nat
  retryUs : Nat
  paramMap : List Nat
  deriving DecidableEq, Repr

/-- Number of stage records. -/
def stageTotal (bs : List Byte) : Nat := ((spanRecs bs).map (·.stages)).foldl (· + ·) 0

/-- The stage records. -/
def stageRecs (bs : List Byte) : List StageRec :=
  ((entries 64 (oneSect bs 2)).take (stageTotal bs)).map fun r =>
    { span := getLe r 0 2, stage := getLe r 2 2, die := getLe r 4 1, col := getLe r 5 1, row := getLe r 6 1
      cacheBlocks := getLe r 7 1, remoteUs := getLe r 8 2, retryUs := getLe r 0xA 1
      paramMap := (List.range 29).map fun n => getLe r (0x10 + n) 1 }

/-- The edge entries (Table 11-6). -/
def edgeRecs (bs : List Byte) : List Edge :=
  (entries 8 ((oneSect bs 2).drop (64 * stageTotal bs))).map fun e =>
    { src := getLe e 0 2, dst := getLe e 2 2, budget := getLe e 4 1 }

/-- The edges of span `k`. -/
def spanEdges (bs : List Byte) (k : Nat) : List Edge :=
  match (spanRecs bs)[k]? with
  | some r => ((edgeRecs bs).drop r.firstEdge).take r.edges
  | none => []

/-- A travel patch (Table 11-8): stage, PC, field, base, edges with their signs. -/
structure Patch where
  stage : Nat
  pc : Nat
  field : Nat
  base : Int
  edges : List (Nat × Bool)
  deriving DecidableEq, Repr

/-- The travel patches of span `k`. -/
def spanPatches (bs : List Byte) (k : Nat) : List Patch :=
  match (spanRecs bs)[k]? with
  | some r => (((entries 16 (oneSect bs 0xB)).drop r.firstPatch).take r.patches).map fun e =>
      let sg := getLe e 5 1
      let a := getLe e 6 2
      let b := getLe e 8 2
      { stage := getLe e 0 2, pc := getLe e 2 2, field := getLe e 4 1, base := signed 32 (getLe e 0xC 4)
        edges := (if a = 0xFFFF then [] else [(a, bit sg 0)]) ++ (if b = 0xFFFF then [] else [(b, bit sg 1)]) }
  | none => []

/-- The phase plan of a stage: first and last PC, and whether compute (Table 11-7). The STAGE of a phase, skip, key or material
entry is the index of its stage record. -/
def stagePhases (bs : List Byte) (idx : Nat) : List (Nat × Nat × Bool) :=
  ((entries 8 (oneSect bs 0xC)).filter fun e => getLe e 0 2 = idx).map fun e => (getLe e 2 2, getLe e 4 2, getLe e 6 1 == 1)

/-- The conditional points (Table 11-7). -/
def condPoints (bs : List Byte) : List CondPoint :=
  (entries 16 (oneSect bs 0xE)).map fun e =>
    { point := getLe e 0 2, exit := getLe e 2 1 == 1, k := getLe e 3 1, e := getLe e 4 2, boundary := getLe e 6 1
      oblivious := getLe e 7 1, disclosed := getLe e 8 1 }

/-! ### Step 1 of Table 11-10 (R281, R282, R292) -/

/-- Whether [a, a+n) and [b, b+m) are disjoint, for every pair of a list. -/
def allApart : List (Nat × Nat) → Bool
  | [] => true
  | x :: r => (r.all fun y => !meet x.1 x.2 y.1 y.2) && allApart r

/-- The kinds that appear at most once in an image, and at most once for a stage. -/
def onceKinds : List Nat := [1, 2, 7, 9, 0xA, 0xB, 0xC, 0xD, 0xE]
def stageKinds : List Nat := [3, 4, 5]

/-- Format checks on the section table. -/
def sectsOk (bs : List Byte) : Bool :=
  let ss := sections bs
  let one := fun (x : Sect) => decide (1 ≤ x.kind ∧ x.kind ≤ 0xE ∧ x.offset % 64 = 0 ∧
    0x40 + 32 * ss.length ≤ x.offset ∧ x.offset + x.length ≤ imgLength bs) && crc32 (x.bytes bs) == x.crc
  ss.all one && allApart (ss.map fun x => (x.offset, x.length)) &&
    (onceKinds.all fun k => decide ((ss.filter fun x => x.kind = k).length ≤ 1)) &&
    (stageKinds.all fun k => decide (((ss.filter fun x => x.kind = k).map fun x => (x.span, x.stage)).Nodup)) &&
    decide (oneSect bs 1 ≠ [] ∧ oneSect bs 2 ≠ [] ∧ oneSect bs 9 ≠ [])

/-- Format checks on span, stage, edge, patch, phase and point records. -/
def recordsOk (bs : List Byte) : Bool :=
  let sp := spanRecs bs
  let st := stageRecs bs
  let spanOk := fun (r : SpanRec) => decide (1 ≤ r.stages ∧ r.stages ≤ 176 ∧ r.edges ≤ 30800 ∧ r.patches ≤ 2 ^ 20) &&
    r.grants.all (· ≤ 202752) && decide (r.firstEdge + r.edges ≤ (edgeRecs bs).length)
  let stageOk := fun (r : StageRec) => decide (r.die ≤ 1 ∧ r.col ≤ 7 ∧ r.row ≤ 11 ∧ r.cacheBlocks ≤ 4) &&
    (r.paramMap.all fun v => v ≤ 0x11 || v == 0xFF) &&
    (let n := (stageSect bs 3 r.span r.stage).length; decide (16 ≤ n ∧ n ≤ 65536 ∧ n % 16 = 0)) &&
    decide ((stageSect bs 4 r.span r.stage).length ≤ 32768 ∧ (stageSect bs 5 r.span r.stage).length ≤ 512)
  let listed := sp.zipIdx.all fun e => (List.range e.1.stages).all fun n =>
    (st[e.1.firstStage + n]?).any fun r => r.span == e.2 && r.stage == n
  let edgesOk := sp.zipIdx.all fun e => (spanEdges bs e.2).all fun d =>
    decide (d.src < e.1.stages ∧ d.dst < e.1.stages ∧ d.budget ≤ 39)
  sp.length == imgSpans bs && sp.all spanOk && st.length == stageTotal bs && st.all stageOk && listed && edgesOk &&
    ((entries 8 (oneSect bs 0xC)).all fun e => decide (getLe e 2 2 ≤ getLe e 4 2 ∧ getLe e 4 2 ≤ 4095 ∧ getLe e 6 1 ≤ 1))

/-- Step 1: the code of a failure and its detail. -/
def stepFormat (oper : Nat) (winMap : List (Nat × Nat)) (bs : List Byte) : Option (Nat × Reject) :=
  let bad : Option (Nat × Reject) := some (0x0503, { reason := 1 })
  if bs.length < 64 ∨ getLe bs 0 4 ≠ 0x48544931 ∨ !crcAt bs 0x3C ∨ getLe bs 5 1 = 0 then bad
  else if !readable oper (getLe bs 5 1) then some (0x0801, { reason := 1 })
  else if !(decide (1 ≤ imgSpans bs ∧ imgSpans bs ≤ 16 ∧ 1 ≤ getLe bs 0xC 4 ∧ getLe bs 0xC 4 ≤ 65536 ∧ imgLlm bs % 64 = 0 ∧
      imgGddr bs % 64 = 0 ∧ imgLength bs ≤ bs.length)) then bad
  else if !sectsOk bs || !recordsOk bs then bad
  else if (List.range 16).any fun n => bit (imgSlots bs) n && !(winMap.any fun m => m.1 == n) then bad
  else none

/-! ### Step 2: loadable routines (R273, R414) -/

/-- Bytes of a routine's code, and its section split into manifest, code and signature block. -/
def routineCode (r : List Byte) : List Byte := slice r 64 (getLe r 8 4)
def routineId (r : List Byte) : Nat := getLe r 6 2

/-- The routine sections. -/
def routineSects (bs : List Byte) : List (List Byte) := ((sections bs).filter fun x => x.kind = 6).map (·.bytes bs)

/-- Whether keystone accepts a routine section. -/
def routineOk (k : Keystone) (r : List Byte) : Bool :=
  let n := getLe r 8 4
  let b := r.drop (64 + n)
  let manifest := getLe r 0 4 == 0x4854524C && getLe r 5 1 != 0 && decide (512 ≤ routineId r ∧ routineId r ≤ 1023) &&
    decide (n % 16 = 0 ∧ n ≤ 65472) && crcAt (r.take 64) 0x3C
  let caKey := slice b 0x1495 1952
  manifest && b.length == 10540 && getLe b 0 4 == 0x48545253 && sha3 caKey == k.vendorCaHash &&
    Config.mldsaVerify caKey (sha3 (slice b 4 4 ++ slice b 8 1952)) (slice b 0x7A8 3309) && decide (k.routineEpoch ≤ getLe b 4 4) &&
    Config.mldsaVerify (slice b 8 1952) (sha3 (r.take (64 + n))) (slice b 0x1C35 3309)

/-- Step 2. -/
def stepRoutines (k : Keystone) (bs : List Byte) : Option Reject :=
  must ((routineSects bs).all (routineOk k)) { reason := 2 }

/-! ### Weight shards (R71 to R77) -/

/-- A machine whose memory holds only a shard, from address 0: the decoder of R78 reads it there. -/
def shardBench (w : List Byte) : State := { mem := mputs [] 0 w }

/-- Every 2:4 nibble of a stored block is one of the six of R76. -/
def nibblesOk (h : WHdr) (w : List Byte) (at_ : Nat) : Bool :=
  h.sparsity != 1 || (List.range 512).all fun i =>
    let b := getLe w (at_ + 128 + i) 1
    let ok := fun (n : Nat) => n == 4 || n == 8 || n == 0xC || n == 9 || n == 0xD || n == 0xE
    ok (b % 16) && ok (b / 16)

/-- R77 on one shard. DESIGN CHOICE (log entry 66), safe: a version byte of 0 (R48), set bits beyond the last block or row and a
section longer than DATA_OFFSET + DATA_LENGTH are refused too, which R77's list does not name. -/
def shardOk (w : List Byte) : Bool :=
  let t := shardBench w
  let h := weightHdr t 0
  let blocks := (h.rows / 64) * (h.cols / 64)
  let bits := ceilDiv (h.rows * h.cols) (2 ^ 21) * 64
  let rowBits := ceilDiv h.rows 512 * 64
  let stored := (List.range blocks).filter fun b => storedBlock t h b
  let dim := fun (n : Nat) => decide (n % 64 = 0 ∧ 64 ≤ n ∧ n ≤ 65536)
  let diag := bit (getLe w 6 1) 4
  let rowZero := fun (r : Nat) => bit (getLe w (h.rowZero + r / 8) 1) (r % 8)
  let zeroRow := fun (r : Nat) => (List.range (h.cols / 64)).all fun c =>
    let b := (r / 64) * (h.cols / 64) + c
    !storedBlock t h b || (((decodeBlock t h false (2 ^ 24) b).drop (64 * (r % 64))).take 64).all (· == 0)
  let clearFrom := fun (o n k : Nat) => (List.range (8 * n - k)).all fun i => !bit (getLe w (o + (k + i) / 8) 1) ((k + i) % 8)
  getLe w 0 4 == 0x48545731 && crcAt w 0x3C && getLe w 5 1 != 0 && h.width != 3 && h.sparsity != 3 && dim h.rows && dim h.cols &&
    getLe w 0x18 4 % 64 == 0 && getLe w 0x1C 4 % 64 == 0 &&
    (!diag || (getLe w 0x1C 4 == 0 && decide (getLe w 0x18 4 + h.rows ≤ h.cols))) &&
    getLe w 0x20 4 == stored.length && h.rowZero == 0x40 + bits && h.data == h.rowZero + rowBits &&
    getLe w 0x2C 4 == stored.length * h.blockBytes && w.length == h.data + getLe w 0x2C 4 &&
    clearFrom 0x40 bits blocks && clearFrom h.rowZero rowBits h.rows &&
    (stored.zipIdx.all fun e => nibblesOk h w (h.data + e.2 * h.blockBytes)) &&
    (List.range h.rows).all fun r => !rowZero r || zeroRow r

/-- The weight shard sections with their indices in the section table. -/
def shardSects (bs : List Byte) : List (Nat × Sect) :=
  ((sections bs).zipIdx.filter fun e => e.1.kind = 8).map fun e => (e.2, e.1)

/-- The shards of a stage with their slice offsets, packed in section order from 0x1000 on (R69). -/
def stageShards (bs : List Byte) (span stage : Nat) : List (Sect × Nat) :=
  (((shardSects bs).filter fun e => e.2.span = span ∧ e.2.stage = stage).foldl
    (fun (acc : List (Sect × Nat) × Nat) e => (acc.1 ++ [(e.2, acc.2)], acc.2 + ceilDiv e.2.length 64 * 64)) ([], 0x1000)).1

/-- The first failing weight shard, or a stage whose shards do not fit a slice or its directory. -/
def checkShards (bs : List Byte) : Option Reject :=
  firstReject (((shardSects bs).map fun e => must (shardOk (e.2.bytes bs)) { reason := 3, stage := e.2.stage, sect := e.1 }) ++
    (stageRecs bs).map fun r =>
      let l := stageShards bs r.span r.stage
      must (decide (l.length ≤ 63) && l.all fun e => decide (e.2 + e.1.length ≤ 0x2000000)) { reason := 3, stage := r.stage })

/-! ### Skip declarations (R81, R82) -/

/-- The shard section of a weight tensor. -/
def weightSect (bs : List Byte) (tensor shard : Nat) : Option (List Byte) :=
  ((shardSects bs).map fun e => e.2.bytes bs).find? fun w => getLe w 0xC 4 = tensor ∧ getLe w 0xA 2 = shard

/-- Whether a skip declaration has the support of the bitmaps. DESIGN CHOICE (log entry 66), unsafe: the diagonals that the product uses
are the rows of the named shard alone, and the shard need not have the diagonal layout. -/
def skipOk (bs : List Byte) (e : List Byte) : Bool :=
  let kind := getLe e 0 1
  let x := getLe e 0xC 4
  let b := getLe e 0xA 2
  match weightSect bs (getLe e 4 4) (getLe e 8 2) with
  | none => false
  | some w =>
    let t := shardBench w
    let h := weightHdr t 0
    let first := getLe w 0x18 4
    let zero := fun (k : Nat) => bit (getLe w (h.rowZero + (k - first) / 8) 1) ((k - first) % 8)
    let diags := (List.range h.rows).map (first + ·)
    if kind = 0 then decide (x < (h.rows / 64) * (h.cols / 64)) && !storedBlock t h x
    else if kind = 1 then decide (first ≤ x ∧ x < first + h.rows) && zero x
    else if kind = 2 then decide (0 < b) && diags.all fun k => k % b != x % b || zero k
    else if kind = 3 then decide (0 < b) && diags.all fun k => k / b != x || zero k
    else false

/-- The skip declarations. -/
def checkSkips (bs : List Byte) : Option Reject :=
  firstReject ((entries 16 (oneSect bs 0xA)).map fun e => must (skipOk bs e) { reason := 6, stage := getLe e 2 2 })

/-! ### Conditional points (R90) -/

/-- Every point has its oblivious form, and its fields lie in their ranges. DESIGN CHOICE (log entry 66), safe: two entries with one
POINT refuse the image with the same reason. -/
def checkPoints (bs : List Byte) : Option Reject :=
  let n := imgSpans bs
  let ok := fun (c : CondPoint) => decide (c.oblivious < n) && (c.disclosed == 0xFF || decide (c.disclosed < n)) &&
    (if c.exit then decide (c.k = 0 ∧ c.e = 0 ∧ c.boundary < 64) else decide (1 ≤ c.k ∧ c.k ≤ c.e ∧ 2 ≤ c.e ∧ c.e ≤ 1024 ∧ c.boundary = 0))
  must ((condPoints bs).all ok && decide (((condPoints bs).map fun c => c.point).Nodup)) { reason := 7 }

/-! ### The key plan (R107, R108) -/

/-- LOG_N, Q_COUNT, P_COUNT, DNUM of the plan; PIN_MIB; BATCH_WAIT. -/
def planRing (bs : List Byte) : List Nat := (List.range 4).map fun i => getLe (oneSect bs 9) (8 + i) 1
def planPin (bs : List Byte) : Nat := getLe (oneSect bs 9) 4 2
def planWait (bs : List Byte) : Nat := getLe (oneSect bs 9) 6 2
def planLogN (bs : List Byte) : Nat := getLe (oneSect bs 9) 8 1
def planPrimes (bs : List Byte) : Nat := getLe (oneSect bs 9) 9 1 + getLe (oneSect bs 9) 0xA 1

/-- The key entries. -/
def keyEntries (bs : List Byte) : List KeyEnt :=
  let p := oneSect bs 9
  (entries 16 (slice p 16 (16 * getLe p 0 4))).map fun e =>
    let kind := getLe e 4 1
    { stage := getLe e 0 2, order := getLe e 2 2, kind := kind, level := getLe e 5 1, boot := if kind = 4 then getLe e 6 1 else 0
      pin := bit (getLe e 7 1) 0, hoistFirst := bit (getLe e 7 1) 1, hoistMember := bit (getLe e 7 1) 2
      galois := if kind = 3 then fld (getLe e 8 4) 0 18 else 0, batch := getLe e 0xC 2 }

/-- The material entries. -/
def matEntries (bs : List Byte) : List MatEnt :=
  let p := oneSect bs 9
  (entries 16 (slice p (16 + 16 * getLe p 0 4) (16 * getLe p 0xC 1))).map fun e =>
    { kind := getLe e 0 1, bits := getLe e 1 1, pieces := getLe e 2 1, degree := getLe e 3 1, prime := getLe e 4 1
      func := getLe e 6 2, perReq := getLe e 8 4 }

/-- α of the plan's ring, and the bytes that a stream of a level reads (R98, R109). -/
def planAlpha (bs : List Byte) : Nat := ceilDiv (getLe (oneSect bs 9) 9 1) (max (getLe (oneSect bs 9) 0xB 1) 1)
def streamBytes (bs : List Byte) (level : Nat) : Nat :=
  ceilDiv (level + 1) (max (planAlpha bs) 1) * 2 * (level + 1 + getLe (oneSect bs 9) 0xA 1) * 2 ^ planLogN bs * 9 / 2

/-- Whether every HOIST_MEMBER follows a HOIST_FIRST of its stage and level, with members of the group between (R112). -/
def hoistsOk : List KeyEnt → Option KeyEnt → Bool
  | [], _ => true
  | e :: r, g =>
    if e.hoistMember then (g.any fun f => f.stage == e.stage && f.level == e.level) && hoistsOk r g
    else hoistsOk r (if e.hoistFirst then some e else none)

/-- A stage's key entries in ORDER. -/
def stageKeys (bs : List Byte) (idx : Nat) : List KeyEnt :=
  ((keyEntries bs).filter fun e => e.stage = idx).foldl (fun l e => insertBy (·.order) e l) []

/-- The key plan's checks; `free` is the MiB of cache that the image may pin (R337). -/
def checkPlan (free : Nat) (bs : List Byte) : Option Reject :=
  let p := oneSect bs 9
  let n := getLe p 0 4
  let ks := keyEntries bs
  let ms := matEntries bs
  let rn := planRing bs
  let n' := stageTotal bs
  let qn := rn.getD 1 0
  let form := decide (p.length = 16 + 16 * n + 16 * getLe p 0xC 1) && decide (n ≤ 65536 ∧ getLe p 0xC 1 ≤ 16) &&
    decide (planPin bs % 32 = 0 ∧ planPin bs ≤ 256 ∧ 1 ≤ planWait bs ∧ planWait bs ≤ 10000) &&
    decide (15 ≤ rn.getD 0 0 ∧ rn.getD 0 0 ≤ 17)
  let keyOk := fun (e : KeyEnt) => decide (2 ≤ e.kind ∧ e.kind ≤ 4 ∧ e.stage < n' ∧ e.level < max qn 1 ∧ 1 ≤ e.batch ∧ e.batch ≤ 256 ∧ e.boot ≤ 15)
  let matOk := fun (m : MatEnt) => m.valid && decide (m.prime < max (planPrimes bs) 1)
  let stagesOk := (List.range n').all fun i =>
    let l := stageKeys bs i
    (l.zipIdx.all fun e => e.1.order == e.2) && hoistsOk l none
  let pinned := ((ks.filter (·.pin)).map fun e => streamBytes bs e.level).foldl (· + ·) 0
  let apart := (ms.zipIdx.all fun a => ms.zipIdx.all fun b =>
    a.2 == b.2 || decide ({ a.1 with perReq := 0 } ≠ { b.1 with perReq := 0 }))
  let steps := ((ks.filter fun e => e.kind = 3).map (·.galois)).eraseDups
  must (form && ks.all keyOk && ms.all matOk && stagesOk && decide (pinned ≤ planPin bs * 2 ^ 20) && decide (planPin bs ≤ free) &&
    apart && decide (steps.length ≤ 1024)) { reason := 5 }

end Sys2Proof.Machine
end

