-- ==== Sys2Proof/Machine/ImageChecks.lean ====
section
/-! DEFINITION. The static checks of LOAD_IMAGE on tensor descriptors, chuck descriptors, the HXP plan and travel patches
(05 R123 to R135; 07 R166 to R173, R180; 11 R292; 12 R326, R330). -/
namespace Sys2Proof.Machine

/-! ### Tensor descriptors (Tables 5-2, 5-3) -/

/-- A shard entry of a tensor descriptor. -/
structure ShardEnt where
  shard : Nat
  stage : Nat
  device : Nat
  header : Nat
  data : Nat
  bytes : Nat
  deriving DecidableEq, Repr

/-- A tensor descriptor with its shard entries. -/
structure Tensor where
  id : Nat
  elemType : Nat
  rank : Nat
  object : Nat
  home : Nat
  extents : List Nat
  kinds : List Nat
  level : Nat
  extended : Bool
  counts : List Nat
  special : Nat
  headers : Bool
  locals : Nat
  crcOk : Bool
  shards : List ShardEnt
  deriving DecidableEq, Repr

/-- A shard entry's 32 bytes. -/
def parseShard (e : List Byte) : ShardEnt :=
  { shard := getLe e 0 2, stage := getLe e 2 2, device := getLe e 4 2 % 4096, header := getLe e 8 8, data := getLe e 0x10 8
    bytes := getLe e 0x18 4 }

/-- A tensor descriptor from its first byte on. -/
def parseTensor (b : List Byte) : Tensor :=
  let n := getLe b 0x2E 2
  let five := fun (f : Nat → Nat) => (List.range 5).map f
  { id := getLe b 0 4, elemType := getLe b 4 1, rank := getLe b 5 1, object := getLe b 6 1, home := getLe b 7 1
    extents := five fun d => getLe b (8 + 4 * d) 4, kinds := five fun d => getLe b (0x1C + d) 1
    level := getLe b 0x21 1 % 128, extended := bit (getLe b 0x21 1) 7, counts := five fun d => getLe b (0x22 + 2 * d) 2
    special := getLe b 0x2C 1, headers := bit (getLe b 0x2D 1) 0, locals := n, crcOk := crcAt (b.take 64) 0x3C
    shards := (entries 32 (slice b 64 (32 * n))).map parseShard }

/-- The descriptors of section 0x07, one after another. -/
def tensorsFrom : Nat → List Byte → List Tensor
  | 0, _ => []
  | f + 1, b =>
    if b.length < 64 then []
    else
      let t := parseTensor b
      t :: tensorsFrom f (b.drop (64 + 32 * t.locals))

/-- The tensors of an image. -/
def tensors (bs : List Byte) : List Tensor := tensorsFrom ((oneSect bs 7).length / 64 + 1) (oneSect bs 7)

/-- C_d: shards along dimension d (R131, R132). -/
def Tensor.c (t : Tensor) (d : Nat) : Nat := t.counts.getD d 1 + (if t.kinds.getD d 0 = 3 then t.special else 0)

/-- The limb dimension of a ciphertext tensor (R133). -/
def Tensor.limbDim (t : Tensor) : Nat := t.rank - 2

/-- The indices that shard `x` of dimension `d` holds: first and count (R129, R130, R132). -/
def Tensor.part (t : Tensor) (d x : Nat) : Nat × Nat :=
  let e := t.extents.getD d 0
  let s := max (t.counts.getD d 1) 1
  let cut := fun (n s x : Nat) => (x * n / s, (x + 1) * n / s - x * n / s)
  match t.kinds.getD d 0 with
  | 1 =>
    if d + 1 = t.rank then
      let g := grainElems t.elemType
      let m := cut (ceilDiv e g) s x
      (m.1 * g, min ((m.1 + m.2) * g) e - m.1 * g)
    else cut e s x
  | 2 => (x, ceilDiv (e - x) s)
  | 3 =>
    let l := t.level + 1
    if x < s then cut l s x
    else
      let y := cut (e - l) (max t.special 1) (x - s)
      (l + y.1, y.2)
  | _ => (0, e)

/-- Coordinates of a shard number (R131). -/
def Tensor.coordsOf (t : Tensor) (n : Nat) : List Nat := coords ((List.range t.rank).map t.c) n

/-- The local extents of a shard. -/
def Tensor.local (t : Tensor) (n : Nat) : List Nat :=
  (t.coordsOf n).zipIdx.map fun e => (t.part e.2 e.1).2

/-- Elements that a shard's data takes, the innermost dimension padded to grains (R124). -/
def paddedElems (elemType : Nat) (extents : List Nat) : Nat :=
  let g := grainElems elemType
  extents.dropLast.foldl (· * ·) (g * ceilDiv (extents.getLastD 0) g)

/-- DATA_BYTES of a shard (R124). -/
def Tensor.dataBytes (t : Tensor) (n : Nat) : Nat := paddedElems t.elemType (t.local n) * typeBits t.elemType / 8

/-- Bench rows of a shard's data (R143). -/
def Tensor.dataRows (t : Tensor) (n : Nat) : Nat :=
  ceilDiv (paddedElems t.elemType (t.local n) / grainElems t.elemType * grainWords t.elemType) 64

/-- Objects that a shard holds, each with a header slot (R127, R133, R135). -/
def Tensor.objects (t : Tensor) (n : Nat) : Nat :=
  if !t.headers then 0
  else if (t.object = 1 ∧ t.rank = 4) ∨ (t.object = 2 ∧ t.rank = 2) then (t.local n).headD 1 else 1

/-- The sharding fields of the headers of a ciphertext tensor's shard: LIMB_FIRST, LIMB_COUNT, SHARD_KIND, SHARD_INDEX, SHARD_COUNT,
COEFF_FIRST, COEFF_COUNT (R134). -/
def Tensor.sharding (t : Tensor) (n : Nat) : List Nat :=
  let d := t.limbDim
  let xs := t.coordsOf n
  let l := t.part d (xs.getD d 0)
  let c := t.part (d + 1) (xs.getD (d + 1) 0)
  let count := t.c d * t.c (d + 1)
  if t.object ≠ 1 then []
  else [if l.1 ≤ t.level then l.1 else 64 + (l.1 - (t.level + 1)), l.2, if count = 1 then 0 else if t.c (d + 1) = 1 then 1 else 2,
    xs.getD d 0 * t.c (d + 1) + xs.getD (d + 1) 0, count, c.1, c.2]

/-- Field ranges, counts and sharding kinds (R123, R127, R129, R130, R132). -/
def Tensor.fieldsOk (t : Tensor) : Bool :=
  let dims := List.range 5
  let kindOk := fun (d : Nat) =>
    let e := t.extents.getD d 0
    let s := t.counts.getD d 1
    let inner := d + 1 == t.rank
    if t.rank ≤ d then decide (e = 0 ∧ t.kinds.getD d 0 = 0 ∧ s = 1)
    else decide (1 ≤ e ∧ 1 ≤ s ∧ s ≤ 4096) && match t.kinds.getD d 0 with
      | 0 => s == 1
      | 1 => if inner then decide (s ≤ ceilDiv e (grainElems t.elemType)) else decide (s ≤ e)
      | 2 => decide (s ≤ e) && !inner && !(t.object == 1 && (d == t.limbDim || d + 1 == t.limbDim))
      | 3 => t.object == 1 && d == t.limbDim && decide (s ≤ t.level + 1)
      | _ => false
  decide (1 ≤ t.elemType ∧ t.elemType ≤ 5 ∧ 1 ≤ t.rank ∧ t.rank ≤ 5 ∧ t.object ≤ 2 ∧ t.home ≤ 3 ∧ t.special ≤ 16) && t.crcOk &&
    (t.object == 1 || (t.level == 0 && !t.extended)) && dims.all kindOk &&
    decide (1 ≤ t.locals ∧ t.locals ≤ 4096 ∧ t.shards.length = t.locals) &&
    decide (((List.range t.rank).map t.c).foldl (· * ·) 1 ≤ 4096)

/-- Ciphertext and share tensors (R132, R133, R135); `r` is the plan's ring as LOG_N, Q_COUNT, P_COUNT. -/
def Tensor.objectOk (t : Tensor) (logN q p : Nat) : Bool :=
  let k := fun (d : Nat) => t.kinds.getD d 0
  let l := t.limbDim
  if t.object = 1 then
    let limbs := t.level + 1 + (if t.extended then p else 0)
    decide ((t.rank = 3 ∨ t.rank = 4) ∧ t.elemType = 1 ∧ t.level < q) && t.headers && t.extents.getD l 0 == limbs &&
      t.extents.getD (l + 1) 0 == 2 ^ logN && (t.extents.getD (l - 1) 0 == 2 || t.extents.getD (l - 1) 0 == 3) &&
      k (l - 1) == 0 && (k l == 0 || k l == 3) && (k (l + 1) == 0 || k (l + 1) == 1) &&
      (if t.extended ∧ k l = 3 then decide (1 ≤ t.special ∧ t.special ≤ p) else t.special == 0)
  else if t.object = 2 then
    decide ((t.rank = 1 ∨ t.rank = 2) ∧ (t.elemType = 1 ∨ t.elemType = 2)) && t.headers && t.special == 0 &&
      (k (t.rank - 1) == 0 || k (t.rank - 1) == 1) && decide (t.extents.getD (t.rank - 1) 0 ≤ 2 ^ 24)
  else t.special == 0

/-- The space that a shard takes: home, stage or window, first unit, units; units are rows in a bench, else bytes. -/
def Tensor.space (winMap : List (Nat × Nat)) (t : Tensor) (e : ShardEnt) : List (Nat × Nat × Nat × Nat) :=
  let h := t.objects e.shard
  if t.home = 0 then
    (0, e.stage, e.data / 512, t.dataRows e.shard) :: (if h = 0 then [] else [(0, e.stage, e.header / 512, h)])
  else
    let slot := if t.home = 3 then tget (fld e.data 32 16) winMap (fld e.data 32 16) else 0
    (t.home, slot, e.data % 2 ^ 32, e.bytes) :: (if h = 0 then [] else [(t.home, slot, e.header % 2 ^ 32, 64 * h)])

/-- One shard entry: DATA_BYTES, device, number, alignment and region (R124, R126, R128, R142); `sz` and `part` are LLM_BYTES
and the bytes of one GDDR part, `rows` the rows of a stage's bench below its cache. -/
def Tensor.shardOk (t : Tensor) (me llm part slots : Nat) (stageRows : Nat → Option Nat) (e : ShardEnt) : Bool :=
  let h := t.objects e.shard
  let n := ((List.range t.rank).map t.c).foldl (· * ·) 1
  let inPart := fun (a n : Nat) => n == 0 || (decide (0 < part) && a / max part 1 == (a + n - 1) / max part 1 && decide (a + n ≤ 16 * part))
  decide (e.shard < n) && e.device == me && e.bytes == t.dataBytes e.shard && (t.headers || e.header == 0) &&
    match t.home with
    | 0 =>
      match stageRows e.stage with
      | none => false
      | some rows => decide (e.data % 512 = 0 ∧ e.header % 512 = 0 ∧ e.data / 512 + t.dataRows e.shard ≤ rows ∧ e.header / 512 + h ≤ rows)
    | 1 => decide (e.stage = 0xFFFF ∧ e.data % 64 = 0 ∧ e.header % 64 = 0 ∧ e.data + e.bytes ≤ llm ∧ e.header + 64 * h ≤ llm)
    | 2 => decide (e.stage = 0xFFFF ∧ e.data % 64 = 0 ∧ e.header % 64 = 0) && inPart e.data e.bytes && inPart e.header (64 * h) &&
        (h == 0 || e.header / max part 1 == e.data / max part 1)
    | _ => decide (e.stage = 0xFFFF ∧ e.data % 64 = 0 ∧ e.header % 64 = 0 ∧ e.data < 2 ^ 48 ∧ e.header < 2 ^ 48 ∧
        e.data % 2 ^ 32 + e.bytes ≤ 2 ^ 32 ∧ e.header % 2 ^ 32 + 64 * h ≤ 2 ^ 32 ∧ (h = 0 ∨ e.header / 2 ^ 32 = e.data / 2 ^ 32)) && bit slots (fld e.data 32 16)

/-- Rows of a stage's bench below its cache rows (R155); `n` is the index of its stage record. -/
def stageRowsOf (bs : List Byte) (n : Nat) : Option Nat := ((stageRecs bs)[n]?).map fun r => 16384 - 1024 * r.cacheBlocks

/-- No two spaces of a list meet. -/
def spacesApart : List (Nat × Nat × Nat × Nat) → Bool
  | [] => true
  | x :: r => (r.all fun y => !(x.1 == y.1 && x.2.1 == y.2.1 && meet x.2.2.1 x.2.2.2 y.2.2.1 y.2.2.2)) && spacesApart r

/-- R128 on every tensor descriptor; `me` is this device's id, and two window slots mapped to one window are one space. -/
def checkTensors (me : Nat) (winMap : List (Nat × Nat)) (bs : List Byte) : Option Reject :=
  let ts := tensors bs
  let rn := planRing bs
  let one := fun (t : Tensor) => t.fieldsOk && t.objectOk (rn.getD 0 0) (rn.getD 1 0) (rn.getD 2 0) &&
    decide ((t.shards.map fun (e : ShardEnt) => e.shard).Nodup) &&
    t.shards.all fun e => t.shardOk me (imgLlm bs) (partSize (imgGddr bs)) (imgSlots bs) (stageRowsOf bs) e
  must (ts.all one && decide ((ts.map fun (t : Tensor) => t.id).Nodup) && spacesApart (ts.flatMap fun t => t.shards.flatMap (t.space winMap)))
    { reason := 4 }

/-! ### The instructions of a stage -/

/-- The instruction words of a stage. -/
def stageCode (bs : List Byte) (span stage : Nat) : List IWord :=
  (entries 16 (stageSect bs 3 span stage)).map fun e => BitVec.ofNat 128 (leNat e)

/-- Code of a loadable routine of the image. -/
def routineWords (bs : List Byte) (id : Nat) : List IWord :=
  match (routineSects bs).find? fun r => routineId r = id with
  | some r => (entries 16 (routineCode r)).map fun e => BitVec.ofNat 128 (leNat e)
  | none => []

/-- Every instruction that a stage's program and the image's routines hold. -/
def stageInstrs (bs : List Byte) (span stage : Nat) : List Instr :=
  let all := stageCode bs span stage ++ (routineSects bs).flatMap fun r => routineWords bs (routineId r)
  all.filterMap fun w => decodeWord 0 w

/-- The descriptors that a stage's instructions name: index, whether an address register is added to START. -/
def namedDescs (bs : List Byte) (span stage : Nat) : List (Nat × Bool) :=
  ((stageInstrs bs span stage).filterMap fun i => match i with
    | .chk _ _ d a => some (d, a.en)
    | .launch _ o => if o.kind = 0 then some (o.desc, o.arstart.en) else none
    | _ => none).eraseDups

/-- Descriptor `n` of a stage as the image holds it. -/
def imageDesc (bs : List Byte) (span stage n : Nat) : Desc := parseDesc (slice (stageSect bs 4 span stage) (128 * n) 128)

/-! ### Chuck descriptors (R166 to R173, R180, Table 7-4) -/

/-- Field ranges and the combinations of Table 7-4, "Gather and scatter", R170 and R180. -/
def Desc.formOk (d : Desc) (primes : Nat) : Bool :=
  let run1 := d.strides.getLastD 0 == 1
  let whole := d.run == 2 ^ d.logN
  let xf := match d.xform with
    | 0 => d.farKind != 4
    | 1 => d.elemType == 1 && !d.dir && run1 && whole && !d.headers
    | 2 => d.elemType == 1 && !d.dir && run1 && whole && decide (d.farKind ≤ 3)
    | 3 => !d.dir
    | 4 => d.farKind == 4 && decide (d.dims ≤ 2) && d.elemType == 1 && !d.dir
    | 5 => d.elemType == 1 && (!d.dir || d.farKind == 0) && decide (d.elems % 4096 = 0)
    | _ => false
  let idx := !d.indexed || (d.dims == 2 && d.strides.getD 0 0 == 0 && decide (1 ≤ d.counts.getD 0 0 ∧ d.counts.getD 0 0 ≤ 4096) &&
    d.xform == 0)
  let acc := !d.accumulate || (d.dir && d.xform == 0 && decide (d.elemType ≤ 2) && d.farKind != 3 &&
    (d.elemType != 1 || decide (d.prime < primes)))
  decide (d.farKind ≤ 6 ∧ 1 ≤ d.elemType ∧ d.elemType ≤ 5 ∧ 1 ≤ d.dims ∧ d.dims ≤ 5 ∧ d.headerCount ≤ 256 ∧ d.elems ≤ 2 ^ 32) &&
    (d.counts.all (· ≤ 2 ^ 24)) && xf && idx && acc && (d.xform != 4 || decide (d.prime < primes)) &&
    (!d.headers || d.headerCount == 0 || decide (d.elems % d.headerCount = 0))

/-- CLASS and direction by FAR_KIND (R67, R168, R179). -/
def Desc.kindOk (d : Desc) : Bool :=
  if d.farKind = 5 then d.cls == 1 && !d.dir && d.headers && d.headerCount == 1
  else if d.farKind = 6 then d.cls == 1 && !d.dir && !d.headers
  else decide (d.cls = 0 ∨ d.cls = 2)

/-- Elements of one bench row (R143). -/
def Desc.perRow (d : Desc) : Nat := 64 * grainElems d.elemType / grainWords d.elemType

/-- A local move's far-side runs: whole rows from lane 0 at stride +1 (R168). -/
def Desc.localOk (d : Desc) : Bool :=
  let per := d.perRow
  d.farKind != 0 || (d.strides.getLastD 0 == 1 && decide (d.farBase % 512 = 0 ∧ d.start % per = 0 ∧ d.run % per = 0) &&
    (d.strides.dropLast.all fun s => decide (s % (per : Int) = 0)))

/-- The offsets of a key stream lie in the limbs that R109 gives for the entry's level. -/
def keyWalkOk (bs : List Byte) (d : Desc) : Bool :=
  match (keyEntries bs)[fld d.farBase 0 16]? with
  | none => false
  | some e =>
    let n := 2 ^ planLogN bs
    let rn := planRing bs
    let tot := planPrimes bs
    let dg := ceilDiv (e.level + 1) (max (planAlpha bs) 1)
    let ok := fun (o : Int) =>
      let x := o.toNat
      let l := x / n % max tot 1
      decide (0 ≤ o ∧ x / (n * max tot 1) < 2 * dg ∧ (l ≤ e.level ∨ rn.getD 1 0 ≤ l))
    -- along a run, an offset at the start of each limb that it enters decides for that limb
    let st := (d.strides.getLastD 0).natAbs
    let step := if st = 0 then max d.run 1 else max (n / st) 1
    d.elems == 0 || ((List.range (d.elems / max d.run 1)).all fun i => (List.range (ceilDiv d.run step + 1)).all fun j =>
      ok (d.walk.offset (i * d.run + min (j * step) (d.run - 1))))

/-- The far region of a descriptor (R126, R168, R292, R334): for FAR_KIND 1 the image's region starts above the system area and the
footprint may reach to the end of a scratchpad of `scratch` bytes, the region that R126 names. -/
def Desc.farOk (d : Desc) (scratch : Nat) (bs : List Byte) : Bool :=
  let llm := scratch - 0x2000000
  let part := partSize (imgGddr bs)
  -- the data's far bytes, by LIMIT where an index adds to the walk, and the header slots, which lie in the same region (R126)
  let y := (d.farRange.1 - d.farBase, d.farRange.2)
  let h := if d.headers then 64 * d.headerCount else 0
  -- whether `n` bytes from `a` lie in one part of the GDDR region
  let inPart := fun (a n : Nat) => decide (0 < part ∧ a % max part 1 + n ≤ part ∧ a < 16 * part)
  match d.farKind with
  | 0 => decide (d.farBase % 512 = 0 ∧ (0 < h → d.farHeader % 512 = 0))
  | 1 => decide (d.farBase % 64 = 0 ∧ d.farBase + y.1 + y.2 ≤ llm ∧ (0 < h → d.farHeader % 64 = 0 ∧ d.farHeader + h ≤ llm))
  | 2 => decide (d.farBase % 64 = 0) && inPart (d.farBase + y.1) y.2 && (h == 0 ||
      (decide (d.farHeader % 64 = 0 ∧ (y.2 = 0 ∨ d.farHeader / max part 1 = d.farBase / max part 1)) && inPart d.farHeader h))
  | 3 => decide (d.farBase % 64 = 0 ∧ d.farBase % 2 ^ 32 + y.1 + y.2 ≤ 2 ^ 32 ∧
      (0 < h → d.farHeader % 64 = 0 ∧ d.farHeader / 2 ^ 32 = d.farBase / 2 ^ 32 ∧ d.farHeader % 2 ^ 32 + h ≤ 2 ^ 32))
  | 4 => decide (d.farBase % 64 = 0 ∧ 0x1000 ≤ d.farBase ∧ d.farBase < 0x2000000)
  | 5 => keyWalkOk bs d
  | 6 => match (matEntries bs)[fld d.farBase 0 8]? with
    | some m => decide (d.limit * typeBits d.elemType ≤ 8 * (m.perReq * m.itemBytes))
    | none => false
  | _ => false

/-- Bench rows that the far side of a local move covers: its data, by the walk from START or by LIMIT where an index adds to it, and its
header rows (R142, R155). -/
def Desc.farRows (d : Desc) : List (Nat × Nat) :=
  let b := if d.indexed then ((0 : Int), (d.limit : Int) - 1) else d.walk.bounds
  let lo := b.1.toNat / d.perRow
  (if d.elems = 0 then [] else [(d.farRow + lo, b.2.toNat / d.perRow + 1 - lo)]) ++
    if d.headers ∧ 0 < d.headerCount then [(fld d.farHeader 9 14, d.headerCount)] else []

/-- The bench rows of a descriptor below the cache rows, its index rows, and the far rows of a local move (R155, R168). -/
def Desc.benchOk (d : Desc) (rows : Nat) : Bool :=
  let f := d.footprint (if d.xform = 4 then 64 * d.elems else 0)
  (d.elems == 0 || decide (f.1 + f.2 ≤ rows)) && (!d.indexed || decide (d.indexRow + ceilDiv (d.counts.getD 0 0) 64 ≤ rows)) &&
    (d.farKind != 0 || d.farRows.all fun r => decide (r.1 + r.2 ≤ rows))

/-- The static footprint of a descriptor whose issues add no register (R167). -/
def Desc.boundsOk (d : Desc) : Bool :=
  let b := d.walk.bounds
  d.elems == 0 || d.indexed || decide (0 ≤ b.1 ∧ b.2 < (d.limit : Int))

/-- Descriptors of the whole image that some instruction names, each with whether a register is added to its START. -/
def imageDescs (bs : List Byte) : List (Desc × Bool) :=
  (stageRecs bs).flatMap fun r => (namedDescs bs r.span r.stage).map fun e => (imageDesc bs r.span r.stage e.1, e.2)

/-- The far regions of a descriptor, data and header slots; where a register or an index adds to START, all that LIMIT allows. -/
def Desc.regions (e : Desc × Bool) : List (Nat × Nat) :=
  let d := e.1
  (if e.2 then ({ d with indexed := true } : Desc).farRange else d.farRange) ::
    if d.headers then [(d.farHeader, 64 * d.headerCount)] else []

/-- CACHEABLE only on reads of the image's own LLM or GDDR bytes, over which no window is registered, that no transfer of the image
writes (R157). -/
def cacheableOk (bs : List Byte) (ds : List (Desc × Bool)) (e : Desc × Bool) : Bool :=
  let d := e.1
  let own := if d.farKind = 1 then imgLlm bs else 16 * partSize (imgGddr bs)
  let rs := Desc.regions e
  !d.cacheable || (!d.dir && decide (d.farKind = 1 ∨ d.farKind = 2) && (rs.all fun r => decide (r.1 + r.2 ≤ own)) &&
    ds.all fun w => !(w.1.dir && w.1.farKind == d.farKind && (Desc.regions w).any fun a => rs.any fun r => meet r.1 r.2 a.1 a.2))

/-- A transfer of ciphertext or share objects carries headers (R180): a descriptor without them that names a held shard's data. -/
def objectHdrsOk (ts : List Tensor) (d : Desc) : Bool :=
  d.headers || !(decide (1 ≤ d.farKind ∧ d.farKind ≤ 3)) || d.elems == 0 ||
    !(ts.any fun t => t.object != 0 && t.home == d.farKind && t.shards.any fun e => meet d.farRange.1 d.farRange.2 e.data e.bytes)

/-- The descriptors of a stage that R168 checks: those that an instruction names, and every other entry of its table but the empty
ones, all of whose bytes are zero; whether START is known at load. DEDUCED: log entry 54. -/
def tableDescs (bs : List Byte) (span stage : Nat) : List (Nat × Bool) :=
  let named := namedDescs bs span stage
  let sec := stageSect bs 4 span stage
  named ++ ((List.range (sec.length / 128)).filter fun n =>
    named.all (fun e => e.1 != n) && (slice sec (128 * n) 128).any fun b => b != 0).map fun n => (n, true)

/-- Every descriptor of a stage. -/
def checkDescs (scratch : Nat) (bs : List Byte) : Option Reject :=
  let ds := imageDescs bs
  let ts := tensors bs
  firstReject ((stageRecs bs).flatMap fun r =>
    let rows := 16384 - 1024 * r.cacheBlocks
    (tableDescs bs r.span r.stage).flatMap fun e =>
      let d := imageDesc bs r.span r.stage e.1
      let rej := fun (n : Nat) => ({ reason := n, stage := r.stage } : Reject)
      [must (decide (128 * (e.1 + 1) ≤ (stageSect bs 4 r.span r.stage).length)) (rej 0xE),
        must (!(d.dir && d.farKind == 4)) (rej 3), must (d.farKind != 3 || bit (imgSlots bs) (fld d.farBase 32 16)) (rej 1),
        must (d.formOk (planPrimes bs) && d.kindOk && d.localOk && d.farOk scratch bs && d.benchOk rows && (e.2 || d.boundsOk) &&
          cacheableOk bs ds (d, e.2) && objectHdrsOk ts d) (rej 0xE)])

/-! ### The HXP plan (R326, R330) -/

/-- The slot entries of the plan. -/
def hxpSlots (bs : List Byte) : List HxpSlot :=
  let p := oneSect bs 0xD
  (entries 32 (slice p 16 (32 * getLe p 0 2))).map fun e =>
    { slot := getLe e 0 2, recv := bit (getLe e 2 1) 0, op := fld (getLe e 2 1) 1 3, type := getLe e 3 1, peer := getLe e 4 1
      journal := bit (getLe e 5 1) 0, discRoute := bit (getLe e 5 1) 1, discExit := bit (getLe e 5 1) 2
      forward := bit (getLe e 5 1) 3, step := getLe e 6 2, tensor := getLe e 8 4, srcTensor := getLe e 0xC 4
      bytes := getLe e 0x10 4, material := getLe e 0x14 1, prime := getLe e 0x15 1, limbs := getLe e 0x16 1
      shift := getLe e 0x17 1, point := getLe e 0x18 2, timeoutMs := getLe e 0x1A 2, mult := getLe e 0x1C 4 }

/-- ARRIVAL_ENTRIES, and the bytes of one entry (R328). -/
def arrivalEntries (bs : List Byte) : Nat := getLe (oneSect bs 0xD) 4 4
def arrivalBytes (bs : List Byte) : Nat :=
  (((hxpSlots bs).filter (·.recv)).map fun h => ceilDiv h.bytes 64 * 64).foldl (· + ·) 0

/-- The function entries: id, bits, pieces, degree (Table 12-8). -/
def functionsFrom : Nat → List Byte → List (Nat × Nat × Nat × Nat)
  | 0, _ => []
  | n + 1, b =>
    let p := getLe b 3 1
    let d := getLe b 4 1
    (getLe b 0 2, getLe b 2 1, p, d) :: functionsFrom n (b.drop (32 + 8 * p * (d + 1)))
def functionEnts (bs : List Byte) : List (Nat × Nat × Nat × Nat) :=
  let p := oneSect bs 0xD
  functionsFrom (getLe p 2 2) (p.drop (16 + 32 * getLe p 0 2))

/-- End of the bytes that the image's LLM tensors take. -/
def llmTensorEnd (bs : List Byte) : Nat :=
  ((tensors bs).flatMap fun t => if t.home = 1 then t.shards.flatMap fun e => (t.space [] e).map fun x => x.2.2.1 + x.2.2.2 else []).foldl max 0

/-- The element type that a slot's tensor has by its TYPE and OP (R330, Table 12-6). -/
def HxpSlot.tensorType (h : HxpSlot) : Nat := if h.type = 1 ∨ h.type = 5 ∨ (h.recv ∧ h.op = 3) then 1 else 2

/-- R330. -/
def checkHxp (bs : List Byte) : Option Reject :=
  let hs := hxpSlots bs
  let ts := tensors bs
  let ms := matEntries bs
  let fs := functionEnts bs
  let typed := fun (n ty : Nat) => ts.any fun t => t.id == n && t.home == 1 && t.elemType == ty
  let srcType := fun (h : HxpSlot) => if h.op = 1 then 1 else 2
  let one := fun (h : HxpSlot) =>
    decide (h.op ≤ 3 ∧ 1 ≤ h.type ∧ h.type ≤ 5 ∧ h.peer ≤ 2 ∧ h.shift ≤ 63) && typed h.tensor h.tensorType &&
      (h.op == 0 || (h.recv && typed h.srcTensor (srcType h))) && (h.material == 0xFF || decide (h.material < ms.length)) &&
      (!(h.discRoute || h.discExit) || (condPoints bs).any fun c => c.point == h.point) &&
      (h.op != 1 || decide (h.prime < planPrimes bs)) &&
      (h.op != 3 || decide (1 ≤ h.limbs ∧ h.limbs ≤ (planRing bs).getD 1 0 ∧ 1 ≤ h.mult))
  let fnOk := fun (f : Nat × Nat × Nat × Nat) => ms.all fun m =>
    !(m.kind == 1 && m.func == f.1) || decide (m.bits = f.2.1 ∧ m.pieces = f.2.2.1 ∧ m.degree = f.2.2.2)
  must (hs.all one && decide ((hs.map fun h => (h.step, h.recv)).Nodup) && fs.all fnOk &&
      (!(hs.any (·.recv)) || decide (1 ≤ arrivalEntries bs)) && decide (arrivalEntries bs ≤ 65536) &&
      decide (llmTensorEnd bs + 16384 * imgSpans bs + arrivalEntries bs * arrivalBytes bs ≤ imgLlm bs)) { reason := 1 }

/-! ### Travel patches (R292) -/

/-- A patch names an instruction of its stage that its field fits, and declared edges. -/
def checkPatches (bs : List Byte) : Option Reject :=
  firstReject ((List.range (imgSpans bs)).flatMap fun k =>
    let n := (spanEdges bs k).length
    (spanPatches bs k).map fun x =>
      let w := (stageCode bs k x.stage)[x.pc]?
      let timed := match w.bind (decodeWord 0) with
        | some (.waitt _ _) => true
        | some (.launch _ _) => true
        | _ => false
      must (w.isSome && decide (x.field ≤ 1) && (x.field == 0 || timed) && x.edges.all fun e => decide (e.1 < n))
        { reason := 1, stage := x.stage, pc := x.pc })

end Sys2Proof.Machine
end

