-- ==== Sys2Proof/Machine/Route.lean ====
section
/-! DEFINITION. Deck routes: the links and crossing channels that a flit of an edge claims, with the fc in which it does
(01_architecture R26 to R28; 11_spans R290). -/
namespace Sys2Proof.Machine

/-- The link that leaves router (die, column, row) to the east, west, south or north (0 to 3). -/
def linkId (d c r dir : Nat) : Nat := ((d * 8 + c) * 12 + r) * 4 + dir

/-- Channel `n` of the crossing port of a column, in the direction that leaves a die. -/
def crossId (d c n : Nat) : Nat := 768 + (d * 8 + c) * 4 + n

/-- Links along row `r` from column `c` to column `c'`. -/
def rowHops (d c r c' : Nat) : List Nat :=
  if c ≤ c' then (List.range (c' - c)).map fun i => linkId d (c + i) r 0 else (List.range (c - c')).map fun i => linkId d (c - i) r 1

/-- Links along column `c` from row `r` to row `r'`. -/
def colHops (d c r r' : Nat) : List Nat :=
  if r ≤ r' then (List.range (r' - r)).map fun i => linkId d c (r + i) 2 else (List.range (r - r')).map fun i => linkId d c (r - i) 3

/-- The route from pier `a` to pier `b` by crossing channel `chan`: each link with the fc, counted from the injection, in
which a flit is on it (R27). -/
def routeOf (chan a b : Nat) : List (Nat × Nat) :=
  let d := a / 96; let c := a / 12 % 8; let r := a % 12
  let d' := b / 96; let c' := b / 12 % 8; let r' := b % 12
  if d = d' then (rowHops d c r c' ++ colHops d c' r r').zipIdx
  else
    let out := if d < d' then 11 else 0
    let in_ := if d < d' then 0 else 11
    let first := colHops d c r out
    let n := first.length
    first.zipIdx ++ [(crossId d c chan, n)] ++ (rowHops d' c in_ c' ++ colHops d' c' in_ r').zipIdx.map fun e => (e.1, n + 10 + e.2)

/-- The crossing port that an edge uses, none within a die. -/
def portOf (a b : Nat) : Option (Nat × Nat) := if a / 96 = b / 96 then none else some (a / 96, a / 12 % 8)

/-- The route of each edge of a span placed on `piers`, cross-die edges taking a port's four channels in turn (R290). -/
def edgeRoutes (piers : List Nat) (edges : List Edge) : List (List (Nat × Nat)) :=
  let ends := edges.map fun e => (piers.getD e.src 0, piers.getD e.dst 0)
  ends.zipIdx.map fun e =>
    let before := (ends.take e.2).filter fun g => (portOf e.1.1 e.1.2).isSome && portOf g.1 g.2 == portOf e.1.1 e.1.2
    routeOf (before.length % 4) e.1.1 e.1.2

/-- Every link and channel on the routes of a span (R290). -/
def spanLinks (piers : List Nat) (edges : List Edge) : List Nat :=
  ((edgeRoutes piers edges).flatMap fun r => r.map (·.1)).eraseDups

end Sys2Proof.Machine
end

