-- ==== Sys2Proof/Machine/Verify.lean ====
section
/-! DEFINITION. The verifier: the schedule of a placed span expanded and run through without data, every rule on issue, units,
ports, slots, scoreboard, phases, deck and tokens checked in each fc (11_spans R283, R285, R286; 10 R248 to R273; 06 R145 to
R151; 08 R190 to R204; 09 R219 to R239; 07 R168, R177, R183; 04 R108; log entry 19). -/
namespace Sys2Proof.Machine

/-- Reason codes of Table 11-11 for a schedule. -/
def rTensor : Nat := 4
def rKeys : Nat := 5
def rUnit : Nat := 8
def rSlot : Nat := 9
def rScore : Nat := 0xA
def rDeck : Nat := 0xB
def rToken : Nat := 0xC
def rFlow : Nat := 0xD
def rChuck : Nat := 0xE
def rLimit : Nat := 0x10

/-- What the verifier knows of a stage. -/
structure StageInfo where
  stage : Nat
  pier : Nat
  rows : Nat
  code : List IWord
  desc : List Byte
  prog : List Byte
  calls : List (Nat × List IWord)
  deriving DecidableEq, Repr

/-- What the verifier knows of a span: image, span index, LOG_N, edges, routes, stages. -/
structure VerCtx where
  bs : List Byte
  span : Nat
  logN : Nat
  configured : Bool
  edges : List Edge
  routes : List (List (Nat × Nat))
  stages : List StageInfo
  tensors : List Tensor
  keys : List KeyEnt
  /-- window slots that the window map gives an exchange window -/
  exchange : List Nat
  deriving DecidableEq, Repr

/-- A transfer that may be outstanding: pier, chuck, descriptor with the START of its issue, whether it is an external transfer of R183
(any LAUNCH is, R265), and whether START is known at load. -/
structure OpenXfer where
  pier : Nat
  chuck : Nat
  d : Desc
  ext : Bool
  known : Bool
  deriving DecidableEq, Repr

/-- The run of a schedule: the machine without data, claims on ports (pier, port, first and last fc), tiles that an MME reads,
links claimed, rows that FSSE claims (pier, first row, rows, last fc, reads too), transfers outstanding, next ORDER and issues
of each stage, the first violation. -/
structure Dry where
  s : State
  ports : List (Nat × Nat × Nat × Nat) := []
  tiles : List (Nat × Nat × Nat × Nat) := []
  links : List (Nat × Nat) := []
  rows : List (Nat × Nat × Nat × Nat × Bool) := []
  out : List OpenXfer := []
  orders : List (Nat × Nat) := []
  issues : List (Nat × Nat) := []
  bad : Option Reject := none
  deriving DecidableEq, Repr

/-- The first violation stands. -/
def Dry.fail (d : Dry) (reason stage pc : Nat) : Dry :=
  match d.bad with
  | some _ => d
  | none => { d with bad := some { reason := reason, stage := stage, pc := pc, fc := (d.s.span 0).relFc } }

/-- A violation unless the condition holds. -/
def Dry.need (d : Dry) (b : Bool) (reason stage pc : Nat) : Dry := if b then d else d.fail reason stage pc

/-! ### Static rules of one issue (R251 to R260, Table 8-3, R219 to R231) -/

/-- A select field names no dynamic register (R251). -/
def staticSel (q : Seq) (x : Sel) : Bool := !x.en || !q.dyn.contains x.r

/-- A static row operand and `n` rows from it lie below the limit. -/
def rowsIn (q : Seq) (limit imm : Nat) (x : Sel) (n : Nat) : Bool := staticSel q x && decide (q.eff imm x + n ≤ limit)

/-- A shape of 1 to 64 rows and columns. -/
def shapeIn (sh : Shape) : Bool := decide (1 ≤ sh.rows ∧ sh.rows ≤ 64 ∧ 1 ≤ sh.cols ∧ sh.cols ≤ 64)

/-- The shape field is zero in configured mode, and a shape in inline mode (R197, R252). -/
def shapeFieldOk (configured : Bool) (sh : Shape) : Bool :=
  if configured then decide (sh = { rows := 0, cols := 0, mv := 0 }) else shapeIn sh

/-- Rows of a TLD or TST (R145, R155). -/
def lineRowsOk (q : Seq) (limit : Nat) (o : LineOp) : Bool :=
  staticSel q o.arb && (List.range o.n).all fun k =>
    let r : Int := (q.eff o.brow o.arb : Int) + (k : Int) * o.step
    decide (0 ≤ r) && decide (r.toNat + (if o.bcol then 64 else 1) ≤ limit)

/-- The words of a pass (R219, R221). -/
def passOk (ws : List SpinWord) (o : SpinOp) (rows : Nat) : Bool :=
  let ring := ws.any (·.ring64)
  let mults := (ws.filter SpinWord.mult).length
  let taps := (ws.filter (·.tap)).length
  let bfly := ws.any fun w => w.op == 8
  ws.all (fun w => w.ring64 == ring && decide (w.op ≤ 0xD) && !(ring && (w.op == 7 || w.op == 8)) && !(!ring && w.op == 0xD) &&
      !(ring && (w.srcA == 4 || (w.usesB && w.srcB == 4)) && decide (32 < rows))) &&
    decide (mults ≤ (if ring then 1 else 2)) && decide (taps ≤ 1) && !(bfly && taps != 0) &&
    (o.o0kind != 0 || (o.o1 != 31 && (taps != 0 || bfly)) || ws.any (·.accum))

/-- ROM routine ids (Table 10-7). -/
def romIds : List Nat := [0x000, 0x010, 0x011, 0x020, 0x030, 0x040, 0x050, 0x060, 0x070, 0x071]

/-- C0 of a loadable routine at a LOG_N (Table 10-8). -/
def routineC0 (bs : List Byte) (id logN : Nat) : Nat :=
  (((routineSects bs).find? fun r => routineId r = id).map fun r => getLe r (0x10 + 12 * (logN - 15)) 4).getD 0

/-- Whether an edge from one stage to another is declared (R283). -/
def VerCtx.hasEdge (v : VerCtx) (a b : Nat) : Bool := v.edges.any fun e => e.src == a && e.dst == b

/-- Rows below the cache of a stage. -/
def VerCtx.rowsOf (v : VerCtx) (st : Nat) : Nat := ((v.stages.find? fun g => g.stage = st).map (·.rows)).getD 16384

/-- A static prime operand lies in the plan's ring (R251). -/
def primeIn (v : VerCtx) (q : Seq) (imm : Nat) (x : Sel) : Bool := staticSel q x && decide (q.eff imm x < planPrimes v.bs)

/-- The static rules of an instruction: the reason of the first that fails. A spindle word's PRIME beyond the key set and a TCFG out of
range have a run-time outcome (R198, R231) and are no operands of R251: they are no refusal here. DEDUCED: log entry 19. -/
def staticRule (v : VerCtx) (g : StageInfo) (x : Pier) (i : Instr) : Option Nat :=
  let q := x.seq
  let len := match q.routine with
    | none => g.code.length
    | some id => if id < 512 then 4096 else (((g.calls.find? fun c => c.1 = id).map (·.2.length)).getD 0)
  let flow := fun (b : Bool) => if b then none else some rFlow
  match i with
  | .chk _ j _ _ => flow (decide (j ≤ 2))
  | .launch _ o => flow (o.kind != 0 || decide (o.chuck ≤ 2))
  | .loop _ level count body =>
    flow (decide (1 ≤ body ∧ count ≤ 2 ^ 24 ∧ q.pc + body < len) && !(q.loops.any fun l => l.level == level) &&
      q.loops.all fun l => decide (q.pc + body ≤ l.last))
  | .call _ id _ =>
    flow (decide (q.stack.length < 4) && (if id < 512 then romIds.contains id
      else (g.calls.any fun c => c.1 == id) && routineC0 v.bs id v.logN != 0))
  | .ret _ => flow (!q.stack.isEmpty)
  | .ptok _ _ => flow (g.stage == 0)
  | .arm _ _ row arb n => flow (decide (1 ≤ n ∧ n ≤ 16384) && rowsIn q g.rows row arb n)
  | .dsend _ o =>
    if !v.hasEdge g.stage o.dstage then some rDeck
    else flow (decide (1 ≤ o.lanes ∧ o.lanes ≤ 64) && rowsIn q g.rows o.brow o.arb o.n && rowsIn q (v.rowsOf o.dstage) o.drow o.ard o.n)
  | .hld _ _ row arb => flow (rowsIn q g.rows row arb 1)
  | .hst _ _ row arb => flow (rowsIn q g.rows row arb 1)
  | .hchk _ o =>
    let reg := fun (h : Nat) => decide (h ≤ 7 ∨ h = 15)
    flow (!o.mem.all && decide (o.cls ≤ 12) && reg o.ha && reg o.hb && reg o.hk)
  | .tld _ o => flow (lineRowsOk q g.rows o && shapeFieldOk v.configured o.shape &&
      (v.configured || decide (o.n ≤ (lineLimits o o.shape).1)))
  | .tst _ o => flow (lineRowsOk q g.rows o && shapeFieldOk v.configured o.shape &&
      (v.configured || decide (o.n ≤ (lineLimits o o.shape).1)))
  | .cld _ o => flow (staticSel q o.arx && (o.table == 4 || primeIn v q o.x o.arx) && shapeFieldOk v.configured o.shape &&
      (v.configured || decide (o.n ≤ o.shape.rows ∧ o.crow + o.n ≤ constRows { logN := v.logN } o.table)))
  | .mvld _ _ row arb => flow (rowsIn q g.rows row arb 1)
  | .tcfg _ _ reg a _ => flow (v.configured && !(reg && q.dyn.contains a))
  | .ntt _ o => flow (o.logN == v.logN && primeIn v q o.prime o.arp)
  | .intt _ o => flow (o.logN == v.logN && primeIn v q o.prime o.arp)
  | .mmul _ o => flow (mmeRule true o)
  | .mmac _ o => flow (mmeRule true o)
  | .emul _ o => flow (mmeRule false o)
  | .emac _ o => flow (mmeRule false o)
  | .spin _ o =>
    let ws := (List.range o.stages).map fun n => x.spinWord (o.entry + n)
    let sh := if o.x = 16 then ((x.ftqHead).map (·.shape)).getD fullShape else x.shape o.x
    if o.o0kind = 3 ∧ !v.hasEdge g.stage o.dstage then some rDeck
    else flow (decide (o.entry + o.stages ≤ 64) && passOk ws o sh.rows &&
      decide (o.x ≤ 16 ∧ (o.y ≤ 15 ∨ o.y = 31) ∧ (o.o1 ≤ 15 ∨ o.o1 = 31)) && !(o.o0kind == 2 && o.o1 == o.o0tile) &&
      !(o.keysel == 0 && o.mem.all && o.x != 16) &&
      (o.o0kind != 1 || rowsIn q g.rows o.brow o.arb sh.rows) && (o.o0kind != 3 || rowsIn q (v.rowsOf o.dstage) o.brow o.arb sh.rows) &&
      (v.configured || spinFits x o sh))
  | .sbld _ _ row arb bcol _ => flow (rowsIn q g.rows row arb (if bcol then 64 else 1))
  | .skld _ _ row arb => flow (rowsIn q g.rows row arb 1)
  | .fsse _ o =>
    match (matEntries v.bs)[o.mentry]? with
    | none => some rFlow
    | some m =>
      let w := m.pieces * (m.degree + 1)
      flow (m.kind == 1 && rowsIn q g.rows o.itemRow o.arb (ceilDiv (o.g * fssItemBytes m.bits w) 256) &&
        rowsIn q g.rows o.xhatRow o.arb (ceilDiv o.g 32) && rowsIn q g.rows o.outRow o.arb (ceilDiv (o.g * w) 32))
  | _ => none
where
  mmeRule (matrix : Bool) (o : MmeOp) : Bool :=
    shapeFieldOk v.configured o.shA && shapeFieldOk v.configured o.shB && shapeFieldOk v.configured o.shC &&
      (v.configured || (if matrix then o.shA.rows == o.shC.rows && o.shA.cols == o.shB.rows && o.shB.cols == o.shC.cols
        else o.shA.rows == o.shB.rows && o.shA.rows == o.shC.rows && o.shA.cols == o.shB.cols && o.shA.cols == o.shC.cols))

/-! ### Units and tile ports (Tables 8-1, 8-2, 9-5; R190, R192, R226, R232, R239) -/

/-- Ports: tile t is read through 2t and written through 2t + 1; 40 the MME, 41 the NTT unit, 42 the spindle, 43 slot 2 of an
FSS evaluation, 44 the accumulator; 50 + n broadcast register n and 54 + n seed n being loaded. -/
def rdPort (t : Nat) : Nat := 2 * t
def wrPort (t : Nat) : Nat := 2 * t + 1

/-- A range of fc of a port of the pier, and tiles that an MME operation reads. -/
def mmeClaims (cfg : Bool) (x : Pier) (f : Nat) (matrix acc : Bool) (o : MmeOp) : List (Nat × Nat × Nat) × List (Nat × Nat × Nat) :=
  let sa := if cfg then x.shape o.a else o.shA
  let sc := if cfg then x.shape o.c else o.shC
  let a := mmeFc matrix sa sc
  let last := f + a - 1
  let hit := x.oc.any fun e => e.2 = o.b
  ((40, f, last) :: (rdPort o.a, f, last) :: (if hit then [] else [(rdPort o.b, f, last)]) ++
    (if acc then [(rdPort o.c, f, last)] else []) ++ (if o.qdest then [] else [(wrPort o.c, f + a + 11, f + a + 11)]),
    (o.a, f, last) :: (o.b, f, last) :: if acc then [(o.c, f, last)] else [])

/-- What an instruction issued in fc `f` claims: port ranges, and tiles that an MME operation reads over a range. -/
def portClaims (v : VerCtx) (x : Pier) (f : Nat) (i : Instr) : List (Nat × Nat × Nat) × List (Nat × Nat × Nat) :=
  let cfg := v.configured
  match i with
  | .tld _ o => ([(wrPort o.tile, f + 22, f + 21 + o.n)], [])
  | .tst _ o => ([(rdPort o.tile, f + 10, f + 9 + o.n)], [])
  | .cld _ o => ([(wrPort o.tile, f + 4, f + 3 + o.n)], [])
  | .ntt _ o =>
    ((41, f, f + o.cycles - 39) :: (List.range o.tiles).flatMap fun t =>
      let e := f + o.lead + 192 * (t + 1)
      [(rdPort (o.first + t), f, e - 1), (wrPort (o.first + t), f, e - 1)], [])
  | .intt _ o =>
    ((41, f, f + o.cycles - 39) :: (List.range o.tiles).flatMap fun t =>
      [(rdPort (o.first + t), f + 192 * t, f + o.cycles - 1), (wrPort (o.first + t), f + 192 * t, f + o.cycles - 1)], [])
  | .mmul _ o => mmeClaims cfg x f true false o
  | .mmac _ o => mmeClaims cfg x f true true o
  | .emul _ o => mmeClaims cfg x f false false o
  | .emac _ o => mmeClaims cfg x f false true o
  | .sbld _ br _ _ _ _ => ([(50 + br, f, f + 18)], [])
  | .skld _ n _ _ => ([(54 + n, f, f + 18)], [])
  | .spin _ o =>
    let ws := (List.range o.stages).map fun n => x.spinWord (o.entry + n)
    let sh := if o.x = 16 then ((x.ftqHead).map (·.shape)).getD fullShape else x.shape o.x
    let iv := if ws.any SpinWord.prg then ceilDiv sh.cols (if ws.any (·.ring64) then 32 else 8) else 1
    let dl := max ((ws.map SpinWord.latency).foldl (· + ·) 0) 8
    let each := fun (port off : Nat) => (List.range sh.rows).map fun k => (port, f + off + (k + 1) * iv, f + off + (k + 1) * iv)
    ((42, f, f + sh.rows * iv - 1) :: (if o.x = 16 then [] else each (rdPort o.x) 2) ++ (if o.y = 31 then [] else each (rdPort o.y) 2) ++
      (if o.o0kind = 2 then each (wrPort o.o0tile) (3 + dl) else []) ++ (if o.o1 = 31 then [] else each (wrPort o.o1) (3 + dl)) ++
      (ws.flatMap fun w => if w.srcA = 3 ∨ w.srcA = 4 ∨ w.op = 8 ∨ (w.usesB ∧ (w.srcB = 3 ∨ w.srcB = 4)) then [(50 + w.br, f, f)] else []) ++
      (if o.keysel = 0 then [] else [(53 + o.keysel, f, f)]) ++
      (if ws.any fun w => w.accum || w.srcA == 7 || (w.usesB && w.srcB == 7) then [(44, f + 3 + iv, f + 2 + sh.rows * iv + dl)] else []), [])
  | .fsse _ o =>
    match (matEntries v.bs)[o.mentry]? with
    | none => ([], [])
    | some m =>
      let w := m.pieces * (m.degree + 1)
      let c := fsseCycles o.g m.bits w (fssItemBytes m.bits w)
      ([(42, f, f + c - 1), (43, f + 12, f + c - 1)], [])
  | _ => ([], [])

/-- Whether [a, b] and [c, d] meet. -/
def fcMeet (a b c d : Nat) : Bool := decide (a ≤ d ∧ c ≤ b)

/-- Broadcast registers and seeds: the use of one by a pass conflicts with a load, and nothing else does (R226). -/
def sharedPort (n : Nat × Nat × Nat) (m : Nat × Nat × Nat) : Bool :=
  decide (50 ≤ n.1) && (n.2.1 == n.2.2) == (m.2.1 == m.2.2)

/-- The claims of an issue added; a conflict of two operations is a violation (R190, R192). -/
def addClaims (g : StageInfo) (c : List (Nat × Nat × Nat) × List (Nat × Nat × Nat)) (d : Dry) : Dry :=
  let p := g.pier
  let pc := (d.s.pier p).seq.mainPc
  let old := d.ports.filter (·.1 = p)
  let clash := c.1.any fun n => old.any fun m => m.2.1 == n.1 && fcMeet n.2.1 n.2.2 m.2.2.1 m.2.2.2 && !sharedPort n m.2
  let torn := c.1.any fun n => n.1 % 2 == 1 && decide (n.1 < 40) && d.tiles.any fun t => t.1 == p && t.2.1 == n.1 / 2 && fcMeet n.2.1 n.2.2 t.2.2.1 t.2.2.2
  let tears := c.2.any fun t => old.any fun m => m.2.1 == wrPort t.1 && fcMeet t.2.1 t.2.2 m.2.2.1 m.2.2.2
  { d with ports := d.ports ++ c.1.map (fun n => (p, n)), tiles := d.tiles ++ c.2.map fun n => (p, n) }.need
    (!clash && !torn && !tears) rUnit g.stage pc

/-! ### Bench slots (R145 to R149, R239) -/

/-- A use of a bench slot: slot, first row, rows, whether it writes, whether an FSS evaluation makes it. -/
structure SlotUse where
  slot : Nat
  row : Nat
  n : Nat
  write : Bool
  fss : Bool := false

/-- The bench slot and rows that a scheduled effect uses in fc `f`. -/
def slotUse (f : Nat) (a : Act) : Option SlotUse :=
  let rd := fun (slot : Nat) (r : Nat × Nat) => if a.due = f then some ({ slot := slot, row := r.1, n := r.2, write := false } : SlotUse) else none
  match a.op with
  | .tldRead _ _ _ _ acc _ => rd 0 acc.rows
  | .mvldRead _ row => rd 0 (row, 1)
  | .hldRead _ row => rd 0 (row, 1)
  | .brRead _ acc => rd 2 acc.rows
  | .seedRead _ row => rd 2 (row, 1)
  | .fsseRead row => (rd 2 (row, 1)).map fun u => { u with fss := true }
  | .dsendRead _ row _ => rd 3 (row, 1)
  | .benchStore acc _ =>
    if a.due = f + 5 then some { slot := a.slot, row := acc.rows.1, n := acc.rows.2, write := true, fss := a.slot == 2 && a.pass.isNone } else none
  | _ => none

/-- Rows that FSS evaluations of a pier claim, which a use by another unit meets: item and input rows for a write, output rows for any
access (R239). -/
def Dry.fssMeets (d : Dry) (p f row n : Nat) (write : Bool) : Bool :=
  d.rows.any fun r => r.1 == p && decide (f ≤ r.2.2.2.1) && overlaps r.2.1 r.2.2.1 row n && (r.2.2.2.2 || write)

/-- The slots of pier `g` in fc `f`: one access in each, slot 2 to an FSS evaluation alone while it holds the slot, no row that one
claims, no slot 3 beside a weight decode. -/
def checkSlots (f : Nat) (g : StageInfo) (d : Dry) : Dry :=
  let us := (d.s.pier g.pier).acts.filterMap (slotUse f)
  let one := [0, 1, 2, 3].all fun n => decide ((us.filter fun u => u.slot = n).length ≤ 1)
  let fss := d.ports.any fun m => m.1 == g.pier && m.2.1 == 43 && decide (m.2.2.1 ≤ f ∧ f ≤ m.2.2.2)
  let claimed := us.any fun u => !u.fss && d.fssMeets g.pier f u.row u.n u.write
  let decode := (us.any fun u => u.slot == 3) && d.out.any fun o => o.pier == g.pier && o.d.xform == 4
  d.need (one && !(fss && us.any fun u => u.slot == 2 && !u.fss) && !claimed && !decode) rSlot g.stage (d.s.pier g.pier).seq.mainPc

/-! ### Deck (R28, R283, R293, R296) -/

/-- The flit that pier `g` injects in fc `f` claims its route. -/
def claimRoute (v : VerCtx) (f : Nat) (g : StageInfo) (d : Dry) : Dry :=
  match (d.s.pier g.pier).sendq with
  | [] => d
  | r :: _ =>
    let dst := ((v.stages.find? fun h => h.pier = r.dpier).map (·.stage)).getD 0
    let idx := (v.edges.findIdx? fun e => e.src == g.stage && e.dst == dst).getD 0
    let cl := ((v.routes.getD idx []).map fun e => (e.1, f + e.2))
    { d with links := d.links ++ cl }.need (cl.all fun e => !d.links.contains e) rDeck g.stage (d.s.pier g.pier).seq.mainPc

/-- The rows that arrive in fc `f` take their slot. -/
def arriveRows (f p : Nat) (s : State) : State :=
  ((s.pier p).inbound.filter fun r => r.arrives ≤ f).foldl (fun s r => match execDeckRowArrival p r.id s with
    | .next t => t
    | _ => s) s

/-! ### Transfers and the scoreboard (R150, R151, R168, R177, R183) -/

/-- Entry `e` of pier `p` has come to its end: a FILLING range is full, a DRAINING one free. -/
def settleEntry (p e : Nat) (s : State) : State :=
  match (s.pier p).sbAt e with
  | some (.filling _ _) => sbFull p e s
  | some (.draining r n _) => sbReaderDone p e (s.modPier p fun x => { x with sb := tput x.sb e (.draining r n 1) })
  | _ => s

/-- The transfers of a chuck mask have completed. -/
def settleChucks (p mask : Nat) (d : Dry) : Dry :=
  let gone := d.out.filter fun o => o.pier == p && bit mask o.chuck
  { d with s := gone.foldl (fun s o => settleEntry p o.d.sbEntry s) d.s, out := d.out.filter fun o => !(o.pier == p && bit mask o.chuck) }

/-- Entries of a pier FILLING over rows that meet a range, other than `own`. -/
def fillClash (x : Pier) (own row n : Nat) : Bool :=
  x.sb.any fun e => match e.2 with
    | .filling r c => e.1 != own && overlaps row n r c
    | _ => false

/-- The far range of an outbound transfer, for overlap checks outside a bench (R140). -/
def outRange (d : Desc) : Option (Nat × Nat × Nat) :=
  if d.dir && decide (1 ≤ d.farKind ∧ d.farKind ≤ 3) && d.elems != 0 then some (d.farKind, d.farRange.1, d.farRange.2) else none

/-- The far ranges that an outbound transfer writes, where its START is known at load; of a dynamic START the verifier knows no range,
and one schedule is one span's (R286; DEDUCED: log entry 19). -/
def OpenXfer.writes (o : OpenXfer) : Option (Nat × Nat × Nat) := if o.known then outRange o.d else none

/-! ### Levels (R108, R136)

The run carries in header rows and header registers what the schedule fixes of the object there: a header with the LEVEL of its
tensor's declaration, or a key header with its entry's index; zero where it fixes neither. -/

/-- A ciphertext header that says a LEVEL alone, and a key header that says a key entry alone. -/
def levelHdr (l : Nat) : Hdr := ((0 : Hdr).put 0 4 ctMagic).put 0x10 1 l
def entryHdr (i : Nat) : Hdr := ((0 : Hdr).put 0 4 keyMagic).put 0x10 4 i

/-- The LEVEL, or the key entry, that a header of the run says. -/
def saysLevel (h : Hdr) : Option Nat := if h.get 0 4 = ctMagic then some h.level else none
def saysEntry (h : Hdr) : Option Nat := if h.get 0 4 = keyMagic then some (h.get 0x10 4) else none

/-- The declared LEVEL of the ciphertext tensor that has a header slot at byte `a` of home `home`; in a bench, of stage `g`. -/
def VerCtx.levelAt (v : VerCtx) (g : StageInfo) (home a : Nat) : Option Nat :=
  let here := fun (e : ShardEnt) => home != 0 || (stageRecs v.bs)[e.stage]?.any fun r => r.span == v.span && r.stage == g.stage
  let slot := if home = 0 then 512 else 64
  (v.tensors.find? fun t => t.object == 1 && t.headers && t.home == home &&
    t.shards.any fun e => here e && decide (e.header ≤ a ∧ a < e.header + slot * t.objects e.shard)).map (·.level)

/-- The header rows that an inbound transfer brings say the LEVEL of the tensor they come from, or their key entry. -/
def bringLevels (v : VerCtx) (g : StageInfo) (d : Desc) (x : Pier) : Pier :=
  if d.dir || !d.headers then x
  else
    let hdr := fun (i : Nat) =>
      if d.farKind = 5 then entryHdr (fld d.farBase 0 16)
      else if d.farKind = 0 then 0
      else ((v.levelAt g d.farKind (d.farHeader + 64 * i)).map levelHdr).getD 0
    x.putBench ((List.range d.headerCount).flatMap fun i => (hdrWords (hdr i)).zipIdx.map fun e => (wkey (d.headerRow + i) e.2, e.1))

/-- The header rows that an outbound transfer sends have the LEVEL of the tensor that it writes (R136); a row of a FILLING range is not
there yet. -/
def sendLevels (v : VerCtx) (g : StageInfo) (d : Desc) (x : Pier) : Bool :=
  !d.dir || !d.headers || d.farKind == 0 || (List.range d.headerCount).all fun i =>
    let row := d.headerRow + i
    let coming := x.sb.any fun e => match e.2 with
      | .filling r c => overlaps row 1 r c
      | _ => false
    coming || match v.levelAt g d.farKind (d.farHeader + 64 * i), saysLevel (x.hdrAt row) with
      | some l, some m => l == m
      | _, _ => true

/-- A header that HST writes to a header slot of a tensor of the bench has the tensor's LEVEL (R136). -/
def hstLevel (v : VerCtx) (g : StageInfo) (q : Seq) (i : Instr) : Bool :=
  match i with
  | .hst _ h row arb => (match v.levelAt g 0 (512 * q.eff row arb), saysLevel (q.hreg h) with
    | some l, some m => l == m
    | _, _ => true)
  | _ => true

/-- What the result header of an HCHK says (Table 2-8). -/
def hchkSays (o : HchkOp) (a : Hdr) : Hdr :=
  if (saysLevel a).isNone ∨ (9 ≤ o.cls ∧ o.cls ≠ 12) then 0
  else
    let arg : ChkArg := { cls := o.cls, levelArg := o.level, g := 0, spt := 0, hoist := o.hoist, oper := 1, noiseLimit := 0, noiseAction := 0 }
    ((shapeOf arg a).map fun r => levelHdr r.1).getD 0

/-- A transfer issued by CHK or LAUNCH with START raised by a select field: phase, bounds, key order, entries, overlaps; then it is
outstanding. -/
def dryXfer (v : VerCtx) (g : StageInfo) (j n : Nat) (arstart : Sel) (timed : Bool) (beat : Bool) (d : Dry) : Dry :=
  let p := g.pier
  let x := d.s.pier p
  let pc := x.seq.mainPc
  let ds := (madeXfer x n (x.seq.sel arstart) none).raised
  let known := staticSel x.seq arstart
  let fp := if ds.elems = 0 then (ds.benchRow, 0) else ds.footprint (if ds.xform = 4 then 64 * ds.elems else 0)
  let ext := ds.farKind != 0 || timed
  let ph := phaseAt (d.s.stageProg 0 g.stage) pc
  let phaseOk := !ext || match ph with
    | some (_, last) => (decodeWord 0 (g.code.getD last 0)).any fun i => match i with
        | .waitc _ _ => true
        | _ => false
    | none => false
  let exch := ds.farKind == 3 && v.exchange.contains (fld ds.farBase 32 16)
  let exOk := (!exch || (timed && beat && !ds.accumulate && !ds.indexed && ds.xform == 0)) && (!known || ds.boundsOk)
  let order := tget 0 d.orders g.stage
  let ent := v.keys[fld ds.farBase 0 16]?
  let keyOk := ds.farKind != 5 || (match ent with
    | some e => (v.bs |> stageRecs)[e.stage]?.any (fun r => r.span == v.span && r.stage == g.stage) && (e.order == order || e.order + 1 == order)
    | none => false)
  let orders := match ds.farKind, ent with
    | 5, some e => tput d.orders g.stage (max order (e.order + 1))
    | _, _ => d.orders
  let o : OpenXfer := { pier := p, chuck := j, d := ds, ext := ext, known := known }
  let clear := d.out.all (fun o => !(o.pier == p && (o.d.xform == 4 || ds.xform == 4))) &&
    !d.fssMeets p (d.s.span 0).relFc fp.1 fp.2 (!ds.dir)
  let far := match o.writes with
    | some r => d.out.all fun o => (o.writes).all fun (q : Nat × Nat × Nat) => !(q.1 == r.1 && meet q.2.1 q.2.2 r.2.1 r.2.2)
    | none => true
  let s1 := settleEntry p (if (match x.sbAt ds.sbEntry with
    | some (.filling _ _) => true
    | some (.draining _ _ _) => !ds.dir
    | _ => false) then ds.sbEntry else 16) d.s
  let x1 := s1.pier p
  let rangeOk := if ds.dir then (match x1.sbAt ds.sbEntry with
      | some (.full r c) => decide (r ≤ fp.1 ∧ fp.1 + fp.2 ≤ r + c)
      | some (.draining r c _) => decide (r ≤ fp.1 ∧ fp.1 + fp.2 ≤ r + c)
      | _ => true)
    else !fillClash x1 ds.sbEntry fp.1 fp.2
  let walk : Xfer := { id := 0, didx := n, d := ds, start := ds.start, outRows := if ds.xform = 4 then 64 * ds.elems else 0 }
  let d1 : Dry := { d with s := s1.setPier p (bringLevels v g ds (enterSb walk x1).1), orders := orders, out := d.out ++ [o] }
  d1.need (sendLevels v g ds x1) rTensor g.stage pc |>.need phaseOk rScore g.stage pc |>.need exOk rChuck g.stage pc |>.need keyOk rKeys g.stage pc
    |>.need clear rSlot g.stage pc |>.need (far && rangeOk) rScore g.stage pc

/-- The WAITC that closes a transfer phase names every chuck that can hold an external transfer (R183). -/
def waitcOk (g : StageInfo) (chucks : Nat) (d : Dry) : Bool :=
  let pc := (d.s.pier g.pier).seq.mainPc
  match phaseAt (d.s.stageProg 0 g.stage) pc with
  | some (_, last) => pc != last || d.out.all fun o => !(o.pier == g.pier && o.ext) || bit chucks o.chuck
  | none => true

/-- MME, NTT and spindle function-stage instructions lie in compute phases only (R183). -/
def computeOk (s : State) (g : StageInfo) (i : Instr) : Bool :=
  let unit := match i with
    | .ntt _ _ => true
    | .intt _ _ => true
    | .mmul _ _ => true
    | .mmac _ _ => true
    | .emul _ _ => true
    | .emac _ _ => true
    | .spin _ _ => true
    | .fsse _ _ => true
    | _ => false
  let pc := (s.pier g.pier).seq.mainPc
  !unit || ((s.stageProg 0 g.stage).any fun t => t.phases.any fun f => f.2.2 && decide (f.1 ≤ pc ∧ pc ≤ f.2.1))

/-- The send slot's source tensor is written by no transfer outstanding at a LAUNCH of KIND 1 (R327). -/
def sendOk (v : VerCtx) (slot : Nat) (d : Dry) : Bool :=
  match (hxpSlots v.bs).find? fun h => h.slot = slot ∧ !h.recv with
  | none => false
  | some h => d.out.all fun o => !(o.d.dir && o.d.farKind == 1 &&
      v.tensors.any fun t => t.id == h.tensor && t.shards.any fun e => meet o.d.farRange.1 o.d.farRange.2 e.data e.bytes)

/-! ### Issue -/

/-- The state that an outcome gives. -/
def nextOr (s : State) (o : Host.Outcome State Fault Refusal) : State :=
  match o with
  | .next t => t
  | _ => s

/-- The effect of an instruction that needs no transfer to be followed. -/
def seqExec (i : Instr) (s : State) : State :=
  nextOr s (match i with
    | .nop a => execNop a s
    | .loop a l c b => execLoop a l c b s
    | .call a id arg => execCall a id arg s
    | .ret a => execRet a s
    | .halt a => execHalt a s
    | .ptok a l => execPtok a l s
    | .aset a r v => execAset a r v s
    | .astr a r l t => execAstr a r l t s
    | .aadd a d r m => execAadd a d r m s
    | .lparm a d w => execLparm a d w s
    | .arm a e r b n => execArm a e r b n s
    | .rel a e => execRel a e s
    | .dsend a o => execDsend a o s
    | .hld a h r b => execHld a h r b s
    | .hst a h r b => execHst a h r b s
    | .hchk a o => execHchk a o s
    | .tld a o => execTld a o s
    | .tst a o => execTst a o s
    | .cld a o => execCld a o s
    | .mvld a m r b => execMvld a m r b s
    | .tcfg a t f r h => execTcfg a t f r h s
    | .ntt a o => execNtt a o s
    | .intt a o => execIntt a o s
    | .mmul a o => execMmul a o s
    | .mmac a o => execMmac a o s
    | .emul a o => execEmul a o s
    | .emac a o => execEmac a o s
    | .spin a o => execSpin a o s
    | .sbld a b r x c l => execSbld a b r x c l s
    | .skld a n r b => execSkld a n r b s
    | .fsse a o => execFsse a o s
    | _ => .next s)

/-- Only the issue of an instruction: the PC moves on. -/
def passBy (p f next : Nat) (d : Dry) : Dry := { d with s := d.s.modSeq p fun q => q.advance f next }

/-- A relinearisation or rotation consumes a key entry, that of its key header or else the one that the stage streamed last, and the
entry has the operation's KIND and LEVEL (R108); its GALOIS is compared with the header at run time (R51). A check on a stage that has
streamed no key consumes none (DEDUCED: log entry 66). -/
def hchkKeyOk (v : VerCtx) (g : StageInfo) (o : HchkOp) (d : Dry) : Bool :=
  let n := tget 0 d.orders g.stage
  let q := (d.s.pier g.pier).seq
  let last := v.keys.find? fun e => e.order + 1 == n && (stageRecs v.bs)[e.stage]?.any fun r => r.span == v.span && r.stage == g.stage
  let cur := match saysEntry (q.hreg o.hk) with
    | some i => v.keys[i]?
    | none => last
  !(o.cls == 4 || o.cls == 5) || cur.all fun e =>
    (if o.cls = 4 then e.kind == 2 else e.kind != 2) && (saysLevel (q.hreg o.ha)).all fun l => l == e.level

/-- An entry that ARM or REL finds FILLING or DRAINING comes to its end first. -/
def settleFor (p : Nat) (i : Instr) (s : State) : State :=
  match i with
  | .arm _ e _ _ _ => settleEntry p e s
  | .rel _ e => settleEntry p e s
  | _ => s

/-- The rows that an FSS evaluation claims: item and input rows against writes to fc i + c − 1, output rows to fc i + c + 5. A transfer
outstanding that meets them is a violation (R239). -/
def claimFss (v : VerCtx) (g : StageInfo) (f : Nat) (i : Instr) (d : Dry) : Dry :=
  match i with
  | .fsse _ o => match (matEntries v.bs)[o.mentry]? with
    | some m =>
      let w := m.pieces * (m.degree + 1)
      let bytes := fssItemBytes m.bits w
      let c := f + fsseCycles o.g m.bits w bytes - 1
      let x := d.s.pier g.pier
      let rs := (fsseRows x.seq o bytes w).zipIdx.map fun e => (g.pier, e.1.1, e.1.2, if e.2 = 2 then c + 6 else c, e.2 == 2)
      let d1 := { d with rows := d.rows ++ rs }
      d1.need (d.out.all fun y =>
        let fp := if y.d.elems = 0 then (y.d.benchRow, 0) else y.d.footprint (if y.d.xform = 4 then 64 * y.d.elems else 0)
        y.pier != g.pier || !d1.fssMeets g.pier f fp.1 fp.2 (!y.d.dir)) rSlot g.stage x.seq.mainPc
    | none => d
  | _ => d

/-- The instruction that stage `g` issues in fc `f`, with every rule on it. -/
def dryIssue (v : VerCtx) (f : Nat) (d : Dry) (g : StageInfo) : Dry :=
  let p := g.pier
  let x := d.s.pier p
  let q := x.seq
  if d.bad.isSome ∨ q.st ≠ .running ∨ q.due ≠ f then d
  else
    let pc := q.mainPc
    let n := tget 0 d.issues g.stage + 1
    let d1 := { d with issues := tput d.issues g.stage n }.need (decide (n ≤ 2 ^ 28)) rLimit g.stage pc
    match (if q.routine.isNone ∧ g.code.length ≤ q.pc then none else decodeWord p (x.iword q.routine q.pc)) with
    | none => d1.fail rFlow g.stage pc
    | some i =>
      match staticRule v g x i with
      | some r => d1.fail r g.stage pc
      | none =>
        let d2 := d1.need (computeOk d.s g i) rScore g.stage pc
        let ctx := issueAt d.s p
        let phase := fun (d : Dry) => match ctx with
          | some c => { d with s := openPhase c d.s }
          | none => d
        match i with
        | .chk a j n r => passBy p f a.next ((fun (e : Dry) => if (x.desc n).farKind = 0 then e else phase e) (dryXfer v g j n r false false d2))
        | .launch a o =>
          if o.kind = 0 then passBy p f a.next (phase (dryXfer v g o.chuck o.desc o.arstart true o.t.beat d2))
          else passBy p f a.next (phase (d2.need (sendOk v o.sendSlot d2 && (phaseAt (d.s.stageProg 0 g.stage) pc).isSome) rScore g.stage pc))
        | .waitc a m =>
          let d3 := d2.need (waitcOk g m d2) rScore g.stage pc
          let d4 := match ctx with
            | some c => { d3 with s := closePhase c a.next d3.s }
            | none => d3
          passBy p f a.next (settleChucks p m d4)
        | .waitt a _ => passBy p f a.next d2
        | .hchk _ o =>
          let s1 := (seqExec i d2.s).modSeq p fun r => { r with h := tput r.h o.hd (hchkSays o (q.hreg o.ha)) }
          { d2 with s := s1 }.need (hchkKeyOk v g o d2) rKeys g.stage pc
        | .arm _ e row arb c =>
          let d3 := { d2 with s := settleEntry p e d2.s }
          { d3 with s := seqExec i d3.s }.need (!fillClash (d3.s.pier p) e (q.eff row arb) c) rScore g.stage pc
        | _ =>
          let d3 := (claimFss v g f i (addClaims g (portClaims v x f i) d2)).need (hstLevel v g q i) rTensor g.stage pc
          { d3 with s := seqExec i (settleFor p i d3.s) }

/-- The holds that stand: entries that a scoreboard hold waits on have come to their end; a queue that would overflow is a
violation. -/
def settleHolds (v : VerCtx) (d : Dry) : Dry :=
  let hs := (d.s.span 0).holds
  let full := hs.find? fun h => h.src == .ftq || h.src == .sendq
  let s1 := hs.foldl (fun s h => if h.src = .scoreboard ∨ h.src = .armRel then h.waits.foldl (fun s e => settleEntry h.pier e s) s else s) d.s
  let d1 := { d with s := s1.modSpan 0 fun sp => { sp with holds := [] } }
  match full with
  | some h =>
    let st := ((v.stages.find? fun g => g.pier = h.pier).map (·.stage)).getD 0
    d1.fail (if h.src = .ftq then rUnit else rDeck) st (d.s.pier h.pier).seq.mainPc
  | none => d1

/-- A halt that some effect of this fc raised: a violation, but for the fits and primes that are checked at issue only (R197, R198,
R200). -/
def settleStop (d : Dry) : Dry :=
  match (d.s.span 0).stop with
  | some (.commit code _) =>
    let d1 := { d with s := d.s.modSpan 0 fun sp => { sp with stop := none } }
    if 0x0101 ≤ code ∧ code ≤ 0x0103 then d1
    else d1.fail (if code = 0x0504 then rToken else if code = 0x0505 then rDeck else rUnit) 0xFFFF 0xFFFF
  | some _ => { d with s := d.s.modSpan 0 fun sp => { sp with stop := none } }.fail rChuck 0xFFFF 0xFFFF
  | none => d

/-- One fc of the run. -/
def dryFc (v : VerCtx) (d : Dry) : Dry :=
  let d0 := settleStop { d with s := meterFc 0 d.s }
  let s1 := d0.s.modSpan 0 fun sp => { sp with relFc := sp.relFc + 1 }
  let f := (s1.span 0).relFc
  let d1 := { d0 with
    s := s1, ports := d0.ports.filter fun m => decide (f ≤ m.2.2.2), tiles := d0.tiles.filter fun m => decide (f ≤ m.2.2.2)
    links := d0.links.filter fun m => decide (f ≤ m.2), rows := d0.rows.filter fun m => decide (f ≤ m.2.2.2.1) }
  let d2 := v.stages.foldl (fun d g => checkSlots f g d) d1
  let s3 := v.stages.foldl (fun s g => runActs 0 g.pier (fun a => a.atEnd && decide (a.due < f)) s) d2.s
  let s4 := v.stages.foldl (fun s g => runActs 0 g.pier (fun a => !a.atEnd && decide (a.due ≤ f)) s) s3
  let d5 := v.stages.foldl (fun d g => claimRoute v f g d) { d2 with s := s4 }
  let s6 := v.stages.foldl (fun s g => injectFlit 0 g.pier f s) d5.s
  let s7 := v.stages.foldl (fun s g => arriveRows f g.pier s) s6
  settleStop (settleHolds v (v.stages.foldl (dryIssue v f) { d5 with s := s7 }))

/-- Whether nothing is left to run. -/
def dryDone (v : VerCtx) (d : Dry) : Bool :=
  v.stages.all fun g =>
    let x := d.s.pier g.pier
    x.seq.st != .running && x.acts.isEmpty && x.sendq.isEmpty && x.inbound.isEmpty

/-- The run to its end: no violation when every rule holds. -/
def dryRun (v : VerCtx) : Nat → Dry → Dry
  | 0, d => { d with bad := some { reason := rLimit } }
  | n + 1, d => if d.bad.isSome ∨ dryDone v d then d else dryRun v n (dryFc v d)

/-! ### A span on its piers -/

/-- A travel patch's value for edges with the given travel times (R292). -/
def patchValue (piers : List Nat) (edges : List Edge) (x : Patch) : Int :=
  x.edges.foldl (fun v e =>
    let d := edges.getD e.1 { src := 0, dst := 0, budget := 0 }
    let t : Int := travel (piers.getD d.src 0) (piers.getD d.dst 0)
    if e.2 then v - t else v + t) x.base

/-- Whether a patched value lies in its field: NEXT 1 to 65,536, OFFSET 0 to 2^32 − 1. -/
def patchOk (v : Int) (field : Nat) : Bool := if field = 0 then decide (1 ≤ v ∧ v ≤ 65536) else decide (0 ≤ v ∧ v < 2 ^ 32)

/-- A word with a field patched. -/
def patchWord (w : IWord) (field : Nat) (v : Int) : IWord :=
  BitVec.ofNat 128 (if field = 0 then setFld w.toNat 8 16 (v.toNat - 1) else setFld w.toNat 25 32 v.toNat)

/-- A stage's code with the patches of its span. -/
def patchedCode (bs : List Byte) (k stage : Nat) (piers : List Nat) : List IWord :=
  let edges := spanEdges bs k
  ((spanPatches bs k).filter fun x => x.stage = stage).foldl (fun c x => c.modify x.pc fun w => patchWord w x.field (patchValue piers edges x))
    (stageCode bs k stage)

/-- The loadable routines that a stage's code and those routines call, with their code. -/
def stageRoutines (bs : List Byte) (k stage : Nat) : List (Nat × List IWord) :=
  let callsOf := fun (ws : List IWord) => ws.filterMap fun w => match decodeWord 0 w with
    | some (.call _ id _) => if 512 ≤ id then some id else none
    | _ => none
  let known := (routineSects bs).map routineId
  let grow := fun (l : List Nat) => (l ++ l.flatMap fun id => callsOf (routineWords bs id)).eraseDups
  let ids := grow (grow (grow (callsOf (stageCode bs k stage)).eraseDups))
  (ids.filter fun id => known.contains id).map fun id => (id, routineWords bs id)

/-- Bytes of instruction words. -/
def codeBytes (ws : List IWord) : List Byte := ws.flatMap fun w => leBytes 16 w.toNat

/-- The routines of a stage laid out in routine RAM: bytes, and the offset of each. -/
def routineRam (rs : List (Nat × List IWord)) : List Byte × List (Nat × Nat) :=
  rs.foldl (fun (acc : List Byte × List (Nat × Nat)) r => (acc.1 ++ codeBytes r.2, acc.2 ++ [(r.1, acc.1.length)])) ([], [])

/-- What stage `r` consists of on `piers`; descriptors and weights as the image holds them, not yet relocated. -/
def stageProgram (bs : List Byte) (k : Nat) (piers : List Nat) (r : StageRec) (idx : Nat) : StageProg :=
  let ram := routineRam (stageRoutines bs k r.stage)
  { span := k, stage := r.stage, instr := codeBytes (patchedCode bs k r.stage piers), desc := stageSect bs 4 k r.stage
    prog := stageSect bs 5 k r.stage, ram := ram.1, routines := ram.2, cacheBlocks := r.cacheBlocks, remoteUs := r.remoteUs
    retryUs := r.retryUs, paramMap := r.paramMap, phases := stagePhases bs idx
    patches := ((spanPatches bs k).filter fun x => x.stage = r.stage).map fun x => (x.pc, x.field, x.base, x.edges)
    weights := (stageShards bs k r.stage).map fun e =>
      let w := e.1.bytes bs
      (getLe w 0xC 4, getLe w 0xA 2, e.2, e.1.length, e.1.crc) }

/-- The stage records of span `k` with their indices. -/
def spanStages (bs : List Byte) (k : Nat) : List (StageRec × Nat) := (stageRecs bs).zipIdx.filter fun e => e.1.span = k

/-- A pier with a stage's program in bank `b` (R274). -/
def Pier.loadBank (x : Pier) (b : Nat) (g : StageProg) : Pier :=
  let keep := x.imem.filter fun e => e.1 / 0x40000 ≠ b
  let m := mputs (mputs (mputs (mputs keep (imemBase b 0) g.instr) (imemBase b 1) g.desc) (imemBase b 2) g.prog) (imemBase b 3) g.ram
  { x with imem := m, routines := (x.routines.filter fun e => e.1 / 1024 ≠ b) ++ g.routines.map fun e => (b * 1024 + e.1, e.2) }

/-- The image as the verifier's run needs it. -/
def verImage (bs : List Byte) (k : Nat) (piers : List Nat) : Image :=
  { handle := 0, owner := 0, digest := [], spans := [0], shapeModes := imgShapes bs / 2 ^ k, ringShape := planRing bs, batchWaitUs := 0
    pinMib := 0, keys := keyEntries bs, mats := matEntries bs, shards := []
    stages := (spanStages bs k).map fun e => { stageProgram bs k piers e.1 e.2 with span := 0 }
    hxp := [], points := [], arrivalEntries := 0, arrivalBytes := 0, arrivalBase := 0, tableBase := 0, llmBase := 0, llmBytes := 0
    gddrBase := 0, gddrPart := 0, winMap := [], backing := [] }

/-- The verifier on span `k` placed on `piers`: none when the patched schedule passes. -/
def verifySpan (bs : List Byte) (winMap : List (Nat × Nat)) (k : Nat) (piers : List Nat) : Option Reject :=
  let im := verImage bs k piers
  let edges := spanEdges bs k
  let rec_ := (spanRecs bs)[k]?
  let infos := (spanStages bs k).map fun e =>
    { stage := e.1.stage, pier := piers.getD e.1.stage 0, rows := 16384 - 1024 * e.1.cacheBlocks
      code := patchedCode bs k e.1.stage piers, desc := stageSect bs 4 k e.1.stage, prog := stageSect bs 5 k e.1.stage
      calls := stageRoutines bs k e.1.stage }
  let v : VerCtx :=
    { bs := bs, span := k, logN := planLogN bs, configured := bit (imgShapes bs) k, edges := edges
      routes := edgeRoutes piers edges, stages := infos, tensors := tensors bs, keys := keyEntries bs
      exchange := (winMap.filter fun e => 1024 ≤ e.2).map (·.1) }
  let patches := firstReject ((spanPatches bs k).map fun x =>
    must (patchOk (patchValue piers edges x) x.field) { reason := 0xF, stage := x.stage, pc := x.pc })
  match patches with
  | some r => some r
  | none =>
    let b : Batch := { noBatch with ring := { logN := planLogN bs, q := (planRing bs).getD 1 0, p := (planRing bs).getD 2 0
                                              primes := List.replicate (planPrimes bs) (2 ^ 35 + 1) } }
    let sp : Span := { noSpan with piers := piers, edges := edges, grants := (rec_.map (·.grants)).getD [], configured := v.configured
                                   batch := some b, running := true }
    let s0 : State := { spans := [(0, sp)], images := [(0, im)] }
    let s1 := im.stages.foldl (fun s g =>
      s.modPier (piers.getD g.stage 0) fun x => launchPier im 0 b (some g) (x.loadBank 0 g)) s0
    (dryRun v (2 ^ 32) (settleHolds v (v.stages.foldl (dryIssue v 0) { s := s1 }))).bad

/-- The piers of span `k`'s footprint at offsets (0, 0), die 0 for a one-die footprint. -/
def footprint (bs : List Byte) (k : Nat) : List Nat := (spanStages bs k).map fun e => e.1.die * 96 + e.1.col * 12 + e.1.row

/-- The schedule of every span against footprint travel times (Table 11-10, step 3). -/
def checkSchedules (bs : List Byte) (winMap : List (Nat × Nat)) : Option Reject :=
  firstReject ((List.range (imgSpans bs)).map fun k => verifySpan bs winMap k (footprint bs k))

end Sys2Proof.Machine
end

