-- ==== Sys2Proof/Machine/Place.lean ====
section
/-! DEFINITION. Placement: candidates, substitution, the acceptance checks, link ownership and designated spares
(11_spans R287 to R291, R294, R295). -/
namespace Sys2Proof.Machine

/-- A span placed: its number in the image, piers by stage, links owned and reserved, and the spare of each pier that has one. -/
structure Placed where
  imgSpan : Nat
  piers : List Nat
  links : List Nat
  reserved : List Nat
  spares : List (Nat × Nat)
  deriving DecidableEq, Repr

/-! ### Candidates (R287) -/

/-- Whether the footprint of span `k` uses both dies. -/
def twoDie (bs : List Byte) (k : Nat) : Bool := decide (1 < (((spanStages bs k).map fun e => e.1.die).eraseDups).length)

/-- Origin dies in order. -/
def originDies (bs : List Byte) (k : Nat) : List Nat :=
  let mask := (((spanRecs bs)[k]?).map (·.dieMask)).getD 0
  (if twoDie bs k then [0] else [0, 1]).filter fun d => bit mask d

/-- The footprint's height and width. -/
def footRows (bs : List Byte) (k : Nat) : Nat := ((spanStages bs k).map fun e => e.1.row + 1).foldl max 0
def footCols (bs : List Byte) (k : Nat) : Nat := ((spanStages bs k).map fun e => e.1.col + 1).foldl max 0

/-- The footprint at origin die `d`, row offset `o` and column offset `u`. -/
def shifted (bs : List Byte) (k d o u : Nat) : List Nat :=
  let two := twoDie bs k
  (spanStages bs k).map fun e => (if two then e.1.die else d) * 96 + (e.1.col + u) * 12 + (e.1.row + o)

/-- The candidates in the order of R287. -/
def candidates (bs : List Byte) (k : Nat) : List (List Nat) :=
  (originDies bs k).flatMap fun d => (List.range (13 - footRows bs k)).flatMap fun o =>
    (List.range (9 - footCols bs k)).map fun u => shifted bs k d o u

/-! ### Usable positions and substitution (R287, R288) -/

/-- Whether a pier is Active and hosts no stage; `busy` lists the piers that host one. -/
def State.usable (s : State) (busy : List Nat) (p : Nat) : Bool := s.pierState p == 1 && !busy.contains p

/-- Piers of a list in ascending travel time from `p`, ties to the lowest index. -/
def byTravel (p : Nat) (l : List Nat) : List Nat := l.foldl (fun a q => insertBy (fun x => travel p x) q a) []

/-- The piers of a die. -/
def diePiers (d : Nat) : List Nat := (List.range 96).map (d * 96 + ·)

/-- Stages in order: a usable position keeps its pier, another takes the nearest usable pier of its die; none where a die has
none left (log entry 20). -/
def substitute (s : State) (busy : List Nat) : List Nat → List Nat → Option (List Nat)
  | _, [] => some []
  | used, p :: ps =>
    let free := fun (q : Nat) => s.usable busy q && !used.contains q
    let pick := if free p then some p else (byTravel p ((diePiers (p / 96)).filter free)).head?
    match pick with
    | none => none
    | some q => (substitute s busy (q :: used) ps).map (q :: ·)

/-! ### Acceptance (R289, R290, R294) -/

/-- Edge budgets, patch ranges and the verifier, for a span on the given piers. -/
def fitsAt (bs : List Byte) (winMap : List (Nat × Nat)) (k : Nat) (piers : List Nat) : Bool :=
  let edges := spanEdges bs k
  (edges.all fun e => decide (travel (piers.getD e.src 0) (piers.getD e.dst 0) ≤ e.budget)) &&
    ((spanPatches bs k).all fun x => patchOk (patchValue piers edges x) x.field) && (verifySpan bs winMap k piers).isNone

/-- The designated spare of stage `n`: the nearest Spare pier of its die that fits with this stage alone moved (R294). -/
def spareFor (s : State) (bs : List Byte) (winMap : List (Nat × Nat)) (k : Nat) (piers : List Nat) (n : Nat) : Option Nat :=
  let p := piers.getD n 0
  (byTravel p ((diePiers (p / 96)).filter fun q => s.pierState q == 2)).find? fun q => fitsAt bs winMap k (piers.set n q)

/-- The designated spares of a span, and the links that their routes would add and no other span holds: `taken` lists the
links that other spans own or reserve. -/
def designate (s : State) (bs : List Byte) (winMap : List (Nat × Nat)) (k : Nat) (piers taken : List Nat) :
    List (Nat × Nat) × List Nat :=
  let own := spanLinks piers (spanEdges bs k)
  let found := (List.range piers.length).filterMap fun n => (spareFor s bs winMap k piers n).map fun q => (n, q)
  let added := found.flatMap fun e => spanLinks (piers.set e.1 e.2) (spanEdges bs k)
  (found.map fun e => (piers.getD e.1 0, e.2), (added.filter fun l => !own.contains l && !taken.contains l).eraseDups)

/-- A candidate accepted under R289. -/
def acceptAt (s : State) (bs : List Byte) (winMap : List (Nat × Nat)) (taken : List Nat) (k : Nat) (piers : List Nat) :
    Option Placed :=
  let links := spanLinks piers (spanEdges bs k)
  if (links.any fun l => taken.contains l) || !fitsAt bs winMap k piers then none
  else
    let d := designate s bs winMap k piers taken
    if d.1.length = piers.length then some { imgSpan := k, piers := piers, links := links, reserved := d.2, spares := d.1 } else none

/-- Placement of span `k`: the first pass, and unless RIGID_ONLY the second (R288). -/
def placeSpan (s : State) (bs : List Byte) (winMap : List (Nat × Nat)) (busy taken : List Nat) (k : Nat) : Option Placed :=
  let cs := candidates bs k
  let rigid := (((spanRecs bs)[k]?).map (·.rigid)).getD false
  let first := cs.findSome? fun c =>
    if (c.all fun p => s.usable busy p) && decide c.Nodup then acceptAt s bs winMap taken k c else none
  match first with
  | some x => some x
  | none => if rigid then none else
      cs.findSome? fun c => (substitute s busy [] c).bind fun q => acceptAt s bs winMap taken k q

/-- Piers that host a stage, and links that a loaded span owns or reserves; `but` leaves out one span. -/
def State.hosts (s : State) (but : Option Nat) : List Nat :=
  (s.spans.filter fun e => some e.1 != but).flatMap fun e => e.2.piers
def State.takenLinks (s : State) (but : Option Nat) : List Nat :=
  (s.spans.filter fun e => some e.1 != but).flatMap fun e => e.2.links ++ e.2.reserved

/-- Every span of an image placed in span order, none where one finds no place (Table 11-10, step 6). -/
def placeAll (s : State) (bs : List Byte) (winMap : List (Nat × Nat)) : List Nat → List Nat → List Nat → Option (List Placed)
  | [], _, _ => some []
  | k :: ks, busy, taken =>
    match placeSpan s bs winMap busy taken k with
    | none => none
    | some x => (placeAll s bs winMap ks (busy ++ x.piers) (taken ++ x.links ++ x.reserved)).map (x :: ·)

end Sys2Proof.Machine
end

