-- ==== Sys2Proof/Machine/Windows.lean ====
section
/-! DEFINITION. The window table: open, close, close with drain; the end of a session and of an attachment
(14_host_ports R361 to R366, R383; 16_security R423). -/
namespace Sys2Proof.Machine

/-- A window entry replaced. -/
def State.setWin (s : State) (w : Nat) (e : Window) : State := { s with windows := tput s.windows w e }

/-- Whether [a, a+n) lies in the LLM scratchpad above the system area and outside every image region, or in one GDDR span
outside image regions, internal stores and save areas (R126, R334, R336, R345, R347, R362). Bench addresses name rows, not
bytes (R142): no window lies there (log entry 15). -/
def State.windowPlaceOk (s : State) (a n : Nat) : Bool :=
  let llm := decide (llmBase + 0x2000000 ≤ a ∧ a + n ≤ llmBase + s.scratch) &&
    s.images.all fun e => !meet a n (llmBase + e.2.llmBase) e.2.llmBytes
  let k := (a - gddrBase 0) / 2 ^ 32
  let x := (a - gddrBase 0) % 2 ^ 32
  let gddr := decide (gddrBase 0 ≤ a ∧ k < 16 ∧ x + n ≤ gddrLimit) &&
    (s.images.all fun e => !meet x n e.2.gddrBase e.2.gddrPart) && s.objs.all fun o => !meet x n o.base (65536 * o.mib)
  llm || gddr

/-- Whether [a, a+n) meets an open local window. -/
def State.windowOverlap (s : State) (a n : Nat) : Bool :=
  s.windows.any fun e => (e.2.st == .opened || e.2.st == .draining) && !e.2.remote && meet a n e.2.base e.2.length

/-- Whether the residency bitmap at LLM offset `b` for `n` bytes lies in an open local window of slot `p` (R362, R367). -/
def State.bitmapOk (s : State) (p b n : Nat) : Bool :=
  s.windows.any fun e => e.2.st == .opened && !e.2.remote && e.2.owner == p &&
    decide (e.2.base ≤ llmBase + b ∧ llmBase + b + ceilDiv n (2 ^ 19) ≤ e.2.base + e.2.length)

/-- WIN_COMMAND 1 on the staged fields of slot `p`: the code, and the state (R362). -/
def windowOpen (p : Nat) (s : State) : Nat × State :=
  let w := s.reg prtWinId 0 p
  let remote := s.reg prtWinKind 0 p == 1
  let base := s.reg prtWinBaseLo 0 p + 2 ^ 32 * s.reg prtWinBaseHi 0 p
  let n := s.reg prtWinLength 0 p
  let res := remote && s.reg prtWinResidency 0 p == 1
  let bm := s.reg prtWinBitmap 0 p
  let bad := decide (w < 16 ∨ 1024 ≤ w) || (s.win w).st != .free || decide (n = 0 ∨ n % 64 ≠ 0 ∨ 0xFFFFFFC0 < n ∨ base % 64 ≠ 0) ||
    (!remote && (!s.windowPlaceOk base n || s.windowOverlap base n)) || (res && !s.bitmapOk p bm n)
  if bad then (0x0409, s)
  else (0, s.setWin w { s.win w with
    st := .opened, owner := p, remote := remote, base := base, length := n, rkey := s.reg prtWinRkey 0 p
    residency := res, bitmap := bm })

/-- The entry of a window that closes: its next epoch, free, or retired past 0xFFFF (R365). -/
def closedWindow (e : Window) : Window :=
  if 0xFFFF ≤ e.epoch then { st := .retired, epoch := e.epoch } else { epoch := e.epoch + 1 }

/-- The refusal code of a close command on window `w` by slot `p`, 0 for none (R365). -/
def closeCode (p w : Nat) (s : State) : Nat :=
  let e := s.win w
  if w < 16 ∨ 1024 ≤ w ∨ e.st = .free ∨ e.st = .retired then 0x0409
  else if e.owner ≠ p then 0x040A
  else if e.st = .draining ∨ (s.images.any fun i => i.2.winMap.any fun m => m.2 == w) then 0x0402
  else 0

/-- WIN_COMMAND 2: the window closes at once. -/
def windowClose (p : Nat) (s : State) : Nat × State :=
  let w := s.reg prtWinId 0 p
  let c := closeCode p w s
  if c ≠ 0 then (c, s) else (0, s.setWin w (closedWindow (s.win w)))

/-- WIN_COMMAND 3: the window takes its next epoch and drains. -/
def windowDrain (p : Nat) (s : State) : Nat × State :=
  let w := s.reg prtWinId 0 p
  let c := closeCode p w s
  let e := s.win w
  if c ≠ 0 then (c, s) else (0, s.setWin w { e with st := .draining, epoch := min (e.epoch + 1) 0x10000, noted := false })

/-- A draining window ends: free, or retired where its epoch has passed 0xFFFF. -/
def windowDrained (w : Nat) (s : State) : State :=
  let e := s.win w
  s.setWin w (if 0xFFFF < e.epoch then { st := .retired, epoch := 0xFFFF } else { epoch := e.epoch })

/-- WIN_RESULT takes the code of a command (R384). -/
def setWinResult (p : Nat) (r : Nat × State) : State := r.2.setReg prtWinResult 0 p r.1

/-- WINDOW_OPEN: WIN_COMMAND 1 of slot `p`. -/
def execWindowOpen (p : Nat) (s : State) : Host.Outcome State Fault Refusal :=
  if 8 ≤ p then .fault (.noSuchUnit p) else .next (setWinResult p (windowOpen p s))

/-- WINDOW_CLOSE: WIN_COMMAND 2 of slot `p`. -/
def execWindowClose (p : Nat) (s : State) : Host.Outcome State Fault Refusal :=
  if 8 ≤ p then .fault (.noSuchUnit p) else .next (setWinResult p (windowClose p s))

/-- WINDOW_CLOSE_DRAIN: WIN_COMMAND 3 of slot `p`. -/
def execWindowCloseDrain (p : Nat) (s : State) : Host.Outcome State Fault Refusal :=
  if 8 ≤ p then .fault (.noSuchUnit p) else .next (setWinResult p (windowDrain p s))

/-! ### The end of a session (R383) and of an attachment (R423) -/

/-- Whether a session has an accepted request that has not committed. -/
def State.hasLive (s : State) (se : Nat) : Bool := s.requests.any fun r => r.session == se && r.live

/-- A session erased: MASK key, peers, policy, retained sequence numbers, material, streams. -/
def eraseSession (se : Nat) (s : State) : State :=
  let ids := ((tfind s.sessions se).map fun x => x.classes.flatMap fun c => c.bundles.map (·.obj)).getD []
  let s1 := freeObjs ids s
  { s1 with
    sessions := tdel s1.sessions se
    requests := s1.requests.filter fun r => r.session != se
    streams := s1.streams.filter fun x => x.session != se
    tx := s1.tx.filter fun f => f.session != se
    rx := s1.rx.filter fun f => f.session != se
    rxDone := s1.rxDone.filter fun f => f.session != se
    rxTimers := s1.rxTimers.filter fun f => f.session != se
    sent := s1.sent.filter fun f => f.1 != se }

/-- A session that closes: acceptance stops; the rest follows once its last accepted request has committed. -/
def closeSession (se tag : Nat) (s : State) : State :=
  let s1 := s.modSession se fun x => { x with closing := some tag }
  if s1.hasLive se then s1 else s1.enqueue (.sessionCloseDone se)

/-- A lost slot whose sessions are all gone: its windows close, mapped ones too, its queue pairs end, it is free. -/
def freeSlot (p : Nat) (s : State) : State :=
  let mine := fun (e : Nat × Window) => decide (e.2.owner = p) && (e.2.st == .opened || e.2.st == .draining)
  { s with
    windows := s.windows.map fun e => if mine e then (e.1, closedWindow e.2) else e
    qps := s.qps.filter fun q => q.slot != p
    slots := tdel s.slots p }

/-- An attachment lost or ended (R423). -/
def loseSlot (p : Nat) (s : State) : State :=
  let mine := (s.sessions.filter fun e => e.2.slot = p).map (·.1)
  let gone := s.waits.filter fun w => w.slot == p && (w.bind.isSome || w.verb == 1 || w.verb == 7 || w.verb == 9)
  let s0 := gone.foldl (fun s w => if w.verb = 1 then s.modImage w.key fun im => { im with replacing := false } else s)
    { s with waits := s.waits.filter fun w => !gone.contains w }
  let s1 := s0.modSlot p fun sl => { sl with closing := true, verb := none }
  let s2 := writeCompletions p s1
  let s3 := mine.foldl (fun s se => closeSession se 0 s) s2
  if mine.isEmpty then freeSlot p s3 else s3

/-- SESSION_CLOSE_DONE (R383, R423): every accepted request of the closing session has committed. -/
def execSessionCloseDone (se : Nat) (s : State) : Host.Outcome State Fault Refusal :=
  match tfind s.sessions se with
  | none => .next s
  | some x =>
    if x.closing.isNone ∨ s.hasLive se then .next s
    else
      let s1 := eraseSession se s
      let s2 := match s1.waits.find? (fun w => w.verb = 6 ∧ w.key = se) with
        | some w => respond w.slot w.tag 0 [] { s1 with waits := s1.waits.erase w }
        | none => s1
      let lost := ((tfind s2.slots x.slot).map (·.closing)).getD false
      .next (if lost && s2.sessions.all (fun e => e.2.slot != x.slot) then freeSlot x.slot s2 else s2)

/-- ATTACHMENT_LOSS (R423): ATTACH_LOSS_MS have passed without a MGMT message that passes R422. -/
def execAttachmentLoss (p : Nat) (s : State) : Host.Outcome State Fault Refusal :=
  if 8 ≤ p then .fault (.noSuchUnit p)
  else match tfind s.slots p with
    | none => .next s
    | some sl =>
      if sl.closing ∨ s.now < sl.lastMgmt + 1000000 * s.dreg ksnAttachLossMs then .next s else .next (loseSlot p s)

/-- DETACH (R423): under the session AEAD, the partner ends its attachment. -/
def execDetach (p ctr : Nat) (ok : Bool) (s : State) : Host.Outcome State Fault Refusal :=
  if 8 ≤ p then .fault (.noSuchUnit p)
  else match tfind s.slots p with
    | none => .next s
    | some sl =>
      onPort (sl.port sl.onStandby) 128 (.detach p ctr ok) s fun s =>
        if !ok ∨ ctr ≤ sl.ctrIn ∨ sl.closing then s else loseSlot p s

end Sys2Proof.Machine
end

