-- ==== Sys2Proof/Machine/LoadImage.lean ====
section
/-! DEFINITION. LOAD_IMAGE and EXPORT_WEIGHTS: relocation, slices and backing copies, the placement report, replacement and
unloading (11_spans R284, R292, R299, R300; 03 R67 to R70, R84 to R89; 13 R337, R495; 14 R380). -/
namespace Sys2Proof.Machine

/-! ### Relocation (R292) -/

/-- The device address of a compiled far address of kind `kind` for the stage on pier `p` (log entry 18). -/
def Image.reloc (im : Image) (p kind x : Nat) : Nat :=
  match kind with
  | 1 => Machine.llmBase + im.llmBase + x
  | 2 => Machine.gddrBase (x / max im.gddrPart 1) + im.gddrBase + x % max im.gddrPart 1
  | 3 => windowBase + 2 ^ 32 * tget 0 im.winMap (fld x 32 16) + x % 2 ^ 32
  | 4 => sliceBase p + x
  | _ => x

/-- A descriptor's 128 bytes with FAR_BASE and FAR_HEADER rewritten. -/
def relocDesc (im : Image) (p : Nat) (d : List Byte) : List Byte :=
  let kind := getLe d 1 1
  let at_ := fun (k o : Nat) => leBytes 8 (im.reloc p k (fld (getLe d o 8) 0 48))
  d.take 8 ++ at_ kind 8 ++ slice d 16 0x40 ++ at_ (if kind = 4 then 0 else kind) 0x50 ++ d.drop 0x58

/-- The program of stage `e` of span `k` on `piers`, with its descriptor table relocated. -/
def Image.program (im : Image) (k : Nat) (piers : List Nat) (e : StageRec × Nat) : StageProg :=
  let g := stageProgram im.raw k piers e.1 e.2
  { g with desc := (entries 128 (fitBytes (ceilDiv g.desc.length 128 * 128) g.desc)).flatMap (relocDesc im (piers.getD e.1.stage 0)) }

/-- The shards of an image with their device addresses; `piersOf` gives the pier of a stage record. -/
def Image.relocShards (im : Image) (pierOf : Nat → Nat) : List Shard :=
  (tensors im.raw).flatMap fun t => t.shards.map fun e =>
    let addr := fun (x : Nat) => if t.home = 0 then benchAddr (pierOf e.stage) x else im.reloc 0 t.home x
    { tensor := t.id, elemType := t.elemType, home := t.home, shard := e.shard, stage := e.stage
      header := if t.headers then addr e.header else 0, data := addr e.data, bytes := e.bytes, extents := t.local e.shard
      level := t.level, object := t.object, sharding := t.sharding e.shard }

/-! ### Slices and backing copies (R67 to R70, R84) -/

/-- Offsets of a stage's shards in its slice, packed in section order from 0x1000 on (R69, log entry 18). -/
def placeShards : Nat → List (Nat × Nat × Nat × Nat × Nat) → List (Nat × Nat × Nat × Nat × Nat)
  | _, [] => []
  | o, (t, n, _, len, crc) :: r => (t, n, o, len, crc) :: placeShards (o + ceilDiv len 64 * 64) r

/-- The entry of a shard in a directory or a bundle (Table 3-1). -/
def dirEntry (handle : Nat) (w : Nat × Nat × Nat × Nat × Nat) : List Byte :=
  leBytes 2 handle ++ leBytes 2 w.2.1 ++ leBytes 4 w.1 ++ leBytes 4 w.2.2.1 ++ leBytes 4 w.2.2.2.1 ++ leBytes 4 w.2.2.2.2 ++
    leBytes 4 (w.2.2.1 / 2 ^ 32) ++ leBytes 40 0

/-- A slice directory (R68). -/
def directory (s : State) (handle : Nat) (ws : List (Nat × Nat × Nat × Nat × Nat)) : List Byte :=
  let es := ws.flatMap (dirEntry handle)
  leBytes 4 0x48545744 ++ verBytes s ++ leBytes 1 ws.length ++ leBytes 1 0 ++
    leBytes 4 ((ws.map (·.2.2.2.1)).foldl (· + ·) 0) ++ leBytes 48 0 ++ leBytes 4 (crc32 es) ++ es

/-- What a stage's slice holds, as (offset, bytes): the directory and the shards; every other byte is zero. DESIGN CHOICE (log entry
66), unsafe: where two sections carry one TENSOR_ID and SHARD_INDEX, both places take the bytes of the first. -/
def sliceParts (s : State) (im : Image) (g : StageProg) : List (Nat × List Byte) :=
  (0, directory s im.handle g.weights) ::
    g.weights.map fun w => (w.2.2.1, ((weightSect im.raw w.1 w.2.1).getD []))

/-- A slice written whole. -/
def writeSlice (p : Nat) (parts : List (Nat × List Byte)) (s : State) : State :=
  parts.foldl (fun s e => s.wr (sliceBase p + e.1) e.2) (s.zeroMem (sliceBase p) (sliceBase p + 0x2000000))

/-- An internal object of `n` zero bytes (R347). -/
def allocSpace (n : Nat) (s : State) : Option (Nat × State) :=
  match s.objPlace n with
  | none => none
  | some b =>
    let f := s.fresh
    let o : GObj := { id := f.1, base := b, mib := ceilDiv n (2 ^ 20), bytes := n }
    some (f.1, zeroObj o { f.2 with objs := f.2.objs ++ [o] })

/-- Bytes written to an internal object from byte `y` on. -/
def objWr (id y : Nat) (bs : List Byte) (s : State) : State :=
  bs.zipIdx.foldl (fun s e => s.wr (objAddr (s.objBase id) (y + e.2)) [e.1]) s

/-- The listed cells of [lo, hi) moved to the addresses that `f` gives their offsets. -/
def copyCells (lo hi : Nat) (f : Nat → Nat) (s : State) : State :=
  let cells := s.mem.filter fun c => decide (lo ≤ c.1 ∧ c.1 < hi)
  { s with mem := mputAll s.mem (cells.map fun c => (f (c.1 - lo), c.2)) }

/-- Byte number in an internal object with base `b` of the device address `a`; none outside it. -/
def objIndex (b mib a : Nat) : Option Nat :=
  let k := (a - gddrBase 0) / 2 ^ 32
  let x := (a - gddrBase 0) % 2 ^ 32
  if gddrBase 0 ≤ a ∧ k < 16 ∧ b ≤ x ∧ x < b + 65536 * mib then some ((x - b) / 65536 * 1048576 + k * 65536 + (x - b) % 65536) else none

/-- Slice `p` rewritten from the internal object `id`, byte for byte (R86). -/
def restoreSlice (p id : Nat) (s : State) : State :=
  match s.objs.find? fun o => o.id = id with
  | none => s
  | some o =>
    let cells := s.mem.filterMap fun c => (objIndex o.base o.mib c.1).map fun y => (sliceBase p + y, c.2)
    let s1 := s.zeroMem (sliceBase p) (sliceBase p + 0x2000000)
    { s1 with mem := mputAll s1.mem cells }

/-- Whether every shard in slice `p` has its SHARD_CRC. -/
def State.sliceGood (s : State) (p : Nat) (ws : List (Nat × Nat × Nat × Nat × Nat)) : Bool :=
  ws.all fun w => crc32 (s.rd (sliceBase p + w.2.2.1) w.2.2.2.1) == w.2.2.2.2

/-- The shards of the stage that pier `p` hosts. -/
def State.weightsOn (s : State) (p : Nat) : List (Nat × Nat × Nat × Nat × Nat) :=
  (((s.spanOf p).bind fun e => s.stageProg e.1 e.2).map (·.weights)).getD []

/-- Slice `q` rewritten from pier `p`'s backing copy `id`, whose read verifies every SHARD_CRC of `ws`: whether they hold; the copy is
recorded and repaired where one does not (R85, R86, R466). -/
def restoreChecked (q p id : Nat) (ws : List (Nat × Nat × Nat × Nat × Nat)) (s : State) : Bool × State :=
  let s1 := restoreSlice q id s
  if s1.sliceGood q ws then (true, s1) else (false, storeLost 6 p id s1)

/-- An internal object rewritten from slice `p` (Table 18-5). -/
def backupSlice (p id : Nat) (s : State) : State :=
  match s.objs.find? fun o => o.id = id with
  | none => s
  | some o => copyCells (sliceBase p) (sliceBase p + 0x2000000) (fun y => objAddr o.base y) (zeroObj o s)

/-- Slices and backing copies of a placed image: every pier's object, none where one finds no space. -/
def writeStores (im : Image) (l : List (Nat × StageProg)) (s : State) : Option (List (Nat × Nat) × State) :=
  l.foldl (fun acc e => acc.bind fun a =>
    let parts := sliceParts s im e.2
    (allocSpace 0x2000000 a.2).map fun r =>
      (a.1 ++ [(e.1, r.1)], writeSlice e.1 parts (parts.foldl (fun s q => objWr r.1 q.1 q.2 s) r.2))) (some ([], s))

/-! ### Unloading (R299, R301, R337, R495) -/

/-- An image unloaded: its spans, regions, backing copies, reservations, bindings and pins go. -/
def unloadImage (h : Nat) (s : State) : State :=
  match tfind s.images h with
  | none => s
  | some im =>
    let s1 := im.spans.foldl (fun s k =>
      { (abortPiers k false s) with spans := tdel s.spans k }) s
    { s1 with
      images := tdel s1.images h
      objs := s1.objs.filter fun o => !(im.backing.any fun b => b.2 == o.id)
      keysets := s1.keysets.map fun k => { k with images := k.images.filter (· != h) }
      llmCache := if im.pinMib = 0 then s1.llmCache else [] }

/-! ### Report (R300) -/

/-- The placement report. -/
def placementReport (s : State) (im : Image) (ps : List Placed) : List Byte :=
  let dev := fun (k : Nat) => im.spans.getD k 0
  let stages := ps.flatMap fun x => x.piers.zipIdx.flatMap fun e =>
    leBytes 1 (dev x.imgSpan) ++ leBytes 1 x.imgSpan ++ leBytes 2 e.2 ++ leBytes 1 e.1 ++ leBytes 1 (tget 0xFF x.spares e.1) ++ leBytes 2 0
  let edges := ps.flatMap fun x => (spanEdges im.raw x.imgSpan).zipIdx.flatMap fun e =>
    leBytes 1 (dev x.imgSpan) ++ leBytes 1 x.imgSpan ++ leBytes 2 e.2 ++
      leBytes 1 (travel (x.piers.getD e.1.src 0) (x.piers.getD e.1.dst 0)) ++ leBytes 1 e.1.budget ++ leBytes 2 0
  let head := leBytes 4 0x48545052 ++ verBytes s ++ leBytes 2 im.handle ++ leBytes 4 (stages.length / 8) ++ leBytes 4 (edges.length / 8) ++ leBytes 44 0
  head ++ leBytes 4 (crc32 head) ++ stages ++ edges

/-! ### The verb (Table 11-10) -/

/-- Steps 1 to 3: the code of the first failure and its detail. -/
def checkImage (s : State) (o : LoadOp) (bs : List Byte) : Option (Nat × List Byte) :=
  match stepFormat s.oper o.winMap bs with
  | some (c, r) => some (c, if c = 0x0503 then r.bytes else [])
  | none =>
    let pinned := ((s.images.filter fun e => some e.1 != o.replace).map fun e => e.2.pinMib).foldl (· + ·) 0
    let free := 32 * (s.dreg llmCacheSteps - 1) - pinned
    (firstReject [stepRoutines s.ks bs, checkShards bs, checkTensors (s.dreg tbDeviceId) o.winMap bs, checkPlan free bs, checkSkips bs,
      checkPoints bs, checkDescs s.scratch bs, checkHxp bs, checkPatches bs, checkSchedules bs o.winMap]).map fun r => (0x0503, r.bytes)

/-- Tokens that loaded spans reserve (R299). -/
def State.tokensReserved (s : State) : Nat := (s.spans.map fun e => (e.2.grants.foldl max 0)).foldl (· + ·) 0

/-- The device span indices that an image's spans take (R300). -/
def takeIndices (s : State) : Nat → List (Nat × Span) → List Nat
  | 0, _ => []
  | n + 1, t => match lowestFree t 0 16 with
    | some k => k :: takeIndices s n (tput t k noSpan)
    | none => []

/-- The image as it is loaded, before its programs are relocated. -/
def newImage (s : State) (p h : Nat) (o : LoadOp) (bs : List Byte) (llm g : Nat) : Image :=
  let arrival := imgLlm bs - arrivalEntries bs * arrivalBytes bs
  { handle := h, owner := p, loader := ((tfind s.slots p).map (·.partnerKey)).getD [], digest := sha3 (bs.take (imgLength bs)), raw := bs, spans := takeIndices s (imgSpans bs) s.spans
    shapeModes := imgShapes bs, ringShape := planRing bs, batchWaitUs := planWait bs, pinMib := planPin bs, keys := keyEntries bs
    mats := matEntries bs, shards := [], stages := [], hxp := hxpSlots bs, points := condPoints bs
    arrivalEntries := arrivalEntries bs, arrivalBytes := arrivalBytes bs, arrivalBase := arrival
    tableBase := arrival - 16384 * imgSpans bs, llmBase := llm, llmBytes := imgLlm bs, gddrBase := g
    gddrPart := partSize (imgGddr bs), winMap := o.winMap, backing := [] }

/-- Each span of a placed image in its device span index. -/
def installSpans (im : Image) (ps : List Placed) (s : State) : State :=
  ps.foldl (fun s x =>
    let rec_ := (spanRecs im.raw)[x.imgSpan]?
    s.setSpan (im.spans.getD x.imgSpan 0)
      { noSpan with handle := im.handle, imgSpan := x.imgSpan, piers := x.piers, edges := spanEdges im.raw x.imgSpan
                    grants := (rec_.map (·.grants)).getD [], configured := bit im.shapeModes x.imgSpan
                    spares := x.spares, links := x.links, reserved := x.reserved }) s

/-- Steps 5 to 9 for the image `bs` of slot `p`. -/
def placeImage (p tag : Nat) (o : LoadOp) (bs : List Byte) (s : State) : State :=
  let need := ((spanRecs bs).map fun r => r.grants.foldl max 0).foldl (· + ·) 0
  if 16 < s.spans.length + imgSpans bs then respond p tag 0x0402 [] s
  else if s.dreg pwrTokenBudget < s.tokensReserved + need then respond p tag 0x0507 [] s
  else match placeAll s bs o.winMap (List.range (imgSpans bs)) (s.hosts none) (s.takenLinks none) with
    | none => respond p tag 0x0506 [] s
    | some ps =>
      match s.llmPlace 2048 (imgLlm bs), (if imgGddr bs = 0 then some 0 else s.regionPlace (partSize (imgGddr bs))),
          lowestFree s.images 1 65535 with
      | some llm, some g, some h =>
        let im0 := newImage s p h o bs llm g
        let prog := fun (e : StageRec × Nat) =>
          let x := im0.program e.1.span ((ps.getD e.1.span { imgSpan := 0, piers := [], links := [], reserved := [], spares := [] }).piers) e
          { x with weights := placeShards 0x1000 x.weights }
        let gs := (stageRecs bs).zipIdx.map prog
        let pierOf := fun (n : Nat) => match (gs[n]?) with
          | some g => ((ps.getD g.span { imgSpan := 0, piers := [], links := [], reserved := [], spares := [] }).piers).getD g.stage 0
          | none => 0
        let im1 := { im0 with stages := gs, shards := im0.relocShards pierOf }
        let s0 := { s with images := tput s.images h im1 }
        match writeStores im1 (gs.zipIdx.map fun e => (pierOf e.2, e.1)) s0 with
        | none => respond p tag 0x0402 [] s
        | some (backing, s1) =>
          if !o.readBackOk then respond p tag 0x0603 [] s else
          let s2 := s1.modImage h fun im => { im with backing := backing }
          let s3 := installSpans im1 ps s2
          let s4 := gs.zipIdx.foldl (fun s e => s.modPier (pierOf e.2) fun x =>
            { (x.loadBank 0 e.1) with seq := {}, cacheBlocks := x.cacheBlocks }) s3
          let s5 := if im1.pinMib = 0 then s4 else { s4 with llmCache := [] }
          let s6 := match o.report with
            | some (w, off) =>
              let r := placementReport s5 im1 ps
              if s5.ownWindow p w && decide (off + r.length ≤ (s5.win w).length) then writeRange w off r s5 else s5
            | none => s5
          respond p tag 0 (leBytes 2 h) s6
      | _, _, _ => respond p tag 0x0402 [] s

/-- Whether an EXPORT_WEIGHTS of image `h` runs. -/
def State.exporting (s : State) (h : Nat) : Bool := s.waits.any fun w => w.verb == 7 && w.key == h

/-- Step 4: acceptance for the replaced image stops; the rest waits until its requests have committed (log entry 21). An image under
export is not replaced (R89). -/
def replaceImage (p tag h : Nat) (o : LoadOp) (bs : List Byte) (s : State) : State :=
  if s.exporting h then respond p tag 0x0402 [] s else
  let w : WaitVerb := { slot := p, tag := tag, verb := 1, key := h, load := some o, raw := bs }
  let s1 := { (s.modImage h fun im => { im with replacing := true }) with waits := s.waits ++ [w] }
  if s1.requests.any fun r => r.handle == h && r.live then s1 else s1.enqueue (.loadImageReplaceDrained h)

/-- LOAD_IMAGE (R284); a length of 0 with a handle to replace unloads that image (Table 14-7). -/
def execLoadImage (r : VerbReq) (o : LoadOp) (s : State) : Host.Outcome State Fault Refusal :=
  onVerb r 1 (32 + 4 * o.winMap.length) true (.loadImage r o) s fun s =>
    if !s.gddrOk then respond r.slot r.tag 0x0402 [] s
    else if o.replace.any fun h => (tfind s.images h).isNone then respond r.slot r.tag (Config.refusal 8) [] s
    else match o.replace, decide (o.src.length = 0) with
      | some h, true => replaceImage r.slot r.tag h o [] s
      | rep, _ =>
        match readRange s r.slot o.src with
        | none => respond r.slot r.tag (Config.refusal 9) [] s
        | some bs =>
          match checkImage s o bs with
          | some (c, d) => respond r.slot r.tag c d s
          | none => match rep with
            | some h => replaceImage r.slot r.tag h o bs s
            | none => placeImage r.slot r.tag o bs s

/-- LOAD_IMAGE_REPLACE_DRAINED (Table 11-10, step 4): the replaced image's accepted requests have committed. -/
def execLoadImageReplaceDrained (h : Nat) (s : State) : Host.Outcome State Fault Refusal :=
  match s.waits.find? fun w => w.verb = 1 ∧ w.key = h with
  | none => .next s
  | some w =>
    if s.requests.any fun r => r.handle == h && r.live then .next s
    else
      let s1 := unloadImage h { s with waits := s.waits.erase w }
      match w.load with
      | some o => .next (if w.raw.isEmpty then respond w.slot w.tag 0 [] s1 else placeImage w.slot w.tag o w.raw s1)
      | none => .next s1

/-! ### EXPORT_WEIGHTS (R87 to R89) -/

/-- The shards of an image in ascending order of TENSOR_ID and SHARD_INDEX, each with the object that backs its pier's slice:
(object, tensor, shard, slice offset, bytes, CRC). -/
def Image.exportList (s : State) (im : Image) : List (Nat × Nat × Nat × Nat × Nat × Nat) :=
  let all := im.stages.flatMap fun g =>
    let pier := (s.span (im.spans.getD g.span 0)).piers.getD g.stage 0
    g.weights.map fun w => (tget 0 im.backing pier, w.1, w.2.1, w.2.2.1, w.2.2.2.1, w.2.2.2.2)
  all.foldl (fun l e => insertBy (fun x => x.2.1 * 65536 + x.2.2.1) e l) []

/-- Shards laid out in a bundle from byte `o` on. -/
def bundleOffsets : Nat → List (Nat × Nat × Nat × Nat × Nat × Nat) → List (Nat × (Nat × Nat × Nat × Nat × Nat × Nat))
  | _, [] => []
  | o, e :: r => (o, e) :: bundleOffsets (o + ceilDiv e.2.2.2.2.1 64 * 64) r

/-- The export bundle before encryption (R88). -/
def exportBundle (s : State) (im : Image) : List Byte :=
  let l := im.exportList s
  let at_ := bundleOffsets (64 + 64 * l.length) l
  let dir := at_.flatMap fun e => dirEntry im.handle (e.2.2.1, e.2.2.2.1, e.1, e.2.2.2.2.2.1, e.2.2.2.2.2.2)
  let body := at_.flatMap fun e => fitBytes (ceilDiv e.2.2.2.2.2.1 64 * 64) (objRd s e.2.1 e.2.2.2.2.1 e.2.2.2.2.2.1)
  let n := 64 + dir.length + body.length
  let head := leBytes 4 0x48545842 ++ verBytes s ++ leBytes 2 im.handle ++ leBytes 4 l.length ++ leBytes 4 0 ++ leBytes 8 n ++ leBytes 36 0
  head ++ leBytes 4 (crc32 head) ++ dir ++ body

/-- The first backing copy, with its pier, of which a shard fails its SHARD_CRC (R85). -/
def badCopy (s : State) (im : Image) : Option (Nat × Nat) :=
  ((im.exportList s).find? fun e => crc32 (objRd s e.1 e.2.2.2.1 e.2.2.2.2.1) != e.2.2.2.2.2).bind fun e =>
    im.backing.find? fun b => b.2 = e.1

/-- EXPORT_WEIGHTS: the refusals of R87 in table order, then the bundle under the AEAD of the management session, with the export's own
counter (R88, R422); its bytes go out over the ticks that follow (log entry 52). -/
def execExportWeights (r : VerbReq) (h : Nat) (places : List (Nat × Nat)) (s : State) : Host.Outcome State Fault Refusal :=
  onVerb r 7 (8 + 16 * places.length) false (.exportWeights r h places) s fun s =>
    let done := fun (code : Nat) => respond r.slot r.tag code [] s
    let mine := places.all fun e => let w := s.win e.1; s.ownWindow r.slot e.1 && w.remote
    let me := ((tfind s.slots r.slot).map (·.partnerKey)).getD []
    if places.length = 0 ∨ 4 < places.length then done (Config.refusal 14)
    else match tfind s.images h with
    | none => if mine then done 0x0406 else done 0x040A
    | some im =>
      if im.owner ≠ r.slot ∨ im.loader ≠ me ∨ !mine then done 0x040A
      else if places.any fun e => e.2 % 64 != 0 || decide ((s.win e.1).length ≤ e.2) then done 0x0406
      else
        let room := (places.map fun e => (s.win e.1).length - e.2).foldl (· + ·) 0
        let sl := tfind s.slots r.slot
        let sealed := Config.aeadSeal ((sl.map (·.keys)).getD []) ((sl.map (·.ctrExport)).getD 0) (exportBundle s im)
        if !s.gddrOk then done 0x0604
        else if room < sealed.length then done 0x0402
        else match badCopy s im with
          | some b => respond r.slot r.tag 0x0606 [] (storeLost 6 b.1 b.2 s)
          | none =>
            let w : WaitVerb := { slot := r.slot, tag := r.tag, verb := 7, key := h, raw := sealed
                                  places := places.map fun e => (e.1, e.2, (s.win e.1).epoch) }
            { (s.modSlot r.slot fun sl => { sl with ctrExport := sl.ctrExport + 1 }) with waits := s.waits ++ [w] }

/-- The next 64 bytes of an export at most: of the first window that has room. It ends when every byte is out, or when the epoch of a
named window has changed; bytes already out stay (R88, R89). -/
def exportStep (w : WaitVerb) (s : State) : State :=
  let end_ := fun (code : Nat) (s : State) => respond w.slot w.tag code [] { s with waits := s.waits.erase w }
  if w.places.any fun e => (s.win e.1).epoch != e.2.2 then end_ 0x0401 s
  else match w.places.find? fun e => decide (e.2.1 < (s.win e.1).length) with
    | none => end_ 0 s
    | some (id, off, ep) =>
      let part := w.raw.take (min 64 ((s.win id).length - off))
      let rest : WaitVerb := { w with raw := w.raw.drop part.length
                                      places := w.places.map fun e => if e = (id, off, ep) then (id, off + part.length, ep) else e }
      let s1 := if part.isEmpty then s else writeRange id off part s
      if rest.raw.isEmpty then end_ 0 s1 else { s1 with waits := s1.waits.map fun x => if x = w then rest else x }

/-- Every export that runs, one step on. -/
def exportTick (s : State) : State := (s.waits.filter fun w => w.verb = 7).foldl (fun s w => exportStep w s) s

end Sys2Proof.Machine
end

