-- ==== Sys2Proof/Machine/Keysets.lean ====
section
/-! DEFINITION. Key sets: the parameter block, INSTALL_KEYSET, ERASE_KEYSET (02 R37 to R40; 04_key_material R96 to R105). -/
namespace Sys2Proof.Machine

/-! ### The parameter block (R37 to R39) -/

/-- Twos in `n` and what is left of it, for `f` halvings at most. -/
def twos : Nat → Nat → Nat × Nat
  | 0, n => (0, n)
  | f + 1, n => if n % 2 = 0 ∧ n ≠ 0 then ((twos f (n / 2)).1 + 1, (twos f (n / 2)).2) else (0, n)

/-- Whether some square of `x`, `s` of them, is q − 1. -/
def squaresTo (q : Nat) : Nat → Nat → Bool
  | 0, _ => false
  | s + 1, x => x == q - 1 || squaresTo q s (x * x % q)

/-- The Miller–Rabin test with bases 2, 3, 5, 7 and 11 (R38). -/
def millerRabin (q : Nat) : Bool :=
  let t := twos 64 (q - 1)
  [2, 3, 5, 7, 11].all fun b =>
    let x := powMod b t.2 q
    x == 1 || squaresTo q t.1 x

/-- What a parameter block says (Table 2-1). -/
def parseRing (b : List Byte) : Ring :=
  let q := getLe b 7 1
  let p := getLe b 8 1
  let primes := (List.range (q + p)).map fun i => getLe b (0x20 + 16 * i) 8
  { logN := getLe b 6 1, q := q, p := p, dnum := getLe b 9 1, eEnc := getLe b 0xA 2, eRs := getLe b 0xC 2, eKs := getLe b 0xE 2
    primes := primes, roots := (List.range (q + p)).map fun i => getLe b (0x28 + 16 * i) 8, lq := primes.map lqOf }

/-- Bytes of a ring's parameter block. -/
def Ring.blockBytes (r : Ring) : Nat := 32 + 16 * r.count

/-- R38 on the bytes of a parameter block. -/
def paramOk (oper : Nat) (b : List Byte) : Bool :=
  let r := parseRing b
  let n := 2 ^ r.logN
  decide (32 ≤ b.length) && getLe b 0 4 == 0x48545031 && readable oper (getLe b 5 1) &&
    decide (15 ≤ r.logN ∧ r.logN ≤ 17 ∧ 2 ≤ r.q ∧ r.q ≤ 64 ∧ 1 ≤ r.p ∧ r.p ≤ 16 ∧ 1 ≤ r.dnum ∧ r.dnum ≤ 8) &&
    decide (ceilDiv r.q (max r.dnum 1) ≤ r.p) && decide (r.blockBytes ≤ b.length) &&
    (r.primes.all fun q => decide (2 ^ 35 < q ∧ q < 2 ^ 36 ∧ q % (2 * n) = 1)) && (r.primes.all millerRabin) &&
    decide r.primes.Nodup && ((r.primes.zip r.roots).all fun e => decide (e.2 < e.1) && powMod e.2 n e.1 == e.1 - 1)

/-! ### Key objects (Tables 4-1, 4-2) -/

/-- Data bytes of a key object of a kind (Table 4-1). -/
def Ring.keyBytes (r : Ring) (kind : Nat) : Nat :=
  if kind = 1 then 2 * r.q * 2 ^ r.logN * 9 / 2 else r.dnum * 2 * r.count * 2 ^ r.logN * 9 / 2

/-- KIND, GALOIS and BOOT_INDEX of a key header. -/
def keyName (h : List Byte) : Nat × Nat × Nat :=
  let kind := getLe h 6 1
  (kind, if kind = 3 then fld (getLe h 0x14 4) 0 18 else 0, if kind = 4 then getLe h 0x18 2 else 0)

/-- Table 4-3, step 5, on key header `i` with `room` bytes from it to the end of the bundle: 0 or the code. DESIGN CHOICE (log
entry 66), unsafe: a BOOT_INDEX above 15 (R97), which step 5 does not list, has 0x0205 there. -/
def keyHeaderCode (oper : Nat) (r : Ring) (i room : Nat) (h : List Byte) : Nat :=
  let kind := getLe h 6 1
  if h.length < 64 ∨ getLe h 0 4 ≠ keyMagic ∨ !crcAt h 0x3C ∨ getLe h 5 1 = 0 then 0x0205
  else if !readable oper (getLe h 5 1) then 0x0801
  else if kind = 0 ∨ 4 < kind ∨ (kind = 1) ≠ (i = 0) ∨ (kind = 4 ∧ 15 < getLe h 0x18 2) then 0x0205
  else if getLe h 0x10 1 ≠ r.logN ∨ getLe h 0x11 1 ≠ r.q ∨ getLe h 0x12 1 ≠ r.p ∨ getLe h 0x13 1 ≠ r.dnum then 0x0205
  else if getLe h 0x20 8 ≠ r.keyBytes kind ∨ room < 64 + getLe h 0x20 8 then 0x0205
  else 0

/-- The key objects of a bundle from offset `o` on: each header's offset, or the code of the first header that fails. -/
def keyOffsets (oper : Nat) (r : Ring) (bs : List Byte) : Nat → Nat → Nat → Except Nat (List Nat)
  | 0, _, _ => .ok []
  | n + 1, i, o =>
    let c := keyHeaderCode oper r i (bs.length - o) (slice bs o 64)
    if c ≠ 0 then .error c
    else match keyOffsets oper r bs n (i + 1) (ceilDiv (o + 64 + getLe bs (o + 0x20) 8) 64 * 64) with
      | .error c => .error c
      | .ok l => .ok (o :: l)

/-! ### INSTALL_KEYSET (R101 to R103) -/

/-- A bundle that passes steps 1 to 7: its ring, parameter block, tag, and the kept objects as (name, header and data). -/
structure NewSet where
  ring : Ring
  params : List Byte
  tag : Nat
  kept : List ((Nat × Nat × Nat) × List Byte)
  deriving DecidableEq, Repr

/-- The keys that a bound image's key plan declares. -/
def Image.declared (im : Image) : List (Nat × Nat × Nat) :=
  im.keys.map fun e => (e.kind, e.galois, e.boot)

/-- Steps 1 to 7 of Table 4-3 on the bytes of the named range; the first failure's code. A KEY_COUNT of 0 or 1 lacks a key that
step 4 or step 7 asks for. DESIGN CHOICE (log entry 66), unsafe: a KEY_COUNT above 65,536 (R101), which the table does not list, has
0x0205 at step 1. -/
def checkKeyset (s : State) (bytes : List Byte) (ims : List Image) : Except Nat NewSet :=
  let n := getLe bytes 0x10 8
  let bs := bytes.take n
  let count := getLe bs 8 4
  let block := bs.drop 64
  let r := parseRing block
  let first := ceilDiv (64 + r.blockBytes) 64 * 64
  let declared : List (Nat × Nat × Nat) := ((ims.flatMap Image.declared) ++ [(1, 0, 0), (2, 0, 0)]).eraseDups
  if bytes.length < 64 ∨ getLe bytes 0 4 ≠ 0x48544B53 ∨ !crcAt bytes 0x3C ∨ getLe bytes 5 1 = 0 then .error 0x0205
  else if !readable s.oper (getLe bytes 5 1) then .error 0x0801
  else if n < 64 ∨ bytes.length < n ∨ 65536 < count then .error 0x0205
  else if !paramOk s.oper block then .error 0x0209
  else if ims.any fun im => im.ringShape != [r.logN, r.q, r.p, r.dnum] then .error 0x020B
  else
    let c := keyHeaderCode s.oper r 0 (bs.length - first) (slice bs first 64)
    let tag := leNat ((sha3 (block.take r.blockBytes ++ slice bs (first + 64) (r.keyBytes 1))).take 8)
    if c ≠ 0 then .error c
    else if s.keysets.any fun k => k.tag == tag then .error 0x020B
    else match keyOffsets s.oper r bs count 0 first with
      | .error c => .error c
      | .ok offs =>
        let objs := offs.map fun o => (keyName (slice bs o 64), slice bs o (64 + getLe bs (o + 0x20) 8))
        let names : List (Nat × Nat × Nat) := objs.map (·.1)
        if objs.any fun o => getLe o.2 8 8 != tag then .error 0x0202
        else if !(decide names.Nodup) || !(declared.all fun d => names.contains d) || decide (1024 < (declared.filter fun d => d.1 == 3).length) then
          .error 0x020B
        else .ok { ring := r, params := block.take r.blockBytes, tag := tag, kept := objs.filter fun o => declared.contains o.1 }

/-- The kept objects in the key store, in bundle order, and the lathe constant block (log entry 22); none where one finds no
space, with nothing written yet. -/
def storeKeys (x : NewSet) (s : State) : Option (List KeyObj × Nat × State) :=
  let objs := x.kept.foldl (fun acc o => acc.bind fun a => (allocObj o.2 a.2).map fun r =>
    (a.1 ++ [({ kind := o.1.1, galois := o.1.2.1, boot := o.1.2.2, obj := r.1 } : KeyObj)], r.2))
    (some (([] : List KeyObj), s))
  objs.bind fun a => (allocSpace 655360 a.2).map fun r => (a.1, r.1, r.2)

/-- Steps 8 and 9 for a checked bundle; what a failure of step 8 has written is released and zeroed. -/
def keepKeyset (p tag : Nat) (x : NewSet) (images : List Nat) (readBackOk : Bool) (s : State) : State :=
  let crcOk := fun (o : (Nat × Nat × Nat) × List Byte) => getLe o.2 0x28 4 == crc32 (o.2.drop 64)
  if 64 ≤ s.keysets.length then respond p tag 0x0402 [] s
  else match storeKeys x s with
    | none => respond p tag 0x0402 [] s
    | some (objs, const, s1) =>
      let undone := freeObjs (const :: objs.map (·.obj)) s1
      if !(x.kept.all crcOk) then respond p tag 0x0205 [] undone
      else if !readBackOk then respond p tag 0x0603 [] undone
      else
        let k : KeySet := { tag := x.tag, ring := x.ring, params := x.params, objs := objs, constObj := const, images := images }
        respond p tag 0 (leBytes 8 x.tag) { s1 with keysets := s1.keysets ++ [k] }

/-- INSTALL_KEYSET (R102). -/
def execInstallKeyset (r : VerbReq) (src : WinRange) (images : List Nat) (readBackOk : Bool) (s : State) :
    Host.Outcome State Fault Refusal :=
  onVerb r 2 (16 + 2 * images.length) true (.installKeyset r src images readBackOk) s fun s =>
    if !s.gddrOk then respond r.slot r.tag 0x0402 [] s
    else if images.isEmpty ∨ 8 < images.length ∨ (images.any fun h => (tfind s.images h).isNone) then
      respond r.slot r.tag (Config.refusal 11) [] s
    else match readRange s r.slot src with
      | none => respond r.slot r.tag (Config.refusal 12) [] s
      | some bs =>
        match checkKeyset s bs (images.filterMap fun h => tfind s.images h) with
        | .error c => respond r.slot r.tag c [] s
        | .ok x => keepKeyset r.slot r.tag x images readBackOk s

/-! ### ERASE_KEYSET (R105) -/

/-- Whether a set's requests have all committed and no span holds a batch under it. -/
def State.setQuiet (s : State) (tag : Nat) : Bool :=
  (s.requests.all fun r => !(r.live && s.tagOf r.session == tag)) &&
    s.spans.all fun e => (e.2.batch.toList ++ e.2.fixed).all fun b => b.keyTag != tag

/-- Every copy of a set zeroed: the key store, pinned copies, the material of its sessions; the set is gone, and every pin slot is
empty (R111). The classes go with their serials: DESIGN CHOICE (log entry 66), unsafe, that a class delivered after the erasure begins
at serial 0 (R105, R118). -/
def zeroKeyset (tag : Nat) (s : State) : State :=
  let ids := (s.keysets.filter fun k => k.tag = tag).flatMap fun k => k.constObj :: k.objs.map (·.obj)
  let mine := s.sessions.filter fun e => e.2.keyTag = tag
  let mats := mine.flatMap fun e => e.2.classes.flatMap fun c => c.bundles.map (·.obj)
  let s1 := freeObjs (ids ++ mats) s
  { s1 with
    keysets := s1.keysets.filter fun k => k.tag != tag
    sessions := s1.sessions.map fun e => if e.2.keyTag = tag then (e.1, { e.2 with classes := [] }) else e
    images := s1.images.map fun e => (e.1, { e.2 with pins := [] })
    repairs := s1.repairs.filter fun r => !(ids ++ mats).contains r.addr || decide (r.store < 3 ∨ 5 < r.store) }

/-- Acceptance under a set stops, in the mode given; the erasure follows when the set is quiet. -/
def startErase (tag mode : Nat) (s : State) : State :=
  let mark := fun (k : KeySet) => if k.tag = tag then { k with erasing := some mode } else k
  let s1 : State := { s with keysets := s.keysets.map mark }
  if s1.setQuiet tag then s1.enqueue (.eraseKeysetDone tag) else s1

/-- ERASE_KEYSET (R105). -/
def execEraseKeyset (r : VerbReq) (tag mode : Nat) (s : State) : Host.Outcome State Fault Refusal :=
  onVerb r 3 16 true (.eraseKeyset r tag mode) s fun s =>
    if s.keysets.any fun k => k.tag == tag then
      startErase tag mode { s with waits := s.waits ++ [{ slot := r.slot, tag := r.tag, verb := 3, key := tag }] }
    else respond r.slot r.tag 0 [] s

/-- ERASE_KEYSET_DONE (R105). -/
def execEraseKeysetDone (tag : Nat) (s : State) : Host.Outcome State Fault Refusal :=
  if !(s.keysets.any fun k => k.tag == tag && k.erasing.isSome) ∨ !s.setQuiet tag then .next s
  else
    let s1 := zeroKeyset tag s
    match s1.waits.find? fun w => w.verb = 3 ∧ w.key = tag with
    | some w => .next (respond w.slot w.tag 0 [] { s1 with waits := s1.waits.erase w })
    | none => .next s1

end Sys2Proof.Machine
end

