-- ==== Sys2Proof/Machine/Keystone.lean ====
section
/-! DEFINITION. Keystone: boot, firmware, attestation, attachment and peer handshakes (16_security R409 to R425;
15_time_scaleout R399, R407). -/
namespace Sys2Proof.Machine

/-! ### Firmware bundles and boot (R410 to R413) -/

/-- Bytes of the public key and signature at a bundle's end (Table 16-4). -/
def bundleTail : Nat := 5261

/-- A component table entry lies in the bundle, 64-byte aligned, and its CRC-32 holds. -/
def componentOk (bs : List Byte) (i : Nat) : Bool :=
  let o := getLe bs (0x10 + 16 * i + 4) 4
  let n := getLe bs (0x10 + 16 * i + 8) 4
  decide (o % 64 = 0 ∧ 0x40 ≤ o ∧ o + n + bundleTail ≤ bs.length) && getLe bs (0x10 + 16 * i + 12) 4 == crc32 (slice bs o n)

/-- What steps 4 and 5 of Table 16-2 make of a bundle: none where one fails. -/
def parseBundle (k : Keystone) (bs : List Byte) : Option Bundle :=
  let body := bs.take (bs.length - bundleTail)
  let key := slice bs (bs.length - bundleTail) 1952
  let svn := getLe bs 8 4
  let ok := decide (0x40 + bundleTail ≤ bs.length ∧ bs.length ≤ 8 * 2 ^ 20) && getLe bs 0 4 == 0x48544657 &&
    getLe bs 5 1 != 0 && getLe bs 7 1 == 3 && decide (1 ≤ svn ∧ svn ≤ 64 ∧ getLe bs 0xC 4 ≤ 32) &&
    componentOk bs 0 && componentOk bs 1 && componentOk bs 2 &&
    sha3 key == k.vendorFwHash && Config.mldsaVerify key (sha3 body) (bs.drop (bs.length - 3309))
  if ok then some { bytes := bs, fwVersion := getLe bs 6 1, svn := svn, minEpoch := getLe bs 0xC 4, good := true } else none

/-- The banks that BOOTSEL permits, in order (Table 16-3); the bank that UPDATE_FW wrote comes first where it is permitted. -/
def bootOrder (bootsel : Nat) (first : Option Nat) : List Nat :=
  let l := if bootsel = 1 then [1, 0] else if bootsel = 2 then [0] else if bootsel = 3 then [1] else [0, 1]
  match first with
  | some b => if l.contains b then b :: l.filter (· != b) else l
  | none => l

/-- The bundle in a bank. -/
def Keystone.bank (k : Keystone) (b : Nat) : Option Bundle := if b = 0 then k.bankA else k.bankB

/-- Whether a bundle passes steps 4 to 6 (Table 16-2). -/
def Keystone.accepts (k : Keystone) (b : Bundle) : Bool := b.good && decide (k.fwSvn ≤ b.svn)

/-- Boot steps 3 to 8 with the candidates in order, each with its bank: the first that passes runs; with none the device is
in BOOT_FAIL (R410). -/
def bootFrom (cs : List (Nat × Bundle)) (k : Keystone) : Keystone :=
  match cs.find? fun c => k.accepts c.2 with
  | none => { k with boot := 3, run := none }
  | some (b, x) => { k with
      boot := 1, bootBank := b, run := some x, fwDigest := sha3 x.bytes
      burnDue := decide (k.fwSvn < x.svn) || decide (k.routineEpoch < x.minEpoch) }

/-- The flash candidates under BOOTSEL. -/
def Keystone.flash (k : Keystone) (bootsel : Nat) : List (Nat × Bundle) :=
  (bootOrder bootsel k.bootFirst).filterMap fun b => (k.bank b).map fun x => (b, x)

/-- FW_SVN_BURN (R412): the tollhouse is ready, and FW_SVN and ROUTINE_EPOCH are burned up to the running bundle's. -/
def execFwSvnBurn (s : State) : Host.Outcome State Fault Refusal :=
  match s.ks.run with
  | some b =>
    if s.ks.burnDue ∧ s.ks.boot = 1 then
      .next { s with ks := { s.ks with fwSvn := max s.ks.fwSvn b.svn, routineEpoch := max s.ks.routineEpoch b.minEpoch, burnDue := false } }
    else .next s
  | none => .next s

/-- The bank that did not boot written with a bundle, which later resets try first (R413). -/
def writeBank (x : Bundle) (s : State) : State :=
  let b := 1 - s.ks.bootBank
  let k := if b = 0 then { s.ks with bankA := some x } else { s.ks with bankB := some x }
  { s with ks := { k with bootFirst := some b } }.setDreg ksnBootNext b

/-- UPDATE_FW (R413). -/
def execUpdateFw (r : VerbReq) (src : WinRange) (s : State) : Host.Outcome State Fault Refusal :=
  onVerb r 5 64 true (.updateFw r src) s fun s =>
    match readRange s r.slot src with
    | none => respond r.slot r.tag (Config.refusal 10) [] s
    | some bs =>
      match parseBundle s.ks bs with
      | none => respondFault r.slot r.tag 0x0706 s
      | some x =>
        if x.svn < s.ks.fwSvn then respondFault r.slot r.tag 0x0706 s
        else if x.fwVersion < s.oper ∨ s.oper + 1 < x.fwVersion then respond r.slot r.tag 0x0801 [] s
        else respond r.slot r.tag 0 [] (writeBank x s)

/-- RNG_FAIL (R415): a health test of the entropy source has failed. -/
def execRngFail (s : State) : Host.Outcome State Fault Refusal :=
  .next (raise { code := 0x0707, action := 0, unit := 6 } { s with ks := { s.ks with rngOk := false } })

/-! ### Attestation (R419, R420) -/

/-- A record preceded by its length (R420). -/
def lengthed (bs : List Byte) : List Byte := leBytes 4 bs.length ++ bs

/-- POLICY_DIGEST of a session (R420). -/
def policyDigest (x : Session) : List Byte :=
  let p := x.policy
  let flags := (if p.c.isSome then 8 else 0) + (if p.h.isSome then 16 else 0) + (if p.roleH then 32 else 0) + (if p.hasNoise then 64 else 0)
  let port := fun (b : Option PeerBind) => leBytes 2 ((b.map (·.port)).getD 0)
  let addr := fun (b : Option PeerBind) => fitBytes 16 ((b.map (·.addr)).getD [])
  let ka := fun (b : Option PeerBind) => lengthed ((b.map (·.kaRec)).getD [])
  sha3 (leBytes 8 x.keyTag ++ leBytes 2 p.noiseLimit ++ leBytes 1 p.noiseAction ++ leBytes 1 flags ++ port p.c ++ port p.h ++
    addr p.c ++ addr p.h ++ lengthed p.owner ++ lengthed p.disclosure ++ ka p.c ++ ka p.h)

/-- Loaded images in ascending handle order. -/
def State.imagesByHandle (s : State) : List Image := s.images.foldl (fun l e => insertBy (·.handle) e.2 l) []

/-- The attestation report up to its signature (Table 16-6). -/
def reportBody (s : State) (nonce : List Byte) (xs : List Session) : List Byte :=
  let ims := s.imagesByHandle
  let flags := (if s.isDegraded then 1 else 0) + 2 * s.dreg lieRandomise + (if s.ks.operatorHash.isEmpty then 0 else 4)
  leBytes 4 0x48544154 ++ verBytes s ++ leBytes 2 flags ++ leBytes 8 s.ks.serial ++
    leBytes 2 (s.dreg tbDeviceId + 2 ^ 15 * s.dreg tbIdValid) ++ leBytes 2 0 ++ leBytes 4 ((s.ks.run.map (·.svn)).getD 0) ++
    leBytes 4 s.ks.fwSvn ++ leBytes 4 s.ks.routineEpoch ++ fitBytes 32 nonce ++ fitBytes 32 s.ks.fwDigest ++
    fitBytes 32 s.ks.romDigest ++ fitBytes 32 s.ks.operatorHash ++ leBytes 8 s.now ++ leBytes 4 (s.dreg tbSysimgGen) ++
    leBytes 2 ims.length ++ leBytes 2 xs.length ++ leBytes 16 0 ++
    (ims.flatMap fun im => leBytes 2 im.handle ++ leBytes 14 0 ++ fitBytes 32 im.digest) ++
    xs.flatMap fun x => leBytes 8 x.id ++ leBytes 8 x.keyTag ++ policyDigest x

/-- ATTEST (R419); signing is hedged, so it needs the random source (R415, R416). -/
def execAttest (r : VerbReq) (nonce : List Byte) (sessions : List Nat) (s : State) : Host.Outcome State Fault Refusal :=
  onVerb r 4 (32 + 8 * sessions.length) false (.attest r nonce sessions) s fun s =>
    let xs := sessions.map fun n => (tfind s.sessions n).bind fun x => if x.slot = r.slot then some x else none
    if !s.ks.rngOk then respondFault r.slot r.tag 0x0707 s
    else if xs.any Option.isNone then respond r.slot r.tag 0x0408 [] s
    else
      let body := reportBody s nonce (xs.filterMap id)
      respond r.slot r.tag 0 (body ++ Config.mldsaSign (sha3 body) ++ s.ks.cert) (s.bump ksnReportsSigned 0 0 1)

/-! ### Handshake messages (Table 16-7, R421, R422) -/

/-- A message of Table 16-7: header and fields. -/
def attachMsg (s : State) (type : Nat) (body : List Byte) : List Byte :=
  leBytes 4 0x48544148 ++ verBytes s ++ leBytes 1 type ++ leBytes 1 0 ++ leBytes 8 body.length ++ body

/-- A handshake that fails: one 0x0708 record, naming the peer where there is one; no reply (R421, R424). -/
def authFail (device : Option Nat) (s : State) : State :=
  let s1 := raise { code := 0x0708, action := 0, unit := 6, detail := (device.map (leBytes 2)).getD [] } (s.bump ksnAuthFails 0 0 1)
  match device with
  | some d => { s1 with peers := s1.peers.map fun e => if e.1 = d then (d, { e.2 with state := 2 }) else e }
  | none => s1

/-- The 88 bytes of session keys (R422). -/
def sessionKeys (kem : List Byte) (x : Nat) (h2 : List Byte) : List Byte := shake256 88 (kem ++ leBytes 32 x ++ h2)

/-- The REPLY to a HELLO: ephemeral X25519, encapsulation, certificate, signature; the handshake waits for FINISH. -/
def replyTo (o : HelloOp) (device : Option Nat) (net : Nat) (s : State) : State :=
  let d := s.draw
  let d2 := d.2.draw
  let n := s.free
  let pub := x25519 d.1 9
  let ss := x25519 d.1 (leNat o.x25519 % 2 ^ 255 % p25519)
  let kem := Config.kemEncap n o.mlkem
  let h1 := sha3 o.raw
  let fields := leBytes 32 d2.1 ++ leBytes 32 pub ++ kem.1 ++ s.ks.cert
  let unsigned := attachMsg s 2 (fields ++ List.replicate 3309 0)
  let signed := unsigned.take (unsigned.length - 3309)
  let reply := signed ++ Config.mldsaSign (h1 ++ signed)
  let h2 := sha3 (o.raw ++ reply)
  if ss = 0 then authFail device s
  else
    let f := d2.2.fresh
    let hs : Handshake :=
      { id := f.1, port := o.port, partnerKey := o.partnerKey, claim := o.claim, operatorKey := o.operatorKey
        transcript := h2, keys := sessionKeys kem.2 ss h2, device := device, net := net, draw := n }
    (lieOwn 2 { f.2 with ks := { f.2.ks with handshakes := f.2.ks.handshakes ++ [hs] } }).send (.handshake o.port 2 reply)

/-- The credential checks of R421. -/
def credentialOk (s : State) (o : HelloOp) : Bool :=
  (if s.ks.operatorHash.isEmpty then o.claim else sha3 o.operatorKey == s.ks.operatorHash) &&
    Config.mldsaVerify o.operatorKey (sha3 (o.partnerKey ++ leBytes 8 o.notAfter)) o.credSig &&
    (o.notAfter == 0 || decide (s.now ≤ o.notAfter))

/-- The devices that a device of the installed system image keeps peer connections with: its buddy and the other ends of
its channels, ascending (R399). -/
def State.peerIds (s : State) : List Nat :=
  match s.sys with
  | none => []
  | some i =>
    let me := s.dreg tbDeviceId
    let buddy := ((i.devices.find? fun d => d.id = me).bind (·.buddy)).toList
    let ends := i.channels.filterMap fun c => if c.src = me then some c.dst else if c.dst = me then some c.src else none
    ((buddy ++ ends).eraseDups).foldl (fun l x => insertBy (fun y => y) x l) []

/-- Whether a peer's certificate is accepted (R424). -/
def peerOk (s : State) (m : PeerMsg) : Bool :=
  m.certOk && m.sigOk && s.peerIds.contains m.device &&
    (s.sys.any fun i => i.devices.any fun d => d.id == m.device && d.serial == m.serial)

/-- HELLO (R421, R424): a partner's credential, or a peer's certificate from the device with the lower id. -/
def execHello (o : HelloOp) (s : State) : Host.Outcome State Fault Refusal :=
  onPort o.port o.raw.length (.hello o) s fun s =>
    if !s.ks.rngOk then s
    else match o.peer with
      | some m =>
        if peerOk s m ∧ m.device < s.dreg tbDeviceId then replyTo o (some m.device) m.net s else authFail (some m.device) s
      | none => if credentialOk s o then replyTo o none 0 s else authFail none s

/-! ### Peer connections (R399, R407, R424) -/

/-- A peer changed. -/
def State.modPeer (s : State) (d : Nat) (f : Peer → Peer) : State :=
  { s with peers := s.peers.map fun e => if e.1 = d then (d, f e.2) else e }

/-- Whether device `d` is the declared buddy. -/
def State.isBuddy (s : State) (d : Nat) : Bool := s.hasBuddy && s.dreg prtBuddyId == d

/-- The version check of R407 on a peer's FW_VERSION and OPER_VERSION. -/
def versionsOk (s : State) (m : PeerMsg) : Bool :=
  decide (s.fwVersion < m.fwVersion + 2 ∧ m.fwVersion < s.fwVersion + 2) && readable s.oper m.operVersion && readable m.operVersion s.oper

/-- A peer connection comes up, or is refused for its version (R407). -/
def connect (m : PeerMsg) (s : State) : State :=
  if versionsOk s m then
    let up := fun (p : Peer) =>
      if m.net = 0 then { p with state := 1, version := m.fwVersion, upA := true } else { p with state := 1, version := m.fwVersion, upB := true }
    let s1 := s.modPeer m.device up
    if s1.isBuddy m.device then s1.setDreg prtBuddyState 1 else s1
  else
    let s1 := raise { code := 0x0801, action := 0, unit := 6, detail := leBytes 2 m.device } (s.modPeer m.device fun p => { p with state := 3 })
    if s1.isBuddy m.device then s1.setDreg prtBuddyState 2 else s1

/-- A HELLO to a peer on a network, sent by the device with the lower id. -/
def helloPeer (device net : Nat) (s : State) : State :=
  let d := s.draw
  let d2 := d.2.draw
  let raw := attachMsg s 1 (leBytes 32 d2.1 ++ leBytes 4 0 ++ leBytes 32 (x25519 d.1 9) ++ Config.kemPub s.free ++ s.ks.cert)
  let f := d2.2.fresh
  let hs : Handshake :=
    { id := f.1, port := 4 * net, partnerKey := [], claim := false, operatorKey := [], transcript := raw, keys := []
      device := some device, net := net, draw := s.free }
  if !s.ks.rngOk then s
  else (lieOwn 2 { f.2 with ks := { f.2.ks with handshakes := f.2.ks.handshakes ++ [hs] } }).send (.handshake (4 * net) 1 raw)

/-- This device's versions as FINISH and ACCEPT carry them to a peer (R424). -/
def versionBytes (s : State) : List Byte := leBytes 1 s.fwVersion ++ leBytes 1 s.oper

/-- The handshake of this device with a peer on a network that has got as far as `replied`. -/
def State.peerHandshake (s : State) (m : PeerMsg) (replied : Bool) : Option Handshake :=
  s.ks.handshakes.find? fun h => h.device == some m.device && h.net == m.net && (h.keys.isEmpty != replied)

/-- A handshake removed. -/
def dropHandshake (id : Nat) (s : State) : State :=
  { s with ks := { s.ks with handshakes := s.ks.handshakes.filter fun h => h.id != id } }

/-- REPLY (R424): the initiating device checks the certificate and signature and sends FINISH. -/
def execReply (m : PeerMsg) (s : State) : Host.Outcome State Fault Refusal :=
  onPeer m.net m.raw.length (.reply m) s fun s =>
    match s.peerHandshake m false with
    | none => s
    | some h =>
      let ss := x25519 (Config.draw h.draw) (getLe m.raw 48 32 % 2 ^ 255 % p25519)
      if !peerOk s m ∨ ss = 0 then authFail (some m.device) (dropHandshake h.id s)
      else
        let h2 := sha3 (h.transcript ++ m.raw)
        let keys := sessionKeys (Config.kemDecap h.draw (slice m.raw 80 1088)) ss h2
        let s1 := dropHandshake h.id s
        let s2 := { s1 with ks := { s1.ks with handshakes := s1.ks.handshakes ++ [{ h with transcript := h2, keys := keys }] } }
        s2.send (.handshake (4 * m.net) 3 (attachMsg s 3 (Config.aeadSeal keys 1 (Config.mldsaSign h2 ++ versionBytes s))))

/-- ACCEPT (R424): the initiating device's connection is up, or refused for its version. -/
def execAccept (m : PeerMsg) (s : State) : Host.Outcome State Fault Refusal :=
  onPeer m.net m.raw.length (.accept m) s fun s =>
    match s.peerHandshake m true with
    | none => s
    | some h => if m.sigOk then connect m (dropHandshake h.id s) else s

/-- PEER_DOWN (R399): both connections to a peer go down. -/
def execPeerDown (device : Nat) (s : State) : Host.Outcome State Fault Refusal :=
  match tfind s.peers device with
  | none => .next s
  | some p =>
    if p.state = 2 then .next s
    else
      let s1 := s.modPeer device fun p => { p with state := 2, upA := false, upB := false, downAt := s.now }
      let s2 := raise { code := 0x0805, action := 0, unit := 5, detail := leBytes 2 device } s1
      .next (if s2.isBuddy device then s2.setDreg prtBuddyState 2 else s2)

/-- PEER_CONNECTION_REOPEN (R399, R424): the device with the lower id starts the handshake again. -/
def execPeerConnectionReopen (device net : Nat) (s : State) : Host.Outcome State Fault Refusal :=
  if 2 ≤ net then .fault (.noSuchUnit net)
  else match tfind s.peers device with
    | some p => .next (if s.dreg tbDeviceId < device ∧ !(if net = 0 then p.upA else p.upB) then helloPeer device net s else s)
    | none => .next s

/-! ### FINISH and the attachment (R359, R421, R422) -/

/-- A queue-pair number that no queue pair holds: the first free one from a draw on (R366). -/
def freeQpn (s : State) (d : Nat) : Nat :=
  ((List.range (s.qps.length + 1)).map fun i => (d + i) % 2 ^ 24).find? (fun q => !(s.qps.any fun x => x.qpn == q)) |>.getD 0

/-- The partner's queue pair `i` of six: home MGMT, NOTIFY, DATA, then standby. -/
def addQp (p i : Nat) (remote : Nat × Nat) (s : State) : State :=
  let d := s.draw
  let e := d.2.draw
  let q : Qp := { qpn := freeQpn s d.1, slot := p, standby := decide (3 ≤ i), kind := i % 3, remoteQpn := remote.1
                  rxPsn := remote.2, txPsn := e.1 % 2 ^ 24 }
  { e.2 with qps := e.2.qps ++ [q] }

/-- A system window opened (R361). -/
def openSystem (w p base n : Nat) (s : State) : State :=
  s.setWin w { s.win w with st := .opened, owner := p, remote := false, base := base, length := n }

/-- An attachment completes: slot, ports, queue pairs, system windows, claim, ACCEPT. -/
def attach (h : Handshake) (qps : List (Nat × Nat)) (s : State) : State :=
  match lowestFree s.slots 0 8 with
  | none => s.send (.handshake h.port 4 (attachMsg s 4 (Config.aeadSeal h.keys 1 (leBytes 2 0x0402))))
  | some p =>
    let sl : Slot := { partnerKey := h.partnerKey, keys := h.keys, ctrIn := 0, ctrOut := 1, home := h.port
                       standby := (h.port + 4) % 8, lastMgmt := s.now }
    let s1 := { s with slots := tput s.slots p sl }
    let s2 := (List.range 6).foldl (fun s i => addQp p i (qps.getD i (0, 0)) s) s1
    let s3 := openSystem (2 * p) p (llmBase + 0x100000 + p * 0x100000) 0x100000
      (openSystem (2 * p + 1) p (llmBase + 0x10000 + p * 0x1000) 0x1000 s2)
    let s4 := if s3.ks.operatorHash.isEmpty && h.claim then
      { s3 with ks := { s3.ks with operatorHash := sha3 h.operatorKey } } else s3
    let mine := (s4.qps.filter fun q => q.slot = p).flatMap fun q => leBytes 4 q.qpn ++ leBytes 4 q.txPsn
    s4.send (.handshake h.port 4 (attachMsg s 4 (Config.aeadSeal h.keys 1 (leBytes 1 p ++ leBytes 1 sl.home ++ leBytes 1 sl.standby ++ mine))))

/-- FINISH (R421, R424): the signature over H_2 holds, or the attachment ends. -/
def execFinish (o : FinishOp) (s : State) : Host.Outcome State Fault Refusal :=
  match s.ks.handshakes.find? fun h => h.id = o.hs with
  | none => .next s
  | some h =>
    onPort h.port (o.raw.length + 64) (.finish o) s fun s =>
      if !o.aeadOk ∨ h.keys.isEmpty then s
      else match h.device, o.peer with
        | some _, some m =>
          let s1 := dropHandshake h.id s
          if m.sigOk then
            (connect m s1).send (.handshake h.port 4 (attachMsg s 4 (Config.aeadSeal h.keys 1 (versionBytes s))))
          else authFail (some m.device) s1
        | none, none =>
          let s1 := dropHandshake h.id s
          if Config.mldsaVerify h.partnerKey h.transcript o.signature then attach h o.qps s1 else authFail none s1
        | _, _ => s

end Sys2Proof.Machine
end

