-- ==== Sys2Proof/Machine/Time.lean ====
section
/-! DEFINITION. Discipline of the time base by PTP (15_time_scaleout R385 to R392). -/
namespace Sys2Proof.Machine

/-! ### The PTP ports (R389) -/

/-- The port on which network `n` runs PTP. -/
def State.ptpPort (s : State) (n : Nat) : Nat := if n = 0 then s.dreg tbPtpPortA else 4 + s.dreg tbPtpPortB

/-- The PTP domain of network `n`. -/
def State.ptpDomain (s : State) (n : Nat) : Nat := if n = 0 then s.dreg tbPtpDomainA else s.dreg tbPtpDomainB

/-- The PTP state of network `n`. -/
def Servo.net (v : Servo) (n : Nat) : PtpNet := tget {} v.nets n

/-- The PTP state of a network changed. -/
def State.modNet (s : State) (n : Nat) (f : PtpNet → PtpNet) : State :=
  { s with servo := { s.servo with nets := tput s.servo.nets n (f (s.servo.net n)) } }

/-! ### Which network the time base follows (R390) -/

/-- SEL_NET from the valid networks. -/
def State.selected (s : State) : Nat :=
  let a := s.dreg tbValidA = 1
  let b := s.dreg tbValidB = 1
  if (s.dreg tbPreferB = 1 ∧ b) ∨ (¬ a ∧ b) then 1 else 0

/-- VALID of a network written, SEL_NET with it; with no valid network left, HOLDOVER (R391). -/
def setValid (n v : Nat) (s : State) : State :=
  let s1 := s.setDreg (if n = 0 then tbValidA else tbValidB) v
  let s2 := s1.setDreg tbSelNet s1.selected
  if s2.dreg tbValidA = 0 ∧ s2.dreg tbValidB = 0 ∧ s2.dreg tbSyncState = 1 then
    { s2 with servo := { s2.servo with small := 0 } }.setDreg tbSyncState 2
  else s2

/-! ### The servo (R388, R391, R392) -/

/-- An offset as OFFSET_A and OFFSET_B hold it: signed, saturating at ±2^31 − 1. -/
def offsetWord (o : Int) : Nat := wrap 32 (max (-(2 ^ 31 - 1)) (min (2 ^ 31 - 1) o))

/-- Limits of INCR: ±500 ppm of nominal. -/
def incrMin : Nat := 0x00FFDF3B
def incrMax : Nat := 0x010020C5

/-- INCR that removes `o` over 16 Sync intervals of `t` ns, with 1/256 of the sum of past offsets in each (R391); of an
offset of `limit` or more, INCR saturated toward the correction (R392). -/
def servoIncr (o sum : Int) (t limit old : Nat) : Nat :=
  if (limit : Int) ≤ o then incrMin
  else if o ≤ -(limit : Int) then incrMax
  else if t = 0 then old
  else
    let x : Int := 2 ^ 24 - (2 ^ 24 * (16 * o + sum)) / (256 * (t : Int))
    (max (incrMin : Int) (min (incrMax : Int) x)).toNat

/-- Instants that measure elapsed time moved with the time base, so that a step ends no wait (log entry 16). -/
def shiftTimers (f : Nat → Nat) (s : State) : State :=
  { s with
    slots := s.slots.map fun e => (e.1, { e.2 with lastMgmt := f e.2.lastMgmt })
    qps := s.qps.map fun q => { q with cnpAt := f q.cnpAt, unacked := q.unacked.map fun u => (u.1, u.2.1, f u.2.2) }
    peers := s.peers.map fun e => (e.1, { e.2 with downAt := f e.2.downAt })
    piers := s.piers.map fun e => (e.1, { e.2 with faults := e.2.faults.map f })
    tx := s.tx.map fun x => { x with due := f x.due, first := f x.first, deadline := f x.deadline }
    rxTimers := s.rxTimers.map fun x => { x with due := f x.due }
    servo := { s.servo with nets := s.servo.nets.map fun e => (e.1, { e.2 with lastSync := e.2.lastSync.map f }) }
    pwr := { s.pwr with coolAt := s.pwr.coolAt.map f, move := match s.pwr.move with
      | .steady => .steady
      | .entering p t => .entering p (f t)
      | .scheduled t => .scheduled (f t)
      | .resuming t => .resuming (f t) } }

/-- The first valid offset: the time base takes the measured grandmaster time in one step (R388). -/
def stepTime (o : Int) (s : State) : State :=
  let f := fun (t : Nat) => ((t : Int) - o).toNat % 2 ^ 64
  let s0 := shiftTimers f s
  let s1 := { s0 with clk := { s0.clk with ns := f s0.clk.ns }, servo := { s0.servo with stepped := true } }
  (s1.bump tbSteps 0 0 1).setDreg tbSyncState 1

/-- An offset of SEL_NET: the step, or the servo and its states. -/
def steer (o : Int) (t : Nat) (s : State) : State :=
  if s.dreg tbSyncState = 0 then stepTime o s
  else
    let limit := s.dreg tbStepLimitNs
    let mag := o.natAbs
    let overLimit := decide (limit ≤ mag)
    let s1 := if overLimit ∧ !s.servo.overLimit then raise { code := 0x0802, action := 0, unit := 8 } s else s
    let s2 := s1.setDreg tbIncr (servoIncr o s1.servo.sum t limit (s1.dreg tbIncr))
    let n := if mag < 1000 then s2.servo.small + 1 else 0
    let s3 := { s2 with servo := { s2.servo with sum := s2.servo.sum + o, small := n, overLimit := overLimit } }
    if 16 ≤ n ∧ s3.dreg tbSyncState = 2 then s3.setDreg tbSyncState 1 else s3

/-- NET_DISAGREE while both networks are valid and too far apart, and a record at each crossing (R392). -/
def compareNets (s : State) : State :=
  let far := decide (s.dreg tbValidA = 1 ∧ s.dreg tbValidB = 1) &&
    decide (s.dreg tbDisagreeNs < ((s.servo.net 0).offset - (s.servo.net 1).offset).natAbs)
  let s0 := if far then s.setDreg tbNetDisagree 1 else s
  let s1 := if far && !s.servo.apart then raise { code := 0x0803, action := 0, unit := 8 } s0 else s0
  { s1 with servo := { s1.servo with apart := far } }

/-- A Sync accepted on network `n` with grandmaster send time `t1` and local receive time `t2` (R390, R391). -/
def acceptSync (n : Nat) (t1 t2 : Int) (s : State) : State :=
  let o := t2 - t1 - (s.servo.net n).delay
  let gap := match (s.servo.net n).lastSync with
    | some x => s.now - x
    | none => (s.servo.net n).interval
  let s1 := s.modNet n fun x => { x with lastSync := some s.now, interval := gap, offset := o, t1 := t1, t2 := t2, pendingSync := none }
  let s2 := setValid n 1 (s1.setDreg (if n = 0 then tbOffsetA else tbOffsetB) (offsetWord o))
  compareNets (if s2.dreg tbSelNet = n then steer o gap s2 else s2)

/-! ### PTP messages -/

/-- Whether a message of the master that the best master clock algorithm selected, in the network's domain. -/
def ptpFrom (s : State) (n domain identity : Nat) : Bool :=
  domain == s.ptpDomain n && match (s.servo.net n).master with
    | some m => m.2.2.2.2.2 == identity
    | none => true

/-- SYNC (R389, R390). -/
def execSync (o : SyncOp) (s : State) : Host.Outcome State Fault Refusal :=
  if 2 ≤ o.net then .fault (.noSuchUnit o.net)
  else onPort (s.ptpPort o.net) 64 (.sync o) s fun s =>
    if !ptpFrom s o.net o.domain o.identity then s
    else if o.twoStep then s.modNet o.net fun x => { x with pendingSync := some (o.seqId, o.rx, o.corr) }
    else acceptSync o.net (o.origin + o.corr) o.rx s

/-- FOLLOW_UP (R389): the precise send time of a two-step Sync. -/
def execFollowUp (net seqId origin : Nat) (corr : Int) (s : State) : Host.Outcome State Fault Refusal :=
  if 2 ≤ net then .fault (.noSuchUnit net)
  else onPort (s.ptpPort net) 64 (.followUp net seqId origin corr) s fun s =>
    match (s.servo.net net).pendingSync with
    | some (n, rx, c) => if n = seqId then acceptSync net (origin + c + corr) rx s else s
    | none => s

/-- ANNOUNCE (R389): the best data set of the domain is kept. -/
def execAnnounce (net domain p1 cls acc var p2 identity : Nat) (s : State) : Host.Outcome State Fault Refusal :=
  if 2 ≤ net then .fault (.noSuchUnit net)
  else onPort (s.ptpPort net) 64 (.announce net domain p1 cls acc var p2 identity) s fun s =>
    if domain ≠ s.ptpDomain net then s
    else
      let key := fun (m : Nat × Nat × Nat × Nat × Nat × Nat) => [m.1, m.2.1, m.2.2.1, m.2.2.2.1, m.2.2.2.2.1, m.2.2.2.2.2]
      let m := (p1, cls, acc, var, p2, identity)
      s.modNet net fun x => { x with master := match x.master with
        | some b => if b.2.2.2.2.2 = identity ∨ key m < key b then some m else some b
        | none => some m }

/-- DELAY_REQ (R389): the slave port sends a Delay_Req. -/
def execDelayReq (net : Nat) (s : State) : Host.Outcome State Fault Refusal :=
  if 2 ≤ net then .fault (.noSuchUnit net)
  else if s.ks.boot ≠ 1 ∨ s.pwr.state = .a3 ∨ s.pwr.state = .a4 ∨ s.reg prtPortEnable 0 (s.ptpPort net) = 0 then .next s
  else
    let n := (s.servo.net net).nextSeq
    .next ((s.modNet net fun x => { x with delayReq := some (n, s.now), nextSeq := (n + 1) % 2 ^ 16 }).send (.delayReq net n))

/-- DELAY_RESP (R389): the mean path delay from the last Sync and the Delay_Req that it answers. -/
def execDelayResp (net seqId rx : Nat) (corr : Int) (s : State) : Host.Outcome State Fault Refusal :=
  if 2 ≤ net then .fault (.noSuchUnit net)
  else onPort (s.ptpPort net) 64 (.delayResp net seqId rx corr) s fun s =>
    match (s.servo.net net).delayReq with
    | some (n, t3) =>
      if n ≠ seqId then s
      else s.modNet net fun x => { x with delayReq := none, delay := ((x.t2 - x.t1) + ((rx : Int) - corr - t3)) / 2 }
    | none => s

/-- SYNC_LOSS (R390): no Sync for SYNC_LOSS_MS. -/
def execSyncLoss (net : Nat) (s : State) : Host.Outcome State Fault Refusal :=
  if 2 ≤ net then .fault (.noSuchUnit net)
  else match (s.servo.net net).lastSync with
    | none => .next s
    | some t =>
      if s.now < t + 1000000 * s.dreg tbSyncLossMs ∨ s.dreg (if net = 0 then tbValidA else tbValidB) = 0 then .next s
      else .next (compareNets (setValid net 0 (s.bump tbSyncLosses 0 0 1)))

end Sys2Proof.Machine
end

