-- ==== Sys2Proof/Machine/Net.lean ====
section
/-! DEFINITION. Frames of the ports and RDMA of the partners (14_host_ports R356 to R366; 17_power_reset R454). -/
namespace Sys2Proof.Machine

/-- A frame sent on port `k`, counted (Table 14-10). -/
def State.sendOn (s : State) (k : Nat) (m : Out) : State := (s.bump prtTxPackets 0 k 1).send m

/-- The queue pair with a number changed. -/
def State.modQp (s : State) (n : Nat) (f : Qp → Qp) : State := { s with qps := s.qps.map fun x => if x.qpn = n then f x else x }

/-! ### RDMA of a partner (R360 to R366) -/

/-- The window id and epoch that an R_Key carries, when it has the form of a local window's (R363). -/
def rkeyWindow (rkey : Nat) : Option (Nat × Nat) :=
  if bit rkey 15 ∧ fld rkey 10 5 = 0 then some (fld rkey 0 10, fld rkey 16 16) else none

/-- The local window that an R_Key reaches: open, with the epoch of the key. -/
def State.rdmaWindow (s : State) (rkey : Nat) : Option (Nat × Window) :=
  (rkeyWindow rkey).bind fun we =>
    let e := s.win we.1
    if e.st = .opened ∧ ¬ e.remote ∧ e.epoch = we.2 then some (we.1, e) else none

/-- A message with a stale epoch or a closed window (R363): STALE_WRITES, one record for each (window, epoch), a NAK. -/
def staleMessage (o : RdmaOp) (s : State) : State :=
  let w := fld o.rkey 0 10
  let s1 := s.bump prtStaleWrites 0 0 1
  let s2 := if (s1.win w).noted then s1
    else raise { code := 0x0401, action := 0, unit := 5 } (s1.setWin w { s1.win w with noted := true })
  s2.sendOn o.port (.rdmaNak o.qpn o.psn)

/-- Whether the owner of a window may reach the range with a write or a read (R361). -/
def rdmaAllowed (w : Nat) (e : Window) (slot : Nat) (o : RdmaOp) (write : Bool) (n : Nat) : Bool :=
  decide (e.owner = slot) && decide (o.offset + n ≤ e.length) && !(decide (w < 16) && (if write then w % 2 == 1 else w % 2 == 0))

/-- A message of a partner on a DATA queue pair: the queue pair and PSN it names, the rebind, the window checks, and what it
does when they pass (R360, R361, R363, R366). -/
def rdma (o : RdmaOp) (write : Bool) (n : Nat) (s : State) (run : Nat → Window → State → State) : State :=
  match s.qps.find? fun q => q.qpn = o.qpn with
  | none => s.bump prtDrops 0 o.port 1
  | some q =>
    let here := ((tfind s.slots q.slot).map fun sl => sl.port q.standby).getD 8
    if q.kind ≠ 2 ∨ here ≠ o.port then s.bump prtDrops 0 o.port 1
    else if q.failed ∨ o.psn ≠ q.rxPsn then s.sendOn o.port (.rdmaNak o.qpn o.psn)
    else
      let s1 := s.modQp q.qpn fun x => { x with rxPsn := (x.rxPsn + 1) % 2 ^ 24 }
      let s2 := s1.modSlot q.slot fun sl => { sl with onStandby := q.standby }
      match s2.rdmaWindow o.rkey with
      | none => staleMessage o s2
      | some (w, e) =>
        if rdmaAllowed w e q.slot o write n then run w e s2 else s2.sendOn o.port (.rdmaNak o.qpn o.psn)

/-- The ring slots that a write of `n` bytes from offset `off` of slot `p`'s submission window reaches, window 2p (R368). -/
def markRing (w off n p : Nat) (s : State) : State :=
  if w ≠ 2 * p ∨ n = 0 then s
  else
    let new_ := (List.range ((off + n - 1) / 64 - off / 64 + 1)).map (off / 64 + ·)
    s.modSlot p fun sl => { sl with written := sl.written ++ new_.filter fun i => !sl.written.contains i }

/-- RDMA_WRITE (R361, R363, R364). -/
def execRdmaWrite (o : RdmaOp) (s : State) : Host.Outcome State Fault Refusal :=
  onPort o.port (o.data.length + 64) (.rdmaWrite o) s fun s =>
    rdma o true o.data.length s fun w e s =>
      (markRing w o.offset o.data.length e.owner (s.wr (e.base + o.offset) o.data)).sendOn o.port (.rdmaAck o.qpn o.psn)

/-- RDMA_READ (R361, R363). -/
def execRdmaRead (o : RdmaOp) (s : State) : Host.Outcome State Fault Refusal :=
  onPort o.port 64 (.rdmaRead o) s fun s =>
    rdma o false o.length s fun _ e s => s.sendOn o.port (.rdmaData o.qpn o.psn (s.rd (e.base + o.offset) o.length))

/-! ### Congestion and retries (R358) -/

/-- A queue pair's send rate now: it recovers linearly to line rate over 100 µs. -/
def Qp.rateAt (q : Qp) (now : Nat) : Nat := min 65536 (q.rate + (65536 - q.rate) * (now - q.cnpAt) / 100000)

/-- CNP: the queue pair's send rate halves. -/
def execCnp (port qpn : Nat) (s : State) : Host.Outcome State Fault Refusal :=
  onPort port 64 (.cnp port qpn) s fun s =>
    if s.qps.any fun q => q.qpn == qpn then
      (s.modQp qpn fun q => { q with rate := q.rateAt s.now / 2, cnpAt := s.now }).bump prtCnpReceived 0 port 1
    else s.bump prtDrops 0 port 1

/-- Transfers under way through remote windows of slot `p`: (pier, chuck). -/
def State.remoteChucks (s : State) (p : Nat) : List (Nat × Nat) :=
  s.piers.flatMap fun e => [0, 1, 2].filterMap fun j =>
    if (e.2.chuck j).xfers.any fun x => x.d.farKind == 3 &&
        (let w := windowOf x.d.farBase; decide (w < 1024) && (s.win w).remote && (s.win w).owner == p) then some (e.1, j) else none

/-- ROCE_RETRANSMIT: the local ACK timeout of a packet expires: it is retried, or after its last retry the queue pair's
operations end with a transport error. -/
def execRoceRetransmit (qpn psn : Nat) (s : State) : Host.Outcome State Fault Refusal :=
  match s.qps.find? fun q => q.qpn = qpn with
  | none => .next s
  | some q =>
    let used := ((q.unacked.find? fun u => u.1 = psn).map (·.2.1)).getD 0
    if q.failed then .next s
    else if used < 7 then
      let s1 := s.modQp qpn fun x => { x with unacked := x.unacked.filter (fun u => u.1 != psn) ++ [(psn, used + 1, s.now)] }
      .next (s1.sendOn (((tfind s.slots q.slot).map fun sl => sl.port q.standby).getD 0) (.roce qpn psn))
    else
      let s1 := s.modQp qpn fun x => { x with unacked := [], failed := true }
      .next (if q.kind = 2 then (s.remoteChucks q.slot).foldl (fun s e => s.enqueue (.streamRemoteError e.1 e.2)) s1 else s1)

/-! ### Address resolution and echo (R357) -/

/-- The addresses of port `k` as bytes. -/
def State.portV4 (s : State) (k : Nat) : List Byte := leBytes 4 (s.reg prtIpv4 0 k)
def State.portV6 (s : State) (k : Nat) : List Byte :=
  leBytes 4 (s.reg prtIpv6w0 0 k) ++ leBytes 4 (s.reg prtIpv6w1 0 k) ++ leBytes 4 (s.reg prtIpv6w2 0 k) ++ leBytes 4 (s.reg prtIpv6w3 0 k)

/-- The MAC of port `k` as bytes. -/
def State.portMac (s : State) (k : Nat) : List Byte := leBytes 6 (s.ks.macs.getD k 0)

/-- ARP for the port's own address. -/
def execArp (o : NetOp) (s : State) : Host.Outcome State Fault Refusal :=
  onPort o.port 64 (.arp o) s fun s =>
    if o.target = s.portV4 o.port then s.sendOn o.port (.arpReply o.port o.sender (s.portMac o.port)) else s.bump prtDrops 0 o.port 1

/-- IPv6 Neighbor Discovery for the port's own address. -/
def execNeighborDiscovery (o : NetOp) (s : State) : Host.Outcome State Fault Refusal :=
  onPort o.port 96 (.neighborDiscovery o) s fun s =>
    if o.target = s.portV6 o.port then s.sendOn o.port (.ndReply o.port o.sender (s.portMac o.port)) else s.bump prtDrops 0 o.port 1

/-- An ICMP or ICMPv6 echo to the port's own address. -/
def execEchoRequest (o : NetOp) (s : State) : Host.Outcome State Fault Refusal :=
  onPort o.port (o.payload.length + 64) (.echoRequest o) s fun s =>
    if o.target = s.portV4 o.port ∨ o.target = s.portV6 o.port then s.sendOn o.port (.echoReply o.port o.sender o.payload)
    else s.bump prtDrops 0 o.port 1

/-! ### Frames outside the subset, PFC, links (R356, R357, R360) -/

/-- Whether port `k`'s MAC takes frames: enabled, after boot, not in A4. -/
def State.macOn (s : State) (k : Nat) : Bool := s.ks.boot == 1 && !s.portsOff && s.reg prtPortEnable 0 k == 1

/-- UNSUPPORTED_FRAME: dropped and counted; one with a bad FCS in FCS_ERRORS too. -/
def execUnsupportedFrame (port : Nat) (badFcs : Bool) (s : State) : Host.Outcome State Fault Refusal :=
  if 8 ≤ port then .fault (.noSuchUnit port)
  else if !s.macOn port then .next s
  else
    let s1 := s.bump prtDrops 0 port 1
    .next (if badFcs then s1.bump prtFcsErrors 0 port 1 else s1)

/-- PFC_FRAME: transmission on PFC_PRIO pauses or resumes; with PFC off the frame is outside the subset. -/
def execPfcFrame (port : Nat) (pause : Bool) (s : State) : Host.Outcome State Fault Refusal :=
  if 8 ≤ port then .fault (.noSuchUnit port)
  else if !s.macOn port then .next s
  else if s.reg prtPfcEnable 0 port = 0 then .next (s.bump prtDrops 0 port 1)
  else
    let rest := s.paused.filter (· != port)
    .next { s with paused := if pause then port :: rest else rest }

/-- LINK_UP: the link comes up at the rate of SPEED. -/
def execLinkUp (port : Nat) (s : State) : Host.Outcome State Fault Refusal :=
  if 8 ≤ port then .fault (.noSuchUnit port)
  else if !s.macOn port then .next s
  else .next ((s.setReg prtLinkUp 0 port 1).setReg prtSpeedActive 0 port (s.reg prtSpeed 0 port))

/-- LINK_UP and SPEED_ACTIVE of a port without a link. -/
def linkLost (port : Nat) (s : State) : State := (s.setReg prtLinkUp 0 port 0).setReg prtSpeedActive 0 port 0

/-- LINK_DOWN: the link is lost; nothing moves by itself (R360). -/
def execLinkDown (port : Nat) (s : State) : Host.Outcome State Fault Refusal :=
  if 8 ≤ port then .fault (.noSuchUnit port) else .next (linkLost port s)

/-! ### Port reset (R454) -/

/-- The counters of port `k`, which a PORT reset does not keep (Table 14-10). -/
def portCounters : List Fld := [prtFcsErrors, prtDrops, prtRxPackets, prtTxPackets, prtCnpReceived]

/-- A PORT reset of port `k`. -/
def resetPort (k : Nat) (s : State) : State :=
  let s1 := portCounters.foldl (fun s f => s.setReg f 0 k f.reset) (linkLost k (s.bump rstPortCount 0 0 1))
  let s2 := { s1 with llmCache := [], paused := s1.paused.filter (· != k), pausing := s1.pausing.filter (· != k)
                      wakeBuf := s1.wakeBuf.filter fun e => e.1 != k }
  let n := k / 4
  if s2.ptpPort n = k ∧ s2.dreg (if n = 0 then tbValidA else tbValidB) = 1 then
    setValid n 0 (s2.modNet n fun x => { x with lastSync := none }) else s2

/-- PORT_RESET: every port that the mask names. -/
def portReset (mask : Nat) (s : State) : State :=
  ((List.range 8).filter fun k => bit mask k).foldl (fun s k => resetPort k s) s

/-- PORT_RESET (R454). -/
def execPortReset (slot mask : Nat) (s : State) : Host.Outcome State Fault Refusal :=
  if 8 ≤ slot then .fault (.noSuchUnit slot) else .next (portReset mask s)

end Sys2Proof.Machine
end

