-- ==== Sys2Proof/Machine/Ras.lean ====
section
/-! DEFINITION. Integrity, takeover, Degraded operation and handoff (18_reliability R460 to R476; 01 R18 to R25; 11 R294;
13 R341, R342, R348, R349, R353). -/
namespace Sys2Proof.Machine

/-! ### Handoff and Degraded (R473, R474) -/

/-- A request handed to the buddy leaves this device (log entry 23). -/
def handOff (r : Request) (s : State) : State :=
  let s1 := s.modRequest r.session r.seq fun x => { x with st := .committed, handedOff := true }
  let s2 := s1.modImage r.handle fun im => { im with arrivalUsed := im.arrivalUsed.filter (· != r.arrival) }
  drainEvents r ((s2.bump rasHandoffsOut 0 0 1).send (.handoff r.session r.seq))

/-- Every running batch aborts, and every accepted request without a COMMIT record goes to the buddy, one record for each
session; without a buddy it commits poisoned with 0x040B (R474, R439). -/
def handAll (s : State) : State :=
  let s1 := s.spans.foldl (fun s e =>
    (dropBatch e.1 (abortPiers e.1 true s)).modSpan e.1 fun sp => { sp with waiting := [], fixed := [] }) s
  let mine := s1.requests.filter fun r => r.live && r.st != .committing
  if s1.hasBuddy then
    let s2 := mine.foldl (fun s r => handOff r s) s1
    ((mine.map (·.session)).eraseDups).foldl (fun s se => raise { code := 0x060C, action := 6, session := se } s) s2
  else mine.foldl (fun s r => outputDone r.session r.seq 0x040B s) s1

/-- Entry to Degraded, where a condition of R473 holds for the first time. -/
def checkDegraded (s : State) : State :=
  if s.isDegraded ∧ ¬ s.degraded then handAll (raise { code := 0x060B, action := 5 } { s with degraded := true }) else s

/-! ### As buddy: taking over handed-off requests (R474 to R476) -/

/-- The request that a mirrored record becomes on this device; none where R474's conditions fail. -/
def mirroredRequest (s : State) (m : MirrorRec) : Option Request :=
  match tfind s.sessions m.session, s.images.find? fun e => e.2.digest = m.imageDigest with
  | some x, some (h, im) =>
    let ranges := m.ranges.filterMap fun g => (x.classes[g.1]?).bind fun c =>
      (im.mats.zipIdx.find? fun e => c.ent.same e.1).map fun e => (e.2, g.2.1, g.2.2)
    match (if mayMirror s m then arrivalFor im else none) with
    | some a => some
        { session := m.session, seq := m.seq, slot := x.slot, ring := getLe m.desc 0 8, handle := h
          span := im.spans.getD (getLe m.desc 9 1) 0, args := (List.range 7).map fun i => getLe m.desc (0x20 + 4 * i) 4
          policy := m.policy, ranges := ranges, arrival := a, handedOff := true }
    | none => none
  | _, _ => none

/-- A handed-off request joins its span: its session's HXP streams run one epoch higher from the first request on, its serials are taken, its mirrored openings are in
the journal, from which they are sent again unchanged (R120, R475). -/
def takeOver (m : MirrorRec) (r : Request) (s : State) : State :=
  let up1 := if s.requests.any fun q => q.session == m.session && q.handedOff then 0 else 1
  let up := fun (x : Session) => { x with
    epoch := x.epoch + up1, nextSeq := max x.nextSeq (m.seq + 1)
    classes := x.classes.zipIdx.map fun c => { c.1 with
      nextFree := (m.ranges.filter fun g => g.1 = c.2).foldl (fun n g => max n (g.2.1 + g.2.2)) c.1.nextFree } }
  let s1 := (s.modSession m.session up).modImage r.handle fun im =>
    if im.arrivalEntries = 0 then im else { im with arrivalUsed := r.arrival :: im.arrivalUsed }
  let restart := fun (x : Stream) => if x.session = m.session ∧ up1 = 1 then { x with epoch := x.epoch + 1, nextSeq := 0 } else x
  let ours := fun (y : MirrorRec) => y.device == m.device && y.session == m.session && y.seq == m.seq && y.opening.isSome
  let openings := (s1.mirrored.filter ours).filterMap fun y => y.opening.map fun e => JRec.opening y.session y.seq e.1 e.2
  let s2 : State := { s1 with streams := s1.streams.map restart, requests := s1.requests ++ [r], journal := s1.journal ++ openings
                              mirrored := (s1.mirrored.erase m).filter fun y => !ours y }
  admitRequest r (s2.bump rasHandoffsIn 0 0 1)

/-- A request whose COMMIT record the buddy holds: its completion record, with HANDED_OFF (R475). -/
def completeHanded (m : MirrorRec) (status : Nat) (s : State) : State :=
  match tfind s.sessions m.session with
  | some x => complete x.slot { ring := getLe m.desc 0 8, session := m.session, seq := m.seq, status := status, kind := 0
                                flags := 1, device := m.device, time := s.now } { s with mirrored := s.mirrored.erase m }
  | none => s

/-- HANDOFF (R474): this device, as buddy, replays a request, reports a committed one, or answers that it cannot. -/
def execHandoff (o : HandoffOp) (s : State) : Host.Outcome State Fault Refusal :=
  onPeer 0 128 (.handoff o) s fun s =>
    match s.mirrored.find? fun m => m.device = o.device ∧ m.session = o.session ∧ m.seq = o.seq ∧ m.opening.isNone with
    | none => s.send (.mirrorRefuse o.device o.session o.seq)
    | some m =>
      match o.committed, mirroredRequest s { m with imageDigest := o.imageDigest } with
      | some status, _ => completeHanded m status s
      | none, some r => if (s.request m.session m.seq).isSome then s else takeOver m r s
      | none, none => s.send (.mirrorRefuse o.device o.session o.seq)

/-- Both connections to a peer have been down for `n` times HANDOFF_TIMEOUT_MS. -/
def State.peerGone (s : State) (d n : Nat) : Bool :=
  (tfind s.peers d).any fun p => !p.upA && !p.upB && decide (p.downAt + n * 1000000 * s.dreg rasHandoffTimeoutMs ≤ s.now)

/-- BUDDY_LOSS_TIMEOUT (R476): the device is cut off from its buddy; every batch stops. -/
def execBuddyLossTimeout (s : State) : Host.Outcome State Fault Refusal :=
  if !s.hasBuddy ∨ s.cutOff ∨ !s.peerGone (s.dreg prtBuddyId) 1 then .next s
  else .next (s.spans.foldl (fun s e => dropBatch e.1 (abortPiers e.1 true s)) { s with cutOff := true })

/-- BUDDY_TAKEOVER_TIMEOUT (R476): the mirrored uncommitted requests of a device whose connections have been down for twice
the time are taken over. -/
def execBuddyTakeoverTimeout (s : State) : Host.Outcome State Fault Refusal :=
  let mine := s.mirrored.filter fun m => m.work && m.opening.isNone && s.peerGone m.device 2
  .next (mine.foldl (fun s m => match mirroredRequest s m with
    | some r => if (s.request m.session m.seq).isSome then s else takeOver m r s
    | none => s) s)

/-! ### Retirement and designation (R20 to R23, R294, R468, R469) -/

/-- A retirement pair burned (R20). -/
def burnPair (p q : Nat) (s : State) : State := { s with ks := { s.ks with retired := s.ks.retired ++ [(p, q)] } }

/-- The designated spares of span `k` found again. -/
def redesignate (k : Nat) (s : State) : State :=
  match s.imageOf k with
  | none => s
  | some im =>
    let sp := s.span k
    let d := designate s im.raw im.winMap sp.imgSpan sp.piers (s.takenLinks (some k))
    s.modSpan k fun sp => { sp with spares := d.1, reserved := d.2 }

/-- Spares designated again for every span that had designated pier `q`. -/
def redesignateOf (q : Nat) (s : State) : State :=
  (s.spans.filter fun e => e.2.spares.any fun x => x.2 == q).foldl (fun s e => redesignate e.1 s) s

/-- A spare that fails its self-test is retired, with no replacement (R23). -/
def retireSpare (q : Nat) (s : State) : State :=
  redesignateOf q (raise { code := 0x060A, action := 0, unit := 1, pier := q, detail := [0xFF] } (burnPair q 0xFF s))

/-- The image's stages and shards of span `k` for new piers, and every program in bank 0 (R292, Table 18-6 step 6). -/
def reprogram (k : Nat) (s : State) : State :=
  match s.imageOf k with
  | none => s
  | some im =>
    let sp := s.span k
    let fresh := fun (e : StageProg × Nat) =>
      if e.1.span ≠ sp.imgSpan then e.1
      else match (stageRecs im.raw)[e.2]? with
        | some r => { im.program sp.imgSpan sp.piers (r, e.2) with weights := e.1.weights }
        | none => e.1
    let stages := im.stages.zipIdx.map fresh
    let pierOf := fun (n : Nat) => match im.stages[n]? with
      | some g => (s.span (im.spans.getD g.span 0)).piers.getD g.stage 0
      | none => 0
    let s1 := s.modImage im.handle fun im => { im with stages := stages, shards := im.relocShards pierOf }
    (stages.filter fun g => g.span = sp.imgSpan).foldl (fun s g => s.modPier (sp.piers.getD g.stage 0) fun x =>
      { (x.loadBank 0 g) with seq := { x.seq with bank := 0, armed := false } }) s1

/-- Span `k` on new piers: backing copies follow their stages, moved slices are written, links are owned anew. -/
def moveSpan (k : Nat) (x : Placed) (s : State) : State :=
  match s.imageOf k with
  | none => s
  | some im =>
    let old := (s.span k).piers
    let moves := (old.zip x.piers).filter fun e => e.1 != e.2
    let place := fun (p : Nat) => tget p moves p
    let backing := im.backing.map fun b => if old.contains b.1 then (place b.1, b.2) else b
    let s1 := s.modImage im.handle fun im => { im with backing := backing }
    let s2 := moves.foldl (fun s e => (restoreChecked e.2 e.2 (tget 0 backing e.2) (s.weightsOn e.1) s).2) s1
    reprogram k (s2.modSpan k fun sp => { sp with piers := x.piers, links := x.links, reserved := x.reserved, spares := x.spares })

/-- The record of a pier's retirement (Table 18-6, step 3). -/
def retiredRec (k p q : Nat) (s : State) : State := raise { code := 0x060A, action := 4, unit := 1, pier := p, span := k, detail := [BitVec.ofNat 8 q] } s

/-- The recovery of span `k` is over: it launches again (R471). -/
def recovered (k : Nat) (s : State) : State := trySchedule k (s.modSpan k fun sp => { sp with recovery := .none })

/-- Whether a spare's routes in place of pier `p` meet no link that another span owns or reserves (R29, R290). -/
def State.routeFree (s : State) (k p q : Nat) : Bool :=
  let sp := s.span k
  (spanLinks (sp.piers.map fun x => if x = p then q else x) sp.edges).all fun l => !(s.takenLinks (some k)).contains l

/-- The self-test of spare `q` for step `n` of the takeover of pier `p` (R23): 1 before a re-placement, 2 before the takeover itself. -/
def testSpare (k p q n : Nat) (s : State) : State :=
  { s with spareTests := q :: s.spareTests.erase q }.modSpan k fun sp => { sp with recovery := .takeover p q n }

/-- A failed pier with no designated spare (R469): another spare of its die is tested to replace it; with none the device enters
Degraded. -/
def replacePier (k p : Nat) (s : State) : State :=
  match (byTravel p ((diePiers (p / 96)).filter fun q => s.pierState q == 2)).head? with
  | none => checkDegraded (recovered k (retiredRec k p 0xFF (burnPair p 0xFF s)))
  | some q => testSpare k p q 1 s

/-- The replacing spare has passed: the span is placed again as a whole; with no placement, the device enters Degraded (R469, log
entry 24). -/
def replaceBy (k p q : Nat) (s : State) : State :=
  let s1 := redesignateOf q (retiredRec k p q (burnPair p q s))
  match (s1.imageOf k).bind fun im => placeSpan s1 im.raw im.winMap (s1.hosts (some k)) (s1.takenLinks (some k)) (s1.span k).imgSpan with
  | none => checkDegraded (recovered k { s1 with placementFailed := true })
  | some x => recovered k ((moveSpan k x s1).bump rasTakeovers 0 0 1)

/-- Pier `p` of span `k` is taken over by spare `q`, where its routes are free, or replaced. -/
def takeSpare (k p : Nat) (next : Option Nat) (s : State) : State :=
  match next.filter fun q => s.pierState q == 2 && s.routeFree k p q with
  | none => replacePier k p s
  | some q => testSpare k p q 2 s

/-- A pier of span `k` fails: takeover by its designated spare, which is self-tested first (R464 step 4, R468, R23). -/
def startTakeover (k p : Nat) (s : State) : State := takeSpare k p (tfind (s.span k).spares p) s

/-- The spare has passed: the retirement pair is burned, and its slice is written (Table 18-6, steps 3 and 4). -/
def beginTakeover (k p q : Nat) (s : State) : State :=
  let s1 := retiredRec k p q (burnPair p q s)
  (redesignateOthers k q s1).modSpan k fun sp => { sp with recovery := .takeover p q 3 }
where
  /-- the other spans that had designated the spare designate again -/
  redesignateOthers (k q : Nat) (s : State) : State :=
    (s.spans.filter fun e => e.1 != k && e.2.spares.any fun x => x.2 == q).foldl (fun s e => redesignate e.1 s) s

/-- The spare of a takeover has failed in step 4 or 5: it is retired in its turn as the pier of the stage, and the next spare is taken,
or the span is placed again (R469). -/
def nextSpare (k p q : Nat) (s : State) : State :=
  let stage := (s.span k).piers.idxOf p
  let s1 := s.modSpan k fun sp => { sp with piers := sp.piers.map fun x => if x = p then q else x }
  match s1.imageOf k with
  | none => replacePier k q s1
  | some im =>
    let s2 := s1.modImage im.handle fun im => { im with backing := im.backing.map fun b => if b.1 = p then (q, b.2) else b }
    takeSpare k q (spareFor s2 im.raw im.winMap (s2.span k).imgSpan (s2.span k).piers stage) s2

/-! ### Self-test and the steps of a takeover (R464, R23, Table 18-6) -/

/-- Halting faults of a pier within the last hour. -/
def State.recentFaults (s : State) (p : Nat) : Nat := ((s.pier p).faults.filter fun t => s.now < t + 3600000000000).length

/-- The spans whose takeover or re-placement waits for the self-test of spare `q`: span, failed pier, and whether it is a takeover. -/
def State.awaiting (s : State) (q : Nat) : List (Nat × Nat × Bool) :=
  s.spans.filterMap fun e => match e.2.recovery with
    | .takeover p r 1 => if r = q then some (e.1, p, false) else none
    | .takeover p r 2 => if r = q then some (e.1, p, true) else none
    | _ => none

/-- The self-test of spare `q` ends (R23): it takes over for the first span that waits for it, and is retired where it fails; every other
span that waits takes its next spare. -/
def spareTested (q : Nat) (pass : Bool) (s : State) : State :=
  let s1 := { s with spareTests := s.spareTests.erase q }
  match pass, s1.awaiting q with
  | true, [] => s1
  | true, (k, p, direct) :: r =>
    r.foldl (fun s e => startTakeover e.1 e.2.1 s) (if direct then beginTakeover k p q s1 else replaceBy k p q s1)
  | false, l => l.foldl (fun s e => startTakeover e.1 e.2.1 s) (checkDegraded (retireSpare q s1))

/-- PIER_SELF_TEST_DONE (R464, R465, R23): a failing pier, or one with RETIRE_THRESHOLD halting faults in an hour, is taken
over; a Spare pier under test is ready, or retired. -/
def execPierSelfTestDone (p : Nat) (pass : Bool) (s : State) : Host.Outcome State Fault Refusal :=
  if 192 ≤ p then .fault (.noSuchUnit p)
  else if s.pierState p = 2 then .next (if s.spareTests.contains p then spareTested p pass s else s)
  else match s.spanOf p with
    | none => .next s
    | some (k, _) =>
      match (s.span k).recovery with
      | .testing q replay =>
        if q ≠ p then .next s
        else if pass ∧ (¬ replay ∨ s.recentFaults p < s.dreg rasRetireThreshold) then .next (recovered k s)
        else .next (startTakeover k p s)
      | _ => .next s

/-- The span whose takeover of pier `p` has come to a step. -/
def State.takeoverOf (s : State) (p step : Nat) : Option (Nat × Nat) :=
  s.spans.findSome? fun e => match e.2.recovery with
    | .takeover a q n => if a = p ∧ n = step then some (e.1, q) else none
    | _ => none

/-- TAKEOVER_SLICE_WRITTEN (Table 18-6, step 4; R86): the backing copy of pier `p` is in its spare's slice, or the spare has
failed. A copy that fails its SHARD_CRC is repaired first, and the step is done again (R85, log entry 68). -/
def execTakeoverSliceWritten (p : Nat) (ok : Bool) (s : State) : Host.Outcome State Fault Refusal :=
  if 192 ≤ p then .fault (.noSuchUnit p)
  else match s.takeoverOf p 3 with
    | none => .next s
    | some (k, q) =>
      if !ok then .next (nextSpare k p q s)
      else match s.imageOf k with
        | none => .next s
        | some im =>
          let c := restoreChecked q p (tget 0 im.backing p) (s.weightsOn p) s
          if !c.1 then .next c.2 else
          let s1 := c.2
          let moved := im.backing.map fun b => if b.1 = p then (q, b.2) else b
          let s2 := s1.modImage im.handle fun im => { im with backing := moved }
          .next (s2.modSpan k fun sp => { sp with recovery := .takeover p q 4 })

/-- TAKEOVER_REVERIFIED (step 5): the stage has moved and the patched span is verified again; its new routes meet no link of another
span (R29). -/
def execTakeoverReverified (p : Nat) (s : State) : Host.Outcome State Fault Refusal :=
  if 192 ≤ p then .fault (.noSuchUnit p)
  else match s.takeoverOf p 4 with
    | none => .next s
    | some (k, q) =>
      match s.imageOf k with
      | none => .next s
      | some im =>
        let sp := s.span k
        let piers := sp.piers.map fun x => if x = p then q else x
        if fitsAt im.raw im.winMap sp.imgSpan piers && s.routeFree k p q then
          .next (s.modSpan k fun sp => { sp with piers := piers, links := spanLinks piers sp.edges, recovery := .takeover p q 5 })
        else .next (nextSpare k p q s)

/-- TAKEOVER_PROGRAM_WRITTEN (steps 6 and 7): programs, spares, and the relaunch. -/
def execTakeoverProgramWritten (p : Nat) (s : State) : Host.Outcome State Fault Refusal :=
  if 192 ≤ p then .fault (.noSuchUnit p)
  else match s.takeoverOf p 5 with
    | none => .next s
    | some (k, q) => .next (recovered k ((redesignateOf q (redesignate k (reprogram k s))).bump rasTakeovers 0 0 1))

/-! ### Scrubs and repairs (R341, R342, R353, R460, R466, Table 18-5) -/

/-- LLM_SCRUB (R341, R342): the next line is read; `errors` bits of it have failed. -/
def execLlmScrub (errors : Nat) (s : State) : Host.Outcome State Fault Refusal :=
  let a := 64 * s.scrub.llm
  let s1 := { s with scrub := { s.scrub with llm := (s.scrub.llm + 1) % 6291456 } }
  if errors = 0 then .next s1
  else
    let s2 := s1.setDreg llmLlmLastError a
    if errors = 1 then .next (s1.bump llmLlmCorrected 0 0 1)
    else if s.scratch ≤ a then .next (s2.bump llmLlmCacheRefetches 0 0 1)
    else .next (llmLost a (s2.bump llmLlmUncorrected 0 0 1))

/-- The store number of an internal object, and what holds it: 3 key store, 4 material store, 5 constant block, 6 backing copy
of a pier (Table 18-4). -/
def State.storeOf (s : State) (id : Nat) : Option (Nat × Nat) :=
  if s.keysets.any fun k => k.objs.any fun o => o.obj == id then some (3, 0xFF)
  else if s.keysets.any fun k => k.constObj == id then some (5, 0xFF)
  else if s.sessions.any fun e => e.2.classes.any fun c => c.bundles.any fun b => b.obj == id then some (4, 0xFF)
  else s.images.findSome? fun e => (e.2.backing.find? fun b => b.2 = id).map fun b => (6, b.1)

/-- The tags of the sets that an object of the key or material store belongs to. -/
def State.tagsOf (s : State) (id : Nat) : List Nat :=
  ((s.keysets.filter fun k => k.objs.any fun o => o.obj == id).map (·.tag)) ++
    ((s.sessions.filter fun e => e.2.classes.any fun c => c.bundles.any fun b => b.obj == id).map fun e => e.2.keyTag)

/-- Batches and requests under a set end poisoned with a code. -/
def poisonSet (tag code : Nat) (s : State) : State :=
  s.spans.foldl (fun s e =>
    let k := e.1
    let hit := fun (b : Batch) => b.keyTag == tag
    let s1 := if (s.span k).running then
        (if (s.span k).batch.any hit then stopSpan k (.abort code) s else s)
      else match (s.span k).batch with
        | some b => if hit b then poisonMembers b code (dropBatch k s) else s
        | none => s
    let fixed := (s1.span k).fixed.filter hit
    let waits := (s1.span k).waiting.filter fun w => s1.tagOf w.1 = tag
    let s2 := s1.modSpan k fun sp => { sp with fixed := sp.fixed.filter fun b => !hit b, waiting := sp.waiting.filter fun w => !waits.contains w }
    let s3 := fixed.foldl (fun s b => poisonMembers b code s) s2
    waits.foldl (fun s w => outputDone w.1 w.2.1 code s) s3) s

/-- An internal object fails its CRC (R353, R466): it is repaired from its copy; a key or material object without a buddy takes
its set with it. -/
def objectLost (id : Nat) (s : State) : State :=
  match s.storeOf id with
  | none => s
  | some (store, pier) =>
    if (store = 3 ∨ store = 4) ∧ ¬ s.hasBuddy then
      let s1 := raise { code := 0x0606, action := 0, unit := 3, pier := pier, detail := storeDetail (gddrBase 0 + s.objBase id) store } s
      (s1.tagsOf id).eraseDups.foldl (fun s t => startErase t 1 (poisonSet t 0x0606 s)) s1
    else storeLost store pier id s

/-- GDDR_SCRUB (R353): corrections that device `k` reports, and an internal object whose CRC fails. -/
def execGddrScrub (k corrected : Nat) (bad : Option Nat) (s : State) : Host.Outcome State Fault Refusal :=
  if 16 ≤ k then .fault (.noSuchUnit k)
  else
    let s1 := { s with scrub := { s.scrub with gddr := s.scrub.gddr + 1 } }.bump mcEccCorrected 0 k corrected
    .next (match bad with
      | some id => objectLost id s1
      | none => s1)

/-- GDDR_REFRESH (R349): a refresh changes nothing that the model holds. -/
def execGddrRefresh (k : Nat) (s : State) : Host.Outcome State Fault Refusal :=
  if 16 ≤ k then .fault (.noSuchUnit k) else .next s

/-- WEIGHT_SCRUB (R460): the next word of an Active pier's slice. -/
def execWeightScrub (p errors : Nat) (s : State) : Host.Outcome State Fault Refusal :=
  if 192 ≤ p then .fault (.noSuchUnit p)
  else if s.pierState p ≠ 1 then .next s
  else
    let a := sliceBase p + 8 * s.scrub.weight
    let s1 := { s with scrub := { s.scrub with weight := (s.scrub.weight + 1) % 4194304 } }
    if errors = 0 then .next s1
    else if errors = 1 then .next (s1.bump rasWeightCorrected 0 0 1)
    else .next (pierStoreLost p 0 a true s1)

/-- IMEM_SCRUB (R277, R460): the next half-word of bank `b`; an armed shadow bank under repair is disarmed. -/
def execImemScrub (p b errors : Nat) (s : State) : Host.Outcome State Fault Refusal :=
  if 192 ≤ p then .fault (.noSuchUnit p)
  else
    let s1 := { s with scrub := { s.scrub with imem := s.scrub.imem + 1 } }
    let active := decide (b = (s.pier p).seq.bank)
    if errors = 0 then .next s1
    else if errors = 1 then .next (s1.bump seqImemCorrected p 0 1)
    else .next (pierStoreLost p 1 b active (if active then s1 else s1.modSeq p fun q => { q with armed := false }))

/-- STORE_REPAIR_DONE (Table 18-5): the store is restored; `copy` is the stripe that the buddy sent, as (object bytes). -/
def execStoreRepairDone (id : Nat) (copy : List Byte) (s : State) : Host.Outcome State Fault Refusal :=
  match s.repairs.find? fun r => r.id = id with
  | none => .next s
  | some r =>
    let s1 := { s with repairs := s.repairs.erase r }
    let backing := s.images.findSome? fun e => (e.2.backing.find? fun b => b.1 = r.pier).map (·.2)
    match r.store with
    | 0 => .next (match backing with
        | some o => (restoreChecked r.pier r.pier o (s1.weightsOn r.pier) s1).2
        | none => s1)
    | 1 => .next (match s1.spanOf r.pier with
        | some (k, st) => (match s1.stageProg k st with
          | some g => s1.modPier r.pier fun x => x.loadBank r.addr g
          | none => s1)
        | none => s1)
    | 6 => .next (if s1.sliceGood r.pier (s1.weightsOn r.pier) then backupSlice r.pier r.addr s1 else s1)
    | 2 => .next s1
    | 5 => .next s1
    | _ => .next (objWr r.addr 0 copy s1)

/-- GDDR_TRAINING_DONE (R348): device `k` is trained, or fails and the device becomes Degraded. -/
def execGddrTrainingDone (k : Nat) (ok : Bool) (s : State) : Host.Outcome State Fault Refusal :=
  if 16 ≤ k then .fault (.noSuchUnit k)
  else if ok then .next (s.setDreg mcGddrTrained (setFld (s.dreg mcGddrTrained) k 1 1))
  else .next (checkDegraded (raise { code := 0x0604, action := 0, unit := 3, detail := leBytes 1 k }
    { s with badTraining := (s.badTraining ++ [k]).eraseDups }))

/-- CHANNEL_RETRAIN_DONE (R352, R467): a channel is trained again, or its device has failed. -/
def execChannelRetrainDone (k channel : Nat) (ok : Bool) (s : State) : Host.Outcome State Fault Refusal :=
  if 16 ≤ k then .fault (.noSuchUnit k)
  else if ok then .next s
  else .next (checkDegraded (raise { code := 0x0604, action := 0, unit := 3, detail := leBytes 1 k ++ leBytes 1 channel }
    { s with badTraining := (s.badTraining ++ [k]).eraseDups }))

/-- BUDDY_STRIPE_FETCH (R466): a 1 MiB stripe of an object of the key store (3) or material store (4) goes to the device that
repairs its copy; `index` counts the objects of the store in the order they were made. -/
def execBuddyStripeFetch (device store index stripe : Nat) (s : State) : Host.Outcome State Fault Refusal :=
  onPeer 0 64 (.buddyStripeFetch device store index stripe) s fun s =>
    match (s.objs.filter fun o => ((s.storeOf o.id).map (·.1)) == some store)[index]? with
    | some o => s.send (.stripe device (objRd s o.id (stripe * 2 ^ 20) (min (2 ^ 20) (o.bytes - stripe * 2 ^ 20))))
    | none => s

end Sys2Proof.Machine
end

