-- ==== Sys2Proof/Machine/ScaleOut.lean ====
section
/-! DEFINITION. System images and exchange channels (15_time_scaleout R395 to R404). -/
namespace Sys2Proof.Machine

/-! ### The system image (Table 15-1) -/

/-- Device entry `i`. -/
def sysDev (bs : List Byte) (i : Nat) : SysDev :=
  let o := 64 + 64 * i
  let b := getLe bs (o + 2) 2
  { id := getLe bs o 2 % 4096, buddy := if bit b 15 then none else some (b % 4096), serial := getLe bs (o + 8) 8
    addrA := slice bs (o + 0x10) 16, addrB := slice bs (o + 0x20) 16 }

/-- Channel entry `i` behind `d` device entries. -/
def sysChannel (bs : List Byte) (d i : Nat) : Channel :=
  let o := 64 + 64 * d + 32 * i
  let f := getLe bs (o + 1) 1
  let c := getLe bs (o + 7) 1
  { id := getLe bs o 1, feed := bit f 0, dstGddr := bit f 1, preferB := bit f 2, src := getLe bs (o + 2) 2 % 4096
    dst := getLe bs (o + 4) 2 % 4096, k := getLe bs (o + 6) 1, pieces := c % 16 + 1, reads := c / 16 + 1
    lag := getLe bs (o + 8) 2, dstSpan := getLe bs (o + 0xA) 1, bytes := getLe bs (o + 0xC) 4 }

/-- A system image read from its bytes, with every channel. -/
def parseSys (bs : List Byte) : SysImg :=
  let d := getLe bs 0x14 2
  { raw := bs.take (getLe bs 0x18 4), strapIds := bit (getLe bs 7 1) 0, devices := (List.range d).map (sysDev bs)
    channels := (List.range (getLe bs 0x16 2)).map (sysChannel bs d) }

/-- Step 1 of Table 15-2. -/
def sysFormOk (bs : List Byte) (n : Nat) : Bool :=
  let d := getLe bs 0x14 2
  let c := getLe bs 0x16 2
  let z := getLe bs 0x18 4
  decide (64 ≤ bs.length) && getLe bs 0 4 == 0x48545349 && getLe bs 0x3C 4 == crc32 (bs.take 0x3C) &&
    z == 64 + 64 * d + 32 * c && decide (z ≤ n) && decide (z ≤ bs.length) && decide (1 ≤ d ∧ d ≤ 4096) &&
    getLe bs 0x38 4 == crc32 (slice bs 64 (z - 64))

/-- This device's entry (R397). -/
def State.sysEntry (s : State) (i : SysImg) : List SysDev :=
  i.devices.filter fun d => if i.strapIds then d.id == s.pwr.nodeId % 4096 else d.serial == s.ks.serial

/-- Step 4: one entry, unique ids and serials, symmetric buddies (R397, R398). -/
def sysDevicesOk (s : State) (i : SysImg) : Bool :=
  let pairOk := fun (d : SysDev) => match d.buddy with
    | none => true
    | some b => b != d.id && i.devices.any fun e => e.id == b && e.buddy == some d.id
  decide ((s.sysEntry i).length = 1) && decide ((i.devices.map (·.id)).Nodup) && decide ((i.devices.map (·.serial)).Nodup) &&
    i.devices.all pairOk

/-- Step 5: channel entries. -/
def sysChannelsOk (i : SysImg) : Bool :=
  let listed := fun (d : Nat) => i.devices.any fun e => e.id == d
  let one := fun (c : Channel) => decide (2 ≤ c.k ∧ c.k ≤ 16 ∧ 1 ≤ c.lag ∧ c.lag ≤ 1000 ∧ c.src ≠ c.dst ∧ c.bytes % 2048 = 0 ∧
    2048 ≤ c.bytes ∧ c.bytes ≤ 64 * 2 ^ 20) && (!c.dstGddr || decide (c.dstSpan < 16)) && listed c.src && listed c.dst
  let touch : Nat → List Channel := fun d => i.channels.filter fun c => c.src == d || c.dst == d
  let peers := fun (d : SysDev) => (d.buddy.toList ++ (touch d.id).map fun c => if c.src = d.id then c.dst else c.src).eraseDups
  i.channels.all one && i.devices.all fun d => decide (((touch d.id).map fun (c : Channel) => c.id).Nodup) && decide ((peers d).length ≤ 64)

/-- What an image says but for OPER_VERSION, GENERATION and the CRCs (step 6); reserved bytes say nothing (R7). -/
def sysCore (bs : List Byte) : Nat × Nat × SysImg := (getLe bs 4 2, getLe bs 8 8, { parseSys bs with raw := [] })

/-! ### Storage of channels (R400) -/

/-- Storage for one channel on this device: its buffers and its stamp block, every stamp all ones; none when they do not fit. -/
def placeChannel (me : Nat) (c : Channel) (acc : Option (State × List Channel)) : Option (State × List Channel) :=
  acc.bind fun (s, done) =>
    -- placed channels already count as used space
    let t : State := { s with sys := s.sys.map fun i => { i with channels := done } }
    let slots := if c.dst ≠ me then some 0
      else if c.dstGddr then
        (lowest (0 :: t.gddrUsed.map fun u => ceilDiv (u.1 + u.2) 2048 * 2048)
          fun g => decide (g + c.k * c.bytes ≤ gddrLimit) && freeIn t.gddrUsed g (c.k * c.bytes)).map (gddrBase c.dstSpan + ·)
      else (t.llmPlace 2048 (c.k * c.bytes)).map (llmBase + ·)
    slots.bind fun b =>
      let t2 : State := { s with sys := s.sys.map fun i => { i with channels := done ++ [{ c with base := b }] } }
      (t2.llmPlace 128 128).map fun a =>
        let d := s.draw
        let c1 := { c with base := b, stampAddr := llmBase + a, epoch := 1 + d.1 % 0x7FFF }
        (d.2.wr c1.stampAddr (List.replicate 128 0xFF), done ++ [c1])

/-- Every channel of this device placed. -/
def placeChannels (me : Nat) (cs : List Channel) (s : State) : Option (State × List Channel) :=
  cs.foldl (fun a c => placeChannel me c a) (some (s, []))

/-! ### SYS_COMMAND (R396, R397, Table 15-2) -/

/-- Whether accepted work is uncommitted. -/
def State.working (s : State) : Bool := s.requests.any (·.live)

/-- The system image in force from now on: identifiers, buddy, versions, peers (R397, R399). -/
def installSys (i : SysImg) (me : SysDev) (bs : List Byte) (cs : List Channel) (s : State) : State :=
  let s1 := { s with sys := some { i with channels := cs } }
  let regs := [(tbDeviceId, me.id), (tbIdValid, 1), (tbSysimgGen, getLe bs 0x10 4), (tbOperVersion, getLe bs 6 1),
    (prtBuddyId, me.buddy.getD 0), (prtBuddyNone, if me.buddy.isNone then 1 else 0), (prtBuddyState, if me.buddy.isNone then 0 else 2)]
  let s2 := regs.foldl (fun s r => s.setDreg r.1 r.2) s1
  let ids := s2.peerIds
  let s3 := { s2 with peers := ids.map fun d => (d, { state := 2, downAt := s.now }) }
  (ids.filter fun d => me.id < d).foldl (fun s d => helloPeer d 1 (helloPeer d 0 s)) s3

/-- The checks of Table 15-2 on the bytes found, and the install: the code, and the state. -/
def installChecks (bs : List Byte) (n : Nat) (s : State) : Nat × State :=
  let i := parseSys bs
  let same := s.sys.any fun j => sysCore j.raw == sysCore i.raw
  let oper := getLe bs 6 1
  if !sysFormOk bs n then (0x0804, s)
  else if oper ≠ s.fwVersion ∧ oper + 1 ≠ s.fwVersion then (0x0801, s)
  else if getLe bs 0x10 4 ≤ s.dreg tbSysimgGen then (0x0804, s)
  else if !sysDevicesOk s i ∨ !sysChannelsOk i then (0x0804, s)
  else if (!s.images.isEmpty ∨ s.working) ∧ !same then (0x0402, s)
  else if !s.images.isEmpty ∨ s.working then
    let s1 : State := { s with sys := s.sys.map fun j => { j with raw := i.raw } }
    (0, (s1.setDreg tbSysimgGen (getLe bs 0x10 4)).setDreg tbOperVersion oper)
  else match s.sysEntry i with
    | [me] =>
      let mine := i.channels.filter fun c => c.src == me.id || c.dst == me.id
      (match placeChannels me.id mine { s with sys := some { i with channels := [] } } with
        | some (s1, cs) => (0, installSys i me bs cs s1)
        | none => (0x0402, s))
    | _ => (0x0804, s)

/-- SYS_COMMAND of slot `p`: the code that WRITE_REG answers, and the state; `remote` is what a remote window answers. -/
def sysCommand (p : Nat) (remote : List Byte) (s : State) : Nat × State :=
  if s.wideOther p then (0x0402, s)
  else
    let n := s.dreg tbSysLength
    let bs := (readRange s p { window := s.dreg tbSysWindow, offset := s.dreg tbSysOffset, length := n, remote := remote }).getD []
    let r := installChecks bs n s
    let s1 := if r.1 = 0x0801 ∨ r.1 = 0x0804 then raise { code := r.1, action := 0, unit := 8 } r.2 else r.2
    (r.1, s1.setDreg tbSysResult r.1)

/-- SYS_COMMAND (R396): a partner writes 1 to SYS_COMMAND. -/
def execSysCommand (p : Nat) (remote : List Byte) (s : State) : Host.Outcome State Fault Refusal :=
  if 8 ≤ p then .fault (.noSuchUnit p) else .next (sysCommand p remote s).2

/-! ### Stamps and feed launches (R403, R404) -/

/-- Whether feed channel `c` names a loaded span: that span's device index. -/
def State.feedSpan (s : State) (c : Nat) : Option Nat :=
  if s.reg tbFeedEn 0 c = 0 then none
  else (tfind s.images (s.reg tbFeedImage 0 c)).bind fun im => im.spans[s.reg tbFeedSpan 0 c]?

/-- The network that exchange traffic of a channel uses: the preferred one, or the other while it is down (R399). -/
def State.channelNet (s : State) (c : Channel) : Nat :=
  let peer := if s.isSource c then c.dst else c.src
  let up := ((tfind s.peers peer).map fun p => (p.upA, p.upB)).getD (false, false)
  if c.preferB then (if up.2 || !up.1 then 1 else 0) else if up.1 || !up.2 then 0 else 1

/-- The feed of slot `k`, beat `b`, answered at once: RELEASED is written and one record (R404). -/
def feedUnbound (c : Channel) (k b : Nat) (s : State) : State :=
  raise { code := 0x0806, action := 0, unit := 8 } (s.send (.stamp c.id k b false))

/-- ARRIVED_PLACED (R403, R404): a sender's beat in ARRIVED[k]. -/
def execArrivedPlaced (channel k b : Nat) (s : State) : Host.Outcome State Fault Refusal :=
  match s.channelOf (1024 + channel) with
  | none => .next s
  | some c =>
    onPeer (s.channelNet c) 72 (.arrivedPlaced channel k b) s fun s =>
      if s.isSource c ∨ c.k ≤ k then s
      else
        let s1 := s.wr (c.stampAddr + 8 * k) (leBytes 8 b)
        if !c.feed then s1
        else if (s1.feedSpan channel).isNone then feedUnbound c k b s1
        else
          let s2 := s1.modChannel channel fun c => { c with feeds := c.feeds ++ [(k, b, s1.now)] }
          if s2.pwr.state = .a1 ∨ s2.pwr.state = .a2 then startResume s2 else s2

/-- RELEASED_PLACED (R403): the receiver's beat in RELEASED[k] at the source. -/
def execReleasedPlaced (channel k b : Nat) (s : State) : Host.Outcome State Fault Refusal :=
  match s.channelOf (1024 + channel) with
  | none => .next s
  | some c =>
    onPeer (s.channelNet c) 72 (.releasedPlaced channel k b) s fun s =>
      if s.isSource c ∧ k < c.k then s.wr (c.stampAddr + 8 * k) (leBytes 8 b) else s

/-- The batch that a feed section describes (R404, R405). -/
def feedBatch (s : State) (sp : Span) (c : Channel) (k b beat : Nat) : Batch :=
  let base := c.base + k * c.bytes
  let h := s.rd base 64
  let m := min (getLe h 0 4) 256
  let table := s.rd (base + 0x40) (64 * m)
  let tag := ((s.keysets.find? fun x => x.images.contains sp.handle).map (·.tag)).getD 0
  { serial := getLe h 8 8, launchTs := 1000 * beat, prepTs := 1000 * beat, keyTag := tag, ring := s.ringOf tag
    members := (List.range m).map fun i => { session := getLe table (64 * i) 8, seq := getLe table (64 * i + 8) 8 }
    feed := some (c.id, k, b), feedShift := beat - (b + c.lag), table := table }

/-- FEED_LAUNCH (R404): at the chosen beat, the feed span launches. -/
def execFeedLaunch (channel k : Nat) (s : State) : Host.Outcome State Fault Refusal :=
  match s.channelOf (1024 + channel) with
  | none => .next s
  | some c =>
    match c.feeds with
    | [] => .next s
    | (k', b, at_) :: r =>
      if k' ≠ k then .next s
      else match s.feedSpan channel with
        | none => .next (feedUnbound c k b (s.modChannel channel fun c => { c with feeds := r }))
        | some j =>
          let beat := s.now / 1000
          let sp := s.span j
          if beat < b + c.lag ∨ 1000 * beat ≤ at_ ∨ sp.batch.isSome ∨ sp.recovery ≠ .none ∨ sp.blocked.isSome ∨ !s.mayLaunch then
            .next s
          else
            let s1 := prepareBatch j (feedBatch s sp c k b beat) (s.modChannel channel fun c => { c with feeds := r })
            (match (s1.span j).batch, s1.imageOf j with
              | some x, some im => .next (launchBatch j x im s1)
              | _, _ => .next s1)

end Sys2Proof.Machine
end

