-- ==== Sys2Proof/Machine/Power.lean ====
section
/-! DEFINITION. Clocks, temperature, trips and power states (17_power_reset R435 to R448), what resets and low power return to
their Reset values (R455, Table 17-7), the output lands and the telemetry port (19_pins_package R485, R488). -/
namespace Sys2Proof.Machine

/-! ### What an event loses (R10, R455) -/

/-- Every register whose Kept through column lacks event `e` (0 POR, 1 PIN, 2 WARM, 6 A3, 7 A4) returns to its Reset value. Those of
FC_ACTIVE, PROCHOT_ACTIVE and THERMAL_THROTTLE lack each of them (R11, log entry 69). -/
def State.resetRegs (s : State) (e : Nat) : State :=
  { s with pwr := { s.pwr with fcActive := 0, prochot := false, throttle := false } }.clearRegs
    ((devFields ++ pierFields).filter fun f => !bit f.kept e)

/-- What WARM, A3 and A4 leave of the piers: benches zero, lathe, spindle and sequencer at their Reset values, constant stores
and member tables empty, instruction memory lost. -/
def blankPier (x : Pier) : Pier := { faults := x.faults, nextId := x.nextId }

/-- Every pier so; PTOK_LEVEL, GRANT_TOKENS and SHAPE_MODE read zero (R11, log entry 69). -/
def blankPiers (s : State) : State :=
  { s with piers := s.piers.map fun e => (e.1, blankPier e.2)
           spans := s.spans.map fun e => (e.1, { e.2 with shown := false, level := 0, nextLevel := 0 }) }

/-- The programs of every loaded image written into bank 0 (R277, R447, R452). -/
def rewriteAll (s : State) : State :=
  s.spans.foldl (fun s e => e.2.piers.zipIdx.foldl (fun s q => match s.stageProg e.1 q.2 with
    | some g => s.modPier q.1 fun x => x.loadBank 0 g
    | none => s) s) s

/-- Every slice emptied, or lost with the compute dies. -/
def zeroSlices (s : State) : State := s.zeroMem (sliceBase 0) (sliceBase 192)

/-- BUDDY_STATE from the connections to the buddy. -/
def buddyAgain (s : State) : State :=
  if s.hasBuddy then
    s.setDreg prtBuddyState (if ((tfind s.peers (s.dreg prtBuddyId)).any fun p => p.upA || p.upB) then 1 else 2)
  else s

/-! ### Power and reset lands -/

/-- Whether the device is powered and out of reset. -/
def State.live (s : State) : Bool := s.pins.pwrGood && s.pins.resetN && s.pins.porTries == 0 && !s.pins.porDead

/-! ### The fast clock (R436, R437, R438) -/

/-- FC_ACTIVE changes when its cause has changed (within 10 µs of it; the model makes it the next command). -/
def clockCause (s : State) : State := if s.fcWanted ≠ s.pwr.fcActive then s.enqueue .fcActiveChange else s

/-- FC_ACTIVE_CHANGE (R436): at one fc boundary; no fc is lost or added. -/
def execFcActiveChange (s : State) : Host.Outcome State Fault Refusal :=
  .next { s with pwr := { s.pwr with fcActive := s.fcWanted } }

/-- The 0x0901 THROTTLE record of an onset; in A3 and A4 the LLM takes no write, and the record follows the resume (log
entry 27). -/
def noteThrottle (s : State) : State :=
  if s.pwr.state = .a3 ∨ s.pwr.state = .a4 then { s with pwr := { s.pwr with lateRecords := s.pwr.lateRecords + 1 } }
  else raise { code := 0x0901, action := 0, unit := 0 } s

/-- PROCHOT_ONSET (R437): the input comes into force. -/
def execProchotOnset (s : State) : Host.Outcome State Fault Refusal :=
  if !s.live ∨ s.pwr.prochot then .next s
  else .next (clockCause (noteThrottle { s with pwr := { s.pwr with prochot := true } }))

/-- PROCHOT_END (R437): the input has been high for 1 ms. -/
def execProchotEnd (s : State) : Host.Outcome State Fault Refusal :=
  if s.pwr.prochot then .next (clockCause { s with pwr := { s.pwr with prochot := false } }) else .next s

/-! ### The choice of a power state (R442 to R444, Tables 17-2 and 17-3) -/

/-- Entry times, and break-even times, in ns (Table 17-2). -/
def entryNs : PState → Nat
  | .a0 => 0
  | .a1 => 20
  | .a2 => 2000
  | .a3 => 500000
  | .a4 => 30000000
def breakEvenNs : PState → Nat
  | .a0 => 0
  | .a1 => 1000
  | .a2 => 100000
  | .a3 => 10000000
  | .a4 => 5000000000

/-- Depth of a state: 0 to 4 for A0 to A4. -/
def PState.depth : PState → Nat
  | .a0 => 0
  | .a1 => 1
  | .a2 => 2
  | .a3 => 3
  | .a4 => 4

/-- The conditions of Table 17-3 for one state alone. -/
def State.entryOk (s : State) : PState → Bool
  | .a0 => true
  | .a1 => (s.spans.all fun e => e.2.batch.isNone) &&
      s.piers.all fun e => e.2.chucks.all fun c => c.2.xfers.isEmpty && c.2.waiting.isEmpty
  | .a2 => (s.slots.all fun e => e.2.verb.isNone) && s.lie.queue.isEmpty && s.lie.running.isNone
  | .a3 => (s.slots.all fun e => e.2.headWait == 0 && e.2.due.isEmpty) && s.group.isEmpty && s.tx.isEmpty &&
      s.qps.all fun q => q.unacked.isEmpty
  | .a4 => s.slots.isEmpty && s.journal.isEmpty && s.mirrored.isEmpty &&
      s.peers.all fun e => (!e.2.upA && !e.2.upB) || s.isBuddy e.1

/-- The conditions of a state and of every shallower one (R442). -/
def State.mayEnter (s : State) (p : PState) : Bool :=
  [PState.a1, .a2, .a3, .a4].all fun q => decide (p.depth < q.depth) || s.entryOk q

/-- The earliest of instants. -/
def earliest (l : List Nat) : Option Nat := l.foldl (fun m x => some (min x (m.getD x))) none

/-- The next known event E (R443). -/
def State.nextEvent (s : State) : Option Nat :=
  let fixed := s.spans.flatMap fun e => e.2.fixed.map (·.prepTs)
  let waits := s.spans.filterMap fun e =>
    if e.2.open && s.mayFix && !e.2.waiting.isEmpty then
      some ((e.2.waiting.headD (0, 0, 0)).2.2 + s.waitNs e.1 - Config.prepNs) else none
  earliest (fixed ++ waits ++ (s.tx.map fun f => min f.due f.deadline) ++ (s.rxTimers.map (·.due)) ++
    if s.now < s.pwr.wakeAt then [s.pwr.wakeAt] else [])

/-- The deepest state up to DEEPEST_AUTO whose conditions hold and whose break-even plus resume fits before E (R444). -/
def State.choice (s : State) : PState :=
  let fits := fun (p : PState) => match s.nextEvent with
    | some e => decide (s.now + breakEvenNs p + resumeNs p false ≤ e)
    | none => true
  let ok := fun (p : PState) => decide (p.depth ≤ s.dreg pwrDeepestAuto) && s.mayEnter p && fits p
  [PState.a1, .a2, .a3, .a4].foldl (fun b p => if ok p then p else b) .a0

/-- Whether the device chooses power states: booted, with no trip and no standby request under way. -/
def State.dozes (s : State) : Bool := s.live && s.ks.boot == 1 && !s.pwr.trip && s.pwr.standbyReq == 0

/-- When resume from the current state is due for E (R444). -/
def State.resumeAt (s : State) : PMove := match s.nextEvent with
  | some e => .scheduled (max s.now (e - resumeNs s.pwr.state s.pwr.gddrOff))
  | none => .steady

/-- PSTATE_DECISION (R444): entry of a deeper state begins, or resume is scheduled anew for E. -/
def execPstateDecision (s : State) : Host.Outcome State Fault Refusal :=
  let p := s.choice
  let decide_ : State :=
    if s.pwr.state.depth < p.depth then { s with pwr := { s.pwr with gddrOff := false, move := .entering p (s.now + entryNs p) } }
    else if s.pwr.state = .a0 then s
    else { s with pwr := { s.pwr with move := s.resumeAt } }
  if !s.dozes then .next s
  else match s.pwr.move with
    | .steady => .next decide_
    | .scheduled _ => .next decide_
    | _ => .next s

/-! ### Entry (R441, R446, R447, Table 17-7) -/

/-- VALID of both networks lost: HOLDOVER, or FREE while it was FREE (R391). -/
def timeAlone (s : State) : State :=
  if s.dreg tbSyncState = 1 then { s with servo := { s.servo with small := 0 } }.setDreg tbSyncState 2 else s

/-- What A3 loses. -/
def enterA3 (s : State) : State :=
  let s1 := timeAlone (s.resetRegs 6)
  { blankPiers s1 with llmCache := [] }

/-- Base of the LLM save area, seen as an object (R347). -/
def llmSave : Nat := 0xBEA00000

/-- Cells of the LLM moved to its save area, and back (R343). -/
def saveLlm (s : State) : State :=
  (copyCells llmBase (llmBase + s.scratch) (fun y => objAddr llmSave y) s).zeroMem llmBase (gddrBase 0)
def restoreLlm (s : State) : State :=
  { s with mem := mputAll s.mem (s.mem.filterMap fun c => (objIndex llmSave 352 c.1).map fun y => (llmBase + y, c.2)) }

/-- What both forms of A4 lose: attachments, sessions, streams, windows, the LIE, low memories of the piers (Table 17-7). -/
def loseLinks (s : State) : State :=
  let ids := s.sessions.flatMap fun e => e.2.classes.flatMap fun c => c.bundles.map (·.obj)
  let s1 := blankPiers ((freeObjs ids s).resetRegs 7)
  { s1 with
    slots := [], sessions := [], requests := [], windows := [], qps := [], group := [], mirrored := [], waits := []
    tx := [], rx := [], streams := [], rxDone := [], rxTimers := [], sent := [], wakeBuf := [], paused := [], pausing := []
    epochDraw := s1.free, free := s1.free + 1024, servo := {}, lie := {}, llmCache := []
    images := s1.images.map fun e => (e.1, { e.2 with pins := [] })
    peers := s1.peers.map fun e => (e.1, { e.2 with state := 2, upA := false, upB := false, downAt := s1.now })
    ks := { s1.ks with handshakes := [] } }

/-- What A4 without GDDR loses besides: LLM, GDDR, slices, images, key sets. -/
def loseMemory (s : State) : State :=
  { s with mem := [], piers := [], spans := [], images := [], keysets := [], objs := [], repairs := [], journal := []
           badTraining := [], degraded := false, placementFailed := false, flits := [] }

/-- A4 reached: the LLM and the firmware copy are in GDDR, or nothing is kept (R447, R410, R343). -/
def enterA4 (s : State) : State :=
  if s.pwr.gddrOff then loseMemory (loseLinks s)
  else
    let bs := (s.ks.run.map (·.bytes)).getD []
    let s1 := { s with ks := { s.ks with saved := s.ks.run } }
    zeroSlices (loseLinks (saveLlm (bs.zipIdx.foldl (fun s e => s.wr (objAddr gddrLimit e.2) [e.1]) s1)))

/-- The counter of entries of a state. -/
def entries_ : PState → Fld
  | .a2 => pwrA2Entries
  | .a3 => pwrA3Entries
  | .a4 => pwrA4Entries
  | _ => pwrA1Entries

/-- PSTATE_ENTERED (R441): the state is reached; a wake that came during the entry of A3 or A4 starts resume at once. -/
def execPstateEntered (s : State) : Host.Outcome State Fault Refusal :=
  match s.pwr.move with
  | .entering p done =>
    if s.now < done then .next s
    else
      let s1 := (if p = .a3 then enterA3 s else if p = .a4 then enterA4 s else s).bump (entries_ p) 0 0 1
      let s2 : State := { s1 with pwr := { s1.pwr with state := p, move := .steady, wakePending := false } }
      if s.pwr.wakePending then .next (startResume s2)
      else .next { s2 with pwr := { s2.pwr with move := s2.resumeAt } }
  | _ => .next s

/-! ### Standby (R447) -/

/-- STANDBY_REQ 1 or 2 written: admission closes; entry follows once every accepted request has committed. -/
def standbyReq (n : Nat) (s : State) : State := { s with pwr := { s.pwr with standbyReq := n } }

/-- STANDBY_REQ_GDDR_KEPT, by slot `p`. -/
def execStandbyReqGddrKept (p : Nat) (s : State) : Host.Outcome State Fault Refusal :=
  if 8 ≤ p then .fault (.noSuchUnit p) else .next (standbyReq 1 s)

/-- STANDBY_REQ_GDDR_OFF, by slot `p`. -/
def execStandbyReqGddrOff (p : Nat) (s : State) : Host.Outcome State Fault Refusal :=
  if 8 ≤ p then .fault (.noSuchUnit p) else .next (standbyReq 2 s)

/-- STANDBY_ENTRY (R447): every accepted request has committed; attachments are lost, peer connections close, entry begins. -/
def execStandbyEntry (s : State) : Host.Outcome State Fault Refusal :=
  if s.pwr.standbyReq = 0 ∨ s.working ∨ !s.awake then .next s
  else
    let s1 := (s.slots.map (·.1)).foldl (fun s p => loseSlot p s) s
    let s2 := (s1.sessions.map (·.1)).foldl (fun s se => eraseSession se s) s1
    let s3 := (s2.slots.map (·.1)).foldl (fun s p => freeSlot p s) s2
    .next { s3 with
      peers := s3.peers.map fun e => (e.1, { e.2 with state := 2, upA := false, upB := false, downAt := s3.now })
      pwr := { s3.pwr with standbyReq := 0, gddrOff := s3.pwr.standbyReq == 2, wakePending := false
                           move := .entering .a4 (s3.now + entryNs .a4) } }

/-! ### Wake and resume (R441, R444, R445, R447) -/

/-- WAKE (R445): sources 0 to 7 are the exit from electrical idle on lane 2k of port k, which wakes A4 alone, where WAKE_LINK
bit k is set; 8 is WAKE_AT; any other is an event that wakes A1 to A3. -/
def execWake (source : Nat) (s : State) : Host.Outcome State Fault Refusal :=
  let wakes :=
    if source < 8 then s.portsOff && bit (s.dreg pwrWakeLink) source
    else if source = 8 then decide (s.pwr.wakeAt ≠ 0)
    else !s.portsOff
  if wakes && s.live && !s.pwr.trip then .next (startResume s) else .next s

/-- RESUME_START (R444): the scheduled instant has come. -/
def execResumeStart (s : State) : Host.Outcome State Fault Refusal :=
  match s.pwr.move with
  | .scheduled t => if t ≤ s.now then .next (startResume s) else .next s
  | _ => .next s

/-- GDDR_TRAINED after the retraining of A3, or of A4 with GDDR kept: the devices that had trained (R348). -/
def retrained (s : State) : State :=
  s.setDreg mcGddrTrained (maskOf 16 fun k => !s.badTraining.contains k)

/-- The slices of every placed pier rewritten from their backing copies, whose shards are verified (R85, R86). -/
def restoreSlices (s : State) : State :=
  s.images.foldl (fun s e => e.2.backing.foldl (fun s b => (restoreChecked b.1 b.1 b.2 (s.weightsOn b.1) s).2) s) s

/-- Peer connections opened again: the device with the lower id starts both handshakes (R399, R424). -/
def reopenPeers (s : State) : State :=
  let me := s.dreg tbDeviceId
  ((s.peers.map (·.1)).filter fun d => me < d).foldl (fun s d => helloPeer d 1 (helloPeer d 0 s)) s

/-- Stamps of every channel at their starting value, where A4 has lost the LLM (R400, R403). -/
def blankStamps (s : State) : State :=
  match s.sys with
  | some i => i.channels.foldl (fun s c => if c.stampAddr = 0 then s else s.wr c.stampAddr (List.replicate 128 0xFF)) s
  | none => s

/-- Degraded derived again at a boot, from the pier maps and from training (R473). -/
def reviseDegraded (s : State) : State :=
  let s1 : State := { s with placementFailed := false }
  if s1.isDegraded then checkDegraded s1 else { s1 with degraded := false }

/-- Resume from A4 (R410, R447): boot steps 3 to 8 from the saved copy or from flash, then LLM, slices and programs. -/
def resumeA4 (s : State) : State :=
  let k := { s.ks with rngOk := true, saved := none }
  if s.pwr.gddrOff then
    let s1 := { s with ks := bootFrom (k.flash s.pwr.bootsel) k, pwr := { s.pwr with lastReset := 4, gddrOff := false } }
    startSpareTests (reviseDegraded (reopenPeers (blankStamps s1)))
  else
    let copy := s.ks.saved.filter fun b => s.ks.accepts b
    let cs := match copy with
      | some b => [(k.bootBank, b)]
      | none => k.flash s.pwr.bootsel
    let s1 := { s with ks := bootFrom cs k, pwr := { s.pwr with lastReset := 3 } }
    let s2 := rewriteAll (restoreSlices (restoreLlm (retrained s1)))
    let s3 := if copy.isSome then s2 else raise { code := 0x0606, action := 0, unit := 3, detail := storeDetail gddrLimit 7 } s2
    startSpareTests (reopenPeers (reviseDegraded s3))

/-- The device in A0 with every unit ready: commands that frames brought run in arrival order, late records are written. -/
def reachA0 (s : State) : State :=
  let s1 := { s with
    pwr := { s.pwr with state := .a0, move := .steady, wakePending := false, lateRecords := 0 }
    pending := s.pending ++ s.wakeBuf.map (·.2.2), wakeBuf := [], pausing := [] }
  let s2 := (List.range s.pwr.lateRecords).foldl (fun s _ => raise { code := 0x0901, action := 0, unit := 0 } s) s1
  clockCause ((s2.spans.map (·.1)).foldl (fun s k => trySchedule k s) s2)

/-- RESUME_DONE (R441): A0 is reached. -/
def execResumeDone (s : State) : Host.Outcome State Fault Refusal :=
  match s.pwr.move with
  | .resuming done =>
    if s.now < done then .next s
    else if s.pwr.state = .a4 then .next (reachA0 (resumeA4 s))
    else if s.pwr.state = .a3 then .next (reachA0 (rewriteAll (retrained s)))
    else .next (reachA0 s)
  | _ => .next s

/-! ### Trips (R439) -/

/-- A thermal trip or supply fault: every span aborts, compute dies lose their contents, journaled work goes to the buddy. -/
def trip (code : Nat) (s : State) : State :=
  let s0 := if s.pwr.state = .a4 then resumeA4 s else s
  let s1 : State := { s0 with pwr := { s0.pwr with trip := true, state := .a0, move := .steady } }
  let s2 := s1.spans.foldl (fun s e => dropBatch e.1 (abortPiers e.1 true s)) s1
  let dark := (blankPiers s2).clearRegs pierFields
  handAll (raise { code := code, action := 5, unit := 0 } (zeroSlices dark))

/-- SUPPLY_FAULT (R439, R491). -/
def execSupplyFault (s : State) : Host.Outcome State Fault Refusal :=
  if !s.live ∨ s.pwr.trip then .next s else .next (trip 0x0903 s)

/-- The thermal throttle comes into force when TEMP_C reaches THROTTLE_C, which wakes A1 to A3 and ends the entry of each (R438, R445). -/
def throttleAt (t : Nat) (s : State) : State :=
  if s.pwr.throttle ∨ t < s.dreg pwrThrottleC then s
  else
    let s1 := clockCause (noteThrottle { s with pwr := { s.pwr with throttle := true } })
    if s1.portsOff then s1 else startResume s1

/-- TEMP_UPDATE (R438, R439): TEMP_C, the trip at 110 °C, the throttle, and since when it is cool. -/
def execTempUpdate (temp : Nat) (s : State) : Host.Outcome State Fault Refusal :=
  if !s.live then .next s
  else
    let t := min temp 255
    let s1 := s.setDreg pwrTempC t
    let cool := if t + 5 < s.dreg pwrThrottleC then some (s.pwr.coolAt.getD s.now) else none
    let s2 : State := { s1 with pwr := { s1.pwr with coolAt := cool } }
    .next (if 110 ≤ t ∧ ¬ s2.pwr.trip then trip 0x0902 (throttleAt t s2) else throttleAt t s2)

/-- THROTTLE_END (R438): TEMP_C has stayed below THROTTLE_C − 5 °C for 10 ms. -/
def execThrottleEnd (s : State) : Host.Outcome State Fault Refusal :=
  match s.pwr.coolAt with
  | some t =>
    if s.pwr.throttle ∧ t + 10000000 ≤ s.now then .next (clockCause { s with pwr := { s.pwr with throttle := false } })
    else .next s
  | none => .next s

/-! ### Output lands and telemetry (R438, R439, R463, R485, R488) -/

/-- FAULT_N is driven low (R463, R485); released otherwise. -/
def State.faultLow (s : State) : Bool :=
  s.live && (s.ks.boot != 1 || s.pwr.trip || s.isDegraded || s.dreg rasFaultLatch == 1 ||
    match s.pwr.move with
    | .resuming _ => s.pwr.state == .a4
    | _ => false)

/-- THERM_N is driven low. -/
def State.thermLow (s : State) : Bool := s.live && (s.pwr.throttle || s.pwr.trip)

/-- The bytes that the telemetry port answers to a command (Table 19-8); none for a NACK. Package power and the rails are
outside the model (log entry 5): free values. -/
def State.telemetry (s : State) (cmd : Nat) : Option (List Byte) :=
  let b := fun (q : Bool) => if q then 1 else 0
  if !s.live then none
  else if cmd = 0 then some (leBytes 4 idPartId.reset)
  else if cmd = 4 then some (leBytes 1 (s.dreg pwrTempC))
  else if cmd = 5 then some (leBytes 1 (s.pwr.state.depth + 8 * s.ksState + 32 * b s.isDegraded + 64 * b s.pwr.throttle + 128 * b s.pwr.prochot))
  else if cmd = 6 then some (leBytes 2 (Config.packageWatts s.now))
  else if cmd = 8 then some (leBytes 1 s.pwr.fcActive)
  else if cmd = 9 then some (leBytes 1 (Config.railsLow s.now % 64))
  else if cmd = 0xA then some (leBytes 2 (s.dreg rasFaultWritten))
  else none

end Sys2Proof.Machine
end

