-- ==== Sys2Proof/Machine/Reset.lean ====
section
/-! DEFINITION. The resets (17_power_reset R449 to R458, Tables 17-5 to 17-7), power-good and RESET_N, and the JTAG port
(19_pins_package R484 to R492). -/
namespace Sys2Proof.Machine

/-! ### POR and PIN (R451, R490 to R492) -/

/-- The straps latched (R484). -/
def latchStraps (st : Straps) (s : State) : State :=
  { s with pwr := { s.pwr with bootsel := st.bootsel % 8, nodeId := st.nodeId % 4096, netSplit := st.netSplit, g7rate := st.g7rate % 4 } }

/-- What POR (0) and PIN (1) leave: OTP, flash, straps, the registers that the event keeps; all else at its reset value, and
new starting epochs for the windows (Table 17-7, R366). -/
def fullReset (e : Nat) (s : State) : State :=
  let d : State := {}
  { d with
    pending := s.pending, out := s.out, nextId := s.nextId, free := s.free + 1024, epochDraw := s.free
    regs := (s.resetRegs e).regs
    ks := { s.ks with boot := 0, bootBank := 0, run := none, fwDigest := [], romDigest := [], rngOk := false
                      handshakes := [], saved := none, burnDue := false }
    pwr := { bootsel := s.pwr.bootsel, nodeId := s.pwr.nodeId, netSplit := s.pwr.netSplit, g7rate := s.pwr.g7rate, lastReset := e }
    pins := s.pins }

/-- Boot steps 1 to 8 from flash (Table 16-2): BOOT_FAIL, or ready; at POR the bank that UPDATE_FW wrote is tried first once
more, and BOOT_NEXT reads 0 from then on. -/
def boot (e : Nat) (s : State) : State :=
  let k := { s.ks with romDigest := Config.romDigest, rngOk := true }
  let b := bootFrom (k.flash s.pwr.bootsel) k
  let s1 := { s with ks := if e = 0 then { b with bootFirst := none } else b }
  if b.boot = 1 then startSpareTests (reviseDegraded s1) else s1

/-- The POR sequence from the moment at which the checks pass; it waits for RESET_N. -/
def startPor (s : State) : State :=
  let s1 := fullReset 0 { s with pins := { s.pins with pwrGood := true, porTries := 0, porDead := false } }
  if s1.pins.resetN then boot 0 s1 else s1

/-- POR (R451, R491): PWR_GOOD rises; `railsOk` says that every rail and clock check passes. -/
def execPor (st : Straps) (railsOk : Bool) (s : State) : Host.Outcome State Fault Refusal :=
  let s1 := latchStraps st s
  if railsOk then .next (startPor s1)
  else .next (fullReset 0 { s1 with pins := { s1.pins with pwrGood := true, porTries := 1000, porDead := false } })

/-- POR_CHECK_RETRY (R491): the checks again, 100 µs later; after 100 ms the device waits for PWR_GOOD to fall and rise. -/
def execPorCheckRetry (railsOk : Bool) (s : State) : Host.Outcome State Fault Refusal :=
  if s.pins.porTries = 0 then .next s
  else if railsOk then .next (startPor s)
  else .next { s with pins := { s.pins with porTries := s.pins.porTries - 1, porDead := s.pins.porTries == 1 } }

/-- PIN (R449, R451): RESET_N is released; EXTEST has ended, the straps are latched, the sequence runs. -/
def execPin (st : Straps) (s : State) : Host.Outcome State Fault Refusal :=
  let s1 := latchStraps st { s with pins := { s.pins with resetN := true, extest := false } }
  if s1.live then .next (boot 1 (fullReset 1 s1)) else .next s1

/-- RESET_N_ASSERTION (R485): every land at rest, the device held in reset until the release. -/
def execResetNAssertion (s : State) : Host.Outcome State Fault Refusal :=
  .next (fullReset 1 { s with pins := { s.pins with resetN := false } })

/-- PWR_GOOD_FALL (R492): every store that POR zeroes is lost, every land at rest. -/
def execPwrGoodFall (s : State) : Host.Outcome State Fault Refusal :=
  .next (fullReset 0 { s with pins := { s.pins with pwrGood := false, porTries := 0, porDead := false } })

/-! ### WARM (R452) -/

/-- Verbs of other slots end BUSY, and what they had begun is undone; no verb waits any more (R452 step 2). -/
def endVerbs (p : Nat) (s : State) : State :=
  let s1 := s.slots.foldl (fun s e => match e.2.verb with
    | some (_, tag) => if e.1 = p then s else respond e.1 tag 0x0402 [] s
    | none => s) s
  { s1 with
    waits := []
    images := s1.images.map fun e => (e.1, { e.2 with replacing := false })
    keysets := s1.keysets.map fun k => { k with erasing := none }
    sessions := s1.sessions.map fun e => (e.1, { e.2 with
      closing := if ((tfind s1.slots e.2.slot).map (·.closing)).getD true then e.2.closing else none }) }

/-- Span `k` aborts, and its batch waits for a relaunch (R452 steps 1 and 6). -/
def warmSpan (k : Nat) (s : State) : State :=
  let b := (s.span k).batch
  let s1 := (dropBatch k (abortPiers k false s)).modSpan k fun sp => { sp with
    recovery := match sp.recovery with
      | .resetting _ (some p) r => .testing p r
      | .resetting _ none _ => .none
      | r => r }
  match b with
  | some x => replayBatch k x 0 s1
  | none => s1

/-- HXP streams restart one epoch higher; everything else of the exchange engine is gone (R452 step 5, R322, Table 17-7). -/
def restartStreams (s : State) : State :=
  { s with
    streams := s.streams.map fun x => { x with epoch := x.epoch + 1, nextSeq := 0, rxEpoch := 0, seen := [], highest := 0 }
    sessions := s.sessions.map fun e => (e.1, { e.2 with epoch := e.2.epoch + 1 })
    tx := [], rx := [], rxDone := [], rxTimers := [], sent := [] }

/-- Boot steps 3 to 8 from flash at a WARM reset. -/
def rebootWarm (s : State) : State :=
  let k := { s.ks with handshakes := [] }
  { s with ks := bootFrom (k.flash s.pwr.bootsel) k }

/-- A WARM reset by the WRITE_REG `tag` of slot `p`. -/
def warmReset (p tag : Nat) (s : State) : State :=
  let s1 := (s.spans.map (·.1)).foldl (fun s k => warmSpan k s) (endVerbs p s)
  let s2 := restartStreams (rewriteAll (rebootWarm (blankPiers (s1.resetRegs 2))))
  let s3 : State := { s2 with lie := {}, llmCache := [], cutOff := false, boundHidden := true, pwr := { s2.pwr with lastReset := 2 } }
  let s4 := (buddyAgain (clockCause s3)).bump rstWarmCount 0 0 1
  if s4.ks.boot = 1 then
    let s5 := startSpareTests (reviseDegraded s4)
    respond p tag 0 [] ((s5.spans.map (·.1)).foldl (fun s k => trySchedule k s) s5)
  else s4

/-- WARM_RESET written by slot `p` (R450, R452): BUSY while a device-wide verb runs. -/
def execWarmReset (p tag : Nat) (s : State) : Host.Outcome State Fault Refusal :=
  if 8 ≤ p then .fault (.noSuchUnit p)
  else .next (if s.wideOther p then respond p tag 0x0402 [] s else warmReset p tag s)

/-! ### SPAN and PIER (R449, R450, R453) -/

/-- Whether slot `p` loaded the image of span `k`. -/
def State.ownsSpan (s : State) (p k : Nat) : Bool := (s.imageOf k).any fun im => im.owner == p

/-- The loaded spans that a SPAN_RESET mask names. -/
def State.named (s : State) (mask : Nat) : List Nat :=
  (List.range 16).filter fun k => bit mask k && (tfind s.spans k).isSome

/-- Whether span `k` is being reset: a further reset is absorbed (R450). -/
def Span.resetting (sp : Span) : Bool := match sp.recovery with
  | .resetting _ _ _ => true
  | _ => false

/-- The code that refuses a SPAN_RESET by slot `p`, 0 for none (R449). -/
def spanResetCode (p mask : Nat) (s : State) : Nat := if (s.named mask).all fun k => s.ownsSpan p k then 0 else 0x040A

/-- The named spans reset. -/
def spanResets (mask : Nat) (s : State) : State :=
  (s.named mask).foldl (fun s k => if (s.span k).resetting then s else spanResetCmd k s) s

/-- SPAN_RESET (R453) written by slot `p`. -/
def execSpanReset (p mask : Nat) (s : State) : Host.Outcome State Fault Refusal :=
  if 8 ≤ p then .fault (.noSuchUnit p)
  else .next (if spanResetCode p mask s = 0 then spanResets mask s else s)

/-- The code that refuses a PIER_RESET of pier `q` by slot `p`, 0 for none (R22, R449). -/
def pierResetCode (p q : Nat) (s : State) : Nat :=
  if 192 ≤ q then 0
  else if s.pierState q ≠ 1 then 0x0501
  else match s.spanOf q with
    | some (k, _) => if s.ownsSpan p k then 0 else 0x040A
    | none => 0

/-- Pier `q` reset with its span: instruction memory returns to zero, and Viesk writes the program again (R453). -/
def pierResetCmd (q : Nat) (s : State) : State :=
  match s.spanOf q with
  | none => (s.modPier q blankPier).clearPierRegs q |>.bump rstPierCount 0 0 1
  | some (k, st) =>
    if (s.span k).resetting then s
    else
      let s1 := (resetSpan k 0 none (s.bump rstPierCount 0 0 1)).modPier q blankPier
      match s1.stageProg k st with
      | some g => s1.modPier q fun x => x.loadBank 0 g
      | none => s1

/-- PIER_RESET (R453) of pier `q` written by slot `p`. -/
def execPierReset (p q : Nat) (s : State) : Host.Outcome State Fault Refusal :=
  if 8 ≤ p then .fault (.noSuchUnit p)
  else if pierResetCode p q s = 0x0501 then .next (raise { code := 0x0501, action := 0, unit := 1, pier := q } s)
  else .next (if pierResetCode p q s = 0 ∧ q < 192 then pierResetCmd q s else s)

/-! ### JTAG (R487) -/

/-- IDCODE of the part. -/
def idcode : Nat := 0x1C1768B5

/-- TAP_INSTRUCTION (R487): 1 IDCODE, 2 SAMPLE/PRELOAD, 3 EXTEST while RESET_N is low; every other acts as BYPASS. The data is
what TDI shifts, first bit first. -/
def execTapInstruction (ir : Nat) (data : List Bool) (s : State) : Host.Outcome State Fault Refusal :=
  if !s.pins.pwrGood then .next s
  else
    let shift := fun (cap : List Bool) => (cap ++ data).take data.length
    if ir = 1 then
      .next ({ s with pins := { s.pins with tapIr := 1, extest := false } }.send (.tdo (shift ((List.range 32).map fun i => bit idcode i))))
    else if ir = 2 then
      .next ({ s with pins := { s.pins with tapIr := 2, extest := false, boundary := data } }.send (.tdo (shift s.pins.boundary)))
    else if ir = 3 ∧ s.pins.resetN = false then
      .next ({ s with pins := { s.pins with tapIr := 3, extest := true, boundary := data } }.send (.tdo (shift s.pins.boundary)))
    else .next ({ s with pins := { s.pins with tapIr := 0, extest := false } }.send (.tdo (shift [false])))

/-- TRST_N_ASSERTION (R487): the TAP is reset and nothing else. -/
def execTrstNAssertion (s : State) : Host.Outcome State Fault Refusal :=
  .next { s with pins := { s.pins with tapIr := 1, extest := false } }

end Sys2Proof.Machine
end

