-- ==== Sys2Proof/Machine/RegWrite.lean ====
section
/-! DEFINITION. READ_REG and WRITE_REG: the checks of every pair, command fields, ranges of fields, counters (14_host_ports
R381, R384; 13 R335, R355; 12 R332; 15 R387, R408; 16 R434; 17 R440, R457, R458; 18 R477; 10 R274; 01 R22). -/
namespace Sys2Proof.Machine

/-! ### Reads (R381, R387) -/

/-- A read of TB_NS_LO copies TB_NS_HI and TB_FRAC into the read latches. -/
def latchTime (s : State) : State :=
  { s with clk := { s.clk with latchHi := s.clk.ns / 2 ^ 32 % 2 ^ 32, latchFrac := s.clk.frac / 256 % 65536 } }

/-- Address of TB_NS_LO. -/
def tbNsLoAddr : Nat := 0x30000

/-- The registers at the addresses read in order: their words, and the state. -/
def readRegs : List Nat → State → List Nat × State
  | [], s => ([], s)
  | a :: r, s =>
    let s1 := if a = tbNsLoAddr then latchTime s else s
    let t := readRegs r s1
    (s1.regWord a :: t.1, t.2)

/-- READ_REG. -/
def execReadReg (r : VerbReq) (addrs : List Nat) (s : State) : Host.Outcome State Fault Refusal :=
  onVerb r 8 (4 + 4 * addrs.length) false (.readReg r addrs) s fun s =>
    if addrs.isEmpty ∨ 64 < addrs.length then respond r.slot r.tag (Config.refusal 13) [] s
    else
      let t := readRegs addrs s
      respond r.slot r.tag 0 (t.1.flatMap (leBytes 4)) t.2

/-- TB_NS_LO read by slot `p`: the latches (R387). -/
def execTbNsLo (p : Nat) (s : State) : Host.Outcome State Fault Refusal :=
  if 8 ≤ p then .fault (.noSuchUnit p) else .next (latchTime s)

/-! ### Counters -/

/-- The counters that a COUNTER_CLEAR of a block outside the piers zeroes, by its address. -/
def devCounters : List (Nat × List Fld) :=
  [(0x51024, [keyKeyBytesLo, keyKeyBytesHi, keyPinHits, keyTagRefusals, keyMaterialWaits]),
   (0x90038, [xchMsgsSentLo, xchMsgsSentHi, xchMsgsReceivedLo, xchMsgsReceivedHi, xchRetransmits, xchDuplicates, xchAuthDrops,
     xchTimeouts, xchConflicts, xchPoisonNotices]),
   (0x60024, [llmLlmCorrected, llmLlmUncorrected, llmLlmCacheHits, llmLlmCacheMisses, llmLlmCacheRefetches]),
   (0x50200, [mcCrcRetries, mcEccCorrected, mcLinkFails, mcReadMib]),
   (0x40424, [prtFcsErrors, prtDrops, prtRxPackets, prtTxPackets, prtCnpReceived, prtRefused, prtAcceptedLo, prtAcceptedHi,
     prtCommittedLo, prtCommittedHi, prtStaleWrites]),
   (0x30030, [tbSteps, tbSyncLosses]),
   (0x70058, [ksnAuthFails, ksnReportsSigned]),
   (0x80010, [lieOperations, lieMismatches]),
   (0x10030, [pwrA1Entries, pwrA2Entries, pwrA3Entries, pwrA4Entries, pwrThrottleUs]),
   (0x2001C, [rstWarmCount, rstSpanCount, rstPierCount, rstPortCount]),
   (0xA0034, [rasTakeovers, rasReplayedRequests, rasHandoffsOut, rasHandoffsIn, rasLinkReplays, rasLinkHolds, rasWeightCorrected])]

/-- The counters that a COUNTER_CLEAR of a pier block zeroes, by its offset. -/
def pierCounters : List (Nat × List Fld) :=
  [(0x3020, [bnParityErrors, bnCacheHits, bnCacheMisses, bnCacheRefetches, bnHoldFc]),
   (0x4020, [ckElementsLo, ckElementsHi, ckNarrowAccesses, ckPageWaits, ckPageWaitUs, ckIssueHoldFc]),
   (0x5084, [laNttOps, laMmeActiveFc, laOcHits, laFtqHoldFc, laResidueErrors]),
   (0x6020, [spPasses, spRowsLo, spRowsHi, spPrgBlocksLo, spPrgBlocksHi, spFssEvals, spResidueErrors]),
   (0x104C, [seqIssuedLo, seqIssuedHi, seqWaitFc, seqLateLaunches, seqImemCorrected]),
   (0x2024, [spnFrozenFc, spnHoldsRaised, spnFlitsSentLo, spnFlitsSentHi, spnFlitsReceivedLo, spnFlitsReceivedHi, spnWindowPeak])]

/-- Offset of the sequencer's COUNTER_CLEAR, which a partner cannot write (R274). -/
def seqClearOff : Nat := 0x104C

/-- COUNTER_CLEAR at address `a`; `partner` says that a partner wrote it. Other addresses are no COUNTER_CLEAR. -/
def clearCounters (partner : Bool) (a : Nat) (s : State) : State :=
  match pierOfAddr a with
  | some (p, o) =>
    if s.pierState p ≠ 1 || (partner && o == seqClearOff) then s
    else ((tget [] pierCounters o)).foldl (fun s f => s.setReg f p 0 0) s
  | none => s.clearRegs (tget [] devCounters a)

/-- COUNTER_CLEAR (R355 and the register tables), by slot `p`, or by the tollhouse as slot 8. -/
def execCounterClear (p a : Nat) (s : State) : Host.Outcome State Fault Refusal :=
  if 9 ≤ p then .fault (.noSuchUnit p) else .next (clearCounters (decide (p < 8)) a s)

/-! ### CACHE_STEPS (R335) -/

/-- Whether a registered window, or an exchange buffer, covers an LLM offset from `n` on. -/
def State.llmAbove (s : State) (n : Nat) : Bool := s.llmUsed.any fun u => decide (n < u.1 + u.2)

/-- A write of CACHE_STEPS: the code, and the state. -/
def writeCacheSteps (v : Nat) (s : State) : Nat × State :=
  let n := v % 16
  let new_ := (384 - 32 * n) * 2 ^ 20
  if n = 0 ∨ 10 < n then (0, s)
  else if !s.images.isEmpty ∨ s.llmAbove new_ then (0x0402, s)
  else
    let s1 := s.zeroMem (llmBase + min new_ s.scratch) (gddrBase 0)
    (0, { s1 with llmCache := [] }.setDreg llmCacheSteps n)

/-- CACHE_STEPS written by slot `p`. -/
def execCacheSteps (p v : Nat) (s : State) : Host.Outcome State Fault Refusal :=
  if 8 ≤ p then .fault (.noSuchUnit p) else .next (writeCacheSteps v s).2

/-! ### WAKE_AT (R457) -/

/-- WAKE_AT_HI written: WAKE_AT takes effect; a value of zero, or not above TB_NS, sets no wake. -/
def writeWakeHi (v : Nat) (s : State) : State :=
  let s1 := s.setDreg pwrWakeAtHi v
  let t := s1.dreg pwrWakeAtLo + 2 ^ 32 * s1.dreg pwrWakeAtHi
  { s1 with pwr := { s1.pwr with wakeAt := if t ≤ s1.now then 0 else t } }

/-- WAKE_AT_HI written by slot `p`. -/
def execWakeAtHi (p v : Nat) (s : State) : Host.Outcome State Fault Refusal :=
  if 8 ≤ p then .fault (.noSuchUnit p) else .next (writeWakeHi v s)

/-! ### The checks of WRITE_REG (R381, R449, R22) -/

/-- Offset in slot `p`'s registers of an address; none outside them. -/
def slotReg (a : Nat) : Option (Nat × Nat) := if 0x40200 ≤ a ∧ a < 0x40400 then some ((a - 0x40200) / 64, (a - 0x40200) % 64) else none

/-- Whether window `w` is held by a slot other than `p`. -/
def State.othersWindow (s : State) (p w : Nat) : Bool :=
  let e := s.win w
  (e.st == .opened || e.st == .draining) && e.owner != p

/-- The code that refuses a write of `v` at `a` by slot `p`, with WIN_ID as the pairs before it leave it; 0 for none. -/
def writeCode (p winId a v : Nat) (s : State) : Nat :=
  match pierOfAddr a, slotReg a with
  | some (q, _), _ => if s.pierState q = 1 then 0 else 0x0501
  | none, some (k, o) =>
    if k ≠ p then 0x040A else if o = 0x34 ∧ 2 ≤ v % 4 ∧ s.othersWindow p winId then 0x040A else 0
  | none, none =>
    if 0x41000 ≤ a ∧ a < 0x42000 then (if s.othersWindow p ((a - 0x41000) / 4) then 0x040A else 0)
    else if 0x80100 ≤ a ∧ a < 0x80200 then (if (a - 0x80100) / 32 = p then 0 else 0x040A)
    else if a = 0x20004 then spanResetCode p v s
    else if a = 0x20008 then pierResetCode p (v % 256) s
    else 0

/-- The first refusal of a list of pairs, 0 for none. -/
def firstRefused (p : Nat) : Nat → List (Nat × Nat) → State → Nat
  | _, [], _ => 0
  | w, (a, v) :: r, s =>
    let c := writeCode p w a v s
    if c ≠ 0 then c else firstRefused p (if slotReg a = some (p, 0x1C) then v % 1024 else w) r s

/-! ### Fields (R7, R10, and the ranges of each chapter) -/

/-- Fields with a range, and what it is: a value outside it leaves the field unchanged. -/
def rangeOk (f : Fld) (v : Nat) (s : State) : Bool :=
  if f = pwrDeepestAuto then decide (v ≤ 4)
  else if f = pwrThrottleC then decide (60 ≤ v ∧ v ≤ 105)
  else if f = pwrTokenBudget then decide (v ≤ 202752 ∧ s.tokensReserved ≤ v)
  else if f = prtScanPeriodNs then decide (250 ≤ v ∧ v ≤ 100000)
  else if f = xchMaxPayload then decide (v % 64 = 0 ∧ 512 ≤ v ∧ v ≤ 8960)
  else if f = ksnAttachLossMs then decide (1000 ≤ v)
  else if f = ksnAttachUdpPort then decide (v ≠ s.dreg xchUdpPort)
  else if [mcWeightP1, mcWeightP2, mcWeightP3, mcGddrScrubMbps, llmLlmScrubFc, xchRecvTimeoutMs, xchRtoInitUs, xchRtoMaxUs,
      tbSyncLossMs, tbDisagreeNs, tbStepLimitNs, rasRetireThreshold, rasHandoffTimeoutMs, rasWeightScrubFc].contains f then decide (v ≠ 0)
  else true

/-- One field of a written word: RW fields in range take their bits; W1C fields whose bit is 1 are cleared. -/
def writeField (f : Fld) (i v : Nat) (s : State) : State :=
  let x := v / 2 ^ f.lo % 2 ^ f.w
  if f = prtOverrun then (if x = 1 then s.modSlot i fun sl => { sl with overrun := false } else s)
  else if f.acc = .w1c then (if x = 1 then s.setReg f 0 i 0 else s)
  else if f.acc = .rw ∧ f.home = .stored ∧ rangeOk f x s then s.setReg f 0 i x
  else s

/-- The word written to RTO_INIT_US and RTO_MAX_US: with RTO_INIT_US above RTO_MAX_US both stay (R332). -/
def writeRto (v : Nat) (s : State) : State :=
  let t := writeField xchRtoMaxUs 0 v (writeField xchRtoInitUs 0 v s)
  if t.dreg xchRtoMaxUs < t.dreg xchRtoInitUs then s else t

/-- A write that commands nothing: every field of the word; then what follows from the new values (R390, R436, R356). -/
def writePlain (a v : Nat) (s : State) : State :=
  if a = 0x90004 then writeRto v s
  else
    let t := (fieldsAt a).foldl (fun s e => if e.1.pier then s else writeField e.1 e.2.2 v s) s
    if a = 0x10000 then clockCause t
    else if a = 0x30014 then t.setDreg tbSelNet t.selected
    else if a = 0x30018 then
      let keep := fun (n : Nat) (s : State) => if s.ptpDomain n = t.ptpDomain n then id else fun (t : State) => t.modNet n fun x => { x with master := none }
      keep 1 s (keep 0 s t)
    else if a < 0x40200 ∧ 0x40000 ≤ a ∧ a % 64 = 0 ∧ v % 2 = 0 then linkLost ((a - 0x40000) / 64) t
    else t

/-! ### WRITE_REG (R381) -/

/-- What one pair does: the list goes on, ends with a code, waits for a window to drain, or has been answered. -/
inductive WrOut where
  | go (s : State)
  | stop (code : Nat) (s : State)
  | wait (window : Nat) (s : State)
  | done (s : State)
  deriving DecidableEq, Repr

/-- A WIN_COMMAND of slot `p`. -/
def winCommand (p v : Nat) (s : State) : WrOut :=
  let w := s.reg prtWinId 0 p
  let run := fun (r : Nat × State) => if r.1 = 0 then WrOut.go (setWinResult p r) else .stop r.1 (setWinResult p r)
  if v % 4 = 1 then run (windowOpen p s)
  else if v % 4 = 2 then run (windowClose p s)
  else if v % 4 = 3 then
    let r := windowDrain p s
    if r.1 = 0 then .wait w (setWinResult p r) else .stop r.1 (setWinResult p r)
  else .go s

/-- STANDBY_REQ and WAKE_LINK share a word. -/
def writeStandby (v : Nat) (s : State) : State :=
  let t := writeField pwrWakeLink 0 v s
  let n := v / 2 ^ 16 % 4
  if n = 1 ∨ n = 2 then standbyReq n t else t

/-- One pair of slot `p`'s WRITE_REG `tag`; `remote` is what a remote window answers a SYS_COMMAND. -/
def writeOne (p tag : Nat) (remote : List Byte) (a v : Nat) (s : State) : WrOut :=
  let code := fun (r : Nat × State) => if r.1 = 0 then WrOut.go r.2 else .stop r.1 r.2
  if slotReg a = some (p, 0x34) then winCommand p v s
  else if a = 0x30118 then (if v % 2 = 1 then code (sysCommand p remote s) else .go s)
  else if a = 0x20000 then
    (if v % 2 = 0 then .go s else if s.wideOther p then .stop 0x0402 s else .done (warmReset p tag s))
  else if a = 0x20004 then .go (spanResets v s)
  else if a = 0x20008 then .go (if v % 256 < 192 then pierResetCmd (v % 256) s else s)
  else if a = 0x2000C then .go (portReset v s)
  else if a = 0x10014 then .go (writeStandby v s)
  else if a = 0x10010 then .go (writeWakeHi v s)
  else if a = 0x60000 then code (writeCacheSteps v s)
  else if a = 0x80110 + 32 * p then
    .go (if v % 2 = 1 then lieGoCmd p (if v / 2 % 2 = 1 then lieAbortCmd p s else s) else if v / 2 % 2 = 1 then lieAbortCmd p s else s)
  else if (tfind devCounters a).isSome ∨ (pierOfAddr a).any fun e => (tfind pierCounters e.2).isSome then
    .go (if v % 2 = 1 then clearCounters true a s else s)
  else .go (writePlain a v s)

/-- The pairs applied in order, and the answer. -/
def applyPairs (p tag : Nat) (remote : List Byte) : List (Nat × Nat) → State → State
  | [], s => respond p tag 0 [] s
  | (a, v) :: r, s => match writeOne p tag remote a v s with
    | .go s1 => applyPairs p tag remote r s1
    | .stop code s1 => respond p tag code [] s1
    | .wait w s1 => { s1 with waits := s1.waits ++ [{ slot := p, tag := tag, verb := 9, key := w, raw := remote, pairs := r }] }
    | .done s1 => s1

/-- WRITE_REG: every pair is checked, then all are written in order, or none. -/
def execWriteReg (r : VerbReq) (pairs : List (Nat × Nat)) (remote : List Byte) (s : State) : Host.Outcome State Fault Refusal :=
  let wide := pairs.any fun e => e.1 == 0x60000
  onVerb r (if wide then 0x109 else 9) (4 + 8 * pairs.length) wide (.writeReg r pairs remote) s fun s =>
    if pairs.isEmpty ∨ 64 < pairs.length then respond r.slot r.tag (Config.refusal 13) [] s
    else
      let c := firstRefused r.slot (s.reg prtWinId 0 r.slot) pairs s
      if c = 0x0501 then respond r.slot r.tag c [] (raise { code := c, action := 0, unit := 1 } s)
      else if c ≠ 0 then respond r.slot r.tag c [] s
      else applyPairs r.slot r.tag remote pairs s

/-- WINDOW_DRAIN_DONE (R365): every message, read response and verb transfer of the old epoch has ended; a WRITE_REG that
waited for it goes on. -/
def execWindowDrainDone (w : Nat) (s : State) : Host.Outcome State Fault Refusal :=
  if (s.win w).st ≠ .draining then .next s
  else
    let s1 := windowDrained w s
    match s1.waits.find? fun x => x.verb = 9 ∧ x.key = w with
    | some x => .next (applyPairs x.slot x.tag x.raw x.pairs { s1 with waits := s1.waits.erase x })
    | none => .next s1

end Sys2Proof.Machine
end

