-- ==== Sys2Proof/Machine/Sessions.lean ====
section
/-! DEFINITION. Sessions: SET_POLICY and its records (14_host_ports R382, R383; 16_security R425; 03_weight_store R91). -/
namespace Sys2Proof.Machine

/-- Whether a disclosure block passes R91 for a session, under the owner's key, which must be registered. The model refuses a block
of another length or MAGIC too, and reads FORMAT_VERSION and MAX_K as they stand (DESIGN CHOICE, log entry 66). -/
def disclosureOk (se : Nat) (owner blk : List Byte) : Bool :=
  !owner.isEmpty && decide (blk.length = 3373) && getLe blk 0 4 == 0x48544450 &&
    Config.mldsaVerify owner (blk.take 0x40) (blk.drop 0x40) && slice blk 0x20 32 == sha3 owner && getLe blk 8 8 == se

/-- The two directional keys and the response bytes of one key-agreement record (R425): `n` is the draw of the ephemeral
key; none when the record's length or its X25519 value fails. -/
def agree (se party n : Nat) (rec_ : List Byte) : Option (List Byte × List Byte × List Byte) :=
  let ss := x25519 (Config.draw n) (getLe rec_ 0 32 % 2 ^ 255 % p25519)
  if rec_.length ≠ 1216 ∨ ss = 0 then none
  else
    let kem := Config.kemEncap n (rec_.drop 32)
    let ks := shake256 64 (kem.2 ++ leBytes 32 ss ++ leBytes 8 se ++ leBytes 1 party)
    some (ks.take 32, ks.drop 32, leBytes 32 (x25519 (Config.draw n) 9) ++ fitBytes 1088 kem.1)

/-- The binding that a record gives a party, or the old one where no record came; none when the agreement fails. -/
def bindPeer (se party n : Nat) (rec_ : Option (List Byte)) (addr : List Byte) (port : Nat) (old : Option PeerBind) :
    Option (Option PeerBind × List Byte) :=
  match rec_ with
  | none => some (old, [])
  | some r => (agree se party n r).map fun k =>
      (some { addr := addr, port := port, kaRec := r, keyOut := k.1, keyIn := k.2.1 }, k.2.2)

/-- The policy that SET_POLICY arguments make of an old one: the refusal code, or the policy and the response detail; `n`
and `n` + 1 are the draws of the ephemeral keys. -/
def newPolicy (o : PolicyOp) (n : Nat) (old : Policy) : Except Nat (Policy × List Byte) :=
  let owner := o.owner.getD old.owner
  let blk := o.disclosure.getD old.disclosure
  if o.disclosure.isSome && !disclosureOk o.session owner blk then .error 0x0709
  else match bindPeer o.session 1 n o.cRec o.cAddr o.cPort old.c, bindPeer o.session 2 (n + 1) o.hRec o.hAddr o.hPort old.h with
    | some c, some h =>
      .ok ({ noiseLimit := if o.hasNoise then o.noiseLimit else old.noiseLimit
             noiseAction := if o.hasNoise then o.noiseAction else old.noiseAction
             hasNoise := o.hasNoise || old.hasNoise
             roleH := o.roleH
             owner := owner
             disclosure := blk
             discKind := if o.disclosure.isSome then getLe blk 6 1 else old.discKind
             maxK := if o.disclosure.isSome then getLe blk 7 1 else old.maxK
             exitMask := if o.disclosure.isSome then getLe blk 0x10 8 else old.exitMask
             notAfter := if o.disclosure.isSome then getLe blk 0x18 8 else old.notAfter
             c := c.1, h := h.1 }, c.2 ++ h.2)
    | _, _ => .error 0x0708

/-- The MASK key of a session: its own, or a fresh draw at its first binding (R227). -/
def maskFor (se : Nat) (s : State) : Block × State :=
  match tfind s.sessions se with
  | some x => (x.mask, s)
  | none => let d := s.draw; (BitVec.ofNat 128 d.1, d.2)

/-- The new policy in force; at the first binding the session comes to be, with its MASK key (R227, R383). -/
def bindSession (p se tag : Nat) (pol : Policy) (mask : Block) (s0 : State) : State :=
  let s := { s0 with boundHidden := false }
  match tfind s.sessions se with
  | some _ => s.modSession se fun x => { x with policy := pol }
  | none => { s with sessions := tput s.sessions se { id := se, slot := p, keyTag := tag, policy := pol, mask := mask } }

/-- Whether R383 refuses SET_POLICY of slot `p`. -/
def policyRefused (p : Nat) (o : PolicyOp) (s : State) : Bool :=
  !(s.keysets.any fun k => k.tag == o.keysetTag && k.erasing.isNone) ||
    match tfind s.sessions o.session with
    | some x => x.slot != p || x.keyTag != o.keysetTag
    | none => decide (4096 ≤ s.sessions.length)

/-- SET_POLICY after its refusals: close, or bind at once or after the buddy's acknowledgement. -/
def setPolicy (p tag : Nat) (o : PolicyOp) (s : State) : State :=
  if o.close then
    match tfind s.sessions o.session with
    | none => respond p tag 0 [] s
    | some _ => closeSession o.session tag { s with waits := s.waits ++ [{ slot := p, tag := tag, verb := 6, key := o.session }] }
  else if (o.cRec.isSome || o.hRec.isSome || (tfind s.sessions o.session).isNone) && !s.ks.rngOk then respondFault p tag 0x0707 s
  else match newPolicy o s.free (((tfind s.sessions o.session).map (·.policy)).getD {}) with
    | .error c => respondFault p tag c s
    | .ok (pol, detail) =>
      let s1 := { s with free := s.free + 2 }
      let s2 := if o.cRec.isSome then lieOwn 2 s1 else s1
      let s3 := if o.hRec.isSome then lieOwn 2 s2 else s2
      let m := maskFor o.session s3
      if s3.hasBuddy then
        let w : WaitVerb := { slot := p, tag := tag, verb := 6, key := o.session, bind := some (pol, o.keysetTag, detail, m.1) }
        { m.2 with waits := m.2.waits ++ [w] }.send (.sessionState o.session o.keysetTag pol m.1)
      else respond p tag 0 detail (bindSession p o.session o.keysetTag pol m.1 m.2)

/-- SET_POLICY (R382, R383). -/
def execSetPolicy (r : VerbReq) (o : PolicyOp) (s : State) : Host.Outcome State Fault Refusal :=
  onVerb r 6 (64 + (o.owner.getD []).length + (o.disclosure.getD []).length + (o.cRec.getD []).length + (o.hRec.getD []).length)
    false (.setPolicy r o) s fun s =>
    if policyRefused r.slot o s then respond r.slot r.tag 0x0408 [] s else setPolicy r.slot r.tag o s

/-- MIRRORED_SESSION_STATE_ACK (R383): the buddy has acknowledged the mirrored state, and the policy takes effect. -/
def execMirroredSessionStateAck (se : Nat) (s : State) : Host.Outcome State Fault Refusal :=
  onPeer 0 64 (.mirroredSessionStateAck se) s fun s =>
    match s.waits.find? fun w => w.verb = 6 ∧ w.key = se ∧ w.bind.isSome with
    | none => s
    | some w =>
      let s1 := { s with waits := s.waits.erase w }
      match w.bind with
      | some (pol, tag, detail, mask) => respond w.slot w.tag 0 detail (bindSession w.slot se tag pol mask s1)
      | none => s1

end Sys2Proof.Machine
end

