-- ==== Sys2Proof/Machine/Dispatch.lean ====
section
/-! DEFINITION. exec: one arm for each command. -/
namespace Sys2Proof.Machine

/-- What a command does to everything but the queue. -/
def exec (i : Instr) (s : State) : Host.Outcome State Fault Refusal :=
  match i with
  | .nop iss => Sys2Proof.Machine.execNop iss s
  | .loop iss level count body => Sys2Proof.Machine.execLoop iss level count body s
  | .call iss id arg => Sys2Proof.Machine.execCall iss id arg s
  | .ret iss => Sys2Proof.Machine.execRet iss s
  | .halt iss => Sys2Proof.Machine.execHalt iss s
  | .waitc iss chucks => Sys2Proof.Machine.execWaitc iss chucks s
  | .waitt iss t => Sys2Proof.Machine.execWaitt iss t s
  | .launch iss o => Sys2Proof.Machine.execLaunch iss o s
  | .ptok iss level => Sys2Proof.Machine.execPtok iss level s
  | .aset iss a value => Sys2Proof.Machine.execAset iss a value s
  | .astr iss a level stride => Sys2Proof.Machine.execAstr iss a level stride s
  | .aadd iss d src imm => Sys2Proof.Machine.execAadd iss d src imm s
  | .lparm iss d word => Sys2Proof.Machine.execLparm iss d word s
  | .arm iss entry row arb count => Sys2Proof.Machine.execArm iss entry row arb count s
  | .rel iss entry => Sys2Proof.Machine.execRel iss entry s
  | .chk iss chuck desc arstart => Sys2Proof.Machine.execChk iss chuck desc arstart s
  | .dsend iss o => Sys2Proof.Machine.execDsend iss o s
  | .hld iss h brow arb => Sys2Proof.Machine.execHld iss h brow arb s
  | .hst iss h brow arb => Sys2Proof.Machine.execHst iss h brow arb s
  | .hchk iss o => Sys2Proof.Machine.execHchk iss o s
  | .tld iss o => Sys2Proof.Machine.execTld iss o s
  | .tst iss o => Sys2Proof.Machine.execTst iss o s
  | .cld iss o => Sys2Proof.Machine.execCld iss o s
  | .mvld iss mv brow arb => Sys2Proof.Machine.execMvld iss mv brow arb s
  | .tcfg iss tile fromReg areg shape => Sys2Proof.Machine.execTcfg iss tile fromReg areg shape s
  | .ntt iss o => Sys2Proof.Machine.execNtt iss o s
  | .intt iss o => Sys2Proof.Machine.execIntt iss o s
  | .mmul iss o => Sys2Proof.Machine.execMmul iss o s
  | .mmac iss o => Sys2Proof.Machine.execMmac iss o s
  | .emul iss o => Sys2Proof.Machine.execEmul iss o s
  | .emac iss o => Sys2Proof.Machine.execEmac iss o s
  | .spin iss o => Sys2Proof.Machine.execSpin iss o s
  | .sbld iss br brow arb bcol lane => Sys2Proof.Machine.execSbld iss br brow arb bcol lane s
  | .skld iss seed brow arb => Sys2Proof.Machine.execSkld iss seed brow arb s
  | .fsse iss o => Sys2Proof.Machine.execFsse iss o s
  | .loadImage r o => Sys2Proof.Machine.execLoadImage r o s
  | .loadImageReplaceDrained handle => Sys2Proof.Machine.execLoadImageReplaceDrained handle s
  | .installKeyset r src images readBackOk => Sys2Proof.Machine.execInstallKeyset r src images readBackOk s
  | .eraseKeyset r tag mode => Sys2Proof.Machine.execEraseKeyset r tag mode s
  | .eraseKeysetDone tag => Sys2Proof.Machine.execEraseKeysetDone tag s
  | .attest r nonce sessions => Sys2Proof.Machine.execAttest r nonce sessions s
  | .updateFw r src => Sys2Proof.Machine.execUpdateFw r src s
  | .setPolicy r o => Sys2Proof.Machine.execSetPolicy r o s
  | .sessionCloseDone session => Sys2Proof.Machine.execSessionCloseDone session s
  | .exportWeights r handle places => Sys2Proof.Machine.execExportWeights r handle places s
  | .readReg r addrs => Sys2Proof.Machine.execReadReg r addrs s
  | .writeReg r pairs remote => Sys2Proof.Machine.execWriteReg r pairs remote s
  | .unknownVerb r verb => Sys2Proof.Machine.execUnknownVerb r verb s
  | .windowOpen slot => Sys2Proof.Machine.execWindowOpen slot s
  | .windowClose slot => Sys2Proof.Machine.execWindowClose slot s
  | .windowCloseDrain slot => Sys2Proof.Machine.execWindowCloseDrain slot s
  | .windowDrainDone window => Sys2Proof.Machine.execWindowDrainDone window s
  | .sysCommand slot remote => Sys2Proof.Machine.execSysCommand slot remote s
  | .warmReset slot tag => Sys2Proof.Machine.execWarmReset slot tag s
  | .spanReset slot mask => Sys2Proof.Machine.execSpanReset slot mask s
  | .pierReset slot pier => Sys2Proof.Machine.execPierReset slot pier s
  | .spanResetDone span => Sys2Proof.Machine.execSpanResetDone span s
  | .portReset slot mask => Sys2Proof.Machine.execPortReset slot mask s
  | .standbyReqGddrKept slot => Sys2Proof.Machine.execStandbyReqGddrKept slot s
  | .standbyReqGddrOff slot => Sys2Proof.Machine.execStandbyReqGddrOff slot s
  | .standbyEntry => Sys2Proof.Machine.execStandbyEntry s
  | .counterClear slot addr => Sys2Proof.Machine.execCounterClear slot addr s
  | .imemWrite pier staged data => Sys2Proof.Machine.execImemWrite pier staged data s
  | .swapArm pier value => Sys2Proof.Machine.execSwapArm pier value s
  | .go slot => Sys2Proof.Machine.execGo slot s
  | .abort slot => Sys2Proof.Machine.execAbort slot s
  | .cacheSteps slot value => Sys2Proof.Machine.execCacheSteps slot value s
  | .wakeAtHi slot value => Sys2Proof.Machine.execWakeAtHi slot value s
  | .tbNsLo slot => Sys2Proof.Machine.execTbNsLo slot s
  | .windowScan => Sys2Proof.Machine.execWindowScan s
  | .mirrorAck accepted => Sys2Proof.Machine.execMirrorAck accepted s
  | .mirrorRecords recs => Sys2Proof.Machine.execMirrorRecords recs s
  | .commitAck session seq => Sys2Proof.Machine.execCommitAck session seq s
  | .batchWait span => Sys2Proof.Machine.execBatchWait span s
  | .batchPrepare span => Sys2Proof.Machine.execBatchPrepare span s
  | .launchTimestamp span => Sys2Proof.Machine.execLaunchTimestamp span s
  | .feedLaunch channel slot => Sys2Proof.Machine.execFeedLaunch channel slot s
  | .spanFreeze span => Sys2Proof.Machine.execSpanFreeze span s
  | .spanThaw span => Sys2Proof.Machine.execSpanThaw span s
  | .sbRangeFull pier entry => Sys2Proof.Machine.execSbRangeFull pier entry s
  | .sbDrainDone pier entry => Sys2Proof.Machine.execSbDrainDone pier entry s
  | .chuckDataArrival pier chuck xfer n failed data => Sys2Proof.Machine.execChuckDataArrival pier chuck xfer n failed data s
  | .chuckResume pier chuck => Sys2Proof.Machine.execChuckResume pier chuck s
  | .chuckTransferDone pier chuck => Sys2Proof.Machine.execChuckTransferDone pier chuck s
  | .chuckPageStop pier chuck => Sys2Proof.Machine.execChuckPageStop pier chuck s
  | .chuckRetry pier chuck => Sys2Proof.Machine.execChuckRetry pier chuck s
  | .chuckRemoteTimeout pier chuck => Sys2Proof.Machine.execChuckRemoteTimeout pier chuck s
  | .streamRemoteError pier chuck => Sys2Proof.Machine.execStreamRemoteError pier chuck s
  | .waittTarget pier => Sys2Proof.Machine.execWaittTarget pier s
  | .timedActionFire pier action => Sys2Proof.Machine.execTimedActionFire pier action s
  | .tokenWindowEnd span => Sys2Proof.Machine.execTokenWindowEnd span s
  | .deckRowArrival pier row => Sys2Proof.Machine.execDeckRowArrival pier row s
  | .flitReplay link channel replays spans => Sys2Proof.Machine.execFlitReplay link channel replays spans s
  | .flitDelivered link channel => Sys2Proof.Machine.execFlitDelivered link channel s
  | .ftqOverflow pier => Sys2Proof.Machine.execFtqOverflow pier s
  | .sendqOverflow pier => Sys2Proof.Machine.execSendqOverflow pier s
  | .pierSelfTestDone pier pass => Sys2Proof.Machine.execPierSelfTestDone pier pass s
  | .takeoverSliceWritten pier ok => Sys2Proof.Machine.execTakeoverSliceWritten pier ok s
  | .takeoverReverified pier => Sys2Proof.Machine.execTakeoverReverified pier s
  | .takeoverProgramWritten pier => Sys2Proof.Machine.execTakeoverProgramWritten pier s
  | .storeRepairDone repair copy => Sys2Proof.Machine.execStoreRepairDone repair copy s
  | .handoff o => Sys2Proof.Machine.execHandoff o s
  | .buddyLossTimeout => Sys2Proof.Machine.execBuddyLossTimeout s
  | .buddyTakeoverTimeout => Sys2Proof.Machine.execBuddyTakeoverTimeout s
  | .llmScrub errors => Sys2Proof.Machine.execLlmScrub errors s
  | .gddrScrub device corrected badObject => Sys2Proof.Machine.execGddrScrub device corrected badObject s
  | .gddrRefresh device => Sys2Proof.Machine.execGddrRefresh device s
  | .weightScrub pier errors => Sys2Proof.Machine.execWeightScrub pier errors s
  | .imemScrub pier bank errors => Sys2Proof.Machine.execImemScrub pier bank errors s
  | .gddrTrainingDone device ok => Sys2Proof.Machine.execGddrTrainingDone device ok s
  | .channelRetrainDone device channel ok => Sys2Proof.Machine.execChannelRetrainDone device channel ok s
  | .por straps railsOk => Sys2Proof.Machine.execPor straps railsOk s
  | .porCheckRetry railsOk => Sys2Proof.Machine.execPorCheckRetry railsOk s
  | .pin straps => Sys2Proof.Machine.execPin straps s
  | .pwrGoodFall => Sys2Proof.Machine.execPwrGoodFall s
  | .fwSvnBurn => Sys2Proof.Machine.execFwSvnBurn s
  | .rngFail => Sys2Proof.Machine.execRngFail s
  | .prochotOnset => Sys2Proof.Machine.execProchotOnset s
  | .prochotEnd => Sys2Proof.Machine.execProchotEnd s
  | .tempUpdate temp => Sys2Proof.Machine.execTempUpdate temp s
  | .throttleEnd => Sys2Proof.Machine.execThrottleEnd s
  | .supplyFault => Sys2Proof.Machine.execSupplyFault s
  | .fcActiveChange => Sys2Proof.Machine.execFcActiveChange s
  | .pstateDecision => Sys2Proof.Machine.execPstateDecision s
  | .pstateEntered => Sys2Proof.Machine.execPstateEntered s
  | .resumeStart => Sys2Proof.Machine.execResumeStart s
  | .wake source => Sys2Proof.Machine.execWake source s
  | .resumeDone => Sys2Proof.Machine.execResumeDone s
  | .sync o => Sys2Proof.Machine.execSync o s
  | .delayResp net seqId rx corr => Sys2Proof.Machine.execDelayResp net seqId rx corr s
  | .syncLoss net => Sys2Proof.Machine.execSyncLoss net s
  | .hello o => Sys2Proof.Machine.execHello o s
  | .reply m => Sys2Proof.Machine.execReply m s
  | .finish o => Sys2Proof.Machine.execFinish o s
  | .accept m => Sys2Proof.Machine.execAccept m s
  | .detach slot ctr ok => Sys2Proof.Machine.execDetach slot ctr ok s
  | .attachmentLoss slot => Sys2Proof.Machine.execAttachmentLoss slot s
  | .peerDown device => Sys2Proof.Machine.execPeerDown device s
  | .rdmaWrite o => Sys2Proof.Machine.execRdmaWrite o s
  | .rdmaRead o => Sys2Proof.Machine.execRdmaRead o s
  | .cnp port qpn => Sys2Proof.Machine.execCnp port qpn s
  | .roceRetransmit qpn psn => Sys2Proof.Machine.execRoceRetransmit qpn psn s
  | .arp o => Sys2Proof.Machine.execArp o s
  | .neighborDiscovery o => Sys2Proof.Machine.execNeighborDiscovery o s
  | .echoRequest o => Sys2Proof.Machine.execEchoRequest o s
  | .unsupportedFrame port badFcs => Sys2Proof.Machine.execUnsupportedFrame port badFcs s
  | .linkUp port => Sys2Proof.Machine.execLinkUp port s
  | .linkDown port => Sys2Proof.Machine.execLinkDown port s
  | .decryptShare m => Sys2Proof.Machine.execDecryptShare m s
  | .maskedInput m => Sys2Proof.Machine.execMaskedInput m s
  | .openMsg m => Sys2Proof.Machine.execOpenMsg m s
  | .returnCt m => Sys2Proof.Machine.execReturnCt m s
  | .poisonNotice m => Sys2Proof.Machine.execPoisonNotice m s
  | .ack m => Sys2Proof.Machine.execAck m s
  | .hxpRetransmit frag => Sys2Proof.Machine.execHxpRetransmit frag s
  | .hxpTimeout session request step => Sys2Proof.Machine.execHxpTimeout session request step s
  | .arrivedPlaced channel slot beat => Sys2Proof.Machine.execArrivedPlaced channel slot beat s
  | .releasedPlaced channel slot beat => Sys2Proof.Machine.execReleasedPlaced channel slot beat s
  | .lieOpStart => Sys2Proof.Machine.execLieOpStart s
  | .lieOpDone mismatch => Sys2Proof.Machine.execLieOpDone mismatch s
  | .resetNAssertion => Sys2Proof.Machine.execResetNAssertion s
  | .tapInstruction ir data => Sys2Proof.Machine.execTapInstruction ir data s
  | .trstNAssertion => Sys2Proof.Machine.execTrstNAssertion s
  | .followUp net seqId origin corr => Sys2Proof.Machine.execFollowUp net seqId origin corr s
  | .announce net domain priority1 clockClass accuracy variance priority2 identity => Sys2Proof.Machine.execAnnounce net domain priority1 clockClass accuracy variance priority2 identity s
  | .delayReq net => Sys2Proof.Machine.execDelayReq net s
  | .pfcFrame port pause => Sys2Proof.Machine.execPfcFrame port pause s
  | .hxpInvalidType m => Sys2Proof.Machine.execHxpInvalidType m s
  | .mirroredSessionStateAck session => Sys2Proof.Machine.execMirroredSessionStateAck session s
  | .buddyStripeFetch device store index stripe => Sys2Proof.Machine.execBuddyStripeFetch device store index stripe s
  | .peerConnectionReopen device net => Sys2Proof.Machine.execPeerConnectionReopen device net s

end Sys2Proof.Machine
end

