-- ==== Sys2Proof/Machine/Tick.lean ====
section
/-! DEFINITION. One tick of the time base, which is the step on an empty queue (log entry 2): clocks, spans, chucks, and the
commands that have become due (15 R386, R393; 17 R435, R436, R441 to R444; and the rules of each command). -/
namespace Sys2Proof.Machine

/-! ### Clocks (R386, R435, R436, R441) -/

/-- The frequency of FC_ACTIVE in 250 MHz. -/
def fcRate (v : Nat) : Nat := if v = 0 then 4 else if v = 1 then 3 else if v = 2 then 2 else 1

/-- Whether the fine count runs: in A0 and A1; a trip leaves the IO die on the slow clock. -/
def State.fineClock (s : State) : Bool := (s.pwr.state == .a0 || s.pwr.state == .a1) && !s.pwr.trip

/-- Whether the IO die runs. -/
def State.ioRuns (s : State) : Bool := s.pwr.state != .a3 && s.pwr.state != .a4

/-- Nominal ns of a tick: 1 by the time-base clock, 40 by AOCLK. -/
def State.tickNs (s : State) : Nat := if s.fineClock then 1 else 40

/-- The time base advanced: INCR for each ns of the tick. -/
def tickTime (s : State) : State :=
  let f := s.clk.frac + s.tickNs * s.dreg tbIncr
  { s with clk := { s.clk with ns := (s.clk.ns + f / 2 ^ 24) % 2 ^ 64, frac := f % 2 ^ 24 } }

/-- THROTTLE_US: the time during which FC_ACTIVE was below FC_SETTING. -/
def tickThrottle (s : State) : State :=
  if s.pwr.fcActive ≤ s.dreg pwrFcSetting then s
  else
    let n := s.pwr.throttleNs + s.tickNs
    { s with pwr := { s.pwr with throttleNs := n % 1000 } }.bump pwrThrottleUs 0 0 (n / 1000)

/-! ### One fc -/

/-- Whether the deck has slot 3 of a pier in span-relative fc `f`: a row that DSEND reads, or one that arrived (R147, R293). -/
def Pier.deckSlot (x : Pier) (f : Nat) : Bool :=
  x.acts.any fun a => a.slot == 3 && match a.op with
    | .dsendRead _ _ _ => a.due == f
    | .benchStore _ _ => a.due == f + 5
    | _ => false

/-- Span `k` in the next fc: the receives of a batch that has just launched, the fc itself, slot 3, the end of the batch. -/
def spanFc (k : Nat) (s : State) : State :=
  if !(s.span k).running then s
  else
    let s0 := if (s.span k).relFc = 0 then launchRecvs k s else s
    let s1 := advanceSpan k s0
    let f := (s1.span k).relFc
    let moved := f != (s0.span k).relFc
    let s3 := (s1.span k).piers.foldl (fun s p => chuckFc p k (!(moved && (s0.pier p).deckSlot f)) s) s1
    let s2 := if (s3.span k).running then findErrors k s3 else s3
    if (s2.span k).running && (s2.span k).stop.isNone && (s2.span k).piers.all fun p => (s2.pier p).quiet then endBatch k s2 else s2

/-- Where a record stands among those of one fc: by pier index, then those with no pier by code (R461). -/
def recKey (r : List Byte) : Nat :=
  let p := getLe r 0x12 1
  if p = 0xFF then 0x10000 + getLe r 4 2 else p

/-- The records written from index `n` on, in the order of R461; each keeps its content under the index it takes. -/
def sortRecords (n : Nat) (s : State) : State :=
  let m := (s.dreg rasFaultWritten + 2 ^ 32 - n) % 2 ^ 32
  if m < 2 ∨ 256 < m then s
  else
    let at_ := fun (i : Nat) => llmBase + 64 * ((n + i) % 256)
    let rs := ((List.range m).map fun i => s.rd (at_ i) 64).foldl (fun l r => insertBy recKey r l) []
    rs.zipIdx.foldl (fun s e =>
      let body := leBytes 4 (n + e.2) ++ (e.1.drop 4).take 0x38
      s.wr (at_ e.2) (body ++ leBytes 4 (crc32 body))) s

/-- The next fc of the device. -/
def fcStep (s : State) : State :=
  let s1 := linkFc { s with clk := { s.clk with fc := s.clk.fc + 1 } }
  sortRecords (s.dreg rasFaultWritten) (fetchAll ((s1.spans.map (·.1)).foldl (fun s k => spanFc k s) s1))

/-- The fast clock's share of a tick: FC_ACTIVE against 1.0 GHz; 4 fc of the slow clock in 40 ns (R441, R439). -/
def tickFc (s : State) : State :=
  if s.fineClock then
    let n := s.clk.phase + fcRate s.pwr.fcActive
    if 4 ≤ n then fcStep { s with clk := { s.clk with phase := n - 4 } } else { s with clk := { s.clk with phase := n } }
  else if s.ioRuns then { s with clk := { s.clk with fc := s.clk.fc + 4 } }
  else s

/-! ### Commands that are due -/

/-- The command, where a condition holds. -/
def due (b : Bool) (c : Instr) : List Instr := if b then [c] else []

/-- Those of span `k` (R114, R247, R448, R453). -/
def spanDue (s : State) (k : Nat) (sp : Span) : List Instr :=
  due (sp.batch.any fun b => b.prepared && !sp.running && decide (b.launchTs ≤ s.now) && sp.recovery == .none && s.mayLaunch && !s.inputsInUse k)
      (.launchTimestamp k) ++
    due (sp.batch.isNone && sp.recovery == .none && s.mayLaunch && (sp.fixed.head?).any fun b => decide (b.prepTs ≤ s.now)) (.batchPrepare k) ++
    due (sp.open && s.mayFix && !sp.waiting.isEmpty && decide ((sp.waiting.headD (0, 0, 0)).2.2 + s.waitNs k ≤ s.now + Config.prepNs)) (.batchWait k) ++
    due (match sp.recovery with
      | .resetting fc _ _ => decide (fc ≤ s.clk.fc)
      | _ => false) (.spanResetDone k)

/-- Those of chuck `j` of pier `p` (R154, R181, R184, R185, R265). -/
def chuckDue (s : State) (p j : Nat) (c : Chuck) : List Instr :=
  let timed := c.xfers.filterMap fun x => match x.phase with
    | .timed t => if t ≤ s.now then some (Instr.timedActionFire p x.id) else none
    | _ => none
  let page := fun (f : Nat → Nat → Bool) => c.xfers.any fun x => match x.phase with
    | .pageWait a b => f a b
    | _ => false
  let turns := (ripeOf s.clk.fc c.xfers).map fun x =>
    if x.d.dir then Instr.sbDrainDone p x.d.sbEntry else Instr.sbRangeFull p x.d.sbEntry
  timed ++ turns ++ due ((c.xfers.head?).any fun x => x.complete s.clk.fc) (.chuckTransferDone p j) ++
    due (c.xfers.any fun x => x.phase == .entryWait) (.chuckResume p j) ++
    due (page fun a _ => decide (a + 1000 * s.reg ckRemoteTimeoutUs p 0 ≤ s.now)) (.chuckRemoteTimeout p j) ++
    due (page fun _ b => decide (b ≤ s.now)) (.chuckRetry p j)

/-- Those of pier `p` of a running span (R212, R264, R265, R293, R296). -/
def pierDue (s : State) (sp : Span) (p : Nat) : List Instr :=
  let x := s.pier p
  let holds := fun (src : HoldSrc) => sp.holds.filter fun h => h.pier == p && h.src == src
  due ((holds .waitt).any fun h => h.waits.all (· ≤ s.now)) (.waittTarget p) ++
    (x.timed.filter fun a => a.target ≤ s.now).map (fun a => .timedActionFire p a.id) ++
    (x.inbound.filter fun r => r.arrives ≤ sp.relFc).map (fun r => .deckRowArrival p r.id) ++
    (x.chucks.flatMap fun c => chuckDue s p c.1 c.2) ++
    due (sp.frozen && !(holds .ftq).isEmpty && (decide (x.ftq.length < 8) || x.ftq.all fun e => !e.taken)) (.ftqOverflow p) ++
    due (!(holds .sendq).isEmpty && decide (x.sendq.length < 16)) (.sendqOverflow p)

/-- Whether a multiple of `n` lies above `a` and not above `b`. -/
def crossed (n a b : Nat) : Bool := decide (a / max n 1 < b / max n 1)

/-- Those of the scheduler, the ports and the exchange engine; `t` was TB_NS before the tick (R370, R390, R404, R321, R423, R476). -/
def hostDue (s : State) (t : Nat) : List Instr :=
  let feeds := if crossed 1000 t s.now then
      ((s.sys.map (·.channels)).getD []).filterMap fun c => (c.feeds.head?).map fun f => Instr.feedLaunch c.id f.1
    else []
  let valid := fun (n : Nat) => s.dreg (if n = 0 then tbValidA else tbValidB) == 1 &&
    ((s.servo.net n).lastSync).any fun x => decide (x + 1000000 * s.dreg tbSyncLossMs ≤ s.now)
  due (crossed (s.dreg prtScanPeriodNs) t s.now && s.dreg tbSyncState != 0 && s.ks.boot == 1) .windowScan ++ feeds ++
    (s.tx.filter fun f => f.due ≤ s.now).map (fun f => .hxpRetransmit f.id) ++
    (s.rxTimers.filter fun r => r.due ≤ s.now).map (fun r => .hxpTimeout r.session r.request r.step) ++
    due (valid 0) (.syncLoss 0) ++ due (valid 1) (.syncLoss 1) ++
    (s.slots.filter fun e => !e.2.closing && decide (e.2.lastMgmt + 1000000 * s.dreg ksnAttachLossMs ≤ s.now)).map (fun e => .attachmentLoss e.1) ++
    (s.windows.filter fun e => e.2.st == .draining).map (fun e => .windowDrainDone e.1) ++
    due (s.hasBuddy && !s.cutOff && s.peerGone (s.dreg prtBuddyId) 1) .buddyLossTimeout ++
    due (s.mirrored.any fun m => m.work && m.opening.isNone && s.peerGone m.device 2) .buddyTakeoverTimeout

/-- Those that end waits: erasures, closes, replacements (R105, R383, R284). -/
def waitDue (s : State) : List Instr :=
  (s.keysets.filter fun k => k.erasing.isSome && s.setQuiet k.tag).map (fun k => .eraseKeysetDone k.tag) ++
    (s.sessions.filter fun e => e.2.closing.isSome && !s.hasLive e.1).map (fun e => .sessionCloseDone e.1) ++
    (s.images.filter fun e => e.2.replacing && s.requests.all fun r => !(r.live && r.handle == e.1)).map fun e => .loadImageReplaceDrained e.1

/-- Those of keystone and the LIE (R412, R429, R431). -/
def lieDue (s : State) : List Instr :=
  due (s.ks.burnDue && s.ks.boot == 1) .fwSvnBurn ++
    match s.lie.running with
    | some r => due (decide (r.2.2.2.2 ≤ s.clk.fc)) (.lieOpDone false)
    | none => due (!s.lie.queue.isEmpty && decide (s.lie.zeroUntil ≤ s.clk.fc)) .lieOpStart

/-- Whether the state in force, or being entered, no longer meets Table 17-3 (R445). -/
def State.broken (s : State) : Bool := match s.pwr.move with
  | .entering p _ => p != .a4 && !s.mayEnter p
  | .resuming _ => false
  | _ => s.pwr.state != .a0 && s.pwr.state != .a4 && !s.mayEnter s.pwr.state

/-- Whether a decision would change anything: a deeper state qualifies, or E has moved (R444). -/
def State.undecided (s : State) : Bool := s.dozes && match s.pwr.move with
  | .steady => decide (s.pwr.state.depth < s.choice.depth) || (s.pwr.state != .a0 && s.resumeAt != .steady)
  | .scheduled _ => decide (s.pwr.state.depth < s.choice.depth) || s.resumeAt != s.pwr.move
  | _ => false

/-- Those of the always-on island (R438, R441, R444, R445, R447). -/
def powerDue (s : State) : List Instr :=
  due (s.pwr.throttle && (s.pwr.coolAt).any fun t => decide (t + 10000000 ≤ s.now)) .throttleEnd ++
    due (s.broken && !s.pwr.wakePending) (.wake 9) ++
    due (s.pwr.standbyReq != 0 && !s.working && s.awake) .standbyEntry ++
    due (!s.broken && s.undecided) .pstateDecision ++
    match s.pwr.move with
    | .entering _ d => due (decide (d ≤ s.now)) .pstateEntered
    | .scheduled d => due (decide (d ≤ s.now)) .resumeStart
    | .resuming d => due (decide (d ≤ s.now)) .resumeDone
    | .steady => []

/-- Everything due after a tick. -/
def State.dueNow (s : State) (t : Nat) : List Instr :=
  (if s.ioRuns then
    (s.spans.flatMap fun e => spanDue s e.1 e.2 ++ if e.2.running then e.2.piers.flatMap (pierDue s e.2) else []) ++
      hostDue s t ++ waitDue s ++ lieDue s
  else []) ++ powerDue s

/-- The scrubs' cursors: one LLM word in LLM_SCRUB_FC fc, one word of every slice in WEIGHT_SCRUB_FC fc (R342, R460). -/
def tickScrub (f : Nat) (s : State) : State :=
  let hit := fun (r : Fld) => s.ioRuns && crossed (s.dreg r) f s.clk.fc
  { s with scrub := { s.scrub with
      llm := if hit llmLlmScrubFc then (s.scrub.llm + 1) % 6291456 else s.scrub.llm
      weight := if hit rasWeightScrubFc && s.fineClock then (s.scrub.weight + 1) % 4194304 else s.scrub.weight } }

/-- One tick; held in reset or without power, nothing runs. -/
def tick (s : State) : State :=
  if !s.live then s
  else
    let s0 := tickScrub s.clk.fc (tickFc (tickThrottle (tickTime s)))
    let s1 := if s0.ioRuns then exportTick s0 else s0
    { s1 with pending := s1.pending ++ s1.dueNow s.clk.ns }

end Sys2Proof.Machine
end

