-- ==== Sys2Proof/WellFormed.lean ====
section
/-! DEFINITION. Well-formed commands: every operand lies in the field or the range that the spec gives it. The meanings do
not ask for it: they are total, and R251 and Table 11-7 leave it to the verifier to refuse what lies outside. -/
namespace Sys2Proof

/-- The field names a register A0 to A15 (R251). -/
def Sel.wf (x : Sel) : Bool := decide (x.r < 16)

/-- INDEX has 8 bits, and the ARM field is a select field (R253). -/
def Mem9.wf (x : Mem9) : Bool := decide (x.idx < 256) && x.arm.wf

/-- ROWS and COLS have 7 bits and MV two (R252). -/
def Shape.wf (x : Shape) : Bool := decide (x.rows < 128) && decide (x.cols < 128) && decide (x.mv < 4)

/-- The issuer is one of the 192 piers and NEXT is 1 to 65,536 (R16, R247). -/
def Iss.wf (x : Iss) : Bool := decide (x.pier < 192) && decide (1 ≤ x.next) && decide (x.next ≤ 65536)

/-- OFFSET has 32 bits (Table 10-2). -/
def TimeOp.wf (x : TimeOp) : Bool := decide (x.offset < 2 ^ 32) && x.aroff.wf

/-- KIND 0 or 1, CHUCK 0 to 2, DESC and SEND_SLOT of 8 bits (Table 10-2). -/
def LaunchOp.wf (x : LaunchOp) : Bool :=
  x.t.wf && decide (x.kind < 2) && decide (x.chuck < 3) && decide (x.desc < 256) && x.arstart.wf && decide (x.sendSlot < 256)

/-- The fields of DSEND (Table 10-3): 1 to 64 rows of 1 to 64 lanes. -/
def DsendOp.wf (x : DsendOp) : Bool :=
  decide (x.brow < 16384) && x.arb.wf && decide (1 ≤ x.n) && decide (x.n ≤ 64) && decide (1 ≤ x.lanes) &&
    decide (x.lanes ≤ 64) && decide (x.dstage < 256) && decide (x.drow < 16384) && x.ard.wf

/-- The fields of HCHK (Table 10-3): operand registers 0 to 7 or 15, a class of Table 10-6. -/
def HchkOp.wf (x : HchkOp) : Bool :=
  decide (x.cls < 13) && decide (x.ha < 8 ∨ x.ha = 15) && decide (x.hb < 8 ∨ x.hb = 15) && decide (x.hk < 8 ∨ x.hk = 15) &&
    decide (x.hd < 8) && decide (x.level < 128) && decide (x.g < 65536) && decide (x.spt < 65536) && x.mem.wf

/-- The fields of TLD and TST (Table 10-4). -/
def LineOp.wf (x : LineOp) : Bool :=
  decide (x.tile < 16) && decide (x.brow < 16384) && x.arb.wf && decide (-16384 ≤ x.step) && decide (x.step < 16384) &&
    decide (1 ≤ x.n) && decide (x.n ≤ 64) && decide (x.lane < 64) && decide (x.tidx < 64) && x.mem.wf && x.shape.wf

/-- The fields of CLD (Table 10-4): tables 0 to 6. -/
def CldOp.wf (x : CldOp) : Bool :=
  decide (x.tile < 16) && decide (x.trow < 64) && decide (1 ≤ x.n) && decide (x.n ≤ 64) && decide (x.table < 7) &&
    decide (x.x < 128) && x.arx.wf && decide (x.crow < 64) && x.mem.wf && x.shape.wf

/-- The fields of NTT and INTT (Table 10-4). -/
def NttOp.wf (x : NttOp) : Bool :=
  decide (15 ≤ x.logN) && decide (x.logN ≤ 17) && decide (x.half < 2) && decide (x.sub < 2) && decide (x.prime < 128) &&
    x.arp.wf && x.mem.wf

/-- The fields of the MME operations (Table 10-4). -/
def MmeOp.wf (x : MmeOp) : Bool :=
  decide (x.a < 16) && decide (x.b < 16) && decide (x.c < 16) && x.mem.wf && x.shA.wf && x.shB.wf && x.shC.wf

/-- The fields of SPIN (Table 10-5): X a tile or the queue head, Y and O1 a tile or none, KEYSEL 0 to 2. -/
def SpinOp.wf (x : SpinOp) : Bool :=
  decide (x.entry < 64) && decide (1 ≤ x.stages) && decide (x.stages ≤ 8) && decide (x.x ≤ 16) &&
    decide (x.y < 16 ∨ x.y = 31) && decide (x.o1 < 16 ∨ x.o1 = 31) && decide (x.o0kind < 4) && decide (x.o0tile < 16) &&
    decide (x.brow < 16384) && x.arb.wf && decide (x.dstage < 256) && x.mem.wf && decide (x.keysel < 3) &&
    decide (x.stream < 65536) && x.arbase.wf && x.arctr.wf

/-- The fields of FSSE (Table 10-5). -/
def FsseOp.wf (x : FsseOp) : Bool :=
  decide (x.mentry < 16) && decide (1 ≤ x.g) && decide (x.g ≤ 64) && decide (x.itemRow < 16384) &&
    decide (x.xhatRow < 16384) && decide (x.outRow < 16384) && x.arb.wf && x.mem.wf

/-- One of the 8 partner slots, and a 64-bit TAG and counter (R359, R379, R422). -/
def VerbReq.wf (x : VerbReq) : Bool := decide (x.slot < 8) && decide (x.tag < 2 ^ 64) && decide (x.ctr < 2 ^ 64)

/-- A window id has 10 bits (R361). -/
def WinRange.wf (x : WinRange) : Bool := decide (x.window < 1024) && decide (x.offset < 2 ^ 64) && decide (x.length < 2 ^ 64)

/-- One of the 8 ports (R355). -/
def portWf (k : Nat) : Bool := decide (k < 8)

/-- One of the 16 GDDR devices (R345). -/
def gddrWf (k : Nat) : Bool := decide (k < 16)

/-- One of the 16 spans of R279. -/
def spanWf (k : Nat) : Bool := decide (k < 16)

/-- One of the 192 piers and a chuck K0 to K2 (R163). -/
def chuckWf (p k : Nat) : Bool := decide (p < 192) && decide (k < 3)

/-- One of the 192 piers and a scoreboard entry 0 to 15 (R150). -/
def entryWf (p e : Nat) : Bool := decide (p < 192) && decide (e < 16)

/-- A 32-bit register value from a slot (R8). -/
def slotVal (p v : Nat) : Bool := decide (p < 9) && decide (v < 2 ^ 32)

/-- An exchange channel of a system image and a slot of it (R399). -/
def channelWf (c k : Nat) : Bool := decide (c < 4096) && decide (k < 65536)

/-- A die-to-die link 0 to 2 and its channel (R32). -/
def linkWf (l c : Nat) : Bool := decide (l < 3) && decide (c < 65536)

/-- Every operand of the command lies in its field or range. Partner slot 8 in a register write stands for the tollhouse. -/
def Instr.wf : Instr → Bool
  | .nop i | .ret i | .halt i => i.wf
  | .loop i l c b => i.wf && decide (l < 4) && decide (c ≤ 16777216) && decide (1 ≤ b) && decide (b < 4096)
  | .call i id arg => i.wf && decide (id < 1024) && decide (arg < 65536)
  | .waitc i m => i.wf && decide (m < 8)
  | .waitt i t => i.wf && t.wf
  | .launch i o => i.wf && o.wf
  | .ptok i l => i.wf && decide (l < 4)
  | .aset i a v => i.wf && decide (a < 16) && decide (v < 2 ^ 32)
  | .astr i a l v => i.wf && decide (a < 16) && decide (l < 4) && decide (v < 2 ^ 32)
  | .aadd i d a v => i.wf && decide (d < 16) && decide (a < 16) && decide (v < 2 ^ 32)
  | .lparm i d w => i.wf && decide (d < 16) && decide (w < 32)
  | .arm i e row arb n => i.wf && decide (e < 16) && decide (row < 16384) && arb.wf && decide (1 ≤ n) && decide (n ≤ 16384)
  | .rel i e => i.wf && decide (e < 16)
  | .chk i k d ar => i.wf && decide (k < 3) && decide (d < 256) && ar.wf
  | .dsend i o => i.wf && o.wf
  | .hld i h row arb | .hst i h row arb => i.wf && decide (h < 8) && decide (row < 16384) && arb.wf
  | .hchk i o => i.wf && o.wf
  | .tld i o | .tst i o => i.wf && o.wf
  | .cld i o => i.wf && o.wf
  | .mvld i m row arb => i.wf && decide (m < 4) && decide (row < 16384) && arb.wf
  | .tcfg i t _ a sh => i.wf && decide (t < 16) && decide (a < 16) && sh.wf
  | .ntt i o | .intt i o => i.wf && o.wf
  | .mmul i o | .mmac i o | .emul i o | .emac i o => i.wf && o.wf
  | .spin i o => i.wf && o.wf
  | .sbld i b row arb _ l => i.wf && decide (b < 4) && decide (row < 16384) && arb.wf && decide (l < 64)
  | .skld i sd row arb => i.wf && decide (sd < 2) && decide (row < 16384) && arb.wf
  | .fsse i o => i.wf && o.wf
  | .loadImage r o => r.wf && o.src.wf && o.winMap.all fun e => decide (e.1 < 65536) && decide (e.2 < 1024)
  | .loadImageReplaceDrained h => decide (h < 2 ^ 64)
  | .installKeyset r src _ _ => r.wf && src.wf
  | .eraseKeyset r tag mode => r.wf && decide (tag < 2 ^ 64) && decide (mode < 2)
  | .eraseKeysetDone tag => decide (tag < 2 ^ 64)
  | .attest r nonce ss => r.wf && decide (nonce.length = 32) && decide (ss.length ≤ 64)
  | .updateFw r src => r.wf && src.wf
  | .setPolicy r _ => r.wf
  | .sessionCloseDone n => decide (n < 2 ^ 64)
  | .exportWeights r _ places => r.wf && places.all fun e => decide (e.1 < 1024)
  | .readReg r as => r.wf && as.all fun a => decide (a < 2 ^ 32)
  | .writeReg r ps _ => r.wf && ps.all fun e => decide (e.1 < 2 ^ 32) && decide (e.2 < 2 ^ 32)
  | .unknownVerb r v => r.wf && decide (v < 65536)
  | .windowOpen p | .windowClose p | .windowCloseDrain p | .sysCommand p _ | .standbyReqGddrKept p | .standbyReqGddrOff p
  | .go p | .abort p | .tbNsLo p => slotVal p 0
  | .windowDrainDone w => decide (w < 1024)
  | .warmReset p tag => slotVal p 0 && decide (tag < 2 ^ 64)
  | .spanReset p v | .pierReset p v | .portReset p v | .cacheSteps p v | .wakeAtHi p v | .counterClear p v => slotVal p v
  | .spanResetDone k | .batchWait k | .batchPrepare k | .launchTimestamp k | .spanFreeze k | .spanThaw k
  | .tokenWindowEnd k => spanWf k
  | .standbyEntry | .windowScan | .buddyLossTimeout | .buddyTakeoverTimeout | .porCheckRetry _ | .pwrGoodFall | .fwSvnBurn
  | .rngFail | .prochotOnset | .prochotEnd | .throttleEnd | .supplyFault | .fcActiveChange | .pstateDecision
  | .pstateEntered | .resumeStart | .resumeDone | .lieOpStart | .lieOpDone _ | .resetNAssertion | .trstNAssertion
  | .tapInstruction _ _ => true
  | .imemWrite p st d => decide (p < 192) && decide (d < 2 ^ 128) && st.all fun x => decide (x.1 < 2)
  | .swapArm p v => decide (p < 192) && decide (v < 2 ^ 32)
  | .mirrorAck n => decide (n < 65536)
  | .mirrorRecords rs => rs.all fun r => decide (r.desc.length = 64)
  | .commitAck n q => decide (n < 2 ^ 64) && decide (q < 2 ^ 64)
  | .feedLaunch c k | .arrivedPlaced c k _ | .releasedPlaced c k _ => channelWf c k
  | .sbRangeFull p e | .sbDrainDone p e => entryWf p e
  | .chuckDataArrival p k _ _ f _ => chuckWf p k && decide (f ≤ 9)
  | .chuckResume p k | .chuckTransferDone p k | .chuckPageStop p k | .chuckRetry p k
  | .chuckRemoteTimeout p k | .streamRemoteError p k => chuckWf p k
  | .waittTarget p | .timedActionFire p _ | .deckRowArrival p _ | .ftqOverflow p | .sendqOverflow p
  | .pierSelfTestDone p _ | .takeoverSliceWritten p _ | .takeoverReverified p | .takeoverProgramWritten p
  | .weightScrub p _ => decide (p < 192)
  | .imemScrub p b _ => decide (p < 192) && decide (b < 2)
  | .flitReplay l c _ _ | .flitDelivered l c => linkWf l c
  | .storeRepairDone _ _ => true
  | .handoff o => decide (o.device < 4096)
  | .llmScrub e => decide (e < 3)
  | .gddrScrub k _ _ | .gddrRefresh k | .gddrTrainingDone k _ => gddrWf k
  | .channelRetrainDone k c _ => gddrWf k && decide (c < 4)
  | .por st _ => decide (st.nodeId < 4096) && decide (st.bootsel < 8) && decide (st.g7rate < 4)
  | .pin st => decide (st.nodeId < 4096) && decide (st.bootsel < 8) && decide (st.g7rate < 4)
  | .tempUpdate t => decide (t < 65536)
  | .wake n => decide (n < 16)
  | .sync o => decide (o.net < 2) && decide (o.domain < 256) && decide (o.identity < 2 ^ 64) && decide (o.seqId < 65536)
  | .delayResp n q _ _ => decide (n < 2) && decide (q < 65536)
  | .syncLoss n | .delayReq n => decide (n < 2)
  | .hello o => portWf o.port && (o.peer.isSome || decide (o.x25519.length = 32 ∧ o.mlkem.length = 1184))
  | .reply m | .accept m => decide (m.device < 4096) && decide (m.net < 2)
  | .finish o => o.peer.isSome || decide (o.qps.length = 6)
  | .detach p _ _ | .attachmentLoss p => decide (p < 8)
  | .peerDown d => decide (d < 4096)
  | .rdmaWrite o | .rdmaRead o => portWf o.port && decide (o.qpn < 2 ^ 24) && decide (o.psn < 2 ^ 24) && decide (o.rkey < 2 ^ 32)
  | .cnp k q => portWf k && decide (q < 2 ^ 24)
  | .roceRetransmit q n => decide (q < 2 ^ 24) && decide (n < 2 ^ 24)
  | .arp o | .echoRequest o => portWf o.port && decide (o.target.length = 4 ∨ o.target.length = 16)
  | .neighborDiscovery o => portWf o.port && decide (o.target.length = 16)
  | .unsupportedFrame k _ | .linkUp k | .linkDown k | .pfcFrame k _ => portWf k
  | .decryptShare m | .maskedInput m | .openMsg m | .returnCt m | .poisonNotice m | .ack m | .hxpInvalidType m =>
    portWf m.port && decide (m.step < 65536) && decide (m.fragIndex < 65536) && decide (m.fragCount < 65536)
  | .hxpRetransmit _ => true
  | .hxpTimeout _ _ st => decide (st < 65536)
  | .followUp n q _ _ => decide (n < 2) && decide (q < 65536)
  | .announce n d _ _ _ _ _ ident => decide (n < 2) && decide (d < 256) && decide (ident < 2 ^ 64)
  | .mirroredSessionStateAck n => decide (n < 2 ^ 64)
  | .buddyStripeFetch d _ _ _ => decide (d < 4096)
  | .peerConnectionReopen d n => decide (d < 4096) && decide (n < 2)

end Sys2Proof
end

