-- ==== Sys2Proof/Safety.lean ====
section
/-! DEFINITION. The terms that claims use: the canonical form of every memory, where a command can have its effect, and what
a next state leaves as it was. -/
namespace Sys2Proof.Machine

/-! ### Canonical memories -/

/-- Bench, tiles and instruction memory of a pier are in canonical form. -/
def Pier.memWf (x : Pier) : Bool := Memory.wf x.bench && Memory.wf x.tiles && Memory.wf x.imem

/-- Slices, LLM, GDDR and every pier's memories are in canonical form: equal contents are equal data. -/
def State.memWf (s : State) : Bool := Memory.wf s.mem && s.piers.all fun e => e.2.memWf

/-- No word of the pier's bench, tiles or engine structures has a parity mismatch (R160, R192, R215). -/
def Pier.sound (x : Pier) : Prop := x.benchPar = [] ∧ x.tilePar = [] ∧ x.storePar = []

/-! ### Where a command has its effect -/

/-- The instruction `i` issues now, in the context `c`: its pier hosts a stage of a running span that is not frozen, and its
sequencer runs (R247, R249). -/
def Issues (i : Iss) (s : State) (c : Ctx) : Prop := i.pier < 192 ∧ issueAt s i.pier = some c

/-- A frame that comes in on port `k` is taken: boot is complete, the port is enabled, and no low-power state holds or drops
it (R410, R446, Table 17-2). -/
def State.takes (s : State) (k : Nat) : Prop :=
  k < 8 ∧ s.ks.boot = 1 ∧ s.portsOff = false ∧ s.reg prtPortEnable 0 k ≠ 0 ∧ s.holdsFrames = false

/-- A message of a peer connection on network `n` is taken. -/
def State.takesPeer (s : State) (n : Nat) : Prop :=
  n < 2 ∧ s.ks.boot = 1 ∧ s.portsOff = false ∧ s.holdsFrames = false

/-- The verb request `r` is admitted: its slot is attached and not being lost, its tag verifies, its counter exceeds the last
one, the slot runs no verb, and, for a device-wide verb, no slot runs one (R379, R380, R422). -/
def Admitted (r : VerbReq) (wide : Bool) (s : State) (sl : Slot) : Prop :=
  r.slot < 8 ∧ tfind s.slots r.slot = some sl ∧ r.ok = true ∧ sl.ctrIn < r.ctr ∧ sl.closing = false ∧ sl.verb = none ∧
    (wide = true → s.wideVerb = false) ∧ s.awake = true ∧ s.takes (sl.port r.standby)

/-- The state in which the verb `v` of the admitted request `r` of slot contents `sl` runs: the port has counted the packet,
and the slot holds the counter, the set it came on, and the verb. -/
def admitted (r : VerbReq) (v : Nat) (sl : Slot) (s : State) : State :=
  (s.bump prtRxPackets 0 (sl.port r.standby) 1).modSlot r.slot fun x =>
    { x with ctrIn := r.ctr, lastMgmt := s.now, onStandby := r.standby, verb := some (v, r.tag) }

/-! ### Frames -/

/-- ISSUED of pier `p` (Table 10-9). -/
def issuedCount (s : State) (p : Nat) : Nat := s.reg seqIssuedLo p 0 + 2 ^ 32 * s.reg seqIssuedHi p 0

/-- Every register but those with the keys `ks` reads as before. -/
def regsBut (ks : List Nat) (s t : State) : Prop := ∀ k, k ∉ ks → ∀ d, tget d t.regs k = tget d s.regs k

/-- Every pier but `p` is as before. -/
def piersBut (p : Nat) (s t : State) : Prop := ∀ q, q ≠ p → t.pier q = s.pier q

/-- Every span but `k` is as before. -/
def spansBut (k : Nat) (s t : State) : Prop := ∀ j, j ≠ k → t.span j = s.span j

/-- What every issue on pier `p` does and leaves: ISSUED counts one more and saturates; nothing outside the registers, pier
`p` and the spans differs, and no other pier differs. -/
def Issued (p : Nat) (s t : State) : Prop :=
  issuedCount t p = min (issuedCount s p + 1) (2 ^ 64 - 1) ∧ piersBut p s t ∧
    t = { s with regs := t.regs, piers := t.piers, spans := t.spans }

/-- The keys of ISSUED of pier `p`. -/
def issuedKeys (p : Nat) : List Nat := [seqIssuedLo.key p 0, seqIssuedHi.key p 0]

/-- A next state `t` of the issue of `i` that changes only ISSUED and the pier, which becomes `x`. -/
def PierStep (i : Iss) (s t : State) (x : Pier) : Prop :=
  Issued i.pier s t ∧ regsBut (issuedKeys i.pier) s t ∧ t.spans = s.spans ∧ t.pier i.pier = x

/-- A next state `t` of the issue of `i` that changes only ISSUED and the sequencer of the pier, which becomes `q`. -/
def SeqStep (i : Iss) (s t : State) (q : Seq) : Prop := PierStep i s t { s.pier i.pier with seq := q }

/-- A next state `t` of the issue of `i` that changes ISSUED, HOLDS_RAISED, the pier, which becomes `x`, and the holds of
span `k`, to which a hold of `src` on `waits` is added (R249, R297). -/
def HoldStep (i : Iss) (k : Nat) (src : HoldSrc) (waits : List Nat) (after : HoldThen) (s t : State) (x : Pier) : Prop :=
  Issued i.pier s t ∧ regsBut (spnHoldsRaised.key i.pier 0 :: issuedKeys i.pier) s t ∧
    t.reg spnHoldsRaised i.pier 0 = satAdd 32 (s.reg spnHoldsRaised i.pier 0) 1 ∧ t.pier i.pier = x ∧ spansBut k s t ∧
    t.span k = { s.span k with
      holds := (s.span k).holds ++ [{ src := src, pier := i.pier, waits := waits, since := s.clk.fc, after := after }] }

/-- The pier after the instruction `i` with context `c`: `x`, its sequencer past the instruction (R247, R254 to R256). -/
def Pier.past (x : Pier) (i : Iss) (c : Ctx) : Pier := { x with seq := x.seq.advance c.fc i.next }

/-- A next state of an instruction whose first access covers `rows`: where no FILLING entry lies over them, only ISSUED and
the pier change; where one does, a hold is raised as well, on every such entry (R152). -/
def Presented (i : Iss) (c : Ctx) (rows : Nat × Nat) (s t : State) (x : Pier) : Prop :=
  let es := ((s.pier i.pier).fillingOver rows.1 rows.2).eraseDups
  (es = [] → PierStep i s t x) ∧ (es ≠ [] → HoldStep i c.k .scoreboard es .nothing s t x)

/-- Every byte of memory outside [lo, hi) reads as before. -/
def memBut (lo hi : Nat) (s t : State) : Prop := ∀ a, a < lo ∨ hi ≤ a → mget t.mem a = mget s.mem a

/-- The run `t` of a command that raised record `r` and no other: its 64 bytes stand at entry FAULT_WRITTEN mod 256 of the
ring, FAULT_WRITTEN counts it, and every other byte of memory reads as before (R461, R462). -/
def Recorded (r : Rec) (s t : State) : Prop :=
  let n := s.dreg rasFaultWritten
  t.mem = mputs s.mem (llmBase + 64 * (n % 256)) (recBytes n s.now (s.dreg tbDeviceId) r) ∧
    t.dreg rasFaultWritten = (n + 1) % 2 ^ 32

/-- The last message sent. -/
def lastOut (t : State) (m : Out) : Prop := ∃ before, t.out = before ++ [m]

/-- A next state `t` of the admitted verb `r` of slot contents `sl`, which has ended with `status` and `detail`: `u` is `s` with
the verb's effect outside registers, slots and messages. RX_PACKETS and TX_PACKETS of the port, and the registers `keys`,
may differ; of the slots only the verb's own does, by its two counters, the time and the set of the packet. -/
def VerbDone (r : VerbReq) (status : Nat) (detail : List Byte) (keys : List Nat) (sl : Slot) (s u t : State) : Prop :=
  t = { u with regs := t.regs, slots := t.slots, out := t.out } ∧ lastOut t (.verb r.slot r.tag status detail) ∧
    regsBut (prtRxPackets.key 0 (sl.port r.standby) :: prtTxPackets.key 0 (sl.port r.standby) :: keys) s t ∧
    tfind t.slots r.slot = some { sl with ctrIn := r.ctr, lastMgmt := s.now, onStandby := r.standby, ctrOut := sl.ctrOut + 1 } ∧
    ∀ q, q ≠ r.slot → tfind t.slots q = tfind s.slots q

/-- A verb that answers and does nothing else. -/
def AnswerOnly (r : VerbReq) (status : Nat) (detail : List Byte) (sl : Slot) (s t : State) : Prop :=
  VerbDone r status detail [] sl s s t

/-- A next state of the admitted verb `r` that has begun and waits: `u` is `s` with the verb's effect outside registers and
slots; the slot holds the verb, unanswered, and no message has been sent. -/
def VerbWaits (r : VerbReq) (v : Nat) (sl : Slot) (s u t : State) : Prop :=
  t = { u with regs := t.regs, slots := t.slots, out := s.out } ∧
    regsBut [prtRxPackets.key 0 (sl.port r.standby)] s t ∧
    tfind t.slots r.slot = some { sl with ctrIn := r.ctr, lastMgmt := s.now, onStandby := r.standby, verb := some (v, r.tag) } ∧
    ∀ q, q ≠ r.slot → tfind t.slots q = tfind s.slots q

/-- The answer that the verb of a wait `w` gets where its slot still runs it. -/
def AnswersWait (w : WaitVerb) (status : Nat) (detail : List Byte) (s t : State) : Prop :=
  ∀ sl v, tfind s.slots w.slot = some sl → sl.verb = some (v, w.tag) →
    lastOut t (.verb w.slot w.tag status detail) ∧ ∀ sl', tfind t.slots w.slot = some sl' → sl'.verb = none

end Sys2Proof.Machine
end

