-- ==== Sys2Proof/Certificates/Slice0/Obligations.lean ====
section
/-! DEFINITION. The statements about the machine, for the provers. -/
open Sys2Proof Sys2Proof.Machine

/-! ### The block -/

/-- A step runs the command at the front of the queue on the state with the queue's rest; on an empty queue it is a tick of
the clock (the model's choice, log entry 2). -/
def Obligations.StepRunsTheFrontCommand : Prop :=
  (∀ (c : Instr) (s : State) (rest : List Instr), s.pending = c :: rest → step s = exec c { s with pending := rest }) ∧
  (∀ s : State, s.pending = [] → step s = .next (tick s))

/-- Slices, LLM, GDDR and every pier's memories keep their canonical form through every step. -/
def Obligations.EveryStepKeepsMemoryCanonical : Prop :=
  ∀ s t : State, s.memWf = true → step s = .next t → t.memWf = true

/-- The memories after reset are in canonical form and read zero at every address. -/
def Obligations.ResetMemoryIsZero : Prop :=
  State.reset.memWf = true ∧ (∀ a, mget State.reset.mem a = 0) ∧
    (∀ p row lane, (State.reset.pier p).word row lane = 0) ∧ (∀ p t r c, (State.reset.pier p).tword t r c = 0)

/-! ### The sequencer -/

/-- The five instructions that change at most address registers complete; the sequencer then passes the instruction (R258). -/
def Obligations.AddressInstructions : Prop :=
  ∀ (i : Iss) (s : State) (c : Ctx), Issues i s c →
    let q := (s.pier i.pier).seq
    (∃ t, exec (.nop i) s = .next t ∧ SeqStep i s t (q.advance c.fc i.next)) ∧
    (∀ a v, ∃ (t : State) (q1 : Seq), exec (.aset i a v) s = .next t ∧ SeqStep i s t (q1.advance c.fc i.next) ∧
      q1 = { q with a := q1.a, dyn := q1.dyn } ∧ q1.areg a = BitVec.ofNat 32 v ∧ a ∉ q1.dyn ∧
      ∀ b, b ≠ a → q1.areg b = q.areg b ∧ (b ∈ q1.dyn ↔ b ∈ q.dyn)) ∧
    (∀ a l v, l < 4 → ∃ (t : State) (q1 : Seq), exec (.astr i a l v) s = .next t ∧ SeqStep i s t (q1.advance c.fc i.next) ∧
      q1 = { q with strides := q1.strides } ∧ q1.stride a l = BitVec.ofNat 32 v ∧
      ∀ b m, m < 4 → (b, m) ≠ (a, l) → q1.stride b m = q.stride b m) ∧
    (∀ d r v, ∃ (t : State) (q1 : Seq), exec (.aadd i d r v) s = .next t ∧ SeqStep i s t (q1.advance c.fc i.next) ∧
      q1 = { q with a := q1.a, dyn := q1.dyn } ∧ q1.areg d = q.areg r + BitVec.ofNat 32 v ∧ (d ∈ q1.dyn ↔ r ∈ q.dyn) ∧
      ∀ b, b ≠ d → q1.areg b = q.areg b ∧ (b ∈ q1.dyn ↔ b ∈ q.dyn)) ∧
    (∀ d w, ∃ (t : State) (q1 : Seq), exec (.lparm i d w) s = .next t ∧ SeqStep i s t (q1.advance c.fc i.next) ∧
      q1 = { q with a := q1.a, dyn := q1.dyn } ∧ q1.areg d = tget 0 q.params w ∧ d ∈ q1.dyn ∧
      ∀ b, b ≠ d → q1.areg b = q.areg b ∧ (b ∈ q1.dyn ↔ b ∈ q.dyn))

/-- What passing an instruction does (R247, R254): the next issue is NEXT fc later; where no active body ends, the PC counts
on; where the innermost body ends and iterations remain, its first instruction issues next, and every A register has taken
its stride of the level. -/
def Obligations.PassingAnInstruction : Prop :=
  ∀ (q : Seq) (fc next : Nat),
    (q.advance fc next).due = fc + next ∧
    ((∀ l ∈ q.loops.head?, l.last ≠ q.pc) →
      (q.advance fc next).pc = q.pc + 1 ∧ (q.advance fc next).loops = q.loops ∧ (q.advance fc next).a = q.a) ∧
    (∀ l ls, q.loops = l :: ls → l.last = q.pc → l.lc + 1 < l.count →
      (q.advance fc next).pc = l.start ∧ (q.advance fc next).loops = { l with lc := l.lc + 1 } :: ls ∧
      tget 0 (q.advance fc next).lc l.level = l.lc + 1 ∧
      ∀ a, a < 16 → (q.advance fc next).areg a = q.areg a + q.stride a l.level)

/-- A loop that exits leaves every address register at its entry value, the strides unchanged meanwhile: COUNT − 1 steps of
the level's strides and the restore cancel, modulo 2^32 (R256). -/
def Obligations.LoopRestoresAddressRegisters : Prop :=
  ∀ (q : Seq) (level count a : Nat), 1 ≤ count → a < 16 →
    (((Nat.repeat (fun x : Seq => x.stepA level 1) (count - 1) q).stepA level (1 - (count : Int))).areg a = q.areg a) ∧
    ∀ j, (Nat.repeat (fun x : Seq => x.stepA level 1) j q).areg a = q.areg a + BitVec.ofNat 32 j * q.stride a level

/-- LOOP completes (R254, R257): with COUNT 1 or more the body's first instruction issues next, NEXT fc later, and LC reads 0;
with COUNT 0 the sequencer goes on as though the body's last instruction had issued under the loops that are active. -/
def Obligations.LoopInstruction : Prop :=
  ∀ (i : Iss) (s : State) (c : Ctx) (level count body : Nat), Issues i s c →
    let q := (s.pier i.pier).seq
    ∃ (t : State) (q1 : Seq), exec (.loop i level count body) s = .next t ∧ SeqStep i s t q1 ∧ q1.due = c.fc + i.next ∧
      q1.strides = q.strides ∧ q1.h = q.h ∧ q1.stack = q.stack ∧
      (1 ≤ count → q1.pc = q.pc + 1 ∧ q1.a = q.a ∧ tget 0 q1.lc level = 0 ∧
        q1.loops = { level := level, count := count, start := q.pc + 1, last := q.pc + body, lc := 0 } :: q.loops) ∧
      (count = 0 → (∀ l ∈ q.loops.head?, l.last ≠ q.pc + body) → q1.pc = q.pc + body + 1 ∧ q1.loops = q.loops ∧ q1.a = q.a)

/-- CALL and RET complete (R271): the routine's first instruction issues 1 fc after CALL with A0 to A10 and every stride 0
and the argument in A11; RET goes on behind the CALL with the caller's loops, strides and A0 to A11, and keeps A12 to A15. -/
def Obligations.CallAndReturn : Prop :=
  ∀ (i : Iss) (s : State) (c : Ctx), Issues i s c →
    let q := (s.pier i.pier).seq
    (∀ id arg, ∃ (t : State) (q1 : Seq), exec (.call i id arg) s = .next t ∧ SeqStep i s t q1 ∧ q1.routine = some id ∧ q1.pc = 0 ∧
      q1.due = c.fc + 1 ∧ q1.loops = [] ∧ q1.areg 11 = BitVec.ofNat 32 arg ∧ (∀ a, a < 11 → q1.areg a = 0) ∧
      (∀ a, 12 ≤ a → q1.areg a = q.areg a) ∧ (∀ a l, q1.stride a l = 0) ∧ q1.h = q.h ∧ q1.params = q.params ∧
      ∃ f, q1.stack = f :: q.stack ∧ f.callPc = q.pc ∧ f.routine = q.routine ∧ f.loops = q.loops ∧ f.strides = q.strides ∧
        ∀ a, a < 12 → tget 0 f.a a = q.areg a) ∧
    (∀ f r, q.stack = f :: r → ∃ (t : State) (q1 : Seq), exec (.ret i) s = .next t ∧
      SeqStep i s t (q1.advance c.fc i.next) ∧ q1.stack = r ∧ q1.routine = f.routine ∧ q1.pc = f.callPc ∧
      q1.loops = f.loops ∧ q1.strides = f.strides ∧ q1.h = q.h ∧ (∀ a, a < 12 → q1.areg a = tget 0 f.a a) ∧
      ∀ a, 12 ≤ a → q1.areg a = q.areg a)

/-- HALT and PTOK complete: HALT ends the stage's issue (R276); PTOK of stage 0 selects the grant level of the next window,
and on any other stage changes nothing (R266). -/
def Obligations.HaltAndPtok : Prop :=
  ∀ (i : Iss) (s : State) (c : Ctx), Issues i s c →
    let x := s.pier i.pier
    (∃ (t : State) (q1 : Seq), exec (.halt i) s = .next t ∧ SeqStep i s t q1 ∧ q1 = { x.seq with st := .idle, fetched := false }) ∧
    (∀ level, ∃ t, exec (.ptok i level) s = .next t ∧ Issued i.pier s t ∧ regsBut (issuedKeys i.pier) s t ∧
      t.pier i.pier = x.past i c ∧ spansBut c.k s t ∧
      t.span c.k = { s.span c.k with nextLevel := if c.st = 0 then level else (s.span c.k).nextLevel })

/-- WAITT completes (R264): issued before its target it raises a hold, at or after it none; the target is the launch
timestamp plus OFFSET and AROFF, rounded up to a beat where BEAT is set (R263). -/
def Obligations.WaitForTime : Prop :=
  ∀ (i : Iss) (s : State) (c : Ctx) (o : TimeOp), Issues i s c →
    let x := s.pier i.pier
    let raw := c.batch.launchTs + o.offset + x.seq.sel o.aroff
    ∃ t T, exec (.waitt i o) s = .next t ∧
      (o.beat = false → T = raw) ∧ (o.beat = true → raw ≤ T ∧ T < raw + 1000 ∧ T % 1000 = 0) ∧
      (s.now < T → HoldStep i c.k .waitt [T] .nothing s t (x.past i c)) ∧ (T ≤ s.now → PierStep i s t (x.past i c))

/-- WAITC completes (R262): it raises a hold on the named chucks that have a transfer outstanding, and none where none has;
the charge of a transfer phase that it ends may close (R266). -/
def Obligations.WaitForChucks : Prop :=
  ∀ (i : Iss) (s : State) (c : Ctx) (chucks : Nat), Issues i s c →
    let x := s.pier i.pier
    let busy := (List.range 3).filter fun j => bit chucks j && x.busyChuck j
    ∃ t, exec (.waitc i chucks) s = .next t ∧ Issued i.pier s t ∧ t.pier i.pier = x.past i c ∧ spansBut c.k s t ∧
      t.span c.k = { s.span c.k with holds := (t.span c.k).holds, charges := (t.span c.k).charges } ∧
      (busy = [] → (t.span c.k).holds = (s.span c.k).holds ∧ regsBut (issuedKeys i.pier) s t) ∧
      (busy ≠ [] → (t.span c.k).holds = (s.span c.k).holds ++
        [{ src := .waitc, pier := i.pier, waits := busy, since := s.clk.fc }])

/-- ARM and REL complete with the transitions of Table 6-4 (R260): ARM makes a free or FULL entry FILLING over its rows; REL
frees a FULL entry and leaves a free one; on any other state each raises a hold that ends with its own effect. -/
def Obligations.ScoreboardInstructions : Prop :=
  ∀ (i : Iss) (s : State) (c : Ctx) (e : Nat), Issues i s c →
    let x := s.pier i.pier
    (∀ row arb n, ∃ t, exec (.arm i e row arb n) s = .next t ∧
      let r := x.seq.eff row arb
      (sbCode (x.sbAt e) = 0 ∨ sbCode (x.sbAt e) = 2 →
        PierStep i s t ({ x with sb := tput x.sb e (.filling r n) }.past i c)) ∧
      (sbCode (x.sbAt e) = 1 ∨ sbCode (x.sbAt e) = 3 → HoldStep i c.k .armRel [e] (.arm e r n) s t (x.past i c))) ∧
    (∃ t, exec (.rel i e) s = .next t ∧
      (sbCode (x.sbAt e) = 0 → PierStep i s t (x.past i c)) ∧
      (sbCode (x.sbAt e) = 2 → PierStep i s t ({ x with sb := tdel x.sb e }.past i c)) ∧
      (sbCode (x.sbAt e) = 1 ∨ sbCode (x.sbAt e) = 3 → HoldStep i c.k .armRel [e] (.rel e) s t (x.past i c)))

/-- The loads of one row into a header register, a modulus vector, a broadcast register or a seed key, and the store of a
header register, with the sharding fields of the shard whose slot the row is (R134), complete: the access falls in its slot at i + 12 and is presented to the scoreboard at issue (R152, R195,
R226, R268). -/
def Obligations.RowInstructions : Prop :=
  ∀ (i : Iss) (s : State) (c : Ctx) (brow : Nat) (arb : Sel), Issues i s c →
    let x := s.pier i.pier
    let row := x.seq.eff brow arb
    let after := fun (a : Act) => ({ x with acts := x.acts ++ [a] } : Pier).past i c
    (∀ h, ∃ t, exec (.hld i h brow arb) s = .next t ∧ Presented i c (row, 1) s t
      (after (Act.mk (c.fc + 12) false 0 (.hldRead h row) none))) ∧
    (∀ h, ∃ (t : State) (ws : List W36), exec (.hst i h brow arb) s = .next t ∧ ws.length = 64 ∧
      (∀ w, w < 64 → ws[w]? = some (if w < 16 then BitVec.ofNat 36 (fld (s.benchHdr i.pier row (x.seq.hreg h)).toNat (32 * w) 32) else 0)) ∧
      Presented i c (row, 1) s t
        (after (Act.mk (c.fc + 17) true 1 (.benchStore { col := false, row := row, lane := 0 } ws) none))) ∧
    (∀ mv, ∃ t, exec (.mvld i mv brow arb) s = .next t ∧ Presented i c (row, 1) s t
      (after (Act.mk (c.fc + 12) false 0 (.mvldRead mv row) none))) ∧
    (∀ br lane, ∃ t, exec (.sbld i br brow arb false lane) s = .next t ∧ Presented i c (row, 1) s t
      (after (Act.mk (c.fc + 12) false 2 (.brRead br { col := false, row := row, lane := 0 }) none))) ∧
    (∀ br lane, ∃ t, exec (.sbld i br brow arb true lane) s = .next t ∧ Presented i c (row, 64) s t
      (after (Act.mk (c.fc + 12) false 2 (.brRead br { col := true, row := row, lane := lane }) none))) ∧
    (∀ sd, ∃ t, exec (.skld i sd brow arb) s = .next t ∧ Presented i c (row, 1) s t
      (after (Act.mk (c.fc + 12) false 2 (.seedRead sd row) none)))

/-- TLD and TST complete when the tile's latched shape has as many lines as they access (Table 8-1, Table 8-3): access k
falls in its slot at i + 12 + k, each later one is presented 12 fc before; a line of TLD reaches the tile 10 fc after its
slot's fc, a line of TST is read at i + 10 + k. -/
def Obligations.TileLines : Prop :=
  ∀ (i : Iss) (s : State) (c : Ctx) (o : LineOp), Issues i s c →
    let x := s.pier i.pier
    let sh := latch s c o.tile o.shape
    let acc := lineAcc (x.seq.eff o.brow o.arb) o
    1 ≤ o.n → o.n ≤ (lineLimits o sh).1 →
    (∃ (t : State) (new : List Act), exec (.tld i o) s = .next t ∧
      Presented i c (acc 0).rows s t (({ x with acts := x.acts ++ new } : Pier).past i c) ∧
      (∀ k, k < o.n → Act.mk (c.fc + 12 + k) false 0
        (.tldRead o.tile (o.tidx + k) (lineWords o sh (o.tidx + k)) o.tcol (acc k) (x.zeroed o.mem)) none ∈ new) ∧
      (∀ k, k + 1 < o.n → Act.mk (c.fc + (k + 1)) false 0 (.present [(acc (k + 1)).rows]) none ∈ new) ∧
      ((s.span c.k).configured = false →
        Act.mk (c.fc + o.n + 21) true 7 (.tileShape o.tile sh) none ∈ new)) ∧
    (∃ (t : State) (new : List Act), exec (.tst i o) s = .next t ∧
      Presented i c (acc 0).rows s t (({ x with acts := x.acts ++ new } : Pier).past i c) ∧
      (∀ k, k < o.n → Act.mk (c.fc + 10 + k) false 0
        (.tstRead o.tile (o.tidx + k) (lineWords o sh (o.tidx + k)) o.tcol (acc k) (x.zeroed o.mem)) none ∈ new) ∧
      (∀ k, k + 1 < o.n → Act.mk (c.fc + (k + 1)) false 0 (.present [(acc (k + 1)).rows]) none ∈ new))

/-- CLD of a pier without parity mismatches completes when its rows lie in the tile and in the table and its index names a
prime (Tables 8-1, 8-3, 8-4): row k of
the table, or zeros for a suppressed member, reaches the tile at the end of i + 4 + k. -/
def Obligations.ConstantLoad : Prop :=
  ∀ (i : Iss) (s : State) (c : Ctx) (o : CldOp), Issues i s c →
    let x := s.pier i.pier
    let sh := latch s c o.tile o.shape
    let px := x.seq.eff o.x o.arx
    x.sound → o.n ≤ sh.rows → o.crow + o.n ≤ constRows c.batch.ring o.table → (o.table = 4 ∨ px < c.batch.ring.count) →
    ∃ (t : State) (new : List Act), exec (.cld i o) s = .next t ∧ PierStep i s t (({ x with acts := x.acts ++ new } : Pier).past i c) ∧
      ∀ k, k < o.n → o.trow + k < sh.rows → ∃ ws : List W36, ws.length = sh.cols ∧
        Act.mk (c.fc + 4 + k) true 0 (.tileLine o.tile (o.trow + k) false ws) none ∈ new ∧
        ∀ e, e < sh.cols → ws[e]? = some (if x.zeroed o.mem then 0
          else BitVec.ofNat 36 (constEntry c.batch.ring o.table px (64 * (o.crow + k) + e)))

/-- TCFG (R198): with ROWS or COLS outside 1 to 64 or a vector that is not valid, 0x0102 is recorded at issue and the tile's
shape stays; otherwise the shape is the tile's from then on. Operations already issued, scheduled as `acts`, `passes` and
`ftq`, and the tile's words stay as they were. -/
def Obligations.TcfgSetsTheShape : Prop :=
  ∀ (i : Iss) (s : State) (c : Ctx) (tile : Nat) (fromReg : Bool) (areg : Nat) (shape : Shape), Issues i s c →
    let x := s.pier i.pier
    let v := (x.seq.areg areg).toNat
    let sh : Shape := if fromReg then { rows := fld v 0 7, cols := fld v 8 7, mv := fld v 16 2 } else shape
    let valid := 1 ≤ sh.rows ∧ sh.rows ≤ 64 ∧ 1 ≤ sh.cols ∧ sh.cols ≤ 64 ∧ (x.mvec sh.mv).isSome = true
    ∃ t, exec (.tcfg i tile fromReg areg shape) s = .next t ∧
      (t.pier i.pier).tiles = x.tiles ∧ (t.pier i.pier).acts = x.acts ∧ (t.pier i.pier).passes = x.passes ∧
      (t.pier i.pier).ftq = x.ftq ∧ (∀ u, u ≠ tile → (t.pier i.pier).shape u = x.shape u) ∧
      (valid → (t.pier i.pier).shape tile = sh ∧ t.mem = s.mem) ∧
      (¬ valid → (t.pier i.pier).shape tile = x.shape tile ∧
        Recorded { code := 0x0102, action := 3, unit := 1, pier := i.pier, span := c.k } s t)

/-- NTT and INTT of a pier without parity mismatches complete when their tiles are latched 64 by 64 and the index names a prime (R203 to R206, Table 8-1): the
words of NTT's tiles at issue, transformed, reach tile t at the end of its last fc of Table 8-5; INTT reads tile t in fc
i + 192 t and ends in fc i + c − 1; each counts one operation and charges 4 tokens a fc for its cycles. -/
def Obligations.Transforms : Prop :=
  ∀ (i : Iss) (s : State) (c : Ctx) (o : NttOp), Issues i s c →
    let x := s.pier i.pier
    let px := x.seq.eff o.prime o.arp
    x.sound → (∀ t, t < o.tiles → (latch s c (o.first + t) fullShape).rows = 64 ∧ (latch s c (o.first + t) fullShape).cols = 64) →
    px < c.batch.ring.count →
    let words := (List.range o.tiles).flatMap fun t => x.tile (o.first + t)
    let out := if x.zeroed o.mem then words.map (fun _ => 0) else nttRun c.batch.ring o px words
    (∃ t, exec (.ntt i o) s = .next t ∧ Issued i.pier s t ∧ spansBut c.k s t ∧
      t.span c.k = { s.span c.k with charges := (s.span c.k).charges ++
        [{ pier := i.pier, phase := false, rate := 4, last := some (c.fc + o.cycles - 1) }] } ∧
      t.reg laNttOps i.pier 0 = satAdd 32 (s.reg laNttOps i.pier 0) 1 ∧
      t.pier i.pier = ({ x with
        nttUntil := c.fc + o.cycles
        acts := x.acts ++ (List.range o.tiles).map fun n => Act.mk (c.fc + o.lead + 192 * (n + 1) - 1) true 0
          (.tileAll (o.first + n) ((out.drop (4096 * n)).take 4096)) none } : Pier).past i c) ∧
    (∃ t, exec (.intt i o) s = .next t ∧ Issued i.pier s t ∧ spansBut c.k s t ∧
      t.span c.k = { s.span c.k with charges := (s.span c.k).charges ++
        [{ pier := i.pier, phase := false, rate := 4, last := some (c.fc + o.cycles - 1) }] } ∧
      t.reg laNttOps i.pier 0 = satAdd 32 (s.reg laNttOps i.pier 0) 1 ∧
      t.pier i.pier = ({ x with
        nttUntil := c.fc + o.cycles
        nttBuf := tput x.nttBuf o.first (x.tile o.first)
        acts := x.acts ++ (List.range (o.tiles - 1)).map (fun n =>
          Act.mk (c.fc + 192 * (n + 1)) false 0 (.inttRead (o.first + n + 1)) none) ++
          [Act.mk (c.fc + o.cycles - 1) true 0 (.inttEnd o px (x.zeroed o.mem)) none] } : Pier).past i c)

/-- The four operations of the modular matrix engine complete, on a pier without parity mismatches, when their latched shapes fit (R190, R207 to R209, R211): the
result of the operands as they stand at issue, zeros for a suppressed member, reaches tile C, or the finished-tile queue, at
the end of fc i + a + 11, where a is the array's fc. -/
def Obligations.MatrixEngine : Prop :=
  ∀ (i : Iss) (s : State) (c : Ctx) (o : MmeOp), Issues i s c →
    let x := s.pier i.pier
    let r := c.batch.ring
    let sa := latch s c o.a o.shA
    let sb := latch s c o.b o.shB
    let sc := latch s c o.c o.shC
    ∀ matrix acc : Bool, x.sound → mmeFits x matrix sa sb sc = true →
      let cmd := if matrix then (if acc then Instr.mmac i o else .mmul i o) else (if acc then .emac i o else .emul i o)
      let words := if x.zeroed o.mem then List.replicate (sc.rows * sc.cols) 0 else
        mmeResult matrix acc ((x.colPrimes r sc).take sc.cols) (x.matrix r o.a sa) (x.matrix r o.b sb) (x.matrix r o.c sc)
      let last := c.fc + mmeFc matrix sa sc + 11
      ∃ (t : State) (new : List Act), exec cmd s = .next t ∧ Issued i.pier s t ∧ (t.pier i.pier).acts = x.acts ++ new ∧
        (t.pier i.pier).tiles = x.tiles ∧ (t.pier i.pier).ftq = x.ftq ∧ (t.pier i.pier).bench = x.bench ∧
        (t.pier i.pier).seq = x.seq.advance c.fc i.next ∧
        (o.qdest = false → Act.mk last true 0 (.tileBlock o.c sc.rows sc.cols words) none ∈ new) ∧
        (o.qdest = true → Act.mk last true 5 (.ftqPush ⟨x.nextId, sc, (x.mvec sc.mv).getD [], x.seq.member o.mem, words, false⟩) none ∈ new)

/-- What an operation refuses at issue (R200, R216): with shapes that do not fit, TLD, TST, CLD and the matrix engine record
0x0101, write no tile, schedule nothing, and the span halts at the end of the fc with every request committed poisoned. -/
def Obligations.ShapeFaultsAtIssue : Prop :=
  ∀ (i : Iss) (s : State) (c : Ctx), Issues i s c → (s.span c.k).stop = none →
    let x := s.pier i.pier
    let refused := fun (cmd : Instr) => ∃ t, exec cmd s = .next t ∧
      Recorded { code := 0x0101, action := 3, unit := 1, pier := i.pier, span := c.k } s t ∧
      t.pier i.pier = x.past i c ∧ (t.span c.k).stop = some (.commit 0x0101 none)
    (∀ o, (lineLimits o (latch s c o.tile o.shape)).1 < o.n → refused (.tld i o) ∧ refused (.tst i o)) ∧
    (∀ o, (latch s c o.tile o.shape).rows < o.n → refused (.cld i o)) ∧
    (∀ o, mmeFits x true (latch s c o.a o.shA) (latch s c o.b o.shB) (latch s c o.c o.shC) = false →
      refused (.mmul i o) ∧ refused (.mmac i o)) ∧
    (∀ o, mmeFits x false (latch s c o.a o.shA) (latch s c o.b o.shB) (latch s c o.c o.shC) = false →
      refused (.emul i o) ∧ refused (.emac i o))

/-- SPIN on a tile completes when its shapes fit and its words name primes (R230 to R236): one pass more is in flight, with
the program words, shape, vector, key, stream and base latched at issue, and row k is due at i + 2 + (k + 1) I. -/
def Obligations.SpindlePass : Prop :=
  ∀ (i : Iss) (s : State) (c : Ctx) (o : SpinOp), Issues i s c →
    let x := s.pier i.pier
    let sh := x.shape o.x
    let words := (List.range o.stages).map fun n => x.spinWord (o.entry + n)
    o.x ≠ 16 → spinFits x o sh = true → (x.mvec sh.mv).isSome = true →
    words.any (badPrime c.batch.ring.count) = false →
    ∃ (t : State) (a : Pass), exec (.spin i o) s = .next t ∧ Issued i.pier s t ∧ (t.pier i.pier).passes = x.passes ++ [a] ∧
      a.id = x.nextId ∧ a.words = words ∧ a.shape = sh ∧ some a.mv = x.mvec sh.mv ∧ a.x = some o.x ∧ a.brs = x.br ∧
      a.stream = o.stream ∧ a.base = x.seq.sel o.arbase ∧ a.zero = x.suppressed (x.seq.member o.mem) ∧ a.issue = c.fc ∧
      (t.pier i.pier).seq = x.seq.advance c.fc i.next ∧ (t.pier i.pier).tiles = x.tiles ∧ (t.pier i.pier).bench = x.bench ∧
      (∀ k, k < sh.rows → Act.mk (c.fc + 2 + (k + 1) * a.interval) false 0 (.spinRow a.id k) (some a.id) ∈ (t.pier i.pier).acts) ∧
      t.reg spPasses i.pier 0 = satAdd 32 (s.reg spPasses i.pier 0) 1

/-- FSSE completes (R238, R239): with the N, W and tree of its material entry, it reads row k of its items and then of its inputs in
slot 2 in fc i + 12 + k, and its evaluation is due in the fc of its first output row, the outputs' rows being the last of the
c fc of R239; a FILLING entry over one of its rows raises a hold. -/
def Obligations.FssEvaluation : Prop :=
  ∀ (i : Iss) (s : State) (c : Ctx) (o : FsseOp), Issues i s c →
    let x := s.pier i.pier
    let m := s.matOf c.k o.mentry
    let w := m.pieces * (m.degree + 1)
    let bytes := fssItemBytes m.bits w
    let cyc := fsseCycles o.g m.bits w bytes
    let rows := fsseRows x.seq o bytes w
    let es := (rows.flatMap fun r => x.fillingOver r.1 r.2).eraseDups
    let hold : Hold := { src := .scoreboard, pier := i.pier, waits := es, since := s.clk.fc }
    ∃ (t : State) (new : List Act) (tree : Nat), exec (.fsse i o) s = .next t ∧ Issued i.pier s t ∧
      t.pier i.pier = ({ x with acts := x.acts ++ new, fssUntil := max x.fssUntil (c.fc + cyc), fssRows := [] } : Pier).past i c ∧
      (∀ n k, n < 2 → k < (rows.getD n (0, 0)).2 → ∃ j, Act.mk (c.fc + 12 + j) false 2 (.fsseRead ((rows.getD n (0, 0)).1 + k)) none ∈ new ∧
        j = k + if n = 0 then 0 else (rows.getD 0 (0, 0)).2) ∧
      Act.mk (c.fc + cyc - ceilDiv (o.g * w) 32) false 2 (.fsseRun o (x.seq.sel o.arb) (m.bits * 64 + tree) w
        (o.g * (m.bits * (1 + ceilDiv w 2) + ceilDiv w 2)) (x.zeroed o.mem)) none ∈ new ∧
      (m.func = 0 → tree = 0) ∧ (m.func ≠ 0 → m.pieces = 2 ^ tree ∨ ∀ n, m.pieces ≠ 2 ^ n) ∧
      spansBut c.k s t ∧ t.span c.k = { s.span c.k with
        holds := (s.span c.k).holds ++ if es = [] then [] else [hold]
        charges := (s.span c.k).charges ++ [{ pier := i.pier, phase := false, rate := 3, last := some (c.fc + cyc - 1) }] } ∧
      regsBut (spnHoldsRaised.key i.pier 0 :: issuedKeys i.pier) s t

/-- DSEND completes (R261): row k is read in slot 3 in fc i + 12 + f k, f being the flits of a row, and its entry into the
send queue in fc i + 18 + f k is presented 12 fc before. -/
def Obligations.DeckSend : Prop :=
  ∀ (i : Iss) (s : State) (c : Ctx) (o : DsendOp), Issues i s c →
    let x := s.pier i.pier
    let f := flitsOf o.lanes
    let row := x.seq.eff o.brow o.arb
    let drow := x.seq.eff o.drow o.ard
    ∃ (t : State) (new : List Act), exec (.dsend i o) s = .next t ∧
      Presented i c (row, 1) s t (({ x with acts := x.acts ++ new } : Pier).past i c) ∧
      ∀ k, k < o.n → Act.mk (c.fc + 12 + f * k) false 3 (.dsendRead o (row + k) (drow + k)) none ∈ new ∧
        Act.mk (c.fc + 6 + f * k) false 3 (.sendqPresent (c.fc + 18 + f * k) f) none ∈ new

/-- CHK and LAUNCH of a timed transfer complete (R167, R181, R259, R263, R265): with four transfers outstanding the new one
waits with a hold; with fewer it is the chuck's last outstanding one, or, where a check of its issue fails, its span stops
with the check's code. -/
def Obligations.ChuckIssue : Prop :=
  ∀ (i : Iss) (s : State) (c : Ctx) (j n : Nat) (ar : Sel), Issues i s c →
    let x := s.pier i.pier
    let issued := fun (cmd : Instr) (target : Option Nat) =>
      let y := madeXfer x n (x.seq.sel ar) target
      (4 ≤ (x.chuck j).xfers.length → ∃ t, exec cmd s = .next t ∧ Issued i.pier s t ∧
        ((t.pier i.pier).chuck j).waiting = (x.chuck j).waiting ++ [y] ∧ ((t.pier i.pier).chuck j).xfers = (x.chuck j).xfers ∧
        (t.span c.k).holds = (s.span c.k).holds ++
          [{ src := .chuckIssue, pier := i.pier, waits := [j], since := s.clk.fc }]) ∧
      ((x.chuck j).xfers.length < 4 → issueFault s i.pier (resolveXfer s c.k y).1 = none →
        ∃ (t : State) (z : Xfer), exec cmd s = .next t ∧ Issued i.pier s t ∧
          ((t.pier i.pier).chuck j).xfers = (x.chuck j).xfers ++ [z] ∧ z.id = y.id ∧ z.didx = n ∧ z.d = x.desc n ∧
          z.start = y.start ∧ z.target = target ∧ (t.span c.k).holds = (s.span c.k).holds) ∧
      (∀ code m, (x.chuck j).xfers.length < 4 → issueFault s i.pier (resolveXfer s c.k y).1 = some (code, m) →
        (s.span c.k).stop = none → ∃ t, exec cmd s = .next t ∧ ((t.pier i.pier).chuck j) = x.chuck j ∧
          (t.span c.k).stop = some (.abort code))
    issued (.chk i j n ar) none ∧
    ∀ (o : TimeOp) (slot : Nat), issued (.launch i ⟨o, 0, j, n, ar, slot⟩) (some (target c x.seq o))

/-- LAUNCH of a timed exchange send completes (R265): before its target it is pending on the pier; at or past it, it is
counted in LATE_LAUNCHES and fires at once; with four pending it holds the span. -/
def Obligations.TimedExchangeSend : Prop :=
  ∀ (i : Iss) (s : State) (c : Ctx) (o : TimeOp) (slot ch d : Nat) (ar : Sel), Issues i s c →
    let x := s.pier i.pier
    let T := target c x.seq o
    let a : TimedAct := { id := x.nextId, target := T, sendSlot := slot }
    ∃ t, exec (.launch i ⟨o, 1, ch, d, ar, slot⟩) s = .next t ∧ (t.pier i.pier).seq = x.seq.advance c.fc i.next ∧
      piersBut i.pier s t ∧ t.mem = s.mem ∧
      (T ≤ s.now → (t.pier i.pier).timed = x.timed ++ [a] ∧ t.pending = s.pending ++ [.timedActionFire i.pier a.id] ∧
        t.reg seqLateLaunches i.pier 0 = satAdd 32 (s.reg seqLateLaunches i.pier 0) 1) ∧
      (s.now < T → x.timed.length < 4 → (t.pier i.pier).timed = x.timed ++ [a] ∧ t.pending = s.pending ∧
        (t.span c.k).holds = (s.span c.k).holds) ∧
      (s.now < T → 4 ≤ x.timed.length → (t.pier i.pier).timed = x.timed ∧ t.pending = s.pending ∧
        ∃ h, (t.span c.k).holds = (s.span c.k).holds ++ [h] ∧ h.src = .launch ∧ h.pier = i.pier ∧ h.after = .launch a)

/-- HCHK completes (R269, R270): for a member of the batch HD takes the header that the checks of its class make of the
operand registers, and where they poison it the member's bit of the poison vector is set; for a slot at or above M, HD is
zero, the slot's bit is set and no record is written. -/
def Obligations.HeaderCheck : Prop :=
  ∀ (i : Iss) (s : State) (c : Ctx) (o : HchkOp), Issues i s c → o.cls < 13 →
    let x := s.pier i.pier
    let idx := (x.seq.member o.mem).getD 0
    let reg := fun (h : Nat) => if h = 15 then (0 : Hdr) else x.seq.hreg h
    let two := o.cls = 0 ∨ o.cls = 3 ∨ o.cls = 8 ∨ o.cls = 9 ∨ o.cls = 10
    let b := if two then (if o.hb = 15 ∧ o.cls = 9 then none else some (reg o.hb)) else none
    let k := if o.cls = 4 ∨ o.cls = 5 then some (reg o.hk) else none
    ∃ (t : State) (q : Seq), exec (.hchk i o) s = .next t ∧ piersBut i.pier s t ∧
      (t.pier i.pier).seq = q.advance c.fc i.next ∧ q = { x.seq with h := q.h } ∧
      (∀ n, n ≠ o.hd → q.hreg n = x.seq.hreg n) ∧ (t.pier i.pier).tiles = x.tiles ∧ (t.pier i.pier).bench = x.bench ∧
      (c.batch.members.length ≤ idx → q.hreg o.hd = 0 ∧ idx ∈ (t.pier i.pier).poison ∧ t.mem = s.mem) ∧
      (∀ m, c.batch.members[idx]? = some m →
        let arg : ChkArg :=
          { cls := o.cls, levelArg := o.level, g := o.g, spt := o.spt, hoist := o.hoist, oper := s.oper
            noiseLimit := (s.policyOf m).noiseLimit, noiseAction := (s.policyOf m).noiseAction }
        let r := hdrCheck arg c.batch.ring (reg o.ha) b k
        q.hreg o.hd = r.hd ∧ (r.code ≠ 0 → idx ∈ (t.pier i.pier).poison) ∧
        (r.code = 0 → r.consumed = false → (t.pier i.pier).poison = x.poison))

/-- A header check that answers a poison code leaves a result header that carries POISON and that code under a matching
HEADER_CRC, whatever the operands (R57, R180, Table 2-7). -/
def Obligations.PoisonedResultsAreSealed : Prop :=
  ∀ (x : ChkArg) (r : Ring) (a : Hdr) (b k : Option Hdr),
    let y := hdrCheck x r a b k
    y.code ≠ 0 → y.hd.poisoned = true ∧ y.hd.code = y.code ∧ y.hd.crcOk = true

/-! ### Management verbs -/

/-- READ_REG answers the words at its addresses, in order, and changes nothing but its slot and the port's packet counters. -/
def Obligations.ReadRegisters : Prop :=
  ∀ (r : VerbReq) (addrs : List Nat) (s : State) (sl : Slot), Admitted r false s sl →
    1 ≤ addrs.length → addrs.length ≤ 64 → tbNsLoAddr ∉ addrs →
    ∃ t, exec (.readReg r addrs) s = .next t ∧
      AnswerOnly r 0 (addrs.flatMap fun a => leBytes 4 ((admitted r 8 sl s).regWord a)) sl s t

/-- TB_NS_LO (R387): a read copies TB_NS_HI and TB_FRAC into the read latches and changes nothing else; TB_NS_HI and TB_FRAC
read as the latches; a READ_REG of the three in order answers one instant. -/
def Obligations.TimeReadsAreOneInstant : Prop :=
  (∀ (s : State) (p : Nat), p < 8 → exec (.tbNsLo p) s = .next { s with
    clk := { s.clk with latchHi := s.clk.ns / 2 ^ 32 % 2 ^ 32, latchFrac := s.clk.frac / 2 ^ 8 % 2 ^ 16 } }) ∧
  (∀ s : State, s.regWord 0x30000 = s.clk.ns % 2 ^ 32 ∧ s.regWord 0x30004 = s.clk.latchHi % 2 ^ 32 ∧
    s.regWord 0x30008 = s.clk.latchFrac % 2 ^ 16) ∧
  ∀ (r : VerbReq) (s : State) (sl : Slot), Admitted r false s sl →
    ∃ t, exec (.readReg r [0x30000, 0x30004, 0x30008]) s = .next t ∧
      lastOut t (.verb r.slot r.tag 0 (leBytes 4 (s.clk.ns % 2 ^ 32) ++ leBytes 4 (s.clk.ns / 2 ^ 32 % 2 ^ 32) ++
        leBytes 4 (s.clk.frac / 2 ^ 8 % 2 ^ 16)))

/-- WRITE_REG (R381, R449): its pairs are written in order when each passes, here the slot's own staging registers; where one
names another slot's register, none is written and the answer is 0x040A. An unknown verb is answered 0x0406 (Table 14-7). -/
def Obligations.WriteRegisters : Prop :=
  ∀ (r : VerbReq) (s : State) (sl : Slot), Admitted r false s sl →
    let staging : List Fld := [prtWinBaseLo, prtWinBaseHi, prtWinLength, prtWinRkey]
    let at_ := fun (f : Fld) (p : Nat) => f.base + f.off + 64 * p
    (∀ f ∈ staging, ∀ g ∈ staging, f ≠ g → ∀ v w, ∃ t, exec (.writeReg r [(at_ f r.slot, v), (at_ g r.slot, w)] []) s = .next t ∧
      VerbDone r 0 [] [f.key 0 r.slot, g.key 0 r.slot] sl s s t ∧ t.reg f 0 r.slot = v % 2 ^ 32 ∧ t.reg g 0 r.slot = w % 2 ^ 32) ∧
    (∀ f ∈ staging, ∀ v w q, q < 8 → q ≠ r.slot → ∃ t,
      exec (.writeReg r [(at_ f r.slot, v), (at_ f q, w)] []) s = .next t ∧ AnswerOnly r 0x040A [] sl s t) ∧
    ∀ v, ∃ t, exec (.unknownVerb r v) s = .next t ∧ AnswerOnly r 0x0406 [] sl s t

/-- ATTEST (R415, R419, R420): with the random source working and every named session bound by the slot, the answer is the
report, which holds the nonce at 0x20, its signature and the device certificate, and REPORTS_SIGNED counts it; without the
random source 0x0707 is answered and recorded. -/
def Obligations.Attestation : Prop :=
  ∀ (r : VerbReq) (nonce : List Byte) (ids : List Nat) (s : State) (sl : Slot), Admitted r false s sl →
    (∀ xs : List Session, s.ks.rngOk = true → ids.map (fun n => tfind s.sessions n) = xs.map some → (∀ x ∈ xs, x.slot = r.slot) →
      ∃ t, exec (.attest r nonce ids) s = .next t ∧
        (let body := reportBody (admitted r 4 sl s) nonce xs;
          VerbDone r 0 (body ++ Config.mldsaSign (sha3 body) ++ s.ks.cert) [ksnReportsSigned.key 0 0] sl s s t ∧
          t.dreg ksnReportsSigned = satAdd ksnReportsSigned.w (s.dreg ksnReportsSigned) 1 ∧
          slice body 0x20 32 = fitBytes 32 nonce)) ∧
    (s.ks.rngOk = false → ∃ t, exec (.attest r nonce ids) s = .next t ∧
      VerbDone r 0x0707 [] [rasFaultWritten.key 0 0] sl s { s with mem := t.mem } t ∧
      Recorded { code := 0x0707, action := 0, unit := 6 } s t)

/-- UPDATE_FW on a range that can be read (R411 to R413): a bundle that passes, is not older than the fuses and one
FW_VERSION at most above OPER_VERSION, is written to the bank that did not boot, which boots next; one that fails is recorded
as 0x0706, one outside the versions is answered 0x0801, and keystone stays as it was. -/
def Obligations.FirmwareUpdate : Prop :=
  ∀ (r : VerbReq) (src : WinRange) (bs : List Byte) (s : State) (sl : Slot), Admitted r true s sl →
    readRange (admitted r 5 sl s) r.slot src = some bs →
    let b := 1 - s.ks.bootBank
    ∃ t, exec (.updateFw r src) s = .next t ∧
      (∀ x, parseBundle s.ks bs = some x → s.ks.fwSvn ≤ x.svn → s.oper ≤ x.fwVersion → x.fwVersion ≤ s.oper + 1 →
        VerbDone r 0 [] [ksnBootNext.key 0 0] sl s { s with ks := t.ks } t ∧ t.ks.bank b = some x ∧ t.ks.bootFirst = some b ∧
        t.dreg ksnBootNext = b % 2 ∧ t.ks = { s.ks with bankA := t.ks.bankA, bankB := t.ks.bankB, bootFirst := some b } ∧
        t.ks.bank (1 - b) = s.ks.bank (1 - b)) ∧
      (parseBundle s.ks bs = none ∨ (∃ x, parseBundle s.ks bs = some x ∧ x.svn < s.ks.fwSvn) →
        VerbDone r 0x0706 [] [rasFaultWritten.key 0 0] sl s { s with mem := t.mem } t ∧
        Recorded { code := 0x0706, action := 0, unit := 6 } s t) ∧
      (∀ x, parseBundle s.ks bs = some x → s.ks.fwSvn ≤ x.svn → (x.fwVersion < s.oper ∨ s.oper + 1 < x.fwVersion) →
        AnswerOnly r 0x0801 [] sl s t)

/-- SET_POLICY without key agreement or disclosure block (R382, R383): refused with 0x0408 it changes nothing; where the
device has no buddy, the policy is in force at once, for a session that exists or for a new one bound to the slot and the
key set; with CLOSE the session accepts no more and the verb waits. -/
def Obligations.SessionPolicy : Prop :=
  ∀ (r : VerbReq) (o : PolicyOp) (s : State) (sl : Slot), Admitted r false s sl →
    let old := tfind s.sessions o.session
    (policyRefused r.slot o s = true → ∃ t, exec (.setPolicy r o) s = .next t ∧ AnswerOnly r 0x0408 [] sl s t) ∧
    (policyRefused r.slot o s = false → o.close = false → o.cRec = none → o.hRec = none → o.disclosure = none →
      (old.isSome = true ∨ s.ks.rngOk = true) → s.hasBuddy = false →
      ∃ (t : State) (x : Session), exec (.setPolicy r o) s = .next t ∧
        VerbDone r 0 [] [] sl s { s with sessions := t.sessions, free := t.free, boundHidden := false } t ∧ tfind t.sessions o.session = some x ∧
        x.slot = r.slot ∧ x.keyTag = o.keysetTag ∧ (∀ n, n ≠ o.session → tfind t.sessions n = tfind s.sessions n) ∧
        (let p := (old.map (·.policy)).getD {};
          x.policy = { p with
            noiseLimit := if o.hasNoise then o.noiseLimit else p.noiseLimit
            noiseAction := if o.hasNoise then o.noiseAction else p.noiseAction
            hasNoise := o.hasNoise || p.hasNoise
            roleH := o.roleH
            owner := o.owner.getD p.owner }) ∧
        (∀ y, old = some y → x = { y with policy := x.policy }) ∧
        (old = none → x.nextSeq = 0 ∧ x.closing = none ∧ x.classes = [] ∧ x.epoch = 0)) ∧
    (∀ y, policyRefused r.slot o s = false → o.close = true → old = some y →
      ∃ t, exec (.setPolicy r o) s = .next t ∧
        VerbWaits r 6 sl s { s with sessions := t.sessions, waits := t.waits, pending := t.pending } t ∧
        tfind t.sessions o.session = some { y with closing := some r.tag } ∧
        t.waits = s.waits ++ [{ slot := r.slot, tag := r.tag, verb := 6, key := o.session }] ∧
        t.pending = s.pending ++ (if s.hasLive o.session then [] else [.sessionCloseDone o.session]))

/-- The end of a closing session whose accepted requests have committed: session, requests, streams and fragments are gone and
the verb that waits is answered 0; MIRRORED_SESSION_STATE_ACK puts the policy that waits for it in force, with the MASK key that the buddy holds (R227, R383). -/
def Obligations.SessionEvents : Prop :=
  (∀ (n : Nat) (s : State) (x : Session), tfind s.sessions n = some x → x.closing.isSome = true → s.hasLive n = false →
    ∃ t, exec (.sessionCloseDone n) s = .next t ∧ (∀ m, m ≠ n → tfind t.sessions m = tfind s.sessions m) ∧
      tfind t.sessions n = none ∧ t.requests = s.requests.filter (fun q => q.session != n) ∧
      t.streams = s.streams.filter (fun q => q.session != n) ∧ t.tx = s.tx.filter (fun q => q.session != n) ∧
      t.rx = s.rx.filter (fun q => q.session != n) ∧ t.images = s.images ∧ t.keysets = s.keysets ∧
      (∀ sl w, tfind s.slots x.slot = some sl → sl.closing = false → s.waits.find? (fun w => w.verb = 6 ∧ w.key = n) = some w →
        w.slot = x.slot → AnswersWait w 0 [] s t)) ∧
  ∀ (n : Nat) (s : State) (w : WaitVerb) (pol : Policy) (tag : Nat) (detail : List Byte) (mask : Block), s.takesPeer 0 →
    s.waits.find? (fun w => w.verb = 6 ∧ w.key = n ∧ w.bind.isSome) = some w → w.bind = some (pol, tag, detail, mask) →
    ∃ (t : State) (x : Session), exec (.mirroredSessionStateAck n) s = .next t ∧ tfind t.sessions n = some x ∧ x.policy = pol ∧
      (tfind s.sessions n = none → x.mask = mask ∧ x.keyTag = tag ∧ x.slot = w.slot) ∧
      (∀ m, m ≠ n → tfind t.sessions m = tfind s.sessions m) ∧ t.waits = s.waits.erase w ∧ AnswersWait w 0 detail s t ∧
      t = { s with sessions := t.sessions, waits := t.waits, slots := t.slots, out := t.out, regs := t.regs, boundHidden := false }

/-- ERASE_KEYSET of an absent set answers 0; of an installed one it stops acceptance in the mode given and waits; once the set
is quiet, ERASE_KEYSET_DONE removes it with the material under it, empties the pin slots and answers (R105, R111). INSTALL_KEYSET of a
bundle that passes every check keeps it under its tag, behind the sets installed before; one that fails a check, or whose copy
does not read back, changes no set (R101, R102). -/
def Obligations.KeySets : Prop :=
  (∀ (r : VerbReq) (tag mode : Nat) (s : State) (sl : Slot), Admitted r true s sl →
    ((∀ k ∈ s.keysets, k.tag ≠ tag) → ∃ t, exec (.eraseKeyset r tag mode) s = .next t ∧ AnswerOnly r 0 [] sl s t) ∧
    ((∃ k ∈ s.keysets, k.tag = tag) → ∃ t, exec (.eraseKeyset r tag mode) s = .next t ∧
      VerbWaits r 3 sl s { s with keysets := t.keysets, waits := t.waits, pending := t.pending } t ∧
      t.keysets = s.keysets.map (fun k => if k.tag = tag then { k with erasing := some mode } else k) ∧
      t.waits = s.waits ++ [{ slot := r.slot, tag := r.tag, verb := 3, key := tag }] ∧
      t.pending = s.pending ++ (if s.setQuiet tag then [.eraseKeysetDone tag] else []))) ∧
  (∀ (tag : Nat) (s : State), (∃ k ∈ s.keysets, k.tag = tag ∧ k.erasing.isSome = true) → s.setQuiet tag = true →
    ∃ t, exec (.eraseKeysetDone tag) s = .next t ∧ t.keysets = s.keysets.filter (fun k => k.tag != tag) ∧
      (∀ e ∈ t.sessions, e.2.keyTag = tag → e.2.classes = []) ∧ (∀ e ∈ t.images, e.2.pins = []) ∧
      t.requests = s.requests ∧ t.piers = s.piers ∧ t.spans = s.spans ∧ t.windows = s.windows ∧
      ∀ w, s.waits.find? (fun w => w.verb = 3 ∧ w.key = tag) = some w → AnswersWait w 0 [] s t) ∧
  ∀ (r : VerbReq) (src : WinRange) (images : List Nat) (good : Bool) (s : State) (sl : Slot) (bs : List Byte), Admitted r true s sl →
    s.gddrOk = true → 1 ≤ images.length → images.length ≤ 8 → (∀ h ∈ images, (tfind s.images h).isSome = true) →
    let s1 := admitted r 2 sl s
    readRange s1 r.slot src = some bs →
    ∃ t, exec (.installKeyset r src images good) s = .next t ∧
      (∀ c, checkKeyset s1 bs (images.filterMap fun h => tfind s.images h) = .error c → AnswerOnly r c [] sl s t) ∧
      (∀ x, checkKeyset s1 bs (images.filterMap fun h => tfind s.images h) = .ok x → good = true → s.keysets.length < 64 →
        (storeKeys x s1).isSome = true → (∀ o ∈ x.kept, getLe o.2 0x28 4 = crc32 (o.2.drop 64)) →
        ∃ k : KeySet, t.keysets = s.keysets ++ [k] ∧ k.tag = x.tag ∧ k.ring = x.ring ∧ k.images = images ∧ k.erasing = none ∧
          k.objs.map (fun o => (o.kind, o.galois, o.boot)) = x.kept.map (·.1) ∧
          VerbDone r 0 (leBytes 8 x.tag) [] sl s
            { s with keysets := t.keysets, mem := t.mem, objs := t.objs, nextId := t.nextId } t) ∧
      (∀ x, checkKeyset s1 bs (images.filterMap fun h => tfind s.images h) = .ok x → good = false → s.keysets.length < 64 →
        (storeKeys x s1).isSome = true → (∀ o ∈ x.kept, getLe o.2 0x28 4 = crc32 (o.2.drop 64)) →
        VerbDone r 0x0603 [] [] sl s { s with mem := t.mem, objs := t.objs, nextId := t.nextId } t)

/-! ### Images, windows, the system image -/

/-- LOAD_IMAGE with a handle to replace and no bytes closes that image's acceptance and waits, and the drained image then
leaves with its spans (R284, R301); LOAD_IMAGE of an image that fails a check answers its code and changes nothing; one that
passes them answers a lack of space or budget and changes nothing, or answers 0 with the lowest free handle, under which it
is loaded for the slot, every other image and span as before (Table 11-10, R299, R300). EXPORT_WEIGHTS of an image of the
partner seals the bundle under its own counter and waits while its bytes go out, 64 a step, into the first window with room, and
ends 0, or 0x0401 where a named window's epoch has changed; it answers BUSY where the windows are too small, and 0x0606 where
a backing copy fails its CRC (R85, R87 to R89; one step is one tick, the model's choice of log entry 52). -/
def Obligations.Images : Prop :=
  (∀ (r : VerbReq) (o : LoadOp) (s : State) (sl : Slot) (h : Nat) (im : Image), Admitted r true s sl → s.gddrOk = true →
    o.replace = some h → o.src.length = 0 → tfind s.images h = some im →
    ∃ t, exec (.loadImage r o) s = .next t ∧ (s.exporting h = true → AnswerOnly r 0x0402 [] sl s t) ∧ (s.exporting h = false →
      VerbWaits r 1 sl s { s with images := t.images, waits := t.waits, pending := t.pending } t ∧
      tfind t.images h = some { im with replacing := true } ∧ (∀ g, g ≠ h → tfind t.images g = tfind s.images g) ∧
      t.waits = s.waits ++ [{ slot := r.slot, tag := r.tag, verb := 1, key := h, load := some o }] ∧
      t.pending = s.pending ++ (if s.requests.any (fun q => q.handle == h && q.live) then [] else [.loadImageReplaceDrained h]))) ∧
  (∀ (h : Nat) (s : State) (w : WaitVerb) (o : LoadOp) (im : Image),
    s.waits.find? (fun w => w.verb = 1 ∧ w.key = h) = some w → (∀ q ∈ s.requests, q.handle = h → q.live = false) →
    w.load = some o → w.raw = [] → tfind s.images h = some im →
    ∃ t, exec (.loadImageReplaceDrained h) s = .next t ∧ tfind t.images h = none ∧
      (∀ g, g ≠ h → tfind t.images g = tfind s.images g) ∧ (∀ k ∈ im.spans, tfind t.spans k = none) ∧
      (∀ k, k ∉ im.spans → t.span k = s.span k) ∧ t.mem = s.mem ∧ t.sessions = s.sessions ∧ t.windows = s.windows ∧
      AnswersWait w 0 [] s t) ∧
  (∀ (r : VerbReq) (o : LoadOp) (s : State) (sl : Slot) (bs : List Byte), Admitted r true s sl → s.gddrOk = true → o.replace = none →
    let s1 := admitted r 1 sl s
    readRange s1 r.slot o.src = some bs →
    ∃ t, exec (.loadImage r o) s = .next t ∧
      (∀ c d, checkImage s1 o bs = some (c, d) → AnswerOnly r c d sl s t) ∧
      (checkImage s1 o bs = none →
        (∃ c, (c = 0x0402 ∨ c = 0x0506 ∨ c = 0x0507 ∨ (c = 0x0603 ∧ o.readBackOk = false)) ∧ AnswerOnly r c [] sl s t) ∨
        o.readBackOk = true ∧ ∃ (h : Nat) (im : Image), 1 ≤ h ∧ tfind s.images h = none ∧ (∀ g, 1 ≤ g → g < h → (tfind s.images g).isSome = true) ∧
          tfind t.images h = some im ∧ im.owner = r.slot ∧ im.loader = sl.partnerKey ∧ im.digest = sha3 (bs.take (imgLength bs)) ∧ im.winMap = o.winMap ∧
          im.spans.length = imgSpans bs ∧ (∀ k ∈ im.spans, tfind s.spans k = none) ∧
          (∀ g, g ≠ h → tfind t.images g = tfind s.images g) ∧ (∀ k, k ∉ im.spans → t.span k = s.span k) ∧
          t.keysets = s.keysets ∧ t.sessions = s.sessions ∧ lastOut t (.verb r.slot r.tag 0 (leBytes 2 h)))) ∧
  (∀ (r : VerbReq) (h : Nat) (places : List (Nat × Nat)) (s : State) (sl : Slot) (im : Image), Admitted r false s sl →
    tfind s.images h = some im → im.owner = r.slot → im.loader = sl.partnerKey → s.gddrOk = true → 1 ≤ places.length → places.length ≤ 4 →
    (∀ e ∈ places, s.ownWindow r.slot e.1 = true ∧ (s.win e.1).remote = true ∧ e.2 % 64 = 0 ∧ e.2 < (s.win e.1).length) →
    let s1 := admitted r 7 sl s
    let sealed := Config.aeadSeal sl.keys sl.ctrExport (exportBundle s1 im)
    let room := (places.map fun e => (s.win e.1).length - e.2).foldl (· + ·) 0
    ∃ t, exec (.exportWeights r h places) s = .next t ∧
      (room < sealed.length → AnswerOnly r 0x0402 [] sl s t) ∧
      (sealed.length ≤ room → badCopy s1 im = none → t = { s with regs := t.regs, slots := t.slots, waits := t.waits } ∧
        t.waits = s.waits ++ [{ slot := r.slot, tag := r.tag, verb := 7, key := h, raw := sealed
                                places := places.map fun e => (e.1, e.2, (s.win e.1).epoch) }] ∧
        tfind t.slots r.slot = some { sl with ctrIn := r.ctr, lastMgmt := s.now, onStandby := r.standby, verb := some (7, r.tag)
                                              ctrExport := sl.ctrExport + 1 }) ∧
      (∀ b, sealed.length ≤ room → badCopy s1 im = some b → lastOut t (.verb r.slot r.tag 0x0606 []) ∧
        t.repairs = s.repairs ++ [{ id := s.nextId, store := 6, addr := b.2, pier := b.1 }])) ∧
  ∀ (w : WaitVerb) (s : State), w.verb = 7 →
    (∀ e ∈ w.places, e.2.2 ≠ (s.win e.1).epoch → AnswersWait w 0x0401 [] s (exportStep w s) ∧ (exportStep w s).mem = s.mem) ∧
    ∀ (id off ep : Nat) (l : List (Nat × Nat × Nat)), w.places = (id, off, ep) :: l → (∀ e ∈ w.places, e.2.2 = (s.win e.1).epoch) →
      off < (s.win id).length → (s.win id).remote = true → w.raw ≠ [] →
      let n := min 64 ((s.win id).length - off)
      (n < w.raw.length → (exportStep w s).out = s.out ++ [.remoteWrite id off (w.raw.take n)] ∧ (exportStep w s).slots = s.slots ∧
        (w ∈ s.waits → ∃ v ∈ (exportStep w s).waits, v.raw = w.raw.drop n ∧ (id, off + n, ep) ∈ v.places)) ∧
      (w.raw.length ≤ n → AnswersWait w 0 [] s (exportStep w s) ∧ ∃ l, (exportStep w s).out = s.out ++ .remoteWrite id off w.raw :: l)

/-- The window commands of slot `p` on its staged fields (R361, R362, R365, R384): an open that meets the rules opens the
window with its fields; one on a system, used or misshapen window answers 0x0409; a close frees the window with its next
epoch, or retires it past 0xFFFF; a close with drain takes the epoch and drains, and ends free or retired, which lets the
WRITE_REG that waits for it go on. WIN_RESULT holds the code, and nothing else differs. -/
def Obligations.WindowCommands : Prop :=
  (∀ (p : Nat) (s : State), p < 8 →
    let w := s.reg prtWinId 0 p
    let e := s.win w
    let base := s.reg prtWinBaseLo 0 p + 2 ^ 32 * s.reg prtWinBaseHi 0 p
    let n := s.reg prtWinLength 0 p
    let remote := s.reg prtWinKind 0 p == 1
    let res := remote && s.reg prtWinResidency 0 p == 1
    let ends := fun (t : State) (code : Nat) (x : Window) => t = { s with windows := t.windows, regs := t.regs } ∧
      regsBut [prtWinResult.key 0 p] s t ∧ t.reg prtWinResult 0 p = code ∧ t.win w = x ∧ ∀ v, v ≠ w → t.win v = s.win v
    (16 ≤ w → w < 1024 → e.st = .free → n ≠ 0 → n % 64 = 0 → n ≤ 0xFFFFFFC0 → base % 64 = 0 →
      (remote = false → s.windowPlaceOk base n = true ∧ s.windowOverlap base n = false) →
      (res = true → s.bitmapOk p (s.reg prtWinBitmap 0 p) n = true) →
      ∃ t, exec (.windowOpen p) s = .next t ∧ ends t 0 { e with
        st := .opened, owner := p, remote := remote, base := base, length := n, rkey := s.reg prtWinRkey 0 p
        residency := res, bitmap := s.reg prtWinBitmap 0 p }) ∧
    (w < 16 ∨ e.st ≠ .free ∨ n = 0 ∨ n % 64 ≠ 0 ∨ base % 64 ≠ 0 → ∃ t, exec (.windowOpen p) s = .next t ∧ ends t 0x0409 e) ∧
    (closeCode p w s = 0 →
      (∃ t x, exec (.windowClose p) s = .next t ∧ ends t 0 x ∧ (e.epoch < 0xFFFF → x = { epoch := e.epoch + 1 }) ∧
        (0xFFFF ≤ e.epoch → x.st = .retired)) ∧
      ∃ t, exec (.windowCloseDrain p) s = .next t ∧
        ends t 0 { e with st := .draining, epoch := min (e.epoch + 1) 0x10000, noted := false }) ∧
    (closeCode p w s ≠ 0 →
      (∃ t, exec (.windowClose p) s = .next t ∧ ends t (closeCode p w s) e) ∧
      ∃ t, exec (.windowCloseDrain p) s = .next t ∧ ends t (closeCode p w s) e)) ∧
  ∀ (w : Nat) (s : State), (s.win w).st = .draining →
    let ended := fun (t : State) => ((s.win w).epoch ≤ 0xFFFF → t.win w = { epoch := (s.win w).epoch }) ∧
      (0xFFFF < (s.win w).epoch → (t.win w).st = .retired) ∧ ∀ v, v ≠ w → t.win v = s.win v
    (s.waits.find? (fun x => x.verb = 9 ∧ x.key = w) = none →
      ∃ t, exec (.windowDrainDone w) s = .next t ∧ ended t ∧ t = { s with windows := t.windows }) ∧
    ∀ x, s.waits.find? (fun x => x.verb = 9 ∧ x.key = w) = some x → x.pairs = [] →
      ∃ t, exec (.windowDrainDone w) s = .next t ∧ ended t ∧ t.waits = s.waits.erase x ∧ AnswersWait x 0 [] s t

/-- SYS_COMMAND on a range of the slot's window (R396 to R399, Table 15-2): bytes that fail step 1 give 0x0804 in SYS_RESULT
and a record, and the installed image stays; a new system image of a device with nothing loaded and no accepted work sets
DEVICE_ID, ID_VALID, SYSIMG_GEN, OPER_VERSION and the buddy fields, and every peer starts unreachable. -/
def Obligations.SystemImage : Prop :=
  ∀ (p : Nat) (remote : List Byte) (s : State), p < 8 → s.wideOther p = false →
    let n := s.dreg tbSysLength
    let bs := (readRange s p { window := s.dreg tbSysWindow, offset := s.dreg tbSysOffset, length := n, remote := remote }).getD []
    let i := parseSys bs
    (sysFormOk bs n = false → ∃ t, exec (.sysCommand p remote) s = .next t ∧ t = { s with regs := t.regs, mem := t.mem } ∧
      t.dreg tbSysResult = 0x0804 ∧ Recorded { code := 0x0804, action := 0, unit := 8 } s t ∧
      regsBut [tbSysResult.key 0 0, rasFaultWritten.key 0 0] s t) ∧
    ∀ (me : SysDev) (s1 : State) (cs : List Channel), sysFormOk bs n = true →
      (getLe bs 6 1 = s.fwVersion ∨ getLe bs 6 1 + 1 = s.fwVersion) → s.dreg tbSysimgGen < getLe bs 0x10 4 →
      sysDevicesOk s i = true → sysChannelsOk i = true → s.sys = none → s.images = [] → s.working = false →
      s.sysEntry i = [me] →
      placeChannels me.id (i.channels.filter fun c => c.src == me.id || c.dst == me.id)
        { s with sys := some { i with channels := [] } } = some (s1, cs) →
      ∃ t, exec (.sysCommand p remote) s = .next t ∧ t.sys = some { i with channels := cs } ∧ t.mem = s1.mem ∧
        t.dreg tbSysResult = 0 ∧ t.dreg tbDeviceId = me.id ∧ t.dreg tbIdValid = 1 ∧ t.dreg tbSysimgGen = getLe bs 0x10 4 ∧
        t.dreg tbOperVersion = getLe bs 6 1 ∧ t.dreg prtBuddyNone = (if me.buddy.isNone then 1 else 0) ∧
        t.dreg prtBuddyId = me.buddy.getD 0 % 4096 ∧ t.dreg prtBuddyState = (if me.buddy.isNone then 0 else 2) ∧
        (∀ e ∈ t.peers, e.2.state = 2) ∧ t.slots = s.slots ∧ t.windows = s.windows ∧ t.sessions = s.sessions

/-! ### Resets, power, time of the device -/

/-- SPAN_RESET, PIER_RESET, their end, PORT_RESET and WARM_RESET (R449, R450, R452 to R454): each unit that they name returns
to its reset state and no other; a span then waits 16,384 fc; a reset without the right changes nothing. -/
def Obligations.Resets : Prop :=
  (∀ (p mask : Nat) (s : State), p < 8 →
    (spanResetCode p mask s ≠ 0 → exec (.spanReset p mask) s = .next s) ∧
    (spanResetCode p mask s = 0 → ∃ t, exec (.spanReset p mask) s = .next t ∧
      (∀ k ∈ s.named mask, (s.span k).resetting = false → (t.span k).recovery = .resetting (s.clk.fc + 16384) none true ∧
        (t.span k).batch = none ∧ (t.span k).running = false ∧ (t.span k).holds = []) ∧
      ∀ k, k ∉ s.named mask → t.span k = s.span k)) ∧
  (∀ (p q : Nat) (s : State), p < 8 → q < 192 →
    (s.pierState q ≠ 1 → ∃ t, exec (.pierReset p q) s = .next t ∧ t = { s with mem := t.mem, regs := t.regs } ∧
      Recorded { code := 0x0501, action := 0, unit := 1, pier := q } s t) ∧
    (∀ k st, s.pierState q = 1 → s.spanOf q = some (k, st) → s.ownsSpan p k = true → (s.span k).resetting = false →
      ∃ t, exec (.pierReset p q) s = .next t ∧ (t.span k).recovery = .resetting (s.clk.fc + 16384) none true ∧
        (t.pier q).bench = [] ∧ (t.pier q).tiles = [] ∧ (t.pier q).seq.bank = 0 ∧
        t.dreg rstPierCount = satAdd 16 (s.dreg rstPierCount) 1 ∧ spansBut k s t)) ∧
  (∀ (k : Nat) (s : State), k < 16 →
    (∀ fc r, (s.span k).recovery = .resetting fc none r → fc ≤ s.clk.fc → ∃ t, exec (.spanResetDone k) s = .next t ∧
      (t.span k).recovery = .none ∧ t.piers = s.piers ∧ t.mem = s.mem ∧ spansBut k s t) ∧
    ∀ fc q r, (s.span k).recovery = .resetting fc (some q) r → fc ≤ s.clk.fc → ∃ t, exec (.spanResetDone k) s = .next t ∧
      t = { s with spans := t.spans } ∧ t.span k = { s.span k with recovery := .testing q r } ∧ spansBut k s t) ∧
  (∀ (p mask : Nat) (s : State), p < 8 → ∃ t, exec (.portReset p mask) s = .next t ∧ t.mem = s.mem ∧ t.slots = s.slots ∧
    t.windows = s.windows ∧ t.qps = s.qps ∧ t.sessions = s.sessions ∧
    ∀ k, k < 8 → ∀ f ∈ [prtLinkUp, prtSpeedActive, prtFcsErrors, prtDrops, prtRxPackets, prtTxPackets, prtCnpReceived],
      t.reg f 0 k = if bit mask k then 0 else s.reg f 0 k) ∧
  ∀ (p tag : Nat) (s : State), p < 8 → s.wideOther p = false → ∃ t, exec (.warmReset p tag) s = .next t ∧ t.pwr.lastReset = 2 ∧
    t.lie = {} ∧ t.waits = [] ∧ t.windows = s.windows ∧ (∀ q, (t.pier q).bench = [] ∧ (t.pier q).tiles = []) ∧
    ∀ k, (t.span k).running = false

/-- POR, PIN and the fall of PWR_GOOD and RESET_N (R410, R451, R485, R490 to R492, Table 17-7): every store, table and queue
of the device is empty, OTP stays, straps are latched, and boot runs only when power and RESET_N are high and the checks
pass; the checks are repeated while tries are left. -/
def Obligations.PowerOnAndReset : Prop :=
  let emptied := fun (s t : State) => t.piers = [] ∧ t.spans = [] ∧ t.images = [] ∧ t.keysets = [] ∧ t.sessions = [] ∧
    t.requests = [] ∧ t.slots = [] ∧ t.windows = [] ∧ t.qps = [] ∧ t.journal = [] ∧ t.sys = none ∧ t.out = s.out ∧
    t.pending = s.pending ∧ (∀ a, a < llmBase ∨ llmBase + 16384 ≤ a → mget t.mem a = 0) ∧
    t.ks.fwSvn = s.ks.fwSvn ∧ t.ks.serial = s.ks.serial ∧ t.ks.fused = s.ks.fused ∧ t.ks.retired = s.ks.retired ∧
    t.ks.operatorHash = s.ks.operatorHash ∧ t.ks.bankA = s.ks.bankA ∧ t.ks.bankB = s.ks.bankB ∧
    ∀ f ∈ devPwrFields ++ devLlmFields ++ devLieFields, f.home = .stored → t.dreg f = f.reset
  let straps := fun (st : Straps) (t : State) => t.pwr.bootsel = st.bootsel % 8 ∧ t.pwr.nodeId = st.nodeId % 4096 ∧
    t.pwr.netSplit = st.netSplit ∧ t.pwr.g7rate = st.g7rate % 4
  let booted := fun (bootsel : Nat) (k : Keystone) (t : State) =>
    t.ks.boot = if (k.flash bootsel).any fun c => k.accepts c.2 then 1 else 3
  (∀ (st : Straps) (s : State), ∃ t, exec (.por st true) s = .next t ∧ emptied s t ∧ straps st t ∧ t.pwr.lastReset = 0 ∧
    t.pins.pwrGood = true ∧ (s.pins.resetN = true → booted (st.bootsel % 8) s.ks t) ∧ (s.pins.resetN = false → t.ks.boot = 0)) ∧
  (∀ (st : Straps) (s : State), ∃ t, exec (.por st false) s = .next t ∧ emptied s t ∧ t.ks.boot = 0 ∧ t.pins.porTries = 1000) ∧
  (∀ s : State, s.pins.porTries ≠ 0 → exec (.porCheckRetry false) s = .next { s with
      pins := { s.pins with porTries := s.pins.porTries - 1, porDead := s.pins.porTries == 1 } } ∧
    ∃ t, exec (.porCheckRetry true) s = .next t ∧ emptied s t ∧ t.pins.porTries = 0 ∧
      (s.pins.resetN = true → booted s.pwr.bootsel s.ks t)) ∧
  (∀ (st : Straps) (s : State), s.pins.pwrGood = true → s.pins.porTries = 0 → s.pins.porDead = false →
    ∃ t, exec (.pin st) s = .next t ∧ emptied s t ∧ straps st t ∧ t.pwr.lastReset = 1 ∧ t.pins.resetN = true ∧
      booted (st.bootsel % 8) s.ks t) ∧
  (∀ s : State, ∃ t, exec .resetNAssertion s = .next t ∧ emptied s t ∧ t.pins.resetN = false ∧ t.ks.boot = 0) ∧
  ∀ s : State, ∃ t, exec .pwrGoodFall s = .next t ∧ emptied s t ∧ t.pins.pwrGood = false ∧ t.ks.boot = 0

/-- The JTAG port (R487): IDCODE shifts out 0x1C1768B5 and then the data; BYPASS delays the data by one bit; SAMPLE/PRELOAD,
and EXTEST while RESET_N is low, shift out the boundary register and take the data; the TAP reset selects IDCODE. Nothing
but the pins' state and what is sent differs. -/
def Obligations.JtagPort : Prop :=
  (∀ (ir : Nat) (data : List Bool) (s : State), s.pins.pwrGood = true →
    ∃ (t : State) (bits : List Bool), exec (.tapInstruction ir data) s = .next t ∧ t = { s with pins := t.pins, out := t.out } ∧
      t.out = s.out ++ [.tdo bits] ∧ bits.length ≤ data.length ∧
      (ir = 1 → bits = (((List.range 32).map fun i => bit 0x1C1768B5 i) ++ data).take data.length ∧
        t.pins = { s.pins with tapIr := 1, extest := false }) ∧
      (ir = 2 → bits = (s.pins.boundary ++ data).take data.length ∧
        t.pins = { s.pins with tapIr := 2, extest := false, boundary := data }) ∧
      (ir = 3 → s.pins.resetN = false → t.pins = { s.pins with tapIr := 3, extest := true, boundary := data }) ∧
      (3 < ir ∨ ir = 0 ∨ (ir = 3 ∧ s.pins.resetN = true) → bits = (false :: data).take data.length ∧
        t.pins = { s.pins with tapIr := 0, extest := false })) ∧
  ∀ s : State, exec .trstNAssertion s = .next { s with pins := { s.pins with tapIr := 1, extest := false } }

/-- The requests of slots on power (R447, R457), and entry to standby: STANDBY_REQ is noted with its form; WAKE_AT_HI puts
WAKE_AT in force where it lies above TB_NS; once every request has committed and the device is in A0, every attachment and
session ends and the entry of A4 begins, 30 ms long. -/
def Obligations.Standby : Prop :=
  (∀ (p : Nat) (s : State), p < 8 →
    exec (.standbyReqGddrKept p) s = .next { s with pwr := { s.pwr with standbyReq := 1 } } ∧
    exec (.standbyReqGddrOff p) s = .next { s with pwr := { s.pwr with standbyReq := 2 } } ∧
    ∀ v, let at_ := s.dreg pwrWakeAtLo + 2 ^ 32 * (v % 2 ^ 32)
      ∃ t, exec (.wakeAtHi p v) s = .next t ∧ t = { s with regs := t.regs, pwr := { s.pwr with wakeAt := if at_ ≤ s.now then 0 else at_ } } ∧
        t.dreg pwrWakeAtHi = v % 2 ^ 32 ∧ regsBut [pwrWakeAtHi.key 0 0] s t) ∧
  ∀ s : State, s.pwr.standbyReq ≠ 0 → s.working = false → s.awake = true →
    ∃ t, exec .standbyEntry s = .next t ∧ t.slots = [] ∧ t.sessions = [] ∧ t.keysets = s.keysets ∧
      t.pwr = { s.pwr with
        standbyReq := 0, gddrOff := s.pwr.standbyReq == 2, wakePending := false, move := .entering .a4 (s.now + 30000000) } ∧
      ∀ e ∈ t.peers, e.2.state = 2 ∧ e.2.upA = false ∧ e.2.upB = false

/-- The power states (R441 to R446): a decision enters no state deeper than DEEPEST_AUTO nor one whose conditions fail; an
entry that is due reaches its state and counts it; a scheduled resume, and a wake, begin the resume, whose end is A0 with the
commands that frames brought in order behind those that wait, and a change of FC_ACTIVE where its cause has changed. -/
def Obligations.PowerStates : Prop :=
  (∀ s : State, s.dozes = true → (s.pwr.move = .steady ∨ ∃ x, s.pwr.move = .scheduled x) →
    s.choice.depth ≤ s.dreg pwrDeepestAuto ∧ (s.choice = .a0 ∨ s.mayEnter s.choice = true) ∧
    ∃ t, exec .pstateDecision s = .next t ∧ t = { s with pwr := t.pwr } ∧ t.pwr.state = s.pwr.state ∧
      (s.pwr.state.depth < s.choice.depth → t.pwr.move = .entering s.choice (s.now + entryNs s.choice)) ∧
      (s.choice.depth ≤ s.pwr.state.depth → s.pwr.state ≠ .a0 → t.pwr.move = s.resumeAt)) ∧
  (∀ (s : State) (p : PState) (done : Nat), s.pwr.move = .entering p done → done ≤ s.now → p ≠ .a0 →
    ∃ t, exec .pstateEntered s = .next t ∧ t.pwr.state = p ∧
      t.dreg (entries_ p) = satAdd (entries_ p).w (s.dreg (entries_ p)) 1 ∧
      (p = .a1 ∨ p = .a2 → t.mem = s.mem ∧ t.piers = s.piers ∧ t.slots = s.slots ∧ t.sessions = s.sessions) ∧
      (p = .a3 → t.mem = s.mem ∧ t.slots = s.slots ∧ ∀ q, (t.pier q).bench = [] ∧ (t.pier q).imem = []) ∧
      (p = .a4 → t.slots = [] ∧ t.sessions = [] ∧ (∀ q, (t.pier q).bench = []) ∧ (s.pwr.gddrOff = true → t.mem = []))) ∧
  (∀ (s : State) (x : Nat), s.pwr.move = .scheduled x → x ≤ s.now → exec .resumeStart s = .next { s with
    pwr := { s.pwr with move := .resuming (s.now + resumeNs s.pwr.state s.pwr.gddrOff) } }) ∧
  (∀ (s : State) (source : Nat), s.live = true → s.pwr.trip = false → 8 ≤ source → (source = 8 → s.pwr.wakeAt ≠ 0) →
    (source ≠ 8 → s.portsOff = false) → s.pwr.state ≠ .a0 → (s.pwr.move = .steady ∨ ∃ x, s.pwr.move = .scheduled x) →
    exec (.wake source) s = .next { s with pwr := { s.pwr with move := .resuming (s.now + resumeNs s.pwr.state s.pwr.gddrOff) } }) ∧
  ∀ (s : State) (done : Nat), s.pwr.move = .resuming done → done ≤ s.now →
    ∃ t, exec .resumeDone s = .next t ∧ t.pwr.state = .a0 ∧ t.pwr.move = .steady ∧ t.wakeBuf = [] ∧
      (s.pwr.state ≠ .a4 → t.pending = s.pending ++ s.wakeBuf.map (·.2.2) ++
        if t.fcWanted ≠ t.pwr.fcActive then [.fcActiveChange] else [])

/-- Clock, temperature and trips (R436 to R439): PROCHOT and the thermal throttle come into force with a record and end
without one, and FC_ACTIVE follows the slowest setting; TEMP_C takes each update, and at 110 °C, as at a supply fault, the
device trips: every bench is empty, and FAULT_N and THERM_N are low. -/
def Obligations.ClockAndTemperature : Prop :=
  let wanted := fun (s : State) (prochot throttle : Bool) =>
    max (s.dreg pwrFcSetting) (max (if prochot then s.dreg pwrProchotSetting else 0) (if throttle then 2 else 0))
  let change := fun (s : State) (prochot throttle : Bool) => if wanted s prochot throttle ≠ s.pwr.fcActive then [Instr.fcActiveChange] else []
  let tripped := fun (s t : State) => t.pwr.trip = true ∧ t.pwr.state = .a0 ∧ (∀ q, (t.pier q).bench = []) ∧
    (∀ k, (t.span k).running = false) ∧ (s.live = true → t.faultLow = true ∧ t.thermLow = true)
  (∀ s : State, s.live = true → s.pwr.prochot = false → s.pwr.state ≠ .a3 → s.pwr.state ≠ .a4 →
    ∃ t, exec .prochotOnset s = .next t ∧ Recorded { code := 0x0901, action := 0, unit := 0 } s t ∧
      t = { s with mem := t.mem, regs := t.regs, pwr := { s.pwr with prochot := true }
                   pending := s.pending ++ change s true s.pwr.throttle }) ∧
  (∀ s : State, s.pwr.prochot = true → exec .prochotEnd s = .next { s with
    pwr := { s.pwr with prochot := false }, pending := s.pending ++ change s false s.pwr.throttle }) ∧
  (∀ s : State, exec .fcActiveChange s = .next { s with pwr := { s.pwr with fcActive := wanted s s.pwr.prochot s.pwr.throttle } }) ∧
  (∀ (s : State) (temp : Nat), s.live = true → ∃ t, exec (.tempUpdate temp) s = .next t ∧
    (temp < 110 ∨ s.pwr.trip = true → t.dreg pwrTempC = min temp 255 ∧ t.pwr.trip = s.pwr.trip ∧ t.piers = s.piers ∧
      (s.pwr.throttle = false → (t.pwr.throttle = true ↔ s.dreg pwrThrottleC ≤ min temp 255)) ∧
      (s.pwr.throttle = true → t.pwr.throttle = true)) ∧
    (110 ≤ temp → s.pwr.trip = false → tripped s t)) ∧
  (∀ (s : State) (x : Nat), s.pwr.coolAt = some x → s.pwr.throttle = true → x + 10000000 ≤ s.now →
    exec .throttleEnd s = .next { s with
      pwr := { s.pwr with throttle := false }, pending := s.pending ++ change s s.pwr.prochot false }) ∧
  ∀ s : State, s.live = true → s.pwr.trip = false → ∃ t, exec .supplyFault s = .next t ∧ tripped s t

/-- COUNTER_CLEAR zeroes the counters of its block and nothing else, and of an Active pier's block likewise; the sequencer's
is no partner's to write (R274). CACHE_STEPS with no image loaded and nothing above the new boundary takes its value; the
cells from the lower boundary on read zero and every other as before; with an image loaded nothing happens (R335). -/
def Obligations.CountersAndCache : Prop :=
  (∀ (p : Nat) (s : State) (a : Nat) (fs : List Fld), p < 9 → (a, fs) ∈ devCounters →
    ∃ t, exec (.counterClear p a) s = .next t ∧ t = { s with regs := t.regs } ∧ (∀ f ∈ fs, ∀ i, i < f.count → t.reg f 0 i = 0) ∧
      ∀ k, (∀ f ∈ fs, f.owns k = false) → ∀ d, tget d t.regs k = tget d s.regs k) ∧
  (∀ (p q : Nat) (s : State) (o : Nat) (fs : List Fld), p < 9 → q < 192 → s.pierState q = 1 → (o, fs) ∈ pierCounters →
    let a := 0x01000000 + 0x10000 * q + o
    (p = 8 ∨ o ≠ seqClearOff → ∃ t, exec (.counterClear p a) s = .next t ∧ t = { s with regs := t.regs } ∧
      (∀ f ∈ fs, t.reg f q 0 = 0) ∧ regsBut (fs.map fun f => f.key q 0) s t) ∧
    (p < 8 → o = seqClearOff → exec (.counterClear p a) s = .next s)) ∧
  ∀ (p v : Nat) (s : State), p < 8 →
    let n := v % 16
    let size := (384 - 32 * n) * 2 ^ 20
    (s.images ≠ [] → exec (.cacheSteps p v) s = .next s) ∧
    (1 ≤ n → n ≤ 10 → s.images = [] → s.llmAbove size = false → ∃ t, exec (.cacheSteps p v) s = .next t ∧
      t = { s with regs := t.regs, mem := t.mem, llmCache := [] } ∧ t.dreg llmCacheSteps = n ∧ regsBut [llmCacheSteps.key 0 0] s t ∧
      ∀ a, mget t.mem a = if llmBase + min size s.scratch ≤ a ∧ a < gddrBase 0 then 0 else mget s.mem a)

/-- IMEM_WRITE (R275): aimed at the active bank, or at a shadow bank that is armed for a swap, it is refused with 0x0502; it
changes no byte of instruction memory, and IMEM_ADDR stays as it was, or as it was staged. -/
def Obligations.ImemWriteRefusal : Prop :=
  ∀ (p data : Nat) (staged : Option (Nat × Nat × Nat)) (s : State), p < 192 → s.pierState p = 1 →
    let bank := (staged.map fun g => g.1 % 2).getD (s.reg seqImemBank p 0)
    let addr := (staged.map fun g => g.2.2 / 16 % 4096).getD (s.reg seqImemAddr p 0)
    (bank = (s.pier p).seq.bank ∨ (s.pier p).seq.armed = true) →
    ∃ t, exec (.imemWrite p staged data) s = .next t ∧ t = { s with mem := t.mem, regs := t.regs } ∧
      Recorded { code := 0x0502, action := 0, unit := 1, pier := p } s t ∧ (t.pier p).imem = (s.pier p).imem ∧
      t.reg seqImemAddr p 0 = addr

/-- IMEM_WRITE of the tollhouse stores its 16 bytes at the staged place of the unarmed shadow bank and moves IMEM_ADDR on by 16
(R274); SWAP_ARM of 1 arms the swap and 0 cancels it (R276). -/
def Obligations.InstructionMemory : Prop :=
  ∀ (p : Nat) (s : State), p < 192 → s.pierState p = 1 →
    (∀ bank target addr data, bank < 2 → target < 4 → addr < 65536 → bank ≠ (s.pier p).seq.bank → (s.pier p).seq.armed = false →
      ∃ t, exec (.imemWrite p (some (bank, target, addr)) data) s = .next t ∧ piersBut p s t ∧ t.mem = s.mem ∧
        t.pier p = { s.pier p with imem := mputs (s.pier p).imem (imemBase bank target + 16 * (addr / 16)) (leBytes 16 data) } ∧
        t.reg seqImemAddr p 0 = (addr / 16 + 1) % 4096 ∧ (∀ k, k < 4 → t.reg seqImemData p k = fld data (32 * k) 32) ∧
        regsBut ([seqImemBank.key p 0, seqImemTarget.key p 0, seqImemAddr.key p 0] ++
          (List.range 4).map fun k => seqImemData.key p k) s t) ∧
    ∀ v, ∃ t, exec (.swapArm p v) s = .next t ∧ piersBut p s t ∧ t = { s with piers := t.piers } ∧
      t.pier p = { s.pier p with seq := { (s.pier p).seq with armed := v % 2 == 1 } }

/-- GO and ABORT of the long-integer engine, and the start and end of an operation (R429 to R432): GO queues the operation, or
is refused BUSY, or outside the window; ABORT takes it out of queue or engine with STATUS 0x0704, its destination untouched,
and with nothing pending changes nothing; the head of the queue runs for its T; at its end its header and result slots are
stored, unless the two runs differ. -/
def Obligations.LongIntegerEngine : Prop :=
  (∀ (p : Nat) (s : State), p < 8 →
    let o : LieOp := { slot := p, src := s.lieSrc p, dst := s.lieDst p }
    let status := fun (t : State) (c : Nat) => t.reg lieStatus 0 p = c ∧ regsBut [lieStatus.key 0 p, lieLastRunFc.key 0 p] s t ∧
      t = { s with regs := t.regs, lie := t.lie }
    (s.lie.busy p = true → ∃ t, exec (.go p) s = .next t ∧ status t 0x0402 ∧ t.lie = s.lie) ∧
    (s.lie.busy p = false → s.lieWindowOk o = false → ∃ t, exec (.go p) s = .next t ∧ status t 0x0705 ∧ t.lie = s.lie) ∧
    (s.lie.busy p = false → s.lieWindowOk o = true → exec (.go p) s = .next { s with lie := { s.lie with queue := s.lie.queue ++ [o] } }) ∧
    (s.lie.busy p = false → exec (.abort p) s = .next s) ∧
    ((∃ x ∈ s.lie.queue, x.slot = p) → ∃ t, exec (.abort p) s = .next t ∧ status t 0x0704 ∧
      t.lie = { s.lie with queue := s.lie.queue.filter fun x => x.slot != p }) ∧
    ∀ x res code T fc, (∀ y ∈ s.lie.queue, y.slot ≠ p) → s.lie.running = some (x, res, code, T, fc) → x.slot = p →
      ∃ t, exec (.abort p) s = .next t ∧ status t 0x0704 ∧ t.lie.running = none ∧ t.lie.queue = s.lie.queue ∧ s.clk.fc < t.lie.zeroUntil) ∧
  (∀ (s : State) (o : LieOp) (rest : List LieOp), s.lie.running = none → s.lie.zeroUntil ≤ s.clk.fc → s.lie.queue = o :: rest →
    o.slot < 8 → s.lieWindowOk o = true →
    let bs := s.rd o.src (s.lieBlocks o.src).1
    let rand := s.dreg lieRandomise = 1
    (lieSlots (getLe bs 0 1)).isSome = true → lieLenOk (getLe bs 0 1) (getLe bs 1 1) rand = true →
    (lieRandom (getLe bs 0 1) rand = true → s.ks.rngOk = true) →
    ∃ (t : State) (res : List Byte) (code T : Nat), exec .lieOpStart s = .next t ∧ t.lie.queue = rest ∧
      t.lie.running = some (o, res, code, T, s.clk.fc + T) ∧ t.mem = s.mem ∧ t.regs = s.regs) ∧
  ∀ (s : State) (o : LieOp) (res : List Byte) (code T fc : Nat), s.lie.running = some (o, res, code, T, fc) → fc ≤ s.clk.fc →
    o.slot < 8 →
    (code = 0 → s.lieFits o.slot o.dst (64 + res.length) = true → ∃ t, exec (.lieOpDone false) s = .next t ∧ t.lie.running = none ∧
      t.mem = mputs s.mem o.dst (leBytes 64 0 ++ res) ∧ t.reg lieStatus 0 o.slot = 0 ∧
      t.reg lieLastRunFc 0 o.slot = T % 2 ^ lieLastRunFc.w ∧
      t.dreg lieOperations = satAdd lieOperations.w (s.dreg lieOperations) 1) ∧
    ∃ t, exec (.lieOpDone true) s = .next t ∧ t.lie.running = none ∧ t.reg lieStatus 0 o.slot = 0x0703 ∧
      Recorded { code := 0x0703, action := 0, unit := 6 } s t

/-! ### Requests, batches, spans -/

/-- The scan of submission windows and what a buddy acknowledges (R370 to R376, R106, R474 to R476): CONSUMED counts each
descriptor of the group, at once or as far as the buddy has acknowledged it, and the slots of the rest wait with 3; a COMMIT
that is acknowledged commits its request; mirrored records are held up to the first that R106 refuses; a handoff, or the
loss of its device, makes a mirrored request run here; a device that has lost its buddy stops every batch. A slot that the partner has not written ends a scan (log entry 62). -/
def Obligations.Submission : Prop :=
  let joins := fun (m : MirrorRec) (s t : State) =>
    t.mirrored = (s.mirrored.erase m).filter (fun y =>
      !(y.device == m.device && y.session == m.session && y.seq == m.seq && y.opening.isSome)) ∧
    (∃ x, t.request m.session m.seq = some x ∧ x.handedOff = true) ∧
    t.dreg rasHandoffsIn = satAdd rasHandoffsIn.w (s.dreg rasHandoffsIn) 1
  (∀ (p : Nat) (s : State) (sl : Slot), p < 8 → s.slots = [(p, sl)] → sl.closing = false → sl.due = [] → s.group = [] →
    s.dreg tbSyncState ≠ 0 → s.ks.boot = 1 → s.cutOff = false → s.pwr.state ≠ .a3 → s.pwr.state ≠ .a4 →
    s.pwr.standbyReq = 0 → s.hasBuddy = false →
    let r := scanSlot p 256 sl.consumed s []
    ∃ (t : State) (x : Slot), exec .windowScan s = .next t ∧ t.group = [] ∧ tfind t.slots p = some x ∧
      x.consumed = sl.consumed + r.1.length ∧ x.headWait = r.2.1 ∧ x.overrun = (sl.overrun || r.2.2) ∧
      ∀ q, q ≠ p → tfind t.slots q = none) ∧
  (∀ (n : Nat) (s : State), s.takesPeer 0 → s.group ≠ [] →
    ∃ t, exec (.mirrorAck n) s = .next t ∧ t.group = [] ∧ ∀ q sl, tfind s.slots q = some sl →
      ∃ x, tfind t.slots q = some x ∧ x.consumed = sl.consumed + ((s.group.take n).filter fun g => g.slot == q).length ∧
        ((∃ g ∈ s.group.drop n, g.slot = q) → x.headWait = 3)) ∧
  (∀ (se q : Nat) (s : State) (r : Request), s.takesPeer 0 → s.request se q = some r → r.st = .committing →
    ∃ (t : State) (x : Request), exec (.commitAck se q) s = .next t ∧ t.request se q = some x ∧ x.st = .committed ∧
      x.commitTime = s.now ∧ x.repeats = []) ∧
  (∀ (recs : List MirrorRec) (s : State), s.takesPeer 0 →
    let ok := recs.takeWhile fun r => mayMirror s r
    exec (.mirrorRecords recs) s = .next { s with
      mirrored := s.mirrored ++ ok
      out := s.out ++ (if ok.isEmpty then [] else [.mirrorAck ((recs.head?.map (·.device)).getD 0) ok.length]) ++
        ((recs.drop ok.length).head?.map fun r => Out.mirrorRefuse r.device r.session r.seq).toList }) ∧
  (∀ (o : HandoffOp) (s : State), s.takesPeer 0 →
    let found := s.mirrored.find? fun m => m.device = o.device ∧ m.session = o.session ∧ m.seq = o.seq ∧ m.opening.isNone
    (found = none → exec (.handoff o) s = .next (s.send (.mirrorRefuse o.device o.session o.seq))) ∧
    ∀ m, found = some m →
      (∀ r, o.committed = none → mirroredRequest s { m with imageDigest := o.imageDigest } = some r →
        s.request m.session m.seq = none → ∃ t, exec (.handoff o) s = .next t ∧ joins m s t) ∧
      ∀ c x, o.committed = some c → tfind s.sessions m.session = some x →
        ∃ t, exec (.handoff o) s = .next t ∧ t.mirrored = s.mirrored.erase m ∧ t.requests = s.requests) ∧
  (∀ s : State, s.hasBuddy = true → s.cutOff = false → s.peerGone (s.dreg prtBuddyId) 1 = true →
    ∃ t, exec .buddyLossTimeout s = .next t ∧
      t = { s with cutOff := true, spans := t.spans, piers := t.piers, links := t.links } ∧
      ∀ k, (t.span k).running = false ∧ (t.span k).batch = none) ∧
  ∀ s : State, let gone := s.mirrored.filter fun m => m.work && m.opening.isNone && s.peerGone m.device 2
    (gone = [] → exec .buddyTakeoverTimeout s = .next s) ∧
    ∀ m r, gone = [m] → mirroredRequest s m = some r → s.request m.session m.seq = none →
      ∃ t, exec .buddyTakeoverTimeout s = .next t ∧ joins m s t

/-- The life of a batch (R114, R247, R258, R378, R404): BATCH_WAIT fixes a launch of the waiting requests, not before the
oldest has waited its time; BATCH_PREPARE fills the tables of its piers; at the launch timestamp every stage starts at PC 0 of
its bank, swapped where it was armed, with the member count and serial in its first launch parameters; a feed launch does so for its slot, or
answers at once where the feed has no span. -/
def Obligations.Batches : Prop :=
  (∀ (k : Nat) (s : State), k < 16 → (s.span k).open = true → s.mayFix = true →
    let ws := s.joinable k
    let since := (ws.headD (0, 0, 0)).2.2
    ws ≠ [] → since + s.waitNs k ≤ s.now + Config.prepNs →
    ∃ (t : State) (b : Batch), exec (.batchWait k) s = .next t ∧ (t.span k).fixed = [b] ∧ b.serial = s.nextSerial ∧
      b.members.map (fun m => (m.session, m.seq)) = ws.map (fun w => (w.1, w.2.1)) ∧ since + s.waitNs k ≤ b.launchTs ∧
      b.keyTag = s.tagOf (ws.headD (0, 0, 0)).1 ∧ (∀ w ∈ ws, w ∉ (t.span k).waiting) ∧ spansBut k s t ∧ t.mem = s.mem ∧
      t.piers = s.piers) ∧
  (∀ (k : Nat) (s : State) (b : Batch) (r : List Batch), k < 16 → (s.span k).fixed = b :: r → (s.span k).batch = none →
    (s.span k).recovery = .none → (s.span k).blocked = none → s.mayLaunch = true → s.repairing k b.keyTag = false →
    b.prepTs ≤ s.now →
    ∃ (t : State) (tbl : List Byte), exec (.batchPrepare k) s = .next t ∧ (t.span k).fixed = r ∧
      (t.span k).batch = some { b with prepared := true, table := tbl } ∧ (b.feed = none → tbl.length = 64 * b.members.length) ∧
      (∀ p ∈ (s.span k).piers, (t.pier p).constTag = b.keyTag ∧ (t.pier p).members.length = b.members.length) ∧
      (∀ p, p ∉ (s.span k).piers → t.pier p = s.pier p) ∧ spansBut k s t ∧ t.regs = s.regs) ∧
  (∀ (k : Nat) (s : State) (b : Batch) (im : Image), k < 16 → (s.span k).batch = some b → s.imageOf k = some im →
    b.prepared = true → (s.span k).running = false → b.launchTs ≤ s.now → (s.span k).recovery = .none → s.mayLaunch = true →
    s.repairing k b.keyTag = false → s.inputsInUse k = false →
    ∃ t, exec (.launchTimestamp k) s = .next t ∧ (t.span k).running = true ∧ (t.span k).relFc = 0 ∧ (t.span k).holds = [] ∧
      (t.span k).level = 0 ∧ (t.span k).stop = none ∧ spansBut k s t ∧ t.mem = s.mem ∧
      ∀ p ∈ (s.span k).piers,
        let q := (t.pier p).seq
        q.st = .running ∧ q.pc = 0 ∧ q.routine = none ∧ q.due = 0 ∧ q.armed = false ∧ q.loops = [] ∧ q.stack = [] ∧
        q.bank = (if (s.pier p).seq.armed then 1 - (s.pier p).seq.bank else (s.pier p).seq.bank) ∧
        tget 0 q.params 0 = BitVec.ofNat 32 b.members.length ∧ tget 0 q.params 1 = BitVec.ofNat 32 (b.serial % 2 ^ 32) ∧
        (t.pier p).tiles = [] ∧ (t.pier p).acts = [] ∧ (t.pier p).poison = []) ∧
  ∀ (channel k b at_ : Nat) (r : List (Nat × Nat × Nat)) (s : State) (c : Channel), s.channelOf (1024 + channel) = some c →
    c.feeds = (k, b, at_) :: r →
    (s.feedSpan channel = none → ∃ t, exec (.feedLaunch channel k) s = .next t ∧
      t.out = s.out ++ [.stamp c.id k b false] ∧ Recorded { code := 0x0806, action := 0, unit := 8 } s t) ∧
    ∀ j, s.feedSpan channel = some j → (tfind s.spans j).isSome = true → (s.imageOf j).isSome = true →
      b + c.lag ≤ s.now / 1000 → at_ < 1000 * (s.now / 1000) → (s.span j).batch = none → (s.span j).recovery = .none →
      (s.span j).blocked = none → s.mayLaunch = true →
      ∃ (t : State) (x : Batch), exec (.feedLaunch channel k) s = .next t ∧ (t.span j).running = true ∧ (t.span j).relFc = 0 ∧
        (t.span j).batch = some x ∧ x.feed = some (c.id, k, b) ∧ x.launchTs = 1000 * (s.now / 1000) ∧ spansBut j s t

/-- Held and frozen spans and token windows (R264, R266, R297): a span held 12 fc ago freezes and one that was not thaws; the
window's end takes the next level and starts a new sum, and over the grant it records 0x0504 and halts the span; the time
that a WAITT waits for ends its hold. -/
def Obligations.HeldSpans : Prop :=
  (∀ (k : Nat) (s : State), k < 16 →
    ((s.span k).running = true → (s.span k).heldBack = true → ∃ t, exec (.spanFreeze k) s = .next t ∧
      t = { s with spans := t.spans } ∧ t.span k = { s.span k with frozen := true } ∧ spansBut k s t) ∧
    ((tfind s.spans k).isSome = true → (s.span k).heldBack = false → ∃ t, exec (.spanThaw k) s = .next t ∧
      t = { s with spans := t.spans } ∧ t.span k = { s.span k with frozen := false } ∧ spansBut k s t) ∧
    ((s.span k).running = true → 64 ≤ (s.span k).winFc →
      let sp := s.span k
      let next := { sp with winFc := 0, winSum := 0, winIndex := sp.winIndex + 1, level := sp.nextLevel }
      ∃ t, exec (.tokenWindowEnd k) s = .next t ∧ spansBut k s t ∧ t.piers = s.piers ∧
        (sp.winSum ≤ sp.grants.getD sp.level 0 → t.span k = next ∧ t.mem = s.mem) ∧
        (sp.grants.getD sp.level 0 < sp.winSum → sp.stop = none →
          t.span k = { next with stop := some (.commit 0x0504 none) } ∧
          Recorded { code := 0x0504, action := 3, unit := 0, span := k
                     detail := leBytes 4 sp.winIndex ++ leBytes 1 sp.level } s t) ∧
        ∀ p ∈ sp.piers, s.reg spnWindowPeak p 0 ≤ sp.winSum → sp.winSum < 2 ^ spnWindowPeak.w →
          t.reg spnWindowPeak p 0 = sp.winSum)) ∧
  ∀ (p k st : Nat) (s : State), p < 192 → s.spanOf p = some (k, st) →
    ∃ t, exec (.waittTarget p) s = .next t ∧ t = { s with spans := t.spans, regs := t.regs } ∧ spansBut k s t ∧
      t.span k = { s.span k with
        holds := (s.span k).holds.filter fun h => !(h.pier == p && h.src == .waitt && h.waits.all (· ≤ s.now)) }

/-- The events of the scoreboard and of chucks (R152, R154, R181, R182, R184, R185, Table 6-4): a range whose transfer has stored its last
row, or that no transfer holds, is FULL, one whose last reader has read it is free, and a hold for ARM then arms it, while a range that a
transfer still fills or reads stays as it is; a transfer that its entry admits starts; the oldest transfer that is complete leaves its
chuck; elements that GDDR answers move the cursor on by their number and wait, flit by flit, at the IO link (R31), and a burst that
fails after 8 reissues halts the span with 0x0605 (R352); an access that is not resident stops the walk, a resident one resumes it, and
so does a write whose answer only its window knows (the model's choice, log entry 65); a page that stays away too long, or a remote
error, aborts the span. A transfer that starts keeps the FILLING entries that it may wait for (the model's choice, log entry 64). -/
def Obligations.Transfers : Prop :=
  let noThen := fun (s : State) (k p : Nat) => ∀ h ∈ (s.span k).holds, h.pier = p → h.after = .nothing
  let freed := fun (s t : State) (k p e : Nat) => (∀ f, f ≠ e → (t.pier p).sbAt f = (s.pier p).sbAt f) ∧ spansBut k s t ∧
    piersBut p s t ∧ t.mem = s.mem ∧ ∀ h ∈ (t.span k).holds, ¬ (h.pier = p ∧ h.src = .scoreboard ∧ h.waits = [])
  (∀ (p k st e row n : Nat) (s : State), p < 192 → s.spanOf p = some (k, st) →
    let stored := (s.pier p).ripe e false s.clk.fc ≠ [] ∨ (s.pier p).heldBy e false = false
    ((s.pier p).sbAt e = some (.filling row n) → stored → noThen s k p →
      ∃ t, exec (.sbRangeFull p e) s = .next t ∧ (t.pier p).sbAt e = some (.full row n) ∧ freed s t k p e) ∧
    ((s.pier p).sbAt e = some (.filling row n) → ¬ stored → exec (.sbRangeFull p e) s = .next s) ∧
    (∀ r2 n2 since, (s.pier p).sbAt e = some (.filling row n) → stored →
      (s.span k).holds = [{ src := .armRel, pier := p, waits := [e], since := since, after := .arm e r2 n2 }] →
      ∃ t, exec (.sbRangeFull p e) s = .next t ∧ (t.pier p).sbAt e = some (.filling r2 n2) ∧ (t.span k).holds = []) ∧
    ((s.pier p).sbAt e = some (.draining row n 1) → (s.pier p).ripe e true s.clk.fc ≠ [] → noThen s k p →
      ∃ t, exec (.sbDrainDone p e) s = .next t ∧ (t.pier p).sbAt e = none ∧ freed s t k p e) ∧
    ((s.pier p).ripe e true s.clk.fc = [] → exec (.sbDrainDone p e) s = .next s)) ∧
  (∀ (p j : Nat) (s : State) (x : Xfer), p < 192 → ((s.pier p).chuck j).xfers = [x] → x.phase = .entryWait → x.d.dir = false →
    ((s.pier p).sbAt x.d.sbEntry = none → ∃ (t : State) (y : Xfer), exec (.chuckResume p j) s = .next t ∧
      ((t.pier p).chuck j).xfers = [y] ∧ y.phase ≠ .entryWait ∧
      y = { x with phase := y.phase, storedAt := s.clk.fc + 1, readAt := s.clk.fc, after := (s.pier p).fillings } ∧
      (∃ r n, (t.pier p).sbAt x.d.sbEntry = some (.filling r n)) ∧ piersBut p s t ∧ t.mem = s.mem) ∧
    ∀ r n, (s.pier p).sbAt x.d.sbEntry = some (.filling r n) → exec (.chuckResume p j) s = .next s) ∧
  (∀ (p k st j : Nat) (s : State) (x : Xfer) (r : List Xfer), p < 192 → s.spanOf p = some (k, st) →
    ((s.pier p).chuck j).xfers = x :: r → x.complete s.clk.fc = true → ((s.pier p).chuck j).waiting = [] →
    let moves := fun (xs : List Xfer) => xs.map fun y => { y with after := [] }
    ∃ t, exec (.chuckTransferDone p j) s = .next t ∧ moves ((t.pier p).chuck j).xfers = moves r ∧ piersBut p s t ∧
      t.mem = s.mem ∧ (∀ i, i ≠ j → moves ((t.pier p).chuck i).xfers = moves ((s.pier p).chuck i).xfers ∧
        ((t.pier p).chuck i).waiting = ((s.pier p).chuck i).waiting)) ∧
  (∀ (p k st j xi n failed : Nat) (data : List Byte) (s : State) (x : Xfer), p < 192 → s.spanOf p = some (k, st) →
    ((s.pier p).chuck j).xfers[xi]? = some x → x.d.dir = false → x.d.farKind = 2 → x.phase = .moving → x.index = none →
    (failed ≤ 8 → (∀ b, (s.span k).batch = some b → b.replay = false) → x.d.headers = false ∨ x.hdrDone = true →
      ∃ (t : State) (y : Xfer), exec (.chuckDataArrival p j xi n failed data) s = .next t ∧
        ((t.pier p).chuck j).xfers[xi]? = some y ∧ y.id = x.id ∧ y.d = x.d ∧
        y.cursor = x.cursor + min n (x.d.elems - x.cursor) ∧ piersBut p s t ∧ t.mem = s.mem ∧ t.spans = s.spans ∧
        ∃ fs, t.links = s.links ++ fs ∧ ∀ f ∈ fs, f.pier = p ∧ f.chuck = j ∧ f.xfer = x.id ∧ f.inb = true ∧ f.due = 0 ∧
          f.offered = s.clk.fc) ∧
    ∀ d c, 8 < failed → x.burstAt s p = some (d, c) → (s.span k).stop = none →
      ∃ t, exec (.chuckDataArrival p j xi n failed data) s = .next t ∧ (t.span k).stop = some (.replay 0x0605 none) ∧
        t.reg mcCrcRetries 0 d = satAdd mcCrcRetries.w (s.reg mcCrcRetries 0 d) 8 ∧
        t.reg mcLinkFails 0 d = satAdd mcLinkFails.w (s.reg mcLinkFails 0 d) 1 ∧ t.piers = s.piers ∧ spansBut k s t ∧
        Recorded { code := 0x0605, action := 2, unit := 3, span := k, detail := leBytes 1 d ++ leBytes 1 c } s t) ∧
  (∀ (p j : Nat) (s : State) (x : Xfer), p < 192 → (s.pier p).remoteXfer j = some x →
    let put := fun (z : Xfer) => ((s.pier p).chuck j).xfers.map fun y => if y.id = x.id then z else y
    let retry := s.now + 1000 * s.reg ckRetryUs p 0
    (x.phase = .moving ∨ x.phase = .rowWait → ∃ t, exec (.chuckPageStop p j) s = .next t ∧
      ((t.pier p).chuck j).xfers = put { flushPart x with phase := .pageWait s.now retry } ∧ t.reg ckPageWaits p 0 = satAdd ckPageWaits.w (s.reg ckPageWaits p 0) 1 ∧
      piersBut p s t ∧ t = { s with piers := t.piers, regs := t.regs }) ∧
    ∀ since next, x.phase = .pageWait since next →
      let known := (s.channelOf (windowOf x.d.farBase)).isSome || (s.win (windowOf x.d.farBase)).residency
      (known = true ∨ x.d.dir = true → accessOk s p x = true → ∃ t, exec (.chuckRetry p j) s = .next t ∧
        ((t.pier p).chuck j).xfers = put { x with phase := .moving } ∧ piersBut p s t ∧ t = { s with piers := t.piers, regs := t.regs }) ∧
      ((known = false ∧ x.d.dir = false) ∨ accessOk s p x = false → ∃ t, exec (.chuckRetry p j) s = .next t ∧
        ((t.pier p).chuck j).xfers = put { x with phase := .pageWait since retry } ∧ piersBut p s t ∧ t = { s with piers := t.piers })) ∧
  ∀ (p k st j : Nat) (s : State) (x : Xfer), p < 192 → s.spanOf p = some (k, st) → (s.pier p).remoteXfer j = some x →
    (s.span k).stop = none →
    let aborts := fun (cmd : Instr) (code : Nat) => ∃ t, exec cmd s = .next t ∧ t.piers = s.piers ∧ spansBut k s t ∧
      t.span k = { s.span k with stop := some (.abort code) } ∧
      Recorded { code := code, action := 3, unit := 1, pier := p, span := k, detail := streamDetail j x x.cursor } s t
    aborts (.streamRemoteError p j) 0x0304 ∧
    ∀ since next, x.phase = .pageWait since next → since + 1000 * s.reg ckRemoteTimeoutUs p 0 ≤ s.now →
      aborts (.chuckRemoteTimeout p j) 0x0302

/-- Timed actions, deck rows, replayed flits and the two overflows (R32, R212, R265, R293, R296): a send that is due is handed
over for each member; a timed transfer that is due moves; a row that has arrived is stored 6 fc on; a flit replayed twice
holds its spans until it is delivered; an overflow of the finished-tile queue or the send queue is recorded and halts. -/
def Obligations.TimedActionsAndDeck : Prop :=
  (∀ (p k st : Nat) (s : State) (a : TimedAct) (im : Image) (b : Batch) (h : HxpSlot), p < 192 → s.spanOf p = some (k, st) →
    (s.pier p).timed.find? (fun x => x.id = a.id) = some a → a.target ≤ s.now →
    (∀ y ∈ (s.span k).holds, y.pier = p → y.src ≠ .launch) → s.imageOf k = some im → (s.span k).batch = some b →
    im.hxp.find? (fun t => t.slot = a.sendSlot ∧ ¬ t.recv) = some h → (im.shardOf h.tensor).isSome = true →
    ∃ t, exec (.timedActionFire p a.id) s = .next t ∧ (t.pier p).timed = (s.pier p).timed.filter (fun x => x.id != a.id) ∧
      ∀ m ∈ b.members, (s.request m.session m.seq).isSome = true → (m.session, m.seq, h.step) ∈ t.sent) ∧
  (∀ (p k st j t0 : Nat) (s : State) (x : Xfer), p < 192 → s.spanOf p = some (k, st) → (∀ a ∈ (s.pier p).timed, a.id ≠ x.id) →
    j < 3 → x ∈ ((s.pier p).chuck j).xfers → (∀ i, i < 3 → ∀ y ∈ ((s.pier p).chuck i).xfers, y.id = x.id → i = j ∧ y = x) →
    x.phase = .timed t0 → t0 ≤ s.now → x.d.farKind ≠ 3 →
    ∃ t, exec (.timedActionFire p x.id) s = .next t ∧ piersBut p s t ∧ t = { s with piers := t.piers } ∧
      ((t.pier p).chuck j).xfers = ((s.pier p).chuck j).xfers.map fun y => if y.id = x.id then { x with phase := .moving } else y) ∧
  (∀ (p k st row : Nat) (s : State) (r : InRow), p < 192 → s.spanOf p = some (k, st) →
    (s.pier p).inbound.find? (fun r => r.id = row) = some r → r.arrives ≤ (s.span k).relFc →
    ∃ t, exec (.deckRowArrival p row) s = .next t ∧ piersBut p s t ∧ t = { s with piers := t.piers, regs := t.regs } ∧
      t.pier p = { s.pier p with
        inbound := (s.pier p).inbound.filter fun y => y.id != row
        acts := (s.pier p).acts ++ [Act.mk (r.arrives + 6) true 3 (.benchStore { col := false, row := r.drow, lane := 0 } r.words) none] }) ∧
  (∀ (link channel replays : Nat) (spans : List Nat) (s : State), link < 3 → spans.Nodup →
    (∀ k ∈ spans, (tfind s.spans k).isSome = true) →
    let known := s.flits.any fun f => f.1 == link && f.2.1 == channel
    ∃ t, exec (.flitReplay link channel replays spans) s = .next t ∧
      t.reg rasLinkReplays 0 link = satAdd rasLinkReplays.w (s.reg rasLinkReplays 0 link) 1 ∧ t.piers = s.piers ∧
      (replays < 2 ∨ known = true → t = { s with regs := t.regs }) ∧
      (2 ≤ replays → known = false → t.flits = s.flits ++ [(link, channel, replays, spans)] ∧
        Recorded { code := 0x0608, action := 0, unit := 4, detail := leBytes 1 link ++ leBytes 1 channel ++ leBytes 2 replays } s t ∧
        ∀ k, t.span k = { s.span k with holds := (s.span k).holds ++
          (if k ∈ spans then [{ src := .link, pier := 255, waits := [link, channel], since := s.clk.fc }] else []) })) ∧
  (∀ (link channel replays : Nat) (spans : List Nat) (s : State), link < 3 →
    s.flits.find? (fun f => f.1 = link ∧ f.2.1 = channel) = some (link, channel, replays, spans) →
    ∃ t, exec (.flitDelivered link channel) s = .next t ∧ t.mem = s.mem ∧ t.piers = s.piers ∧
      t.flits = s.flits.filter (fun g => !(g.1 == link && g.2.1 == channel)) ∧
      (∀ k ∈ spans, (t.span k).holds = (s.span k).holds.filter fun h => !(h.src == .link && h.waits == [link, channel])) ∧
      ∀ k, k ∉ spans → t.span k = s.span k) ∧
  ∀ (p k st : Nat) (s : State), p < 192 → s.spanOf p = some (k, st) → (s.span k).stop = none →
    ((s.span k).frozen = true → (∃ h ∈ (s.span k).holds, h.pier = p ∧ h.src = .ftq) →
      ((s.pier p).ftq.length < 8 ∨ ∀ e ∈ (s.pier p).ftq, e.taken = false) →
      ∃ t, exec (.ftqOverflow p) s = .next t ∧ (t.span k).stop = some (.commit 0x0104 (some p)) ∧
        (∀ h ∈ (t.span k).holds, ¬ (h.pier = p ∧ h.src = .ftq)) ∧
        Recorded { code := 0x0104, action := 3, unit := 1, pier := p, span := k } s t) ∧
    ((∃ h ∈ (s.span k).holds, h.pier = p ∧ h.src = .sendq) → (s.pier p).sendq.length < 16 →
      ∃ t, exec (.sendqOverflow p) s = .next t ∧ (t.span k).stop = some (.commit 0x0505 (some p)) ∧ t.piers = s.piers ∧
        (∀ h ∈ (t.span k).holds, ¬ (h.pier = p ∧ h.src = .sendq)) ∧
        Recorded { code := 0x0505, action := 3, unit := 1, pier := p, span := k } s t)

/-! ### Reliability -/

/-- The errors that a pier's checks find, self-tests and the steps of a takeover (R23, R29, R144, R160, R464, R468, Table 18-6): a bench
word read with a parity mismatch, or a mod-127 difference, is counted and recorded and halts the span for replay; a pier that passes
returns its span to work; for one that fails, or has failed too often, the designated spare whose routes are free is tested; a spare that
passes is burned as its replacement, recorded with ACTION 4, and takes its slice, its stage and its program in turn; a spare that fails with
no takeover waiting is retired with 0xFF and ACTION 0. A backing copy that fails its SHARD_CRC is repaired before the takeover goes on (the
model's choice, log entry 68). -/
def Obligations.Takeover : Prop :=
  (∀ (k st p : Nat) (e : EngErr) (s : State), p < 192 → (tfind s.spans k).isSome → (s.span k).stop = none →
    let t := foundErr k st p e s
    let counter := if e.engine = 2 then spResidueErrors else laResidueErrors
    t.piers = s.piers ∧ spansBut k s t ∧ t.span k = { s.span k with stop := some (.replay 0x0602 (some p)) } ∧
      t.reg counter p 0 = satAdd counter.w (s.reg counter p 0) 1 ∧
      Recorded { code := 0x0602, action := 2, unit := 1, pier := p, span := k
                 detail := leBytes 1 e.engine ++ leBytes 1 e.pos ++ leBytes 2 e.elem ++ leBytes 2 st } s t) ∧
  (∀ (p k st w : Nat) (keys : List Nat) (s : State), p < 192 → s.spanOf p = some (k, st) → (s.span k).stop = none →
    badWords (s.pier p).benchPar keys = [w] → w < 2 ^ 20 →
    let t := checkBench p keys s
    t.piers = s.piers ∧ spansBut k s t ∧ t.span k = { s.span k with stop := some (.replay 0x0601 (some p)) } ∧
      t.reg bnParityErrors p 0 = satAdd bnParityErrors.w (s.reg bnParityErrors p 0) 1 ∧
      t.reg bnParityLastRow p 0 = w / 64 ∧ t.reg bnParityLastLane p 0 = w % 64 ∧
      Recorded { code := 0x0601, action := 2, unit := 1, pier := p, span := k
                 detail := leBytes 2 (w / 64) ++ leBytes 1 (w % 64) ++ leBytes 1 ((w / 64 + w % 64) % 64) ++ leBytes 1 0 } s t) ∧
  (∀ (q : Nat) (s : State), q < 192 → s.pierState q = 2 →
    let u := { s with spareTests := s.spareTests.erase q }
    (q ∉ s.spareTests → ∀ pass, exec (.pierSelfTestDone q pass) s = .next s) ∧
    (q ∈ s.spareTests → s.awaiting q = [] →
      exec (.pierSelfTestDone q true) s = .next u ∧
      (s.degraded = true ∨ (retireSpare q u).isDegraded = false → ∃ t, exec (.pierSelfTestDone q false) s = .next t ∧
        t.ks = { s.ks with retired := s.ks.retired ++ [(q, 0xFF)] } ∧ t.piers = s.piers ∧ t.spareTests = u.spareTests ∧
        Recorded { code := 0x060A, action := 0, unit := 1, pier := q, detail := [0xFF] } s t)) ∧
    ∀ p k, q ∈ s.spareTests → s.awaiting q = [(k, p, true)] →
      ∃ t, exec (.pierSelfTestDone q true) s = .next t ∧ t.ks = { s.ks with retired := s.ks.retired ++ [(p, q)] } ∧
        t.span k = { s.span k with recovery := .takeover p q 3 } ∧ t.piers = s.piers ∧ t.dreg rasFaultLatch = 1 ∧
        t.spareTests = u.spareTests ∧
        Recorded { code := 0x060A, action := 4, unit := 1, pier := p, span := k, detail := [BitVec.ofNat 8 q] } s t) ∧
  (∀ (p k st : Nat) (replay : Bool) (s : State), p < 192 → s.pierState p ≠ 2 → s.spanOf p = some (k, st) →
    (s.span k).recovery = .testing p replay →
    let works := replay = false ∨ s.recentFaults p < s.dreg rasRetireThreshold
    (works → ∃ t, exec (.pierSelfTestDone p true) s = .next t ∧ (t.span k).recovery = .none ∧ t.piers = s.piers ∧
      t.mem = s.mem ∧ t.ks = s.ks ∧ spansBut k s t) ∧
    ∀ q pass, (pass = true → ¬ works) → tfind (s.span k).spares p = some q → s.pierState q = 2 → s.routeFree k p q = true →
      ∃ t, exec (.pierSelfTestDone p pass) s = .next t ∧
        t = { s with spareTests := q :: s.spareTests.erase q, spans := t.spans } ∧ spansBut k s t ∧
        t.span k = { s.span k with recovery := .takeover p q 2 }) ∧
  ∀ (p k q : Nat) (s : State) (im : Image), p < 192 → s.imageOf k = some im →
    (s.takeoverOf p 3 = some (k, q) →
      let read := restoreChecked q p (tget 0 im.backing p) (s.weightsOn p) s
      (read.1 = true → ∃ t, exec (.takeoverSliceWritten p true) s = .next t ∧
        (t.span k).recovery = .takeover p q 4 ∧ (t.span k).piers = (s.span k).piers ∧ t.piers = s.piers ∧
        ∀ a, a < sliceBase q ∨ (sliceBase (q + 1) ≤ a ∧ ∀ o ∈ s.objs, o.mib ≤ 32) → mget t.mem a = mget s.mem a) ∧
      (read.1 = false → ∃ t, exec (.takeoverSliceWritten p true) s = .next t ∧ t.spans = s.spans ∧ t.piers = s.piers ∧
        t.repairs = s.repairs ++ [{ id := s.nextId, store := 6, addr := tget 0 im.backing p, pier := p }] ∧
        t.dreg rasFaultWritten = (s.dreg rasFaultWritten + 1) % 2 ^ 32)) ∧
    (s.takeoverOf p 4 = some (k, q) →
      let piers := (s.span k).piers.map fun x => if x = p then q else x
      fitsAt im.raw im.winMap (s.span k).imgSpan piers = true → s.routeFree k p q = true → ∃ t, exec (.takeoverReverified p) s = .next t ∧
        t = { s with spans := t.spans } ∧ spansBut k s t ∧ t.span k = { s.span k with
          piers := piers, links := spanLinks piers (s.span k).edges, recovery := .takeover p q 5 }) ∧
    (s.takeoverOf p 5 = some (k, q) → ∃ t, exec (.takeoverProgramWritten p) s = .next t ∧ (t.span k).recovery = .none ∧
      t.mem = s.mem ∧ t.dreg rasTakeovers = satAdd rasTakeovers.w (s.dreg rasTakeovers) 1)

/-- Scrubs, repairs, training and keystone's events (R341, R342, R348, R349, R353, R412, R415, R460, R466): a single-bit error is counted
and nothing else happens to data; a double-bit error in an LLM line zeroes it, or, in the journal region, is repaired; one in a slice or a
bank is recorded and repaired, and halts the span that runs on it; an internal object that fails its CRC is recorded, and repaired where
its copy is on this device or the buddy's; a repair that is done restores the slice, the bank or the object; a GDDR device that fails
training or retraining is recorded and makes the device Degraded; FW_SVN and ROUTINE_EPOCH are burned up to the running bundle's; a
failed health test stops the random source. A backing copy that fails its SHARD_CRC as a repair reads it is repaired in turn (the model's
choice, log entry 68). -/
def Obligations.ScrubsAndTraining : Prop :=
  let lost := fun (store addr pier : Nat) (s t : State) =>
    t.repairs = s.repairs ++ [{ id := s.nextId, store := store, addr := addr, pier := pier }]
  (∀ (s : State) (n : Nat),
    let a := 64 * s.scrub.llm
    let moved := { s with scrub := { s.scrub with llm := (s.scrub.llm + 1) % 6291456 } }
    exec (.llmScrub 0) s = .next moved ∧
    (∃ t, exec (.llmScrub 1) s = .next t ∧ t = { moved with regs := t.regs } ∧ t.dreg llmLlmCorrected = satAdd llmLlmCorrected.w (s.dreg llmLlmCorrected) 1 ∧
      t.dreg llmLlmLastError = s.dreg llmLlmLastError) ∧
    (2 ≤ n → s.scratch ≤ a → ∃ t, exec (.llmScrub n) s = .next t ∧ t = { moved with regs := t.regs } ∧
      t.dreg llmLlmLastError = a % 2 ^ llmLlmLastError.w ∧
      t.dreg llmLlmCacheRefetches = satAdd llmLlmCacheRefetches.w (s.dreg llmLlmCacheRefetches) 1) ∧
    (2 ≤ n → a < s.scratch → ∃ t, exec (.llmScrub n) s = .next t ∧ t.scrub = moved.scrub ∧ t.piers = s.piers ∧
      t.dreg llmLlmLastError = a % 2 ^ llmLlmLastError.w ∧
      t.dreg llmLlmUncorrected = satAdd llmLlmUncorrected.w (s.dreg llmLlmUncorrected) 1 ∧
      t.dreg rasFaultWritten = (s.dreg rasFaultWritten + 1) % 2 ^ 32 ∧
      (a < 0x1000000 ∨ 0x2000000 ≤ a → t.repairs = s.repairs ∧ ∀ x, llmBase + a ≤ x → x < llmBase + a + 64 → mget t.mem x = 0) ∧
      (0x1000000 ≤ a → a < 0x2000000 → lost 2 a 0xFF s t ∧
        ∀ x, llmBase + a ≤ x → x < llmBase + a + 64 → mget t.mem x = mget s.mem x))) ∧
  (∀ (s : State) (k c : Nat), k < 16 →
    let scrubbed := { s.scrub with gddr := s.scrub.gddr + 1 }
    let counted := fun (t : State) => t.scrub = scrubbed ∧ t.reg mcEccCorrected 0 k = satAdd mcEccCorrected.w (s.reg mcEccCorrected 0 k) c
    exec (.gddrRefresh k) s = .next s ∧
    (∃ t, exec (.gddrScrub k c none) s = .next t ∧ t = { s with regs := t.regs, scrub := scrubbed } ∧ counted t) ∧
    (∀ id store pier, s.storeOf id = some (store, pier) → store = 5 ∨ store = 6 ∨ s.hasBuddy = true →
      ∃ t, exec (.gddrScrub k c (some id)) s = .next t ∧ counted t ∧ lost store id pier s t ∧ 
        Recorded { code := 0x0606, action := 0, unit := 3, pier := pier, detail := leBytes 6 (gddrBase 0 + s.objBase id) ++ leBytes 1 store } s t) ∧
    (∃ t, exec (.gddrTrainingDone k true) s = .next t ∧ t = { s with regs := t.regs } ∧ bit (t.dreg mcGddrTrained) k = true) ∧
    (∀ ch, exec (.channelRetrainDone k ch true) s = .next s) ∧
    ∀ ch, ∀ e ∈ [(Instr.gddrTrainingDone k false, leBytes 1 k), (.channelRetrainDone k ch false, leBytes 1 k ++ leBytes 1 ch)],
      ∃ t, exec e.1 s = .next t ∧ k ∈ t.badTraining ∧ t.gddrOk = false ∧ t.degraded = true ∧
        (s.degraded = true → Recorded { code := 0x0604, action := 0, unit := 3, detail := e.2 } s t)) ∧
  (∀ (p b : Nat) (s : State), p < 192 →
    let wmoved := { s with scrub := { s.scrub with weight := (s.scrub.weight + 1) % 4194304 } }
    let imoved := { s with scrub := { s.scrub with imem := s.scrub.imem + 1 } }
    let word := sliceBase p + 8 * s.scrub.weight
    let halts := fun (store addr : Nat) (t : State) => ∀ k st, s.spanOf p = some (k, st) → (s.span k).running = true → (s.span k).stop = none →
      (t.span k).stop = some (.replay 0x0603 (some p)) ∧ spansBut k s t ∧
      Recorded { code := 0x0603, action := 2, unit := 1, pier := p, span := k, detail := leBytes 6 addr ++ leBytes 1 store } s t
    (s.pierState p = 1 → exec (.weightScrub p 0) s = .next wmoved ∧
      (∃ t, exec (.weightScrub p 1) s = .next t ∧ t = { wmoved with regs := t.regs } ∧
        t.dreg rasWeightCorrected = satAdd rasWeightCorrected.w (s.dreg rasWeightCorrected) 1) ∧
      ∃ t, exec (.weightScrub p 2) s = .next t ∧ t.piers = s.piers ∧ t.scrub = wmoved.scrub ∧ lost 0 word p s t ∧ halts 0 word t ∧
        t.dreg rasFaultWritten = (s.dreg rasFaultWritten + 1) % 2 ^ 32) ∧
    (s.pierState p ≠ 1 → ∀ n, exec (.weightScrub p n) s = .next s) ∧
    exec (.imemScrub p b 0) s = .next imoved ∧
    (∃ t, exec (.imemScrub p b 1) s = .next t ∧ t = { imoved with regs := t.regs } ∧
      t.reg seqImemCorrected p 0 = satAdd seqImemCorrected.w (s.reg seqImemCorrected p 0) 1) ∧
    ∃ t, exec (.imemScrub p b 2) s = .next t ∧ (t.pier p).imem = (s.pier p).imem ∧ t.scrub = imoved.scrub ∧ lost 1 b p s t ∧
      t.dreg rasFaultWritten = (s.dreg rasFaultWritten + 1) % 2 ^ 32 ∧
      (b = (s.pier p).seq.bank → t.piers = s.piers ∧ halts 1 b t) ∧
      (b ≠ (s.pier p).seq.bank → (t.pier p).seq.armed = false ∧ piersBut p s t ∧ t.spans = s.spans)) ∧
  (∀ (s : State) (id : Nat) (copy : List Byte) (r : Repair), s.repairs.find? (fun r => r.id = id) = some r →
    let u := { s with repairs := s.repairs.erase r }
    let source := s.images.findSome? fun e => (e.2.backing.find? fun b => b.1 = r.pier).map (·.2)
    let slice := sliceBase r.pier
    (r.store = 2 ∨ r.store = 5 → exec (.storeRepairDone id copy) s = .next u) ∧
    (r.store = 3 ∨ r.store = 4 → ∃ t, exec (.storeRepairDone id copy) s = .next t ∧ t = { u with mem := t.mem } ∧
      (Memory.wf s.mem = true → copy.length ≤ 2 ^ 20 → ∀ y, y < copy.length → mget t.mem (objAddr (s.objBase r.addr) y) = copy.getD y 0)) ∧
    (∀ k st g, r.store = 1 → s.spanOf r.pier = some (k, st) → s.stageProg k st = some g → r.pier < 192 →
      ∃ t, exec (.storeRepairDone id copy) s = .next t ∧ t = { u with piers := t.piers } ∧ piersBut r.pier s t ∧
        t.pier r.pier = (s.pier r.pier).loadBank r.addr g) ∧
    (r.store = 6 → (s.sliceGood r.pier (s.weightsOn r.pier) = false → exec (.storeRepairDone id copy) s = .next u) ∧
      (s.sliceGood r.pier (s.weightsOn r.pier) = true → exec (.storeRepairDone id copy) s = .next (backupSlice r.pier r.addr u))) ∧
    (r.store = 0 → source = none → exec (.storeRepairDone id copy) s = .next u) ∧
    ∀ o, r.store = 0 → source = some o →
      let c := restoreSlice r.pier o u
      (c.sliceGood r.pier (s.weightsOn r.pier) = false → ∃ t, exec (.storeRepairDone id copy) s = .next t ∧ lost 6 o r.pier c t ∧
        t.dreg rasFaultWritten = (s.dreg rasFaultWritten + 1) % 2 ^ 32) ∧
      (c.sliceGood r.pier (s.weightsOn r.pier) = true → exec (.storeRepairDone id copy) s = .next c ∧ c = { u with mem := c.mem } ∧
        ∀ g, Memory.wf s.mem = true → s.objs.find? (fun x => x.id = o) = some g → g.mib = 32 → g.base + 65536 * 32 ≤ 2 ^ 32 →
          (∀ y, y < 0x2000000 → mget c.mem (slice + y) = mget s.mem (objAddr g.base y)) ∧
          memBut slice (slice + 0x2000000) s c)) ∧
  (∀ (s : State) (b : Bundle), s.ks.run = some b → s.ks.burnDue = true → s.ks.boot = 1 → exec .fwSvnBurn s = .next { s with
    ks := { s.ks with fwSvn := max s.ks.fwSvn b.svn, routineEpoch := max s.ks.routineEpoch b.minEpoch, burnDue := false } }) ∧
  (∀ s : State, s.ks.run = none ∨ s.ks.burnDue = false ∨ s.ks.boot ≠ 1 → exec .fwSvnBurn s = .next s) ∧
  ∀ s : State, ∃ t, exec .rngFail s = .next t ∧ t.ks = { s.ks with rngOk := false } ∧
    t = { s with ks := t.ks, mem := t.mem, regs := t.regs } ∧ Recorded { code := 0x0707, action := 0, unit := 6 } s t

/-! ### Attachments and peers -/

/-- The four messages of a handshake (R399, R407, R421, R422, R424). A HELLO that is accepted gets a REPLY, and the handshake
waits with its session keys; FINISH attaches the partner in the lowest free slot, with six queue pairs and its two system
windows, or brings the peer connection up; REPLY is answered with FINISH; ACCEPT brings the connection up, or PEER_STATE 3
with one record where the versions differ too far. What fails is counted, recorded with 0x0708 and not answered. -/
def Obligations.Handshakes : Prop :=
  let failed := fun (who : Option Nat) (s t : State) => t.out = s.out ∧ t.slots = s.slots ∧
    t.dreg ksnAuthFails = satAdd ksnAuthFails.w (s.dreg ksnAuthFails) 1 ∧
    Recorded { code := 0x0708, action := 0, unit := 6, detail := (who.map (leBytes 2)).getD [] } s t
  let without := fun (id : Nat) (s : State) => s.ks.handshakes.filter fun h => h.id != id
  let isUp := fun (m : PeerMsg) (s t : State) => ∀ p, tfind s.peers m.device = some p → tfind t.peers m.device =
    some { p with state := 1, version := m.fwVersion, upA := p.upA || m.net == 0, upB := p.upB || m.net != 0 }
  (∀ (o : HelloOp) (s : State), s.takes o.port →
    let who := o.peer.map (·.device)
    let good := match o.peer with
      | some m => peerOk s m && decide (m.device < s.dreg tbDeviceId)
      | none => credentialOk s o
    let shared := x25519 s.draw.1 (leNat o.x25519 % 2 ^ 255 % p25519)
    (s.ks.rngOk = false → ∃ t, exec (.hello o) s = .next t ∧ t = { s with regs := t.regs } ∧
      regsBut [prtRxPackets.key 0 o.port] s t) ∧
    (s.ks.rngOk = true → ∃ t, exec (.hello o) s = .next t ∧
      if good = true ∧ shared ≠ 0 then ∃ (hs : Handshake) (reply : List Byte),
        t.ks = { s.ks with handshakes := s.ks.handshakes ++ [hs] } ∧ hs.id = s.nextId ∧ hs.port = o.port ∧
        hs.partnerKey = o.partnerKey ∧ hs.claim = o.claim ∧ hs.device = who ∧ hs.net = (o.peer.map (·.net)).getD 0 ∧
        hs.transcript = sha3 (o.raw ++ reply) ∧
        hs.keys = sessionKeys (Config.kemEncap s.free o.mlkem).2 shared hs.transcript ∧
        t.out = s.out ++ [.handshake o.port 2 reply] ∧ t.slots = s.slots ∧ t.mem = s.mem
      else t.ks = s.ks ∧ failed who s t)) ∧
  (∀ (o : FinishOp) (s : State) (h : Handshake), s.ks.handshakes.find? (fun h => h.id = o.hs) = some h → s.takes h.port →
    (o.aeadOk = false ∨ h.keys = [] → ∃ t, exec (.finish o) s = .next t ∧ t = { s with regs := t.regs }) ∧
    (o.aeadOk = true → h.keys ≠ [] → h.device = none → o.peer = none →
      ∃ t, exec (.finish o) s = .next t ∧ t.ks.handshakes = without o.hs s ∧
        if Config.mldsaVerify h.partnerKey h.transcript o.signature = true then
          (∃ b, t.out = s.out ++ [.handshake h.port 4 b]) ∧ t.mem = s.mem ∧
          (∀ p, lowestFree s.slots 0 8 = some p → ∃ sl qs, tfind t.slots p = some sl ∧ sl.partnerKey = h.partnerKey ∧
            sl.keys = h.keys ∧ sl.ctrIn = 0 ∧ sl.home = h.port ∧ sl.standby = (h.port + 4) % 8 ∧ sl.onStandby = false ∧
            sl.closing = false ∧ sl.lastMgmt = s.now ∧ (∀ q, q ≠ p → tfind t.slots q = tfind s.slots q) ∧
            t.qps = s.qps ++ qs ∧ qs.length = 6 ∧ (∀ q ∈ qs, q.slot = p) ∧
            t.win (2 * p) = { s.win (2 * p) with
              st := .opened, owner := p, remote := false, base := llmBase + 0x100000 * (p + 1), length := 0x100000 } ∧
            t.win (2 * p + 1) = { s.win (2 * p + 1) with
              st := .opened, owner := p, remote := false, base := llmBase + 0x10000 + 0x1000 * p, length := 0x1000 }) ∧
          (lowestFree s.slots 0 8 = none → t.slots = s.slots ∧ t.qps = s.qps ∧ t.windows = s.windows)
        else failed none s t) ∧
    (∀ d m, o.aeadOk = true → h.keys ≠ [] → h.device = some d → o.peer = some m →
      ∃ t, exec (.finish o) s = .next t ∧ t.ks.handshakes = without o.hs s ∧
        (m.sigOk = true → versionsOk s m = true → isUp m s t ∧ ∃ b, t.out = s.out ++ [.handshake h.port 4 b]) ∧
        (m.sigOk = false → failed (some m.device) s t))) ∧
  (∀ (m : PeerMsg) (s : State) (h : Handshake), s.takesPeer m.net →
    (s.peerHandshake m false = some h →
      let shared := x25519 (Config.draw h.draw) (getLe m.raw 48 32 % 2 ^ 255 % p25519)
      ∃ t, exec (.reply m) s = .next t ∧
        if peerOk s m = true ∧ shared ≠ 0 then ∃ (x : Handshake) (b : List Byte), t.ks.handshakes = without h.id s ++ [x] ∧
          x = { h with transcript := sha3 (h.transcript ++ m.raw)
                       keys := sessionKeys (Config.kemDecap h.draw (slice m.raw 80 1088)) shared (sha3 (h.transcript ++ m.raw)) } ∧
          t.out = s.out ++ [.handshake (4 * m.net) 3 b]
        else t.ks.handshakes = without h.id s ∧ failed (some m.device) s t) ∧
    (s.peerHandshake m true = some h → m.sigOk = true → ∃ t, exec (.accept m) s = .next t ∧ t.ks.handshakes = without h.id s ∧
      (versionsOk s m = true → isUp m s t ∧ t.mem = s.mem) ∧
      (versionsOk s m = false → Recorded { code := 0x0801, action := 0, unit := 6, detail := leBytes 2 m.device } s t ∧
        ∀ p, tfind s.peers m.device = some p → tfind t.peers m.device = some { p with state := 3 })) ∧
    (s.peerHandshake m true = some h → m.sigOk = false → exec (.accept m) s = .next s))

/-- The end of an attachment and the events of peers (R399, R403, R404, R423, R466). DETACH under the session AEAD, and
ATTACHMENT_LOSS_MS without a message, free a slot that holds no session, its windows and queue pairs; a slot with sessions
closes and its sessions close; a peer whose connections fail goes to PEER_STATE 2 with one record; the device with the lower
id opens a connection again; a stamp lands in its block; a stripe of a store goes to the buddy that asks. -/
def Obligations.AttachmentsAndPeers : Prop :=
  let ends := fun (p : Nat) (s t : State) => t.mem = s.mem ∧ t.piers = s.piers ∧ t.spans = s.spans ∧
    (∀ q, q ≠ p → tfind t.slots q = tfind s.slots q) ∧
    ((∀ e ∈ s.sessions, e.2.slot ≠ p) → tfind t.slots p = none ∧ t.qps = s.qps.filter (fun q => q.slot != p) ∧
      ∀ w, (t.win w).owner = p → (t.win w).st ≠ .opened ∧ (t.win w).st ≠ .draining) ∧
    ((s.sessions.map (·.1)).Nodup → (∃ e ∈ s.sessions, e.2.slot = p) → (∃ sl, tfind t.slots p = some sl ∧ sl.closing = true ∧ sl.verb = none) ∧
      ∀ e ∈ t.sessions, e.2.slot = p → e.2.closing.isSome = true)
  (∀ (p ctr : Nat) (s : State) (sl : Slot), p < 8 → tfind s.slots p = some sl → sl.closing = false →
    (s.takes (sl.port sl.onStandby) → sl.ctrIn < ctr → ∃ t, exec (.detach p ctr true) s = .next t ∧ ends p s t) ∧
    (∀ ok, s.takes (sl.port sl.onStandby) → ok = false ∨ ctr ≤ sl.ctrIn →
      ∃ t, exec (.detach p ctr ok) s = .next t ∧ t = { s with regs := t.regs }) ∧
    (sl.lastMgmt + 1000000 * s.dreg ksnAttachLossMs ≤ s.now → ∃ t, exec (.attachmentLoss p) s = .next t ∧ ends p s t) ∧
    (s.now < sl.lastMgmt + 1000000 * s.dreg ksnAttachLossMs → exec (.attachmentLoss p) s = .next s)) ∧
  (∀ (d n : Nat) (s : State) (p : Peer), tfind s.peers d = some p →
    (p.state = 2 → exec (.peerDown d) s = .next s) ∧
    (p.state ≠ 2 → ∃ t, exec (.peerDown d) s = .next t ∧
      tfind t.peers d = some { p with state := 2, upA := false, upB := false, downAt := s.now } ∧
      (∀ e, e ≠ d → tfind t.peers e = tfind s.peers e) ∧
      Recorded { code := 0x0805, action := 0, unit := 5, detail := leBytes 2 d } s t ∧
      (s.isBuddy d = true → t.dreg prtBuddyState = 2)) ∧
    (n < 2 →
      let isUp := if n = 0 then p.upA else p.upB
      (s.dreg tbDeviceId < d → isUp = false → s.ks.rngOk = true → ∃ (t : State) (x : Handshake) (raw : List Byte),
        exec (.peerConnectionReopen d n) s = .next t ∧ t.ks = { s.ks with handshakes := s.ks.handshakes ++ [x] } ∧
        x.device = some d ∧ x.net = n ∧ x.keys = [] ∧ x.transcript = raw ∧
        t.out = s.out ++ [.handshake (4 * n) 1 raw] ∧ t.peers = s.peers ∧ t.regs = s.regs ∧ t.mem = s.mem) ∧
      (d ≤ s.dreg tbDeviceId ∨ isUp = true ∨ s.ks.rngOk = false → exec (.peerConnectionReopen d n) s = .next s))) ∧
  (∀ (ch k b : Nat) (s : State) (c : Channel), s.channelOf (1024 + ch) = some c → s.takesPeer (s.channelNet c) → k < c.k →
    let placed := mputs s.mem (c.stampAddr + 8 * k) (leBytes 8 b)
    (s.isSource c = true → exec (.releasedPlaced ch k b) s = .next { s with mem := placed } ∧
      exec (.arrivedPlaced ch k b) s = .next s) ∧
    (s.isSource c = false → exec (.releasedPlaced ch k b) s = .next s ∧
      (c.feed = false → exec (.arrivedPlaced ch k b) s = .next { s with mem := placed }) ∧
      (c.feed = true → (s.feedSpan ch).isSome = true → ∃ t, exec (.arrivedPlaced ch k b) s = .next t ∧ t.mem = placed ∧
        t.channelOf (1024 + ch) = some { c with feeds := c.feeds ++ [(k, b, s.now)] } ∧ t.out = s.out) ∧
      (c.feed = true → s.feedSpan ch = none → ∃ t, exec (.arrivedPlaced ch k b) s = .next t ∧
        t.out = s.out ++ [.stamp c.id k b false] ∧ t.sys = s.sys ∧
        Recorded { code := 0x0806, action := 0, unit := 8 } { s with mem := placed } t))) ∧
  ∀ (device store index stripe : Nat) (s : State) (o : GObj), s.takesPeer 0 →
    (s.objs.filter fun o => ((s.storeOf o.id).map (·.1)) == some store)[index]? = some o →
    exec (.buddyStripeFetch device store index stripe) s = .next { s with out := s.out ++ [.stripe device
      ((List.range (min (2 ^ 20) (o.bytes - stripe * 2 ^ 20))).map fun i =>
        mget s.mem (objAddr (s.objBase o.id) (stripe * 2 ^ 20 + i)))] }

/-! ### Ports -/

/-- RDMA of a partner, congestion and retries (R358, R360, R361, R363, R364, R366). A message on its DATA queue pair with the
PSN that is due is acknowledged with its effect where the window is open under the key's epoch, the slot owns it and the
range lies in it; another PSN, or a range outside, gets a NAK and no effect; a stale key is counted and recorded once. A CNP
halves the rate; a packet is retried 7 times, then the queue pair fails. A write into the submission window adds the ring slots
that it reaches to those the partner has written (the model's own record, log entry 62). -/
def Obligations.PartnerRdma : Prop :=
  (∀ (o : RdmaOp) (q : Qp) (sl : Slot) (s : State), s.takes o.port → s.qps.find? (fun q => q.qpn = o.qpn) = some q → q.kind = 2 →
    tfind s.slots q.slot = some sl → sl.port q.standby = o.port →
    let taken := fun (t : State) (ring : List Nat) => t = { s with regs := t.regs, qps := t.qps, slots := t.slots, out := t.out
                                                                   mem := t.mem, windows := t.windows } ∧
      t.qps.find? (fun x => x.qpn = o.qpn) = some { q with rxPsn := (q.rxPsn + 1) % 2 ^ 24 } ∧
      tfind t.slots q.slot = some { sl with onStandby := q.standby, written := ring } ∧
      ∀ p, p ≠ q.slot → tfind t.slots p = tfind s.slots p
    let answer := fun (m : Out) (t : State) => t.out = s.out ++ [m]
    let nak := answer (.rdmaNak o.qpn o.psn)
    (q.failed = false → o.psn = q.rxPsn →
      (∀ w e, s.rdmaWindow o.rkey = some (w, e) → e.owner = q.slot →
        (o.offset + o.data.length ≤ e.length → (w < 16 → w % 2 = 0) → ∃ (t : State) (ring : List Nat),
          exec (.rdmaWrite o) s = .next t ∧ taken t ring ∧
          (∀ n, n ∈ ring ↔ n ∈ sl.written ∨
            (w = 2 * q.slot ∧ o.data ≠ [] ∧ o.offset / 64 ≤ n ∧ 64 * n < o.offset + o.data.length)) ∧
          answer (.rdmaAck o.qpn o.psn) t ∧ t.mem = mputs s.mem (e.base + o.offset) o.data ∧ t.windows = s.windows) ∧
        (o.offset + o.length ≤ e.length → (w < 16 → w % 2 = 1) → ∃ t, exec (.rdmaRead o) s = .next t ∧ taken t sl.written ∧
          answer (.rdmaData o.qpn o.psn (mgets s.mem (e.base + o.offset) o.length)) t ∧ t.mem = s.mem ∧ t.windows = s.windows) ∧
        (e.length < o.offset + o.data.length ∨ (w < 16 ∧ w % 2 = 1) → ∃ t, exec (.rdmaWrite o) s = .next t ∧ taken t sl.written ∧ nak t ∧
          t.mem = s.mem)) ∧
      (s.rdmaWindow o.rkey = none → ∀ cmd ∈ [Instr.rdmaWrite o, .rdmaRead o], ∃ t, exec cmd s = .next t ∧ taken t sl.written ∧ nak t ∧
        t.dreg prtStaleWrites = satAdd prtStaleWrites.w (s.dreg prtStaleWrites) 1 ∧ (t.win (fld o.rkey 0 10)).noted = true ∧
        ((s.win (fld o.rkey 0 10)).noted = false → Recorded { code := 0x0401, action := 0, unit := 5 } s t) ∧
        ((s.win (fld o.rkey 0 10)).noted = true → t.mem = s.mem))) ∧
    (q.failed = true ∨ o.psn ≠ q.rxPsn → ∀ cmd ∈ [Instr.rdmaWrite o, .rdmaRead o], ∃ t, exec cmd s = .next t ∧ nak t ∧
      t = { s with regs := t.regs, out := t.out })) ∧
  (∀ (port n : Nat) (s : State), s.takes port →
    ((∃ q ∈ s.qps, q.qpn = n) → ∃ t, exec (.cnp port n) s = .next t ∧ t = { s with regs := t.regs, qps := t.qps } ∧
      t.qps = s.qps.map (fun q => if q.qpn = n then { q with
        rate := min 65536 (q.rate + (65536 - q.rate) * (s.now - q.cnpAt) / 100000) / 2, cnpAt := s.now } else q) ∧
      t.reg prtCnpReceived 0 port = satAdd prtCnpReceived.w (s.reg prtCnpReceived 0 port) 1) ∧
    ((∀ q ∈ s.qps, q.qpn ≠ n) → ∃ t, exec (.cnp port n) s = .next t ∧ t = { s with regs := t.regs } ∧
      t.reg prtDrops 0 port = satAdd prtDrops.w (s.reg prtDrops 0 port) 1)) ∧
  ∀ (qpn psn : Nat) (s : State) (q : Qp), s.qps.find? (fun q => q.qpn = qpn) = some q → q.failed = false →
    let used := ((q.unacked.find? fun u => u.1 = psn).map (·.2.1)).getD 0
    ∃ t, exec (.roceRetransmit qpn psn) s = .next t ∧ t.mem = s.mem ∧ t.piers = s.piers ∧
      (used < 7 → t.out = s.out ++ [.roce qpn psn] ∧ t.pending = s.pending ∧ t.qps.find? (fun x => x.qpn = qpn) =
        some { q with unacked := q.unacked.filter (fun u => u.1 != psn) ++ [(psn, used + 1, s.now)] }) ∧
      (7 ≤ used → t.out = s.out ∧ t.qps.find? (fun x => x.qpn = qpn) = some { q with unacked := [], failed := true } ∧
        t.pending = s.pending ++ (if q.kind = 2 then (s.remoteChucks q.slot).map fun e => .streamRemoteError e.1 e.2 else []))

/-- Frames of a port and its link (R356, R357, R360): ARP, Neighbor Discovery and echo for the port's own address are
answered, for another one dropped and counted; frames outside the subset are dropped and counted; PFC pauses and resumes the
port; a link comes up at the rate of SPEED, and goes. -/
def Obligations.PortFrames : Prop :=
  let dropped := fun (k : Nat) (s t : State) => t = { s with regs := t.regs } ∧
    t.reg prtDrops 0 k = satAdd prtDrops.w (s.reg prtDrops 0 k) 1
  let answers := fun (k : Nat) (cmd : Instr) (m : Out) (s : State) => ∃ t, exec cmd s = .next t ∧
    t = { s with regs := t.regs, out := s.out ++ [m] } ∧ regsBut [prtRxPackets.key 0 k, prtTxPackets.key 0 k] s t ∧
    t.reg prtTxPackets 0 k = satAdd prtTxPackets.w (s.reg prtTxPackets 0 k) 1
  (∀ (o : NetOp) (s : State), s.takes o.port →
    let k := o.port
    (o.target = s.portV4 k → answers k (.arp o) (.arpReply k o.sender (s.portMac k)) s) ∧
    (o.target ≠ s.portV4 k → ∃ t, exec (.arp o) s = .next t ∧ dropped k s t) ∧
    (o.target = s.portV6 k → answers k (.neighborDiscovery o) (.ndReply k o.sender (s.portMac k)) s) ∧
    (o.target ≠ s.portV6 k → ∃ t, exec (.neighborDiscovery o) s = .next t ∧ dropped k s t) ∧
    (o.target = s.portV4 k ∨ o.target = s.portV6 k → answers k (.echoRequest o) (.echoReply k o.sender o.payload) s) ∧
    (o.target ≠ s.portV4 k → o.target ≠ s.portV6 k → ∃ t, exec (.echoRequest o) s = .next t ∧ dropped k s t)) ∧
  ∀ (k : Nat) (s : State), k < 8 →
    (∃ t, exec (.linkDown k) s = .next t ∧ t = { s with regs := t.regs } ∧ t.reg prtLinkUp 0 k = 0 ∧ t.reg prtSpeedActive 0 k = 0 ∧
      regsBut [prtLinkUp.key 0 k, prtSpeedActive.key 0 k] s t) ∧
    (s.macOn k = true →
      (∃ t, exec (.linkUp k) s = .next t ∧ t = { s with regs := t.regs } ∧ t.reg prtLinkUp 0 k = 1 ∧
        t.reg prtSpeedActive 0 k = s.reg prtSpeed 0 k % 2 ^ prtSpeedActive.w ∧
        regsBut [prtLinkUp.key 0 k, prtSpeedActive.key 0 k] s t) ∧
      (∀ bad, ∃ t, exec (.unsupportedFrame k bad) s = .next t ∧ dropped k s t ∧
        t.reg prtFcsErrors 0 k = if bad then satAdd prtFcsErrors.w (s.reg prtFcsErrors 0 k) 1 else s.reg prtFcsErrors 0 k) ∧
      ∀ pause, ∃ t, exec (.pfcFrame k pause) s = .next t ∧
        (s.reg prtPfcEnable 0 k = 0 → dropped k s t) ∧
        (s.reg prtPfcEnable 0 k ≠ 0 → t = { s with paused := t.paused } ∧ (k ∈ t.paused ↔ pause = true) ∧
          ∀ j, j ≠ k → (j ∈ t.paused ↔ j ∈ s.paused))) ∧
    (s.macOn k = false → ∀ cmd ∈ [Instr.linkUp k, .unsupportedFrame k true, .pfcFrame k true], exec cmd s = .next s)

/-! ### Time -/

/-- Discipline by PTP (R388 to R391): the first valid offset of the network that the time base follows steps it once, counted
in STEPS, and the state is LOCKED; while it is LOCKED an offset changes INCR and never the time; a two-step Sync waits for its
Follow_Up; Delay_Req and Delay_Resp measure the path; a network without a Sync for SYNC_LOSS_MS is not valid, and with
none valid the time base is in HOLDOVER. Network A of an attached device without preference for B is meant where one is named. -/
def Obligations.TimeSync : Prop :=
  let taken := fun (cmd : Instr) (t1 t2 : Int) (s : State) =>
    let v := s.servo.net 0
    let off := t2 - t1 - v.delay
    let gap := match v.lastSync with
      | some x => s.now - x
      | none => v.interval
    ∃ t, exec cmd s = .next t ∧ t.dreg tbValidA = 1 ∧ t.dreg tbSelNet = 0 ∧ t.dreg tbOffsetA = offsetWord off ∧
      (t.servo.net 0).offset = off ∧ (t.servo.net 0).pendingSync = none ∧
      (s.dreg tbSyncState = 0 → t.clk = { s.clk with ns := ((s.clk.ns : Int) - off).toNat % 2 ^ 64 } ∧
        t.dreg tbSyncState = 1 ∧ t.dreg tbSteps = satAdd tbSteps.w (s.dreg tbSteps) 1 ∧ t.dreg tbIncr = s.dreg tbIncr) ∧
      (s.dreg tbSyncState = 1 → t.clk = s.clk ∧ t.dreg tbSyncState = 1 ∧ t.dreg tbSteps = s.dreg tbSteps ∧
        t.servo.sum = s.servo.sum + off ∧
        t.dreg tbIncr = servoIncr off s.servo.sum gap (s.dreg tbStepLimitNs) (s.dreg tbIncr) % 2 ^ tbIncr.w)
  (∀ s : State, s.takes (s.ptpPort 0) →
    (∀ o : SyncOp, o.net = 0 → ptpFrom s 0 o.domain o.identity = true →
      (o.twoStep = false → s.dreg tbPreferB = 0 → taken (.sync o) (o.origin + o.corr) o.rx s) ∧
      (o.twoStep = true → ∃ t, exec (.sync o) s = .next t ∧ t = { s with regs := t.regs, servo := t.servo } ∧
        t.servo.net 0 = { s.servo.net 0 with pendingSync := some (o.seqId, o.rx, o.corr) } ∧
        t.servo.net 1 = s.servo.net 1)) ∧
    (∀ o : SyncOp, o.net = 0 → ptpFrom s 0 o.domain o.identity = false → ∃ t, exec (.sync o) s = .next t ∧
      t = { s with regs := t.regs } ∧ regsBut [prtRxPackets.key 0 (s.ptpPort 0)] s t) ∧
    (∀ (seqId origin rx : Nat) (corr c : Int), (s.servo.net 0).pendingSync = some (seqId, rx, c) → s.dreg tbPreferB = 0 →
      taken (.followUp 0 seqId origin corr) (origin + c + corr) rx s)) ∧
  ∀ (net : Nat) (s : State), net < 2 →
    let v := s.servo.net net
    let valid := if net = 0 then tbValidA else tbValidB
    let other := if net = 0 then tbValidB else tbValidA
    let only := fun (t : State) (x : PtpNet) => t = { s with regs := t.regs, servo := t.servo, out := t.out } ∧
      t.servo.net net = x ∧ t.servo.net (1 - net) = s.servo.net (1 - net)
    (s.takes (s.ptpPort net) →
      (∀ p1 cls acc var p2 id, (v.master = none ∨ ∃ m, v.master = some m ∧ m.2.2.2.2.2 = id) →
        ∃ t, exec (.announce net (s.ptpDomain net) p1 cls acc var p2 id) s = .next t ∧
          only t { v with master := some (p1, cls, acc, var, p2, id) }) ∧
      ∀ (seqId rx t3 : Nat) (corr : Int), v.delayReq = some (seqId, t3) → ∃ t, exec (.delayResp net seqId rx corr) s = .next t ∧
        only t { v with delayReq := none, delay := ((v.t2 - v.t1) + ((rx : Int) - corr - t3)) / 2 }) ∧
    (s.ks.boot = 1 → s.pwr.state ≠ .a3 → s.pwr.state ≠ .a4 → s.reg prtPortEnable 0 (s.ptpPort net) ≠ 0 →
      ∃ t, exec (.delayReq net) s = .next t ∧ t.out = s.out ++ [.delayReq net v.nextSeq] ∧ t.regs = s.regs ∧
        only t { v with delayReq := some (v.nextSeq, s.now), nextSeq := (v.nextSeq + 1) % 2 ^ 16 }) ∧
    ∀ x, v.lastSync = some x → s.dreg valid ≠ 0 →
      (s.now < x + 1000000 * s.dreg tbSyncLossMs → exec (.syncLoss net) s = .next s) ∧
      (x + 1000000 * s.dreg tbSyncLossMs ≤ s.now → ∃ t, exec (.syncLoss net) s = .next t ∧ t.dreg valid = 0 ∧
        t.dreg tbSyncLosses = satAdd tbSyncLosses.w (s.dreg tbSyncLosses) 1 ∧ t.clk = s.clk ∧
        (s.dreg other = 0 → s.dreg tbSyncState = 1 → t.dreg tbSyncState = 2) ∧
        (s.dreg other ≠ 0 → t.dreg tbSyncState = s.dreg tbSyncState))

/-! ### The exchange engine's messages -/

/-- HXP messages and their timers (R319 to R324). A message that is not authentic, or of an invalid TYPE, is dropped and
counted; a replay has no effect; a fragment of a request in progress is stored under its identity and acknowledged, a second
copy counted as duplicate, one that differs as conflict, which the receive keeps, and the serial that it carries is kept with it
(R121); the payload of a request that no batch runs lands in its arrival entry (R328, the entry's layout being the model's, log entry 17); an ACK ends what it acknowledges; a POISON_NOTICE poisons what its
receive slot delivers; a fragment without acknowledgement is sent again with a doubled RTO until the step's timeout; a
receive that does not come is delivered poisoned with 0x0403. -/
def Obligations.HxpMessages : Prop :=
  let received := fun (s : State) => s.dreg xchMsgsReceivedLo + 2 ^ 32 * s.dreg xchMsgsReceivedHi
  let stored := fun (m : HxpMsg) (notice : Bool) => ({
    session := m.session, request := m.request, step := m.step, src := m.src, frag := m.fragIndex
    count := m.fragCount, payload := m.payload, serial := m.serial, notice := notice } : RxFrag)
  let mine := fun (m : HxpMsg) (f : RxFrag) => decide (f.session = m.session ∧ f.request = m.request ∧ f.step = m.step ∧
    f.src = m.src ∧ f.frag = m.fragIndex)
  let done := fun (se rq step code : Nat) (t : State) =>
    ∃ d ∈ t.rxDone, d.session = se ∧ d.request = rq ∧ d.step = step ∧ d.code = code
  (∀ (m : HxpMsg) (s : State), s.takes m.port →
    let objects := [Instr.decryptShare m, .maskedInput m, .openMsg m, .returnCt m]
    let st := s.stream m.session m.src
    (∀ cmd ∈ objects ++ [.ack m, .poisonNotice m, .hxpInvalidType m],
      authentic s m = false ∨ cmd = .hxpInvalidType m → ∃ t, exec cmd s = .next t ∧ t = { s with regs := t.regs } ∧
        t.dreg xchAuthDrops = satAdd xchAuthDrops.w (s.dreg xchAuthDrops) 1) ∧
    (authentic s m = true → m.epoch = st.rxEpoch → m.seq ∈ st.seen → ∀ cmd ∈ objects ++ [.ack m, .poisonNotice m],
      ∃ t, exec cmd s = .next t ∧ t = { s with regs := t.regs } ∧ regsBut [prtRxPackets.key 0 m.port] s t) ∧
    (authentic s m = true → m.epoch = st.rxEpoch → m.seq ∉ st.seen → st.highest ≤ m.seq + 1024 →
      (∀ r, s.request m.session m.request = some r → r.live = true → ∀ cmd ∈ objects, ∃ t, exec cmd s = .next t ∧
        received t = min (received s + 1) (2 ^ 64 - 1) ∧
        (∀ f ∈ t.tx, f.id < s.nextId → f.session = m.session → f.peer = m.src → m.ack ≤ f.seq) ∧
        (s.rx.find? (mine m) = none → t.rx = s.rx ++ [stored m false] ∧
          ∃ base bits, Out.hxpAck m.session m.src base bits ∈ t.out) ∧
        (∀ im h, s.recvSlot m = some (r, im, h) → s.memberOf m.session m.request = none → s.rx.find? (mine m) = none →
          m.fragIndex = 0 → m.fragCount = 1 → m.payload.length = h.bytes → t.mem = mputs s.mem (im.arrivalAt r h) m.payload) ∧
        ∀ f, s.rx.find? (mine m) = some f →
          (f.payload = m.payload → t.rx = s.rx ∧ t.dreg xchDuplicates = satAdd xchDuplicates.w (s.dreg xchDuplicates) 1 ∧
            t.dreg xchConflicts = s.dreg xchConflicts) ∧
          (f.payload ≠ m.payload → t.rx = (s.rx.map fun g => if mine m g then { g with conflict := true } else g) ∧
            t.dreg xchConflicts = satAdd xchConflicts.w (s.dreg xchConflicts) 1 ∧
            t.dreg xchDuplicates = s.dreg xchDuplicates)) ∧
      (∃ t, exec (.ack m) s = .next t ∧ received t = min (received s + 1) (2 ^ 64 - 1) ∧ t.rx = s.rx ∧ t.mem = s.mem ∧
        t.out = s.out ∧ ∀ f, f ∈ t.tx ↔ f ∈ s.tx ∧
          (let base := getLe m.payload 0 8
           let bits := getLe m.payload 8 8
           ¬ (f.session = m.session ∧ f.peer = m.src ∧ (f.seq < m.ack ∨ f.seq < base ∨
             (f.seq < base + 64 ∧ bit bits (f.seq - base) = true))))) ∧
      (∀ r, s.request m.session m.request = some r → r.live = true →
        (s.memberOf m.session m.request = none → s.rx.find? (mine m) = none → ∃ t, exec (.poisonNotice m) s = .next t ∧
          t.rx = s.rx ++ [stored m true] ∧ t.mem = s.mem ∧ t.spans = s.spans) ∧
        ∀ k i im h, s.memberOf m.session m.request = some (k, i) → tfind s.images r.handle = some im →
          im.hxp.find? (fun h => h.recv && h.step == m.step && h.peer == m.src) = some h →
          s.isDone m.session m.request m.step = false → s.rx.find? (mine m) = none → ∃ t, exec (.poisonNotice m) s = .next t ∧
            done m.session m.request m.step (leNat (m.payload.take 2)) t ∧ t.piers = s.piers))) ∧
  (∀ (s : State) (f : TxFrag), s.tx.find? (fun g => g.id = f.id) = some f →
    let st := s.stream f.session f.peer
    (s.now < f.due → exec (.hxpRetransmit f.id) s = .next s) ∧
    (f.due ≤ s.now → f.deadline ≤ s.now → exec (.hxpRetransmit f.id) s = .next { s with tx := s.tx.filter fun g => g.id != f.id }) ∧
    (f.due ≤ s.now → s.now < f.deadline → ∃ t, exec (.hxpRetransmit f.id) s = .next t ∧
      t.dreg xchRetransmits = satAdd xchRetransmits.w (s.dreg xchRetransmits) 1 ∧ t.mem = s.mem ∧
      t.out = s.out ++ [.hxp f.session f.request f.step f.type f.peer st.nextSeq f.frag f.count st.epoch f.serial f.payload] ∧
      (let again := min (2 * f.rtoUs) (s.dreg xchRtoMaxUs);
        t.tx = s.tx.map fun g =>
          if g.id = f.id then { f with rtoUs := again, seq := st.nextSeq, due := s.now + 1000 * again } else g))) ∧
  ∀ (se rq step : Nat) (s : State) (u : RxTimer),
    s.rxTimers.find? (fun t => t.session = se ∧ t.request = rq ∧ t.step = step) = some u →
    (s.now < u.due → exec (.hxpTimeout se rq step) s = .next s) ∧
    (u.due ≤ s.now → ∃ t, exec (.hxpTimeout se rq step) s = .next t ∧
      t.dreg xchTimeouts = satAdd xchTimeouts.w (s.dreg xchTimeouts) 1 ∧
      t.rxTimers = s.rxTimers.filter (fun v => !(v.session == se && v.request == rq && v.step == step)) ∧
      t.dreg rasFaultWritten = (s.dreg rasFaultWritten + 1) % 2 ^ 32 ∧
      (s.memberOf se rq = none → Recorded { code := 0x0403, action := 1, unit := 7, session := se, request := rq } s t) ∧
      ∀ k i im h, s.memberOf se rq = some (k, i) → s.imageOf k = some im →
        im.hxp.find? (fun h => h.recv && h.step == step) = some h → done se rq step 0x0403 t)
end

