-- ==== Sys2Proof/Laws/Tables.lean ====
section
/-! SUPPORT. Laws of the tables with a default and of the memories in canonical form: read after write, what a write leaves
alone, and that every operation keeps the canonical form. -/
namespace Sys2Proof.Machine

/-! ### Tables -/

@[simp] theorem tget_tput_same {α : Type} (d : α) (m : List (Nat × α)) (k : Nat) (v : α) : tget d (tput m k v) k = v := by
  induction m with
  | nil => simp [tput, tget]
  | cons e m ih =>
    obtain ⟨j, w⟩ := e
    by_cases h : k = j <;> simp [tput, tget, h, ih]

theorem tget_tput_ne {α : Type} (d : α) (m : List (Nat × α)) {k j : Nat} (v : α) (h : j ≠ k) :
    tget d (tput m k v) j = tget d m j := by
  induction m with
  | nil => simp [tput, tget, h]
  | cons e m ih =>
    obtain ⟨i, w⟩ := e
    by_cases hk : k = i
    · subst hk; simp [tput, tget, h]
    · by_cases hj : j = i <;> simp [tput, tget, hk, hj, ih]

theorem tget_tput {α : Type} (d : α) (m : List (Nat × α)) (k j : Nat) (v : α) :
    tget d (tput m k v) j = if j = k then v else tget d m j := by
  by_cases h : j = k
  · subst h; simp
  · simp [h, tget_tput_ne]

@[simp] theorem tfind_tput_same {α : Type} (m : List (Nat × α)) (k : Nat) (v : α) : tfind (tput m k v) k = some v := by
  induction m with
  | nil => simp [tput, tfind]
  | cons e m ih =>
    obtain ⟨j, w⟩ := e
    by_cases h : k = j <;> simp [tput, tfind, h, ih]

theorem tfind_tput_ne {α : Type} (m : List (Nat × α)) {k j : Nat} (v : α) (h : j ≠ k) :
    tfind (tput m k v) j = tfind m j := by
  induction m with
  | nil => simp [tput, tfind, h]
  | cons e m ih =>
    obtain ⟨i, w⟩ := e
    by_cases hk : k = i
    · subst hk; simp [tput, tfind, h]
    · by_cases hj : j = i <;> simp [tput, tfind, hk, hj, ih]

theorem tfind_some_tget {α : Type} (d : α) (m : List (Nat × α)) (k : Nat) {v : α} (h : tfind m k = some v) :
    tget d m k = v := by
  induction m with
  | nil => simp [tfind] at h
  | cons e m ih =>
    obtain ⟨j, w⟩ := e
    by_cases hk : k = j
    · simp_all [tfind, tget]
    · simp_all [tfind, tget]

/-- Every entry that a write leaves is the one written or was there before. -/
theorem mem_tput {α : Type} (m : List (Nat × α)) (k : Nat) (v : α) (e : Nat × α) (h : e ∈ tput m k v) :
    e = (k, v) ∨ e ∈ m := by
  induction m with
  | nil => simp [tput] at h; exact .inl h
  | cons a m ih =>
    obtain ⟨j, w⟩ := a
    by_cases hk : k = j
    · simp [tput, hk] at h
      rcases h with h | h
      · exact .inl (by rw [h, hk])
      · exact .inr (by simp [h])
    · simp [tput, hk] at h
      rcases h with h | h
      · exact .inr (by simp [h])
      · rcases ih h with h | h
        · exact .inl h
        · exact .inr (by simp [h])

/-- What a table holds at a key is its default or an entry's value. -/
theorem tget_mem {α : Type} (d : α) (m : List (Nat × α)) (k : Nat) : tget d m k = d ∨ ∃ e ∈ m, tget d m k = e.2 := by
  induction m with
  | nil => exact .inl rfl
  | cons a m ih =>
    obtain ⟨j, w⟩ := a
    by_cases hk : k = j
    · exact .inr ⟨(j, w), by simp, by simp [tget, hk]⟩
    · rcases ih with h | ⟨e, he, h⟩
      · exact .inl (by simp [tget, hk, h])
      · exact .inr ⟨e, by simp [he], by simp [tget, hk, h]⟩

/-! ### Memories -/

theorem mget_mput_same {n : Nat} (m : List (Nat × BitVec n)) (a : Nat) (v : BitVec n) (h : Memory.wf m = true) :
    mget (mput m a v) a = v := by
  suffices H : ∀ b, mwfFrom b m = true → mget (mput m a v) a = v from H 0 h
  clear h
  induction m with
  | nil => intro b _; by_cases hv : v = 0#n <;> simp [mput, mget, hv]
  | cons e m ih =>
    obtain ⟨k, w⟩ := e
    intro b hb
    simp only [mwfFrom, Bool.and_eq_true, decide_eq_true_eq] at hb
    obtain ⟨⟨_, _⟩, hm⟩ := hb
    have low : ∀ (l : List (Nat × BitVec n)) (b x : Nat), mwfFrom b l = true → x < b → mget l x = 0 := by
      intro l
      induction l with
      | nil => intros; rfl
      | cons f l il =>
        obtain ⟨j, u⟩ := f
        intro b x hl hx
        simp only [mwfFrom, Bool.and_eq_true, decide_eq_true_eq] at hl
        have : x ≠ j := by omega
        simp only [mget, this, if_false]
        exact il _ _ hl.2 (by omega)
    by_cases h1 : a < k
    · by_cases hv : v = 0#n
      · have : a ≠ k := by omega
        simp [mput, mget, h1, hv, this, low m (k + 1) a hm (by omega)]
      · simp [mput, mget, h1, hv]
    · by_cases h2 : a = k
      · subst h2
        by_cases hv : v = 0#n
        · simp [mput, hv, low m (a + 1) a hm (by omega)]
        · simp [mput, mget, hv]
      · simp only [mput, h1, h2, if_false, mget]
        exact ih _ hm

theorem mget_mput_ne {n : Nat} (m : List (Nat × BitVec n)) {a x : Nat} (v : BitVec n) (h : x ≠ a) :
    mget (mput m a v) x = mget m x := by
  induction m with
  | nil => by_cases hv : v = 0#n <;> simp [mput, mget, hv, h]
  | cons e m ih =>
    obtain ⟨k, w⟩ := e
    by_cases h1 : a < k
    · by_cases hv : v = 0#n <;> simp [mput, mget, h1, hv, h]
    · by_cases h2 : a = k
      · subst h2
        by_cases hv : v = 0#n <;> simp [mput, mget, hv, h]
      · simp only [mput, h1, h2, if_false, mget, ih]

theorem mwfFrom_mono {n : Nat} (m : List (Nat × BitVec n)) {b c : Nat} (hb : c ≤ b) (h : mwfFrom b m = true) :
    mwfFrom c m = true := by
  cases m with
  | nil => rfl
  | cons e m =>
    obtain ⟨k, v⟩ := e
    simp only [mwfFrom, Bool.and_eq_true, decide_eq_true_eq] at h ⊢
    exact ⟨⟨by omega, h.1.2⟩, h.2⟩

theorem mwfFrom_mput {n : Nat} (m : List (Nat × BitVec n)) (a : Nat) (v : BitVec n) :
    ∀ b, b ≤ a → mwfFrom b m = true → mwfFrom b (mput m a v) = true := by
  induction m with
  | nil => intro b hb _; by_cases hv : v = 0#n <;> simp [mput, mwfFrom, hv, hb]
  | cons e m ih =>
    obtain ⟨k, w⟩ := e
    intro b hb h
    simp only [mwfFrom, Bool.and_eq_true, decide_eq_true_eq] at h
    obtain ⟨⟨h1, h2⟩, h3⟩ := h
    by_cases hak : a < k
    · by_cases hv : v = 0#n
      · have h2' : ¬ w = 0#n := h2
        simp [mput, mwfFrom, hak, hv, h1, h2', h3]
      · have e : mput ((k, w) :: m) a v = (a, v) :: (k, w) :: m := by simp [mput, hak, hv]
        rw [e]
        simp only [mwfFrom, Bool.and_eq_true, decide_eq_true_eq]
        exact ⟨⟨hb, hv⟩, ⟨by omega, h2⟩, h3⟩
    · by_cases hek : a = k
      · subst hek
        by_cases hv : v = 0#n
        · have e : mput ((a, w) :: m) a v = m := by simp [mput, hv]
          rw [e]
          exact mwfFrom_mono m (by omega) h3
        · simp [mput, mwfFrom, hv, hb, h3]
      · simp only [mput, hak, hek, if_false, mwfFrom, Bool.and_eq_true, decide_eq_true_eq]
        exact ⟨⟨h1, h2⟩, ih (k + 1) (by omega) h3⟩

/-- Writing a cell keeps the canonical form. -/
theorem mput_wf {n : Nat} (m : List (Nat × BitVec n)) (a : Nat) (v : BitVec n) (h : Memory.wf m = true) :
    Memory.wf (mput m a v) = true := mwfFrom_mput m a v 0 (Nat.zero_le _) h

/-- Writing consecutive cells keeps the canonical form. -/
theorem mputs_wf {n : Nat} (m : List (Nat × BitVec n)) (vs : List (BitVec n)) (h : Memory.wf m = true) :
    ∀ a, Memory.wf (mputs m a vs) = true := by
  induction vs with
  | nil => intro _; exact h
  | cons v vs ih => intro a; exact mput_wf _ _ _ (ih (a + 1))

/-- Writing cells in order keeps the canonical form. -/
theorem mputAll_wf {n : Nat} (r : List (Nat × BitVec n)) : ∀ m : List (Nat × BitVec n),
    Memory.wf m = true → Memory.wf (mputAll m r) = true := by
  induction r with
  | nil => intro m h; exact h
  | cons e r ih =>
    obtain ⟨a, v⟩ := e
    intro m h; exact ih _ (mput_wf _ _ _ h)

/-- Leaving out cells keeps the canonical form. -/
theorem filter_wf {n : Nat} (m : List (Nat × BitVec n)) (p : Nat × BitVec n → Bool) (h : Memory.wf m = true) :
    Memory.wf (m.filter p) = true := by
  suffices H : ∀ b, mwfFrom b m = true → mwfFrom b (m.filter p) = true from H 0 h
  clear h
  induction m with
  | nil => intro _ h; exact h
  | cons e m ih =>
    obtain ⟨k, v⟩ := e
    intro b h
    simp only [mwfFrom, Bool.and_eq_true, decide_eq_true_eq] at h
    by_cases hp : p (k, v) = true
    · simp only [List.filter_cons, hp, if_true, mwfFrom, Bool.and_eq_true, decide_eq_true_eq]
      exact ⟨h.1, ih _ h.2⟩
    · simp only [List.filter_cons, hp]
      exact mwfFrom_mono _ (by omega) (ih _ h.2)

/-- Making a range zero keeps the canonical form. -/
theorem mzero_wf {n : Nat} (m : List (Nat × BitVec n)) (lo hi : Nat) (h : Memory.wf m = true) :
    Memory.wf (mzero m lo hi) = true := filter_wf m _ h

/-- A range made zero reads as zero, and every other cell as before. -/
theorem mget_mzero {n : Nat} (m : List (Nat × BitVec n)) (lo hi a : Nat) :
    mget (mzero m lo hi) a = if lo ≤ a ∧ a < hi then 0 else mget m a := by
  induction m with
  | nil => simp [mzero, mget]
  | cons e m ih =>
    obtain ⟨k, v⟩ := e
    by_cases hk : k < lo ∨ hi ≤ k
    · have e : mzero ((k, v) :: m) lo hi = (k, v) :: mzero m lo hi := by
        unfold mzero; rw [List.filter_cons_of_pos (by simpa using hk)]
      rw [e]
      by_cases ha : a = k
      · subst ha
        rw [if_neg (by omega)]; simp [mget]
      · simp only [mget, ha, if_false, ih]
    · have e : mzero ((k, v) :: m) lo hi = mzero m lo hi := by
        unfold mzero; rw [List.filter_cons_of_neg (by simpa using hk)]
      rw [e, ih]
      by_cases ha : a = k
      · subst ha
        rw [if_pos (by omega), if_pos (by omega)]
      · simp only [mget, ha, if_false]

/-- A cell outside consecutive cells written reads as before. -/
theorem mget_mputs_ne {n : Nat} (m : List (Nat × BitVec n)) (vs : List (BitVec n)) :
    ∀ a x, (x < a ∨ a + vs.length ≤ x) → mget (mputs m a vs) x = mget m x := by
  induction vs with
  | nil => intros; rfl
  | cons v vs ih =>
    intro a x h
    simp only [List.length_cons] at h
    rw [mputs, mget_mput_ne _ _ (by omega), ih _ _ (by omega)]

/-- Consecutive cells written read back. -/
theorem mgets_mputs {n : Nat} (m : List (Nat × BitVec n)) (vs : List (BitVec n)) (h : Memory.wf m = true) :
    ∀ a, mgets (mputs m a vs) a vs.length = vs := by
  induction vs with
  | nil => intros; rfl
  | cons v vs ih =>
    intro a
    have rest : ∀ (l : Nat) (b : Nat), a < b → mgets (mputs m a (v :: vs)) b l = mgets (mputs m (a + 1) vs) b l := by
      intro l
      induction l with
      | zero => intros; rfl
      | succ l il => intro b hb; simp only [mgets, il (b + 1) (by omega)]; rw [mputs, mget_mput_ne _ _ (by omega)]
    simp only [List.length_cons, mgets]
    rw [rest vs.length (a + 1) (by omega), ih (a + 1)]
    rw [mputs, mget_mput_same _ _ _ (mputs_wf m vs h (a + 1))]

end Sys2Proof.Machine
end

