-- ==== Sys2Proof/Laws/State.lean ====
section
/-! SUPPORT. What each update of the state changes: one lemma for each field and update, so that no proof unfolds a record
update. -/
namespace Sys2Proof.Machine
variable (s : State)

/-! ### What an update writes -/

theorem setDreg_eq (f : Fld) (v : Nat) : s.setDreg f v = s.setReg f 0 0 v := rfl
theorem dreg_eq (f : Fld) : s.dreg f = s.reg f 0 0 := rfl
theorem bump_eq (f : Fld) (p i n : Nat) : s.bump f p i n = s.setReg f p i (satAdd f.w (s.reg f p i) n) := rfl
theorem modPier_eq (p : Nat) (f : Pier → Pier) : s.modPier p f = s.setPier p (f (s.pier p)) := rfl
theorem modSeq_eq (p : Nat) (f : Seq → Seq) :
    s.modSeq p f = s.setPier p { s.pier p with seq := f (s.pier p).seq } := rfl

@[simp] theorem setReg_regs (f : Fld) (p i v : Nat) :
    (s.setReg f p i v).regs = tput s.regs (f.key p i) (v % 2 ^ f.w) := rfl
@[simp] theorem wr_mem (a : Nat) (bs : List Byte) : (s.wr a bs).mem = mputs s.mem a bs := rfl
@[simp] theorem zeroMem_mem (lo hi : Nat) : (s.zeroMem lo hi).mem = mzero s.mem lo hi := rfl
@[simp] theorem setPier_piers (p : Nat) (x : Pier) : (s.setPier p x).piers = tput s.piers p x := rfl
@[simp] theorem setSpan_spans (k : Nat) (x : Span) : (s.setSpan k x).spans = tput s.spans k x := rfl
@[simp] theorem send_out (m : Out) : (s.send m).out = s.out ++ [m] := rfl
@[simp] theorem enqueue_pending (c : Instr) : (s.enqueue c).pending = s.pending ++ [c] := rfl

@[simp] theorem pier_setPier_same (p : Nat) (x : Pier) : (s.setPier p x).pier p = x := tget_tput_same _ _ _ _
theorem pier_setPier_ne {p q : Nat} (x : Pier) (h : q ≠ p) : (s.setPier p x).pier q = s.pier q := tget_tput_ne _ _ _ h
@[simp] theorem span_setSpan_same (k : Nat) (x : Span) : (s.setSpan k x).span k = x := tget_tput_same _ _ _ _
theorem span_setSpan_ne {k j : Nat} (x : Span) (h : j ≠ k) : (s.setSpan k x).span j = s.span j := tget_tput_ne _ _ _ h

/-- A field written reads its value modulo its width. -/
@[simp] theorem reg_setReg_same (f : Fld) (p i v : Nat) : (s.setReg f p i v).reg f p i = v % 2 ^ f.w :=
  tget_tput_same _ _ _ _

/-- A field with another key reads as before. -/
theorem reg_setReg_ne {f g : Fld} {p q i j : Nat} (v : Nat) (h : g.key q j ≠ f.key p i) :
    (s.setReg f p i v).reg g q j = s.reg g q j := tget_tput_ne _ _ _ h

theorem modSpan_loaded (k : Nat) (f : Span → Span) (h : (tfind s.spans k).isSome) :
    s.modSpan k f = s.setSpan k (f (s.span k)) := by simp [State.modSpan, h]

theorem modSpan_unloaded (k : Nat) (f : Span → Span) (h : tfind s.spans k = none) : s.modSpan k f = s := by
  simp [State.modSpan, h]

/-- What a change of a span leaves: everything but the spans. -/
theorem modSpan_frame (k : Nat) (f : Span → Span) : s.modSpan k f = { s with spans := (s.modSpan k f).spans } := by
  unfold State.modSpan; split <;> rfl

/-- A pier that hosts a stage hosts it in a loaded span. -/
theorem spanOf_loaded (p : Nat) {k st : Nat} (h : s.spanOf p = some (k, st)) : (tfind s.spans k).isSome := by
  unfold State.spanOf at h
  revert h
  induction s.spans with
  | nil => simp
  | cons e m ih =>
    obtain ⟨j, x⟩ := e
    intro h
    by_cases hk : k = j
    · simp [tfind, hk]
    · simp only [List.findSome?_cons] at h
      split at h
      · rename_i hc
        split at hc <;> simp_all
      · simp only [tfind, hk, if_false]; exact ih h

/-! ### What an update leaves alone -/

@[simp] theorem setReg_pending (f : Fld) (p i v : Nat) : (s.setReg f p i v).pending = s.pending := rfl
@[simp] theorem setReg_free (f : Fld) (p i v : Nat) : (s.setReg f p i v).free = s.free := rfl
@[simp] theorem setReg_epochDraw (f : Fld) (p i v : Nat) : (s.setReg f p i v).epochDraw = s.epochDraw := rfl
@[simp] theorem setReg_clk (f : Fld) (p i v : Nat) : (s.setReg f p i v).clk = s.clk := rfl
@[simp] theorem setReg_mem (f : Fld) (p i v : Nat) : (s.setReg f p i v).mem = s.mem := rfl
@[simp] theorem setReg_piers (f : Fld) (p i v : Nat) : (s.setReg f p i v).piers = s.piers := rfl
@[simp] theorem setReg_spans (f : Fld) (p i v : Nat) : (s.setReg f p i v).spans = s.spans := rfl
@[simp] theorem setReg_images (f : Fld) (p i v : Nat) : (s.setReg f p i v).images = s.images := rfl
@[simp] theorem setReg_keysets (f : Fld) (p i v : Nat) : (s.setReg f p i v).keysets = s.keysets := rfl
@[simp] theorem setReg_sessions (f : Fld) (p i v : Nat) : (s.setReg f p i v).sessions = s.sessions := rfl
@[simp] theorem setReg_requests (f : Fld) (p i v : Nat) : (s.setReg f p i v).requests = s.requests := rfl
@[simp] theorem setReg_slots (f : Fld) (p i v : Nat) : (s.setReg f p i v).slots = s.slots := rfl
@[simp] theorem setReg_windows (f : Fld) (p i v : Nat) : (s.setReg f p i v).windows = s.windows := rfl
@[simp] theorem setReg_qps (f : Fld) (p i v : Nat) : (s.setReg f p i v).qps = s.qps := rfl
@[simp] theorem setReg_journal (f : Fld) (p i v : Nat) : (s.setReg f p i v).journal = s.journal := rfl
@[simp] theorem setReg_group (f : Fld) (p i v : Nat) : (s.setReg f p i v).group = s.group := rfl
@[simp] theorem setReg_mirrored (f : Fld) (p i v : Nat) : (s.setReg f p i v).mirrored = s.mirrored := rfl
@[simp] theorem setReg_objs (f : Fld) (p i v : Nat) : (s.setReg f p i v).objs = s.objs := rfl
@[simp] theorem setReg_tx (f : Fld) (p i v : Nat) : (s.setReg f p i v).tx = s.tx := rfl
@[simp] theorem setReg_rx (f : Fld) (p i v : Nat) : (s.setReg f p i v).rx = s.rx := rfl
@[simp] theorem setReg_streams (f : Fld) (p i v : Nat) : (s.setReg f p i v).streams = s.streams := rfl
@[simp] theorem setReg_rxDone (f : Fld) (p i v : Nat) : (s.setReg f p i v).rxDone = s.rxDone := rfl
@[simp] theorem setReg_rxTimers (f : Fld) (p i v : Nat) : (s.setReg f p i v).rxTimers = s.rxTimers := rfl
@[simp] theorem setReg_sent (f : Fld) (p i v : Nat) : (s.setReg f p i v).sent = s.sent := rfl
@[simp] theorem setReg_sys (f : Fld) (p i v : Nat) : (s.setReg f p i v).sys = s.sys := rfl
@[simp] theorem setReg_peers (f : Fld) (p i v : Nat) : (s.setReg f p i v).peers = s.peers := rfl
@[simp] theorem setReg_servo (f : Fld) (p i v : Nat) : (s.setReg f p i v).servo = s.servo := rfl
@[simp] theorem setReg_ks (f : Fld) (p i v : Nat) : (s.setReg f p i v).ks = s.ks := rfl
@[simp] theorem setReg_lie (f : Fld) (p i v : Nat) : (s.setReg f p i v).lie = s.lie := rfl
@[simp] theorem setReg_pwr (f : Fld) (p i v : Nat) : (s.setReg f p i v).pwr = s.pwr := rfl
@[simp] theorem setReg_pins (f : Fld) (p i v : Nat) : (s.setReg f p i v).pins = s.pins := rfl
@[simp] theorem setReg_repairs (f : Fld) (p i v : Nat) : (s.setReg f p i v).repairs = s.repairs := rfl
@[simp] theorem setReg_waits (f : Fld) (p i v : Nat) : (s.setReg f p i v).waits = s.waits := rfl
@[simp] theorem setReg_llmCache (f : Fld) (p i v : Nat) : (s.setReg f p i v).llmCache = s.llmCache := rfl
@[simp] theorem setReg_badTier (f : Fld) (p i v : Nat) : (s.setReg f p i v).badTier = s.badTier := rfl
@[simp] theorem setReg_badLlm (f : Fld) (p i v : Nat) : (s.setReg f p i v).badLlm = s.badLlm := rfl
@[simp] theorem setReg_badTraining (f : Fld) (p i v : Nat) : (s.setReg f p i v).badTraining = s.badTraining := rfl
@[simp] theorem setReg_degraded (f : Fld) (p i v : Nat) : (s.setReg f p i v).degraded = s.degraded := rfl
@[simp] theorem setReg_cutOff (f : Fld) (p i v : Nat) : (s.setReg f p i v).cutOff = s.cutOff := rfl
@[simp] theorem setReg_spareTests (f : Fld) (p i v : Nat) : (s.setReg f p i v).spareTests = s.spareTests := rfl
@[simp] theorem setReg_placementFailed (f : Fld) (p i v : Nat) : (s.setReg f p i v).placementFailed = s.placementFailed := rfl
@[simp] theorem setReg_wakeBuf (f : Fld) (p i v : Nat) : (s.setReg f p i v).wakeBuf = s.wakeBuf := rfl
@[simp] theorem setReg_paused (f : Fld) (p i v : Nat) : (s.setReg f p i v).paused = s.paused := rfl
@[simp] theorem setReg_pausing (f : Fld) (p i v : Nat) : (s.setReg f p i v).pausing = s.pausing := rfl
@[simp] theorem setReg_scrub (f : Fld) (p i v : Nat) : (s.setReg f p i v).scrub = s.scrub := rfl
@[simp] theorem setReg_gddrRead (f : Fld) (p i v : Nat) : (s.setReg f p i v).gddrRead = s.gddrRead := rfl
@[simp] theorem setReg_links (f : Fld) (p i v : Nat) : (s.setReg f p i v).links = s.links := rfl
@[simp] theorem setReg_linkTurn (f : Fld) (p i v : Nat) : (s.setReg f p i v).linkTurn = s.linkTurn := rfl
@[simp] theorem setReg_flits (f : Fld) (p i v : Nat) : (s.setReg f p i v).flits = s.flits := rfl
@[simp] theorem setReg_boundHidden (f : Fld) (p i v : Nat) : (s.setReg f p i v).boundHidden = s.boundHidden := rfl
@[simp] theorem setReg_out (f : Fld) (p i v : Nat) : (s.setReg f p i v).out = s.out := rfl
@[simp] theorem setReg_nextSerial (f : Fld) (p i v : Nat) : (s.setReg f p i v).nextSerial = s.nextSerial := rfl
@[simp] theorem setReg_nextId (f : Fld) (p i v : Nat) : (s.setReg f p i v).nextId = s.nextId := rfl
@[simp] theorem wr_pending (a : Nat) (bs : List Byte) : (s.wr a bs).pending = s.pending := rfl
@[simp] theorem wr_free (a : Nat) (bs : List Byte) : (s.wr a bs).free = s.free := rfl
@[simp] theorem wr_epochDraw (a : Nat) (bs : List Byte) : (s.wr a bs).epochDraw = s.epochDraw := rfl
@[simp] theorem wr_clk (a : Nat) (bs : List Byte) : (s.wr a bs).clk = s.clk := rfl
@[simp] theorem wr_regs (a : Nat) (bs : List Byte) : (s.wr a bs).regs = s.regs := rfl
@[simp] theorem wr_piers (a : Nat) (bs : List Byte) : (s.wr a bs).piers = s.piers := rfl
@[simp] theorem wr_spans (a : Nat) (bs : List Byte) : (s.wr a bs).spans = s.spans := rfl
@[simp] theorem wr_images (a : Nat) (bs : List Byte) : (s.wr a bs).images = s.images := rfl
@[simp] theorem wr_keysets (a : Nat) (bs : List Byte) : (s.wr a bs).keysets = s.keysets := rfl
@[simp] theorem wr_sessions (a : Nat) (bs : List Byte) : (s.wr a bs).sessions = s.sessions := rfl
@[simp] theorem wr_requests (a : Nat) (bs : List Byte) : (s.wr a bs).requests = s.requests := rfl
@[simp] theorem wr_slots (a : Nat) (bs : List Byte) : (s.wr a bs).slots = s.slots := rfl
@[simp] theorem wr_windows (a : Nat) (bs : List Byte) : (s.wr a bs).windows = s.windows := rfl
@[simp] theorem wr_qps (a : Nat) (bs : List Byte) : (s.wr a bs).qps = s.qps := rfl
@[simp] theorem wr_journal (a : Nat) (bs : List Byte) : (s.wr a bs).journal = s.journal := rfl
@[simp] theorem wr_group (a : Nat) (bs : List Byte) : (s.wr a bs).group = s.group := rfl
@[simp] theorem wr_mirrored (a : Nat) (bs : List Byte) : (s.wr a bs).mirrored = s.mirrored := rfl
@[simp] theorem wr_objs (a : Nat) (bs : List Byte) : (s.wr a bs).objs = s.objs := rfl
@[simp] theorem wr_tx (a : Nat) (bs : List Byte) : (s.wr a bs).tx = s.tx := rfl
@[simp] theorem wr_rx (a : Nat) (bs : List Byte) : (s.wr a bs).rx = s.rx := rfl
@[simp] theorem wr_streams (a : Nat) (bs : List Byte) : (s.wr a bs).streams = s.streams := rfl
@[simp] theorem wr_rxDone (a : Nat) (bs : List Byte) : (s.wr a bs).rxDone = s.rxDone := rfl
@[simp] theorem wr_rxTimers (a : Nat) (bs : List Byte) : (s.wr a bs).rxTimers = s.rxTimers := rfl
@[simp] theorem wr_sent (a : Nat) (bs : List Byte) : (s.wr a bs).sent = s.sent := rfl
@[simp] theorem wr_sys (a : Nat) (bs : List Byte) : (s.wr a bs).sys = s.sys := rfl
@[simp] theorem wr_peers (a : Nat) (bs : List Byte) : (s.wr a bs).peers = s.peers := rfl
@[simp] theorem wr_servo (a : Nat) (bs : List Byte) : (s.wr a bs).servo = s.servo := rfl
@[simp] theorem wr_ks (a : Nat) (bs : List Byte) : (s.wr a bs).ks = s.ks := rfl
@[simp] theorem wr_lie (a : Nat) (bs : List Byte) : (s.wr a bs).lie = s.lie := rfl
@[simp] theorem wr_pwr (a : Nat) (bs : List Byte) : (s.wr a bs).pwr = s.pwr := rfl
@[simp] theorem wr_pins (a : Nat) (bs : List Byte) : (s.wr a bs).pins = s.pins := rfl
@[simp] theorem wr_repairs (a : Nat) (bs : List Byte) : (s.wr a bs).repairs = s.repairs := rfl
@[simp] theorem wr_waits (a : Nat) (bs : List Byte) : (s.wr a bs).waits = s.waits := rfl
@[simp] theorem wr_llmCache (a : Nat) (bs : List Byte) : (s.wr a bs).llmCache = s.llmCache := rfl
@[simp] theorem wr_badTier (a : Nat) (bs : List Byte) : (s.wr a bs).badTier = s.badTier := rfl
@[simp] theorem wr_badLlm (a : Nat) (bs : List Byte) : (s.wr a bs).badLlm = s.badLlm := rfl
@[simp] theorem wr_badTraining (a : Nat) (bs : List Byte) : (s.wr a bs).badTraining = s.badTraining := rfl
@[simp] theorem wr_degraded (a : Nat) (bs : List Byte) : (s.wr a bs).degraded = s.degraded := rfl
@[simp] theorem wr_cutOff (a : Nat) (bs : List Byte) : (s.wr a bs).cutOff = s.cutOff := rfl
@[simp] theorem wr_spareTests (a : Nat) (bs : List Byte) : (s.wr a bs).spareTests = s.spareTests := rfl
@[simp] theorem wr_placementFailed (a : Nat) (bs : List Byte) : (s.wr a bs).placementFailed = s.placementFailed := rfl
@[simp] theorem wr_wakeBuf (a : Nat) (bs : List Byte) : (s.wr a bs).wakeBuf = s.wakeBuf := rfl
@[simp] theorem wr_paused (a : Nat) (bs : List Byte) : (s.wr a bs).paused = s.paused := rfl
@[simp] theorem wr_pausing (a : Nat) (bs : List Byte) : (s.wr a bs).pausing = s.pausing := rfl
@[simp] theorem wr_scrub (a : Nat) (bs : List Byte) : (s.wr a bs).scrub = s.scrub := rfl
@[simp] theorem wr_gddrRead (a : Nat) (bs : List Byte) : (s.wr a bs).gddrRead = s.gddrRead := rfl
@[simp] theorem wr_links (a : Nat) (bs : List Byte) : (s.wr a bs).links = s.links := rfl
@[simp] theorem wr_linkTurn (a : Nat) (bs : List Byte) : (s.wr a bs).linkTurn = s.linkTurn := rfl
@[simp] theorem wr_flits (a : Nat) (bs : List Byte) : (s.wr a bs).flits = s.flits := rfl
@[simp] theorem wr_boundHidden (a : Nat) (bs : List Byte) : (s.wr a bs).boundHidden = s.boundHidden := rfl
@[simp] theorem wr_out (a : Nat) (bs : List Byte) : (s.wr a bs).out = s.out := rfl
@[simp] theorem wr_nextSerial (a : Nat) (bs : List Byte) : (s.wr a bs).nextSerial = s.nextSerial := rfl
@[simp] theorem wr_nextId (a : Nat) (bs : List Byte) : (s.wr a bs).nextId = s.nextId := rfl
@[simp] theorem zeroMem_pending (lo hi : Nat) : (s.zeroMem lo hi).pending = s.pending := rfl
@[simp] theorem zeroMem_free (lo hi : Nat) : (s.zeroMem lo hi).free = s.free := rfl
@[simp] theorem zeroMem_epochDraw (lo hi : Nat) : (s.zeroMem lo hi).epochDraw = s.epochDraw := rfl
@[simp] theorem zeroMem_clk (lo hi : Nat) : (s.zeroMem lo hi).clk = s.clk := rfl
@[simp] theorem zeroMem_regs (lo hi : Nat) : (s.zeroMem lo hi).regs = s.regs := rfl
@[simp] theorem zeroMem_piers (lo hi : Nat) : (s.zeroMem lo hi).piers = s.piers := rfl
@[simp] theorem zeroMem_spans (lo hi : Nat) : (s.zeroMem lo hi).spans = s.spans := rfl
@[simp] theorem zeroMem_images (lo hi : Nat) : (s.zeroMem lo hi).images = s.images := rfl
@[simp] theorem zeroMem_keysets (lo hi : Nat) : (s.zeroMem lo hi).keysets = s.keysets := rfl
@[simp] theorem zeroMem_sessions (lo hi : Nat) : (s.zeroMem lo hi).sessions = s.sessions := rfl
@[simp] theorem zeroMem_requests (lo hi : Nat) : (s.zeroMem lo hi).requests = s.requests := rfl
@[simp] theorem zeroMem_slots (lo hi : Nat) : (s.zeroMem lo hi).slots = s.slots := rfl
@[simp] theorem zeroMem_windows (lo hi : Nat) : (s.zeroMem lo hi).windows = s.windows := rfl
@[simp] theorem zeroMem_qps (lo hi : Nat) : (s.zeroMem lo hi).qps = s.qps := rfl
@[simp] theorem zeroMem_journal (lo hi : Nat) : (s.zeroMem lo hi).journal = s.journal := rfl
@[simp] theorem zeroMem_group (lo hi : Nat) : (s.zeroMem lo hi).group = s.group := rfl
@[simp] theorem zeroMem_mirrored (lo hi : Nat) : (s.zeroMem lo hi).mirrored = s.mirrored := rfl
@[simp] theorem zeroMem_objs (lo hi : Nat) : (s.zeroMem lo hi).objs = s.objs := rfl
@[simp] theorem zeroMem_tx (lo hi : Nat) : (s.zeroMem lo hi).tx = s.tx := rfl
@[simp] theorem zeroMem_rx (lo hi : Nat) : (s.zeroMem lo hi).rx = s.rx := rfl
@[simp] theorem zeroMem_streams (lo hi : Nat) : (s.zeroMem lo hi).streams = s.streams := rfl
@[simp] theorem zeroMem_rxDone (lo hi : Nat) : (s.zeroMem lo hi).rxDone = s.rxDone := rfl
@[simp] theorem zeroMem_rxTimers (lo hi : Nat) : (s.zeroMem lo hi).rxTimers = s.rxTimers := rfl
@[simp] theorem zeroMem_sent (lo hi : Nat) : (s.zeroMem lo hi).sent = s.sent := rfl
@[simp] theorem zeroMem_sys (lo hi : Nat) : (s.zeroMem lo hi).sys = s.sys := rfl
@[simp] theorem zeroMem_peers (lo hi : Nat) : (s.zeroMem lo hi).peers = s.peers := rfl
@[simp] theorem zeroMem_servo (lo hi : Nat) : (s.zeroMem lo hi).servo = s.servo := rfl
@[simp] theorem zeroMem_ks (lo hi : Nat) : (s.zeroMem lo hi).ks = s.ks := rfl
@[simp] theorem zeroMem_lie (lo hi : Nat) : (s.zeroMem lo hi).lie = s.lie := rfl
@[simp] theorem zeroMem_pwr (lo hi : Nat) : (s.zeroMem lo hi).pwr = s.pwr := rfl
@[simp] theorem zeroMem_pins (lo hi : Nat) : (s.zeroMem lo hi).pins = s.pins := rfl
@[simp] theorem zeroMem_repairs (lo hi : Nat) : (s.zeroMem lo hi).repairs = s.repairs := rfl
@[simp] theorem zeroMem_waits (lo hi : Nat) : (s.zeroMem lo hi).waits = s.waits := rfl
@[simp] theorem zeroMem_llmCache (lo hi : Nat) : (s.zeroMem lo hi).llmCache = s.llmCache := rfl
@[simp] theorem zeroMem_badTier (lo hi : Nat) : (s.zeroMem lo hi).badTier = s.badTier := rfl
@[simp] theorem zeroMem_badLlm (lo hi : Nat) : (s.zeroMem lo hi).badLlm = s.badLlm := rfl
@[simp] theorem zeroMem_badTraining (lo hi : Nat) : (s.zeroMem lo hi).badTraining = s.badTraining := rfl
@[simp] theorem zeroMem_degraded (lo hi : Nat) : (s.zeroMem lo hi).degraded = s.degraded := rfl
@[simp] theorem zeroMem_cutOff (lo hi : Nat) : (s.zeroMem lo hi).cutOff = s.cutOff := rfl
@[simp] theorem zeroMem_spareTests (lo hi : Nat) : (s.zeroMem lo hi).spareTests = s.spareTests := rfl
@[simp] theorem zeroMem_placementFailed (lo hi : Nat) : (s.zeroMem lo hi).placementFailed = s.placementFailed := rfl
@[simp] theorem zeroMem_wakeBuf (lo hi : Nat) : (s.zeroMem lo hi).wakeBuf = s.wakeBuf := rfl
@[simp] theorem zeroMem_paused (lo hi : Nat) : (s.zeroMem lo hi).paused = s.paused := rfl
@[simp] theorem zeroMem_pausing (lo hi : Nat) : (s.zeroMem lo hi).pausing = s.pausing := rfl
@[simp] theorem zeroMem_scrub (lo hi : Nat) : (s.zeroMem lo hi).scrub = s.scrub := rfl
@[simp] theorem zeroMem_gddrRead (lo hi : Nat) : (s.zeroMem lo hi).gddrRead = s.gddrRead := rfl
@[simp] theorem zeroMem_links (lo hi : Nat) : (s.zeroMem lo hi).links = s.links := rfl
@[simp] theorem zeroMem_linkTurn (lo hi : Nat) : (s.zeroMem lo hi).linkTurn = s.linkTurn := rfl
@[simp] theorem zeroMem_flits (lo hi : Nat) : (s.zeroMem lo hi).flits = s.flits := rfl
@[simp] theorem zeroMem_boundHidden (lo hi : Nat) : (s.zeroMem lo hi).boundHidden = s.boundHidden := rfl
@[simp] theorem zeroMem_out (lo hi : Nat) : (s.zeroMem lo hi).out = s.out := rfl
@[simp] theorem zeroMem_nextSerial (lo hi : Nat) : (s.zeroMem lo hi).nextSerial = s.nextSerial := rfl
@[simp] theorem zeroMem_nextId (lo hi : Nat) : (s.zeroMem lo hi).nextId = s.nextId := rfl
@[simp] theorem setPier_pending (p : Nat) (x : Pier) : (s.setPier p x).pending = s.pending := rfl
@[simp] theorem setPier_free (p : Nat) (x : Pier) : (s.setPier p x).free = s.free := rfl
@[simp] theorem setPier_epochDraw (p : Nat) (x : Pier) : (s.setPier p x).epochDraw = s.epochDraw := rfl
@[simp] theorem setPier_clk (p : Nat) (x : Pier) : (s.setPier p x).clk = s.clk := rfl
@[simp] theorem setPier_regs (p : Nat) (x : Pier) : (s.setPier p x).regs = s.regs := rfl
@[simp] theorem setPier_mem (p : Nat) (x : Pier) : (s.setPier p x).mem = s.mem := rfl
@[simp] theorem setPier_spans (p : Nat) (x : Pier) : (s.setPier p x).spans = s.spans := rfl
@[simp] theorem setPier_images (p : Nat) (x : Pier) : (s.setPier p x).images = s.images := rfl
@[simp] theorem setPier_keysets (p : Nat) (x : Pier) : (s.setPier p x).keysets = s.keysets := rfl
@[simp] theorem setPier_sessions (p : Nat) (x : Pier) : (s.setPier p x).sessions = s.sessions := rfl
@[simp] theorem setPier_requests (p : Nat) (x : Pier) : (s.setPier p x).requests = s.requests := rfl
@[simp] theorem setPier_slots (p : Nat) (x : Pier) : (s.setPier p x).slots = s.slots := rfl
@[simp] theorem setPier_windows (p : Nat) (x : Pier) : (s.setPier p x).windows = s.windows := rfl
@[simp] theorem setPier_qps (p : Nat) (x : Pier) : (s.setPier p x).qps = s.qps := rfl
@[simp] theorem setPier_journal (p : Nat) (x : Pier) : (s.setPier p x).journal = s.journal := rfl
@[simp] theorem setPier_group (p : Nat) (x : Pier) : (s.setPier p x).group = s.group := rfl
@[simp] theorem setPier_mirrored (p : Nat) (x : Pier) : (s.setPier p x).mirrored = s.mirrored := rfl
@[simp] theorem setPier_objs (p : Nat) (x : Pier) : (s.setPier p x).objs = s.objs := rfl
@[simp] theorem setPier_tx (p : Nat) (x : Pier) : (s.setPier p x).tx = s.tx := rfl
@[simp] theorem setPier_rx (p : Nat) (x : Pier) : (s.setPier p x).rx = s.rx := rfl
@[simp] theorem setPier_streams (p : Nat) (x : Pier) : (s.setPier p x).streams = s.streams := rfl
@[simp] theorem setPier_rxDone (p : Nat) (x : Pier) : (s.setPier p x).rxDone = s.rxDone := rfl
@[simp] theorem setPier_rxTimers (p : Nat) (x : Pier) : (s.setPier p x).rxTimers = s.rxTimers := rfl
@[simp] theorem setPier_sent (p : Nat) (x : Pier) : (s.setPier p x).sent = s.sent := rfl
@[simp] theorem setPier_sys (p : Nat) (x : Pier) : (s.setPier p x).sys = s.sys := rfl
@[simp] theorem setPier_peers (p : Nat) (x : Pier) : (s.setPier p x).peers = s.peers := rfl
@[simp] theorem setPier_servo (p : Nat) (x : Pier) : (s.setPier p x).servo = s.servo := rfl
@[simp] theorem setPier_ks (p : Nat) (x : Pier) : (s.setPier p x).ks = s.ks := rfl
@[simp] theorem setPier_lie (p : Nat) (x : Pier) : (s.setPier p x).lie = s.lie := rfl
@[simp] theorem setPier_pwr (p : Nat) (x : Pier) : (s.setPier p x).pwr = s.pwr := rfl
@[simp] theorem setPier_pins (p : Nat) (x : Pier) : (s.setPier p x).pins = s.pins := rfl
@[simp] theorem setPier_repairs (p : Nat) (x : Pier) : (s.setPier p x).repairs = s.repairs := rfl
@[simp] theorem setPier_waits (p : Nat) (x : Pier) : (s.setPier p x).waits = s.waits := rfl
@[simp] theorem setPier_llmCache (p : Nat) (x : Pier) : (s.setPier p x).llmCache = s.llmCache := rfl
@[simp] theorem setPier_badTier (p : Nat) (x : Pier) : (s.setPier p x).badTier = s.badTier := rfl
@[simp] theorem setPier_badLlm (p : Nat) (x : Pier) : (s.setPier p x).badLlm = s.badLlm := rfl
@[simp] theorem setPier_badTraining (p : Nat) (x : Pier) : (s.setPier p x).badTraining = s.badTraining := rfl
@[simp] theorem setPier_degraded (p : Nat) (x : Pier) : (s.setPier p x).degraded = s.degraded := rfl
@[simp] theorem setPier_cutOff (p : Nat) (x : Pier) : (s.setPier p x).cutOff = s.cutOff := rfl
@[simp] theorem setPier_spareTests (p : Nat) (x : Pier) : (s.setPier p x).spareTests = s.spareTests := rfl
@[simp] theorem setPier_placementFailed (p : Nat) (x : Pier) : (s.setPier p x).placementFailed = s.placementFailed := rfl
@[simp] theorem setPier_wakeBuf (p : Nat) (x : Pier) : (s.setPier p x).wakeBuf = s.wakeBuf := rfl
@[simp] theorem setPier_paused (p : Nat) (x : Pier) : (s.setPier p x).paused = s.paused := rfl
@[simp] theorem setPier_pausing (p : Nat) (x : Pier) : (s.setPier p x).pausing = s.pausing := rfl
@[simp] theorem setPier_scrub (p : Nat) (x : Pier) : (s.setPier p x).scrub = s.scrub := rfl
@[simp] theorem setPier_gddrRead (p : Nat) (x : Pier) : (s.setPier p x).gddrRead = s.gddrRead := rfl
@[simp] theorem setPier_links (p : Nat) (x : Pier) : (s.setPier p x).links = s.links := rfl
@[simp] theorem setPier_linkTurn (p : Nat) (x : Pier) : (s.setPier p x).linkTurn = s.linkTurn := rfl
@[simp] theorem setPier_flits (p : Nat) (x : Pier) : (s.setPier p x).flits = s.flits := rfl
@[simp] theorem setPier_boundHidden (p : Nat) (x : Pier) : (s.setPier p x).boundHidden = s.boundHidden := rfl
@[simp] theorem setPier_out (p : Nat) (x : Pier) : (s.setPier p x).out = s.out := rfl
@[simp] theorem setPier_nextSerial (p : Nat) (x : Pier) : (s.setPier p x).nextSerial = s.nextSerial := rfl
@[simp] theorem setPier_nextId (p : Nat) (x : Pier) : (s.setPier p x).nextId = s.nextId := rfl
@[simp] theorem setSpan_pending (k : Nat) (x : Span) : (s.setSpan k x).pending = s.pending := rfl
@[simp] theorem setSpan_free (k : Nat) (x : Span) : (s.setSpan k x).free = s.free := rfl
@[simp] theorem setSpan_epochDraw (k : Nat) (x : Span) : (s.setSpan k x).epochDraw = s.epochDraw := rfl
@[simp] theorem setSpan_clk (k : Nat) (x : Span) : (s.setSpan k x).clk = s.clk := rfl
@[simp] theorem setSpan_regs (k : Nat) (x : Span) : (s.setSpan k x).regs = s.regs := rfl
@[simp] theorem setSpan_mem (k : Nat) (x : Span) : (s.setSpan k x).mem = s.mem := rfl
@[simp] theorem setSpan_piers (k : Nat) (x : Span) : (s.setSpan k x).piers = s.piers := rfl
@[simp] theorem setSpan_images (k : Nat) (x : Span) : (s.setSpan k x).images = s.images := rfl
@[simp] theorem setSpan_keysets (k : Nat) (x : Span) : (s.setSpan k x).keysets = s.keysets := rfl
@[simp] theorem setSpan_sessions (k : Nat) (x : Span) : (s.setSpan k x).sessions = s.sessions := rfl
@[simp] theorem setSpan_requests (k : Nat) (x : Span) : (s.setSpan k x).requests = s.requests := rfl
@[simp] theorem setSpan_slots (k : Nat) (x : Span) : (s.setSpan k x).slots = s.slots := rfl
@[simp] theorem setSpan_windows (k : Nat) (x : Span) : (s.setSpan k x).windows = s.windows := rfl
@[simp] theorem setSpan_qps (k : Nat) (x : Span) : (s.setSpan k x).qps = s.qps := rfl
@[simp] theorem setSpan_journal (k : Nat) (x : Span) : (s.setSpan k x).journal = s.journal := rfl
@[simp] theorem setSpan_group (k : Nat) (x : Span) : (s.setSpan k x).group = s.group := rfl
@[simp] theorem setSpan_mirrored (k : Nat) (x : Span) : (s.setSpan k x).mirrored = s.mirrored := rfl
@[simp] theorem setSpan_objs (k : Nat) (x : Span) : (s.setSpan k x).objs = s.objs := rfl
@[simp] theorem setSpan_tx (k : Nat) (x : Span) : (s.setSpan k x).tx = s.tx := rfl
@[simp] theorem setSpan_rx (k : Nat) (x : Span) : (s.setSpan k x).rx = s.rx := rfl
@[simp] theorem setSpan_streams (k : Nat) (x : Span) : (s.setSpan k x).streams = s.streams := rfl
@[simp] theorem setSpan_rxDone (k : Nat) (x : Span) : (s.setSpan k x).rxDone = s.rxDone := rfl
@[simp] theorem setSpan_rxTimers (k : Nat) (x : Span) : (s.setSpan k x).rxTimers = s.rxTimers := rfl
@[simp] theorem setSpan_sent (k : Nat) (x : Span) : (s.setSpan k x).sent = s.sent := rfl
@[simp] theorem setSpan_sys (k : Nat) (x : Span) : (s.setSpan k x).sys = s.sys := rfl
@[simp] theorem setSpan_peers (k : Nat) (x : Span) : (s.setSpan k x).peers = s.peers := rfl
@[simp] theorem setSpan_servo (k : Nat) (x : Span) : (s.setSpan k x).servo = s.servo := rfl
@[simp] theorem setSpan_ks (k : Nat) (x : Span) : (s.setSpan k x).ks = s.ks := rfl
@[simp] theorem setSpan_lie (k : Nat) (x : Span) : (s.setSpan k x).lie = s.lie := rfl
@[simp] theorem setSpan_pwr (k : Nat) (x : Span) : (s.setSpan k x).pwr = s.pwr := rfl
@[simp] theorem setSpan_pins (k : Nat) (x : Span) : (s.setSpan k x).pins = s.pins := rfl
@[simp] theorem setSpan_repairs (k : Nat) (x : Span) : (s.setSpan k x).repairs = s.repairs := rfl
@[simp] theorem setSpan_waits (k : Nat) (x : Span) : (s.setSpan k x).waits = s.waits := rfl
@[simp] theorem setSpan_llmCache (k : Nat) (x : Span) : (s.setSpan k x).llmCache = s.llmCache := rfl
@[simp] theorem setSpan_badTier (k : Nat) (x : Span) : (s.setSpan k x).badTier = s.badTier := rfl
@[simp] theorem setSpan_badLlm (k : Nat) (x : Span) : (s.setSpan k x).badLlm = s.badLlm := rfl
@[simp] theorem setSpan_badTraining (k : Nat) (x : Span) : (s.setSpan k x).badTraining = s.badTraining := rfl
@[simp] theorem setSpan_degraded (k : Nat) (x : Span) : (s.setSpan k x).degraded = s.degraded := rfl
@[simp] theorem setSpan_cutOff (k : Nat) (x : Span) : (s.setSpan k x).cutOff = s.cutOff := rfl
@[simp] theorem setSpan_spareTests (k : Nat) (x : Span) : (s.setSpan k x).spareTests = s.spareTests := rfl
@[simp] theorem setSpan_placementFailed (k : Nat) (x : Span) : (s.setSpan k x).placementFailed = s.placementFailed := rfl
@[simp] theorem setSpan_wakeBuf (k : Nat) (x : Span) : (s.setSpan k x).wakeBuf = s.wakeBuf := rfl
@[simp] theorem setSpan_paused (k : Nat) (x : Span) : (s.setSpan k x).paused = s.paused := rfl
@[simp] theorem setSpan_pausing (k : Nat) (x : Span) : (s.setSpan k x).pausing = s.pausing := rfl
@[simp] theorem setSpan_scrub (k : Nat) (x : Span) : (s.setSpan k x).scrub = s.scrub := rfl
@[simp] theorem setSpan_gddrRead (k : Nat) (x : Span) : (s.setSpan k x).gddrRead = s.gddrRead := rfl
@[simp] theorem setSpan_links (k : Nat) (x : Span) : (s.setSpan k x).links = s.links := rfl
@[simp] theorem setSpan_linkTurn (k : Nat) (x : Span) : (s.setSpan k x).linkTurn = s.linkTurn := rfl
@[simp] theorem setSpan_flits (k : Nat) (x : Span) : (s.setSpan k x).flits = s.flits := rfl
@[simp] theorem setSpan_boundHidden (k : Nat) (x : Span) : (s.setSpan k x).boundHidden = s.boundHidden := rfl
@[simp] theorem setSpan_out (k : Nat) (x : Span) : (s.setSpan k x).out = s.out := rfl
@[simp] theorem setSpan_nextSerial (k : Nat) (x : Span) : (s.setSpan k x).nextSerial = s.nextSerial := rfl
@[simp] theorem setSpan_nextId (k : Nat) (x : Span) : (s.setSpan k x).nextId = s.nextId := rfl
@[simp] theorem send_pending (m : Out) : (s.send m).pending = s.pending := rfl
@[simp] theorem send_free (m : Out) : (s.send m).free = s.free := rfl
@[simp] theorem send_epochDraw (m : Out) : (s.send m).epochDraw = s.epochDraw := rfl
@[simp] theorem send_clk (m : Out) : (s.send m).clk = s.clk := rfl
@[simp] theorem send_regs (m : Out) : (s.send m).regs = s.regs := rfl
@[simp] theorem send_mem (m : Out) : (s.send m).mem = s.mem := rfl
@[simp] theorem send_piers (m : Out) : (s.send m).piers = s.piers := rfl
@[simp] theorem send_spans (m : Out) : (s.send m).spans = s.spans := rfl
@[simp] theorem send_images (m : Out) : (s.send m).images = s.images := rfl
@[simp] theorem send_keysets (m : Out) : (s.send m).keysets = s.keysets := rfl
@[simp] theorem send_sessions (m : Out) : (s.send m).sessions = s.sessions := rfl
@[simp] theorem send_requests (m : Out) : (s.send m).requests = s.requests := rfl
@[simp] theorem send_slots (m : Out) : (s.send m).slots = s.slots := rfl
@[simp] theorem send_windows (m : Out) : (s.send m).windows = s.windows := rfl
@[simp] theorem send_qps (m : Out) : (s.send m).qps = s.qps := rfl
@[simp] theorem send_journal (m : Out) : (s.send m).journal = s.journal := rfl
@[simp] theorem send_group (m : Out) : (s.send m).group = s.group := rfl
@[simp] theorem send_mirrored (m : Out) : (s.send m).mirrored = s.mirrored := rfl
@[simp] theorem send_objs (m : Out) : (s.send m).objs = s.objs := rfl
@[simp] theorem send_tx (m : Out) : (s.send m).tx = s.tx := rfl
@[simp] theorem send_rx (m : Out) : (s.send m).rx = s.rx := rfl
@[simp] theorem send_streams (m : Out) : (s.send m).streams = s.streams := rfl
@[simp] theorem send_rxDone (m : Out) : (s.send m).rxDone = s.rxDone := rfl
@[simp] theorem send_rxTimers (m : Out) : (s.send m).rxTimers = s.rxTimers := rfl
@[simp] theorem send_sent (m : Out) : (s.send m).sent = s.sent := rfl
@[simp] theorem send_sys (m : Out) : (s.send m).sys = s.sys := rfl
@[simp] theorem send_peers (m : Out) : (s.send m).peers = s.peers := rfl
@[simp] theorem send_servo (m : Out) : (s.send m).servo = s.servo := rfl
@[simp] theorem send_ks (m : Out) : (s.send m).ks = s.ks := rfl
@[simp] theorem send_lie (m : Out) : (s.send m).lie = s.lie := rfl
@[simp] theorem send_pwr (m : Out) : (s.send m).pwr = s.pwr := rfl
@[simp] theorem send_pins (m : Out) : (s.send m).pins = s.pins := rfl
@[simp] theorem send_repairs (m : Out) : (s.send m).repairs = s.repairs := rfl
@[simp] theorem send_waits (m : Out) : (s.send m).waits = s.waits := rfl
@[simp] theorem send_llmCache (m : Out) : (s.send m).llmCache = s.llmCache := rfl
@[simp] theorem send_badTier (m : Out) : (s.send m).badTier = s.badTier := rfl
@[simp] theorem send_badLlm (m : Out) : (s.send m).badLlm = s.badLlm := rfl
@[simp] theorem send_badTraining (m : Out) : (s.send m).badTraining = s.badTraining := rfl
@[simp] theorem send_degraded (m : Out) : (s.send m).degraded = s.degraded := rfl
@[simp] theorem send_cutOff (m : Out) : (s.send m).cutOff = s.cutOff := rfl
@[simp] theorem send_spareTests (m : Out) : (s.send m).spareTests = s.spareTests := rfl
@[simp] theorem send_placementFailed (m : Out) : (s.send m).placementFailed = s.placementFailed := rfl
@[simp] theorem send_wakeBuf (m : Out) : (s.send m).wakeBuf = s.wakeBuf := rfl
@[simp] theorem send_paused (m : Out) : (s.send m).paused = s.paused := rfl
@[simp] theorem send_pausing (m : Out) : (s.send m).pausing = s.pausing := rfl
@[simp] theorem send_scrub (m : Out) : (s.send m).scrub = s.scrub := rfl
@[simp] theorem send_gddrRead (m : Out) : (s.send m).gddrRead = s.gddrRead := rfl
@[simp] theorem send_links (m : Out) : (s.send m).links = s.links := rfl
@[simp] theorem send_linkTurn (m : Out) : (s.send m).linkTurn = s.linkTurn := rfl
@[simp] theorem send_flits (m : Out) : (s.send m).flits = s.flits := rfl
@[simp] theorem send_boundHidden (m : Out) : (s.send m).boundHidden = s.boundHidden := rfl
@[simp] theorem send_nextSerial (m : Out) : (s.send m).nextSerial = s.nextSerial := rfl
@[simp] theorem send_nextId (m : Out) : (s.send m).nextId = s.nextId := rfl
@[simp] theorem enqueue_free (c : Instr) : (s.enqueue c).free = s.free := rfl
@[simp] theorem enqueue_epochDraw (c : Instr) : (s.enqueue c).epochDraw = s.epochDraw := rfl
@[simp] theorem enqueue_clk (c : Instr) : (s.enqueue c).clk = s.clk := rfl
@[simp] theorem enqueue_regs (c : Instr) : (s.enqueue c).regs = s.regs := rfl
@[simp] theorem enqueue_mem (c : Instr) : (s.enqueue c).mem = s.mem := rfl
@[simp] theorem enqueue_piers (c : Instr) : (s.enqueue c).piers = s.piers := rfl
@[simp] theorem enqueue_spans (c : Instr) : (s.enqueue c).spans = s.spans := rfl
@[simp] theorem enqueue_images (c : Instr) : (s.enqueue c).images = s.images := rfl
@[simp] theorem enqueue_keysets (c : Instr) : (s.enqueue c).keysets = s.keysets := rfl
@[simp] theorem enqueue_sessions (c : Instr) : (s.enqueue c).sessions = s.sessions := rfl
@[simp] theorem enqueue_requests (c : Instr) : (s.enqueue c).requests = s.requests := rfl
@[simp] theorem enqueue_slots (c : Instr) : (s.enqueue c).slots = s.slots := rfl
@[simp] theorem enqueue_windows (c : Instr) : (s.enqueue c).windows = s.windows := rfl
@[simp] theorem enqueue_qps (c : Instr) : (s.enqueue c).qps = s.qps := rfl
@[simp] theorem enqueue_journal (c : Instr) : (s.enqueue c).journal = s.journal := rfl
@[simp] theorem enqueue_group (c : Instr) : (s.enqueue c).group = s.group := rfl
@[simp] theorem enqueue_mirrored (c : Instr) : (s.enqueue c).mirrored = s.mirrored := rfl
@[simp] theorem enqueue_objs (c : Instr) : (s.enqueue c).objs = s.objs := rfl
@[simp] theorem enqueue_tx (c : Instr) : (s.enqueue c).tx = s.tx := rfl
@[simp] theorem enqueue_rx (c : Instr) : (s.enqueue c).rx = s.rx := rfl
@[simp] theorem enqueue_streams (c : Instr) : (s.enqueue c).streams = s.streams := rfl
@[simp] theorem enqueue_rxDone (c : Instr) : (s.enqueue c).rxDone = s.rxDone := rfl
@[simp] theorem enqueue_rxTimers (c : Instr) : (s.enqueue c).rxTimers = s.rxTimers := rfl
@[simp] theorem enqueue_sent (c : Instr) : (s.enqueue c).sent = s.sent := rfl
@[simp] theorem enqueue_sys (c : Instr) : (s.enqueue c).sys = s.sys := rfl
@[simp] theorem enqueue_peers (c : Instr) : (s.enqueue c).peers = s.peers := rfl
@[simp] theorem enqueue_servo (c : Instr) : (s.enqueue c).servo = s.servo := rfl
@[simp] theorem enqueue_ks (c : Instr) : (s.enqueue c).ks = s.ks := rfl
@[simp] theorem enqueue_lie (c : Instr) : (s.enqueue c).lie = s.lie := rfl
@[simp] theorem enqueue_pwr (c : Instr) : (s.enqueue c).pwr = s.pwr := rfl
@[simp] theorem enqueue_pins (c : Instr) : (s.enqueue c).pins = s.pins := rfl
@[simp] theorem enqueue_repairs (c : Instr) : (s.enqueue c).repairs = s.repairs := rfl
@[simp] theorem enqueue_waits (c : Instr) : (s.enqueue c).waits = s.waits := rfl
@[simp] theorem enqueue_llmCache (c : Instr) : (s.enqueue c).llmCache = s.llmCache := rfl
@[simp] theorem enqueue_badTier (c : Instr) : (s.enqueue c).badTier = s.badTier := rfl
@[simp] theorem enqueue_badLlm (c : Instr) : (s.enqueue c).badLlm = s.badLlm := rfl
@[simp] theorem enqueue_badTraining (c : Instr) : (s.enqueue c).badTraining = s.badTraining := rfl
@[simp] theorem enqueue_degraded (c : Instr) : (s.enqueue c).degraded = s.degraded := rfl
@[simp] theorem enqueue_cutOff (c : Instr) : (s.enqueue c).cutOff = s.cutOff := rfl
@[simp] theorem enqueue_spareTests (c : Instr) : (s.enqueue c).spareTests = s.spareTests := rfl
@[simp] theorem enqueue_placementFailed (c : Instr) : (s.enqueue c).placementFailed = s.placementFailed := rfl
@[simp] theorem enqueue_wakeBuf (c : Instr) : (s.enqueue c).wakeBuf = s.wakeBuf := rfl
@[simp] theorem enqueue_paused (c : Instr) : (s.enqueue c).paused = s.paused := rfl
@[simp] theorem enqueue_pausing (c : Instr) : (s.enqueue c).pausing = s.pausing := rfl
@[simp] theorem enqueue_scrub (c : Instr) : (s.enqueue c).scrub = s.scrub := rfl
@[simp] theorem enqueue_gddrRead (c : Instr) : (s.enqueue c).gddrRead = s.gddrRead := rfl
@[simp] theorem enqueue_links (c : Instr) : (s.enqueue c).links = s.links := rfl
@[simp] theorem enqueue_linkTurn (c : Instr) : (s.enqueue c).linkTurn = s.linkTurn := rfl
@[simp] theorem enqueue_flits (c : Instr) : (s.enqueue c).flits = s.flits := rfl
@[simp] theorem enqueue_boundHidden (c : Instr) : (s.enqueue c).boundHidden = s.boundHidden := rfl
@[simp] theorem enqueue_out (c : Instr) : (s.enqueue c).out = s.out := rfl
@[simp] theorem enqueue_nextSerial (c : Instr) : (s.enqueue c).nextSerial = s.nextSerial := rfl
@[simp] theorem enqueue_nextId (c : Instr) : (s.enqueue c).nextId = s.nextId := rfl
@[simp] theorem bump2_pending (lo hi : Fld) (p i n : Nat) : (s.bump2 lo hi p i n).pending = s.pending := rfl
@[simp] theorem bump2_free (lo hi : Fld) (p i n : Nat) : (s.bump2 lo hi p i n).free = s.free := rfl
@[simp] theorem bump2_epochDraw (lo hi : Fld) (p i n : Nat) : (s.bump2 lo hi p i n).epochDraw = s.epochDraw := rfl
@[simp] theorem bump2_clk (lo hi : Fld) (p i n : Nat) : (s.bump2 lo hi p i n).clk = s.clk := rfl
@[simp] theorem bump2_mem (lo hi : Fld) (p i n : Nat) : (s.bump2 lo hi p i n).mem = s.mem := rfl
@[simp] theorem bump2_piers (lo hi : Fld) (p i n : Nat) : (s.bump2 lo hi p i n).piers = s.piers := rfl
@[simp] theorem bump2_spans (lo hi : Fld) (p i n : Nat) : (s.bump2 lo hi p i n).spans = s.spans := rfl
@[simp] theorem bump2_images (lo hi : Fld) (p i n : Nat) : (s.bump2 lo hi p i n).images = s.images := rfl
@[simp] theorem bump2_keysets (lo hi : Fld) (p i n : Nat) : (s.bump2 lo hi p i n).keysets = s.keysets := rfl
@[simp] theorem bump2_sessions (lo hi : Fld) (p i n : Nat) : (s.bump2 lo hi p i n).sessions = s.sessions := rfl
@[simp] theorem bump2_requests (lo hi : Fld) (p i n : Nat) : (s.bump2 lo hi p i n).requests = s.requests := rfl
@[simp] theorem bump2_slots (lo hi : Fld) (p i n : Nat) : (s.bump2 lo hi p i n).slots = s.slots := rfl
@[simp] theorem bump2_windows (lo hi : Fld) (p i n : Nat) : (s.bump2 lo hi p i n).windows = s.windows := rfl
@[simp] theorem bump2_qps (lo hi : Fld) (p i n : Nat) : (s.bump2 lo hi p i n).qps = s.qps := rfl
@[simp] theorem bump2_journal (lo hi : Fld) (p i n : Nat) : (s.bump2 lo hi p i n).journal = s.journal := rfl
@[simp] theorem bump2_group (lo hi : Fld) (p i n : Nat) : (s.bump2 lo hi p i n).group = s.group := rfl
@[simp] theorem bump2_mirrored (lo hi : Fld) (p i n : Nat) : (s.bump2 lo hi p i n).mirrored = s.mirrored := rfl
@[simp] theorem bump2_objs (lo hi : Fld) (p i n : Nat) : (s.bump2 lo hi p i n).objs = s.objs := rfl
@[simp] theorem bump2_tx (lo hi : Fld) (p i n : Nat) : (s.bump2 lo hi p i n).tx = s.tx := rfl
@[simp] theorem bump2_rx (lo hi : Fld) (p i n : Nat) : (s.bump2 lo hi p i n).rx = s.rx := rfl
@[simp] theorem bump2_streams (lo hi : Fld) (p i n : Nat) : (s.bump2 lo hi p i n).streams = s.streams := rfl
@[simp] theorem bump2_rxDone (lo hi : Fld) (p i n : Nat) : (s.bump2 lo hi p i n).rxDone = s.rxDone := rfl
@[simp] theorem bump2_rxTimers (lo hi : Fld) (p i n : Nat) : (s.bump2 lo hi p i n).rxTimers = s.rxTimers := rfl
@[simp] theorem bump2_sent (lo hi : Fld) (p i n : Nat) : (s.bump2 lo hi p i n).sent = s.sent := rfl
@[simp] theorem bump2_sys (lo hi : Fld) (p i n : Nat) : (s.bump2 lo hi p i n).sys = s.sys := rfl
@[simp] theorem bump2_peers (lo hi : Fld) (p i n : Nat) : (s.bump2 lo hi p i n).peers = s.peers := rfl
@[simp] theorem bump2_servo (lo hi : Fld) (p i n : Nat) : (s.bump2 lo hi p i n).servo = s.servo := rfl
@[simp] theorem bump2_ks (lo hi : Fld) (p i n : Nat) : (s.bump2 lo hi p i n).ks = s.ks := rfl
@[simp] theorem bump2_lie (lo hi : Fld) (p i n : Nat) : (s.bump2 lo hi p i n).lie = s.lie := rfl
@[simp] theorem bump2_pwr (lo hi : Fld) (p i n : Nat) : (s.bump2 lo hi p i n).pwr = s.pwr := rfl
@[simp] theorem bump2_pins (lo hi : Fld) (p i n : Nat) : (s.bump2 lo hi p i n).pins = s.pins := rfl
@[simp] theorem bump2_repairs (lo hi : Fld) (p i n : Nat) : (s.bump2 lo hi p i n).repairs = s.repairs := rfl
@[simp] theorem bump2_waits (lo hi : Fld) (p i n : Nat) : (s.bump2 lo hi p i n).waits = s.waits := rfl
@[simp] theorem bump2_llmCache (lo hi : Fld) (p i n : Nat) : (s.bump2 lo hi p i n).llmCache = s.llmCache := rfl
@[simp] theorem bump2_badTier (lo hi : Fld) (p i n : Nat) : (s.bump2 lo hi p i n).badTier = s.badTier := rfl
@[simp] theorem bump2_badLlm (lo hi : Fld) (p i n : Nat) : (s.bump2 lo hi p i n).badLlm = s.badLlm := rfl
@[simp] theorem bump2_badTraining (lo hi : Fld) (p i n : Nat) : (s.bump2 lo hi p i n).badTraining = s.badTraining := rfl
@[simp] theorem bump2_degraded (lo hi : Fld) (p i n : Nat) : (s.bump2 lo hi p i n).degraded = s.degraded := rfl
@[simp] theorem bump2_cutOff (lo hi : Fld) (p i n : Nat) : (s.bump2 lo hi p i n).cutOff = s.cutOff := rfl
@[simp] theorem bump2_spareTests (lo hi : Fld) (p i n : Nat) : (s.bump2 lo hi p i n).spareTests = s.spareTests := rfl
@[simp] theorem bump2_placementFailed (lo hi : Fld) (p i n : Nat) : (s.bump2 lo hi p i n).placementFailed = s.placementFailed := rfl
@[simp] theorem bump2_wakeBuf (lo hi : Fld) (p i n : Nat) : (s.bump2 lo hi p i n).wakeBuf = s.wakeBuf := rfl
@[simp] theorem bump2_paused (lo hi : Fld) (p i n : Nat) : (s.bump2 lo hi p i n).paused = s.paused := rfl
@[simp] theorem bump2_pausing (lo hi : Fld) (p i n : Nat) : (s.bump2 lo hi p i n).pausing = s.pausing := rfl
@[simp] theorem bump2_scrub (lo hi : Fld) (p i n : Nat) : (s.bump2 lo hi p i n).scrub = s.scrub := rfl
@[simp] theorem bump2_gddrRead (lo hi : Fld) (p i n : Nat) : (s.bump2 lo hi p i n).gddrRead = s.gddrRead := rfl
@[simp] theorem bump2_links (lo hi : Fld) (p i n : Nat) : (s.bump2 lo hi p i n).links = s.links := rfl
@[simp] theorem bump2_linkTurn (lo hi : Fld) (p i n : Nat) : (s.bump2 lo hi p i n).linkTurn = s.linkTurn := rfl
@[simp] theorem bump2_flits (lo hi : Fld) (p i n : Nat) : (s.bump2 lo hi p i n).flits = s.flits := rfl
@[simp] theorem bump2_boundHidden (lo hi : Fld) (p i n : Nat) : (s.bump2 lo hi p i n).boundHidden = s.boundHidden := rfl
@[simp] theorem bump2_out (lo hi : Fld) (p i n : Nat) : (s.bump2 lo hi p i n).out = s.out := rfl
@[simp] theorem bump2_nextSerial (lo hi : Fld) (p i n : Nat) : (s.bump2 lo hi p i n).nextSerial = s.nextSerial := rfl
@[simp] theorem bump2_nextId (lo hi : Fld) (p i n : Nat) : (s.bump2 lo hi p i n).nextId = s.nextId := rfl

/-! ### What a record does (R461, R463) -/

/-- A record changes memory, FAULT_WRITTEN and FAULT_LATCH, and nothing else. -/
theorem raise_frame (r : Rec) : raise r s = { s with mem := (raise r s).mem, regs := (raise r s).regs } := by
  unfold raise; dsimp only; split <;> simp only [State.setDreg, State.setReg, State.wr]

/-- A record's 64 bytes lie at its place in the ring. -/
theorem raise_mem (r : Rec) : (raise r s).mem =
    mputs s.mem (llmBase + 64 * (s.dreg rasFaultWritten % 256))
      (recBytes (s.dreg rasFaultWritten) s.now (s.dreg tbDeviceId) r) := by
  unfold raise; dsimp only; split <;> simp only [setDreg_eq, setReg_mem, State.wr]

end Sys2Proof.Machine
end

