-- ==== Sys2Proof/Laws/Gate.lean ====
section
/-! SUPPORT. What the shared operations in front of a command do: the issue of an instruction, a frame, a peer message, a
verb. -/
namespace Sys2Proof.Machine

/-- Changing a slot twice is changing it once by both changes. -/
theorem modSlot_modSlot (s : State) (p : Nat) (f g : Slot → Slot) :
    (s.modSlot p f).modSlot p g = s.modSlot p (g ∘ f) := by
  simp only [State.modSlot, List.map_map]
  congr 1
  apply List.map_congr_left
  intro a _
  simp only [Function.comp]
  by_cases ha : a.1 = p <;> simp [ha]

/-- A frame that is taken runs its command after RX_PACKETS has counted it. -/
theorem onPort_takes (k n : Nat) (c : Instr) (s : State) (run : State → State) (h : s.takes k) :
    onPort k n c s run = .next (run (s.bump prtRxPackets 0 k 1)) := by
  obtain ⟨h1, h2, h3, h4, h5⟩ := h
  simp [onPort, Nat.not_le.mpr h1, h2, h3, h4, h5]

/-- A peer message that is taken runs its command. -/
theorem onPeer_takes (k n : Nat) (c : Instr) (s : State) (run : State → State) (h : s.takesPeer k) :
    onPeer k n c s run = .next (run s) := by
  obtain ⟨h1, h2, h3, h4⟩ := h
  simp [onPeer, Nat.not_le.mpr h1, h2, h3, h4]

/-- An admitted verb runs in the state `admitted`. -/
theorem onVerb_admitted (r : VerbReq) (v n : Nat) (wide : Bool) (c : Instr) (s : State) (sl : Slot) (run : State → State)
    (h : Admitted r wide s sl) : onVerb r v n wide c s run = .next (run (admitted r v sl s)) := by
  obtain ⟨h1, h2, h3, h4, h5, h6, h7, h8, h9, h10, h11, h12, h13⟩ := h
  have hw : (wide = true ∧ (s.bump prtRxPackets 0 (sl.port r.standby) 1).wideVerb = true) = False := by
    simp only [eq_iff_iff, iff_false, not_and]
    intro hw
    have := h7 hw
    simp only [State.wideVerb, bump_eq, setReg_slots] at this ⊢
    simp [this]
  unfold onVerb
  simp only [h2, Nat.not_le.mpr h1, if_false, h3, h4, h5, h8, onPort, Nat.not_le.mpr h9, h10, h11, h13, h6, hw]
  simp [h12, modSlot_modSlot, admitted]
  rfl

/-- An instruction that issues runs its effect after ISSUED has counted it. -/
theorem issueWith_issues (i : Iss) (s : State) (c : Ctx) (eff : Ctx → State → State) (h : Issues i s c) :
    issueWith i s eff = .next (eff c (s.bump2 seqIssuedLo seqIssuedHi i.pier 0 1)) := by
  simp [issueWith, Nat.not_le.mpr h.1, h.2]

/-- An instruction that issues and changes no program state but the PC. -/
theorem issue_issues (i : Iss) (s : State) (c : Ctx) (eff : Ctx → State → State) (h : Issues i s c) :
    issue i s eff = .next ((eff c (s.bump2 seqIssuedLo seqIssuedHi i.pier 0 1)).modSeq c.p fun q => q.advance c.fc i.next) :=
  issueWith_issues i s c _ h

/-- The context of an issue: its pier, a loaded span that hosts the pier, and the span's fc. -/
theorem issues_ctx (i : Iss) (s : State) (c : Ctx) (h : Issues i s c) :
    c.p = i.pier ∧ s.spanOf i.pier = some (c.k, c.st) ∧ c.fc = (s.span c.k).relFc ∧
      (tfind s.spans c.k).isSome ∧ c.batch = (s.span c.k).batch.getD noBatch := by
  obtain ⟨_, h⟩ := h
  unfold issueAt at h
  split at h
  · cases h
  · rename_i k st hs
    dsimp only at h
    split at h
    · cases h; exact ⟨rfl, hs, rfl, spanOf_loaded s _ hs, rfl⟩
    · cases h

/-- ISSUED after an issue (Table 10-9): one more, saturating at 64 bits; every other register as before. -/
theorem issued_bump2 (s : State) (p : Nat) :
    issuedCount (s.bump2 seqIssuedLo seqIssuedHi p 0 1) p = min (issuedCount s p + 1) (2 ^ 64 - 1) := by
  have hne : seqIssuedLo.key p 0 ≠ seqIssuedHi.key p 0 := by
    simp [Fld.key, seqIssuedLo, seqIssuedHi] <;> omega
  simp only [issuedCount, State.bump2, reg_setReg_same]
  rw [reg_setReg_ne _ _ hne, reg_setReg_same]
  simp only [satAdd, seqIssuedLo, seqIssuedHi]
  generalize State.reg s _ p 0 + 2 ^ 32 * State.reg s _ p 0 = x
  omega

theorem issued_regsBut (s : State) (p : Nat) : regsBut (issuedKeys p) s (s.bump2 seqIssuedLo seqIssuedHi p 0 1) := by
  intro k hk d
  simp only [issuedKeys, List.mem_cons, List.not_mem_nil, or_false, not_or] at hk
  simp only [State.bump2, setReg_regs]
  rw [tget_tput_ne _ _ _ hk.2, tget_tput_ne _ _ _ hk.1]

end Sys2Proof.Machine
end

