-- ==== Sys2Proof/Laws/Memory.lean ====
section
/-! SUPPORT. The canonical form of every memory under the shared operations, and all that a fault record does. -/
namespace Sys2Proof.Machine

/-- The machine after reset lists no memory cell. -/
theorem reset_memWf : State.reset.memWf = true := by decide

/-- Memory alone decides about the canonical form of slices, LLM and GDDR. -/
theorem memWf_of (s t : State) (hm : t.mem = s.mem ∨ Memory.wf t.mem = true) (hp : t.piers = s.piers) (h : s.memWf = true) :
    t.memWf = true := by
  simp only [State.memWf, Bool.and_eq_true] at h ⊢
  rcases hm with hm | hm
  · exact ⟨hm ▸ h.1, hp ▸ h.2⟩
  · exact ⟨hm, hp ▸ h.2⟩

theorem wr_memWf (s : State) (a : Nat) (bs : List Byte) (h : s.memWf = true) : (s.wr a bs).memWf = true :=
  memWf_of s _ (.inr (mputs_wf _ _ (by simp only [State.memWf, Bool.and_eq_true] at h; exact h.1) _)) rfl h

theorem zeroMem_memWf (s : State) (lo hi : Nat) (h : s.memWf = true) : (s.zeroMem lo hi).memWf = true :=
  memWf_of s _ (.inr (mzero_wf _ _ _ (by simp only [State.memWf, Bool.and_eq_true] at h; exact h.1))) rfl h

theorem setReg_memWf (s : State) (f : Fld) (p i v : Nat) (h : s.memWf = true) : (s.setReg f p i v).memWf = true :=
  memWf_of s _ (.inl rfl) rfl h

theorem send_memWf (s : State) (m : Out) (h : s.memWf = true) : (s.send m).memWf = true := memWf_of s _ (.inl rfl) rfl h

theorem enqueue_memWf (s : State) (c : Instr) (h : s.memWf = true) : (s.enqueue c).memWf = true := memWf_of s _ (.inl rfl) rfl h

theorem setSpan_memWf (s : State) (k : Nat) (x : Span) (h : s.memWf = true) : (s.setSpan k x).memWf = true :=
  memWf_of s _ (.inl rfl) rfl h

/-- Every pier's memories are in canonical form, those of a pier that is not listed too. -/
theorem pier_memWf (s : State) (p : Nat) (h : s.memWf = true) : (s.pier p).memWf = true := by
  simp only [State.memWf, Bool.and_eq_true, List.all_eq_true] at h
  rcases tget_mem ({} : Pier) s.piers p with e | ⟨x, hx, e⟩
  · rw [State.pier, e]; decide
  · rw [State.pier, e]; exact h.2 x hx

theorem setPier_memWf (s : State) (p : Nat) (x : Pier) (h : s.memWf = true) (hx : x.memWf = true) :
    (s.setPier p x).memWf = true := by
  simp only [State.memWf, Bool.and_eq_true, List.all_eq_true] at h ⊢
  refine ⟨h.1, fun e he => ?_⟩
  rcases mem_tput s.piers p x e he with rfl | he
  · exact hx
  · exact h.2 e he

theorem modPier_memWf (s : State) (p : Nat) (f : Pier → Pier) (h : s.memWf = true)
    (hf : ∀ x, x.memWf = true → (f x).memWf = true) : (s.modPier p f).memWf = true :=
  setPier_memWf s p _ h (hf _ (pier_memWf s p h))

theorem raise_memWf (r : Rec) (s : State) (h : s.memWf = true) : (raise r s).memWf = true := by
  unfold raise
  split
  · exact setReg_memWf _ _ _ _ _ (setReg_memWf _ _ _ _ _ (wr_memWf _ _ _ h))
  · exact setReg_memWf _ _ _ _ _ (wr_memWf _ _ _ h)

/-- All that a fault record does (R461, R463): the ring entry and FAULT_WRITTEN, FAULT_LATCH from ACTION 4 on; nothing outside
memory and registers. -/
theorem raise_spec (r : Rec) (s : State) :
    Recorded r s (raise r s) ∧ raise r s = { s with mem := (raise r s).mem, regs := (raise r s).regs } ∧
      (4 ≤ r.action → (raise r s).dreg rasFaultLatch = 1) ∧
      (r.action < 4 → (raise r s).dreg rasFaultLatch = s.dreg rasFaultLatch) := by
  by_cases h : 4 ≤ r.action
  · have h' : ¬ r.action < 4 := by omega
    refine ⟨⟨by simp [raise, h, State.wr, State.setDreg, State.setReg], ?_⟩, by simp [raise, h, State.wr, State.setDreg, State.setReg],
      fun _ => ?_, fun x => absurd x h'⟩
    · simp only [raise, h, if_true, State.dreg, State.setDreg, State.setReg, State.reg, State.wr]
      rw [tget_tput_ne _ _ _ (by decide), tget_tput_same]; rfl
    · simp only [raise, h, if_true, State.dreg, State.setDreg, State.setReg, State.reg, tget_tput_same]; decide
  · refine ⟨⟨by simp [raise, h, State.wr, State.setDreg, State.setReg], ?_⟩, by simp [raise, h, State.wr, State.setDreg, State.setReg],
      fun x => absurd x h, fun _ => ?_⟩
    · simp only [raise, h, if_false, State.dreg, State.setDreg, State.setReg, State.reg, State.wr, tget_tput_same]; rfl
    · simp only [raise, h, if_false, State.dreg, State.setDreg, State.setReg, State.reg, State.wr]
      rw [tget_tput_ne _ _ _ (by decide)]

end Sys2Proof.Machine
end

