-- ==== Sys2Proof/Tests/Slice0.lean ====
section
/-! SUPPORT. Tests: well-formedness, sequencer words, commands, and for each statement concrete states and operands that
meet its hypotheses, clause by clause. -/
namespace Sys2Proof.Tests
open Sys2Proof.Machine

/-! ### Small states -/

def member : Member := { session := 5, seq := 0 }
def ring : Ring := { logN := 15, q := 2, p := 1, primes := [97, 193, 257], roots := [5, 5, 3] }
def batch : Batch := { serial := 3, launchTs := 1000, prepTs := 0, keyTag := 7, ring := ring, members := [member] }
def span : Span :=
  { handle := 1, imgSpan := 0, piers := [0], edges := [], grants := [100], configured := false, batch := some batch
    running := true, relFc := 40 }
def image : Image :=
  { handle := 1, owner := 0, digest := [], spans := [0], shapeModes := 0, ringShape := [], batchWaitUs := 10, pinMib := 0
    keys := [], mats := [], shards := [], stages := [], hxp := [], points := [], arrivalEntries := 0, arrivalBytes := 0
    arrivalBase := 0, tableBase := 0, llmBase := 0x2000000, llmBytes := 0x8000, gddrBase := 0, gddrPart := 0, winMap := []
    backing := [] }
def session : Session := { id := 5, slot := 0, keyTag := 7, policy := {}, mask := 0 }
def request : Request :=
  { session := 5, seq := 0, slot := 0, ring := 0, handle := 1, span := 0, args := [], policy := {}, ranges := [], arrival := 0
    st := .running }
def slot : Slot := { partnerKey := [1], keys := [2], ctrIn := 0, home := 0, standby := 4 }
def keySet : KeySet := { tag := 7, ring := ring, params := [], objs := [], constObj := 0, images := [1] }

/-- A device that has booted, with a partner, a session, a key set and an image whose span waits for nothing. -/
def ready : State := { State.reset with
  ks := { resetKeystone with boot := 1, rngOk := true, run := some resetBundle }
  clk := { ns := 5000 }
  slots := [(0, slot)]
  sessions := [(5, session)]
  keysets := [keySet]
  images := [(1, image)]
  spans := [(0, { span with batch := none, running := false })] }

/-- The span runs, and its pier, which is `x` otherwise, issues. -/
def going (x : Pier) : State := { ready with
  spans := [(0, span)], piers := [(0, { x with seq := { x.seq with st := .running } })], requests := [request] }

def iss : Iss := { pier := 0, next := 1 }
def ctx : Ctx := { p := 0, k := 0, st := 0, fc := 40, batch := batch }
def noSel : Sel := { en := false, r := 0 }
def noMem : Mem9 := { idx := 0, all := false, arm := noSel }
def full : Shape := { rows := 64, cols := 64, mv := 0 }

theorem issues (x : Pier) : Issues iss (going x) ctx := ⟨by decide, rfl⟩

/-! ### Well-formed commands -/

def vreq : VerbReq := { slot := 0, standby := false, tag := 9, ctr := 1, ok := true }
def timeOp : TimeOp := { beat := false, offset := 0, aroff := noSel }
def launchOp : LaunchOp := { t := timeOp, kind := 0, chuck := 0, desc := 0, arstart := noSel, sendSlot := 0 }
def dsendOp : DsendOp := { brow := 0, arb := noSel, n := 1, lanes := 64, dstage := 0, drow := 0, ard := noSel }
def hchkOp : HchkOp :=
  { cls := 0, ha := 0, hb := 0, hk := 15, hd := 0, level := 0, g := 0, spt := 0, hoist := false, mem := noMem }
def lineOp : LineOp :=
  { tile := 0, brow := 0, arb := noSel, step := 1, n := 64, bcol := false, tcol := false, lane := 0, tidx := 0, mem := noMem
    shape := full }
def cldOp : CldOp := { tile := 0, trow := 0, n := 2, table := 0, x := 0, arx := noSel, crow := 0, mem := noMem, shape := full }
def nttOp : NttOp := { logN := 15, half := 0, sub := 0, prime := 0, arp := noSel, mem := noMem }
def mmeOp : MmeOp := { a := 0, b := 1, c := 2, qdest := false, mem := noMem, shA := full, shB := full, shC := full }
def spinOp : SpinOp :=
  { entry := 0, stages := 1, x := 0, y := 31, o1 := 31, o0kind := 2, o0tile := 1, brow := 0, arb := noSel, dstage := 0
    mem := noMem, keysel := 0, stream := 0, arbase := noSel, arctr := noSel }
def fsseOp : FsseOp := { mentry := 0, g := 1, itemRow := 0, xhatRow := 0, outRow := 0, arb := noSel, eval := false, mem := noMem }
def far : Sel := { en := true, r := 16 }

/-- Every check of the sequencer's operands refuses a term. -/
theorem test_wf_sequencer :
    ([Instr.nop ⟨192, 1⟩, .nop ⟨0, 0⟩, .halt ⟨0, 65537⟩, .loop iss 4 1 1, .loop iss 0 16777217 1, .loop iss 0 1 0, .loop iss 0 1 4096,
      .call iss 1024 0, .call iss 0 65536, .waitc iss 8, .waitt iss { timeOp with offset := 2 ^ 32 },
      .waitt iss { timeOp with aroff := far }, .launch iss { launchOp with kind := 2 }, .launch iss { launchOp with chuck := 3 },
      .launch iss { launchOp with desc := 256 }, .launch iss { launchOp with sendSlot := 256 }, .launch iss { launchOp with arstart := far },
      .ptok iss 4, .aset iss 16 0, .aset iss 0 (2 ^ 32), .astr iss 16 0 0, .astr iss 0 4 0, .astr iss 0 0 (2 ^ 32), .aadd iss 16 0 0,
      .aadd iss 0 16 0, .aadd iss 0 0 (2 ^ 32), .lparm iss 16 0, .lparm iss 0 32, .arm iss 16 0 noSel 1, .arm iss 0 16384 noSel 1,
      .arm iss 0 0 far 1, .arm iss 0 0 noSel 0, .arm iss 0 0 noSel 16385, .rel iss 16, .chk iss 3 0 noSel, .chk iss 0 256 noSel,
      .chk iss 0 0 far].all fun c => !c.wf) = true := by decide

theorem test_wf_data :
    ([Instr.dsend iss { dsendOp with brow := 16384 }, .dsend iss { dsendOp with n := 0 }, .dsend iss { dsendOp with n := 65 },
      .dsend iss { dsendOp with lanes := 128 }, .dsend iss { dsendOp with dstage := 256 }, .dsend iss { dsendOp with drow := 16384 },
      .dsend iss { dsendOp with arb := far }, .dsend iss { dsendOp with ard := far },
      .hld iss 8 0 noSel, .hst iss 0 16384 noSel, .hst iss 0 0 far, .hchk iss { hchkOp with cls := 13 }, .hchk iss { hchkOp with ha := 16 },
      .hchk iss { hchkOp with hb := 16 }, .hchk iss { hchkOp with hk := 16 }, .hchk iss { hchkOp with hd := 8 },
      .hchk iss { hchkOp with level := 128 }, .hchk iss { hchkOp with g := 65536 }, .hchk iss { hchkOp with spt := 65536 },
      .hchk iss { hchkOp with mem := { noMem with idx := 256 } }, .tld iss { lineOp with tile := 16 }, .tst iss { lineOp with brow := 16384 },
      .tld iss { lineOp with arb := far }, .tld iss { lineOp with step := 16384 }, .tst iss { lineOp with step := -16385 },
      .tld iss { lineOp with n := 0 }, .tst iss { lineOp with n := 65 }, .tld iss { lineOp with lane := 64 }, .tst iss { lineOp with tidx := 64 },
      .tld iss { lineOp with mem := { noMem with arm := far } }, .tst iss { lineOp with shape := { full with rows := 128 } },
      .cld iss { cldOp with table := 7 }, .cld iss { cldOp with tile := 16 }, .cld iss { cldOp with trow := 64 }, .cld iss { cldOp with n := 0 },
      .cld iss { cldOp with x := 128 }, .cld iss { cldOp with crow := 64 }, .cld iss { cldOp with shape := { full with cols := 128 } },
      .mvld iss 4 0 noSel, .mvld iss 0 16384 noSel, .tcfg iss 16 false 0 full, .tcfg iss 0 false 16 full,
      .tcfg iss 0 false 0 { full with mv := 4 }].all fun c => !c.wf) = true := by decide

theorem test_wf_engines :
    ([Instr.ntt iss { nttOp with logN := 14 }, .intt iss { nttOp with logN := 18 }, .ntt iss { nttOp with half := 2 },
      .intt iss { nttOp with sub := 2 }, .ntt iss { nttOp with prime := 128 }, .intt iss { nttOp with arp := far },
      .mmul iss { mmeOp with a := 16 }, .mmac iss { mmeOp with b := 16 }, .emul iss { mmeOp with c := 16 },
      .emac iss { mmeOp with shA := { full with rows := 128 } }, .mmul iss { mmeOp with shB := { full with cols := 128 } },
      .mmul iss { mmeOp with shC := { full with mv := 4 } }, .spin iss { spinOp with entry := 64 }, .spin iss { spinOp with stages := 0 },
      .spin iss { spinOp with stages := 9 }, .spin iss { spinOp with x := 17 }, .spin iss { spinOp with y := 16 },
      .spin iss { spinOp with o1 := 30 }, .spin iss { spinOp with o0kind := 4 }, .spin iss { spinOp with o0tile := 16 },
      .spin iss { spinOp with brow := 16384 }, .spin iss { spinOp with arb := far }, .spin iss { spinOp with dstage := 256 },
      .spin iss { spinOp with keysel := 3 }, .spin iss { spinOp with stream := 65536 }, .spin iss { spinOp with arbase := far },
      .spin iss { spinOp with arctr := far }, .sbld iss 4 0 noSel false 0, .sbld iss 0 16384 noSel false 0, .sbld iss 0 0 noSel true 64,
      .skld iss 2 0 noSel, .skld iss 0 16384 noSel, .fsse iss { fsseOp with mentry := 16 }, .fsse iss { fsseOp with g := 0 },
      .fsse iss { fsseOp with g := 65 }, .fsse iss { fsseOp with itemRow := 16384 }, .fsse iss { fsseOp with xhatRow := 16384 },
      .fsse iss { fsseOp with outRow := 16384 }, .fsse iss { fsseOp with arb := far }].all fun c => !c.wf) = true := by decide

/-- The operands used above are well formed. -/
theorem test_wf_good :
    ([Instr.nop iss, .loop iss 3 16777216 4095, .call iss 1023 65535, .waitc iss 7, .waitt iss timeOp, .launch iss launchOp, .ptok iss 3,
      .arm iss 15 16383 noSel 16384, .chk iss 2 255 noSel, .dsend iss dsendOp, .hchk iss hchkOp, .tld iss lineOp, .cld iss cldOp,
      .ntt iss nttOp, .mmac iss mmeOp, .spin iss spinOp, .fsse iss fsseOp].all Instr.wf) = true := by decide

def pol : PolicyOp :=
  { session := 5, keysetTag := 7, noiseLimit := 0, noiseAction := 0, close := false, roleH := false, hasNoise := false, cPort := 0
    hPort := 0, cAddr := [], hAddr := [], owner := none, disclosure := none, cRec := none, hRec := none }
def range0 : WinRange := { window := 20, offset := 0, length := 64, remote := [] }
def farWin : WinRange := { range0 with window := 1024 }
def loadOp : LoadOp := { src := range0, winMap := [], report := none, replace := none }
def rdmaOp : RdmaOp := { port := 0, qpn := 3, psn := 5, rkey := 0, offset := 0, length := 4, data := [] }
def netOp : NetOp := { port := 0, target := [0, 0, 0, 0], sender := [], senderMac := [], payload := [1, 2] }
def hxpMsg : HxpMsg :=
  { port := 0, addr := [9], udp := 77, ok := true, version := 1, flags := 0, session := 5, request := 0, seq := 0, ack := 0
    serial := 0, step := 1, epoch := 0, fragIndex := 0, fragCount := 1, src := 1, dst := 0, payload := [1, 2] }
def peerMsg : PeerMsg :=
  { device := 2, net := 0, certOk := true, sigOk := true, serial := 11, fwVersion := 1, operVersion := 1, raw := [] }
def helloOp : HelloOp :=
  { port := 0, claim := true, x25519 := List.replicate 32 9, mlkem := [], partnerKey := [3], notAfter := 0, credSig := []
    operatorKey := [4], raw := [], peer := none }
def finishOp : FinishOp := { hs := 1, aeadOk := true, signature := [], qps := [], peer := none, raw := [] }
def syncOp : SyncOp := { net := 0, domain := 0, identity := 1, seqId := 0, origin := 100, corr := 0, rx := 40, twoStep := false }
def straps : Straps := { bootsel := 0, nodeId := 3, netSplit := false, g7rate := 0 }
def mirrorRec : MirrorRec :=
  { device := 2, session := 5, seq := 0, keysetTag := 7, desc := [], ranges := [], work := true, imageDigest := [] }
def handoffOp : HandoffOp := { device := 2, session := 5, seq := 0, imageDigest := [], committed := none }

/-- Every check of the partners' commands refuses a term. -/
theorem test_wf_partners :
    ([Instr.unknownVerb { vreq with slot := 8 } 0, .unknownVerb { vreq with tag := 2 ^ 64 } 0, .unknownVerb { vreq with ctr := 2 ^ 64 } 0,
      .unknownVerb vreq 65536, .loadImage vreq { loadOp with src := farWin }, .loadImage vreq { loadOp with winMap := [(0, 1024)] },
      .loadImage vreq { loadOp with src := { range0 with offset := 2 ^ 64 } }, .loadImage vreq { loadOp with src := { range0 with length := 2 ^ 64 } },
      .installKeyset vreq farWin [] true, .eraseKeyset vreq (2 ^ 64) 0, .eraseKeyset vreq 7 2, .eraseKeysetDone (2 ^ 64),
      .loadImageReplaceDrained (2 ^ 64), .attest vreq [] [], .attest vreq (List.replicate 32 0) (List.replicate 65 0), .updateFw vreq farWin,
      .setPolicy { vreq with slot := 8 } pol, .sessionCloseDone (2 ^ 64), .exportWeights vreq 1 [(1024, 0)], .readReg vreq [2 ^ 32],
      .writeReg vreq [(2 ^ 32, 0)] [], .writeReg vreq [(0, 2 ^ 32)] [], .windowOpen 9, .windowDrainDone 1024, .warmReset 0 (2 ^ 64),
      .spanReset 9 0, .pierReset 0 (2 ^ 32), .mirrorAck 65536, .mirrorRecords [mirrorRec], .commitAck (2 ^ 64) 0,
      .handoff { handoffOp with device := 4096 }, .mirroredSessionStateAck (2 ^ 64)].all fun c => !c.wf) = true := by decide

theorem test_wf_units :
    ([Instr.spanFreeze 16, .imemWrite 192 none 0, .imemWrite 0 none (2 ^ 128), .imemWrite 0 (some (2, 0, 0)) 0, .swapArm 192 1,
      .feedLaunch 4096 0, .arrivedPlaced 0 65536 0, .sbRangeFull 192 0, .sbDrainDone 0 16, .chuckResume 0 3, .chuckRetry 192 0,
      .waittTarget 192, .imemScrub 0 2 0, .flitReplay 3 0 2 [], .flitDelivered 0 65536, .llmScrub 3, .gddrScrub 16 0 none,
      .channelRetrainDone 0 4 true, .por { straps with nodeId := 4096 } true, .pin { straps with bootsel := 8 },
      .pin { straps with g7rate := 4 }, .tempUpdate 65536, .wake 16].all fun c => !c.wf) = true := by decide

theorem test_wf_wire :
    ([Instr.sync { syncOp with net := 2 }, .sync { syncOp with domain := 256 }, .sync { syncOp with identity := 2 ^ 64 },
      .sync { syncOp with seqId := 65536 }, .delayResp 2 0 0 0, .delayResp 0 65536 0 0, .syncLoss 2, .hello helloOp,
      .hello { helloOp with port := 8 }, .reply { peerMsg with device := 4096 }, .accept { peerMsg with net := 2 }, .finish finishOp,
      .detach 8 0 true, .peerDown 4096, .rdmaWrite { rdmaOp with port := 8 }, .rdmaRead { rdmaOp with qpn := 2 ^ 24 },
      .rdmaWrite { rdmaOp with psn := 2 ^ 24 }, .rdmaRead { rdmaOp with rkey := 2 ^ 32 }, .cnp 8 0, .cnp 0 (2 ^ 24),
      .roceRetransmit (2 ^ 24) 0, .roceRetransmit 0 (2 ^ 24), .arp { netOp with target := [] }, .arp { netOp with port := 8 },
      .neighborDiscovery netOp, .linkUp 8, .pfcFrame 8 true, .ack { hxpMsg with port := 8 }, .openMsg { hxpMsg with step := 65536 },
      .returnCt { hxpMsg with fragIndex := 65536 }, .decryptShare { hxpMsg with fragCount := 65536 }, .hxpTimeout 0 0 65536,
      .followUp 2 0 0 0, .followUp 0 65536 0 0, .announce 0 256 0 0 0 0 0 0, .announce 0 0 0 0 0 0 0 (2 ^ 64),
      .buddyStripeFetch 4096 3 0 0, .peerConnectionReopen 4096 0, .peerConnectionReopen 0 2].all fun c => !c.wf) = true := by decide

/-! ### Words of the sequencer, bit by bit from Tables 10-1 to 10-5 -/

theorem test_decode_control :
    decodeWord 9 (BitVec.ofNat 128 (0x01 + 4 * 2 ^ 8 + 2 * 2 ^ 24 + 100 * 2 ^ 26 + 7 * 2 ^ 51)) = some (.loop ⟨9, 5⟩ 2 100 7) ∧
    decodeWord 9 (BitVec.ofNat 128 (0x02 + 513 * 2 ^ 24 + 77 * 2 ^ 34)) = some (.call ⟨9, 1⟩ 513 77) ∧
    decodeWord 9 (BitVec.ofNat 128 (0x04 + 0xFFFF * 2 ^ 8)) = some (.halt ⟨9, 65536⟩) ∧
    decodeWord 9 (BitVec.ofNat 128 (0x06 + 2 ^ 24 + 0xFFFFFFFF * 2 ^ 25 + 0x13 * 2 ^ 57)) =
      some (.waitt ⟨9, 1⟩ ⟨true, 0xFFFFFFFF, ⟨true, 3⟩⟩) ∧
    decodeWord 9 (BitVec.ofNat 128 (0x07 + 1 * 2 ^ 62 + 200 * 2 ^ 79)) =
      some (.launch ⟨9, 1⟩ ⟨⟨false, 0, noSel⟩, 1, 0, 0, noSel, 200⟩) ∧
    decodeWord 9 (BitVec.ofNat 128 (0x07 + 2 * 2 ^ 62)) = none := by decide

theorem test_decode_address :
    decodeWord 0 (BitVec.ofNat 128 (0x09 + 12 * 2 ^ 24 + 0x89ABCDEF * 2 ^ 28)) = some (.aset ⟨0, 1⟩ 12 0x89ABCDEF) ∧
    decodeWord 0 (BitVec.ofNat 128 (0x0A + 1 * 2 ^ 24 + 3 * 2 ^ 28 + 0xFFFFFFFF * 2 ^ 30)) = some (.astr ⟨0, 1⟩ 1 3 0xFFFFFFFF) ∧
    decodeWord 0 (BitVec.ofNat 128 (0x0B + 2 * 2 ^ 24 + 5 * 2 ^ 28 + 8 * 2 ^ 32)) = some (.aadd ⟨0, 1⟩ 2 5 8) ∧
    decodeWord 0 (BitVec.ofNat 128 (0x0C + 2 * 2 ^ 24 + 31 * 2 ^ 28)) = some (.lparm ⟨0, 1⟩ 2 31) := by decide

theorem test_decode_transfers :
    decodeWord 3 (BitVec.ofNat 128 (0x10 + 15 * 2 ^ 24 + 16383 * 2 ^ 28 + 0x12 * 2 ^ 42 + 16384 * 2 ^ 47)) =
      some (.arm ⟨3, 1⟩ 15 16383 ⟨true, 2⟩ 16384) ∧
    decodeWord 3 (BitVec.ofNat 128 (0x12 + 2 * 2 ^ 24 + 255 * 2 ^ 26 + 0x1F * 2 ^ 34)) = some (.chk ⟨3, 1⟩ 2 255 ⟨true, 15⟩) ∧
    decodeWord 3 (BitVec.ofNat 128 (0x12 + 3 * 2 ^ 24)) = none ∧
    decodeWord 3 (BitVec.ofNat 128 (0x13 + 9 * 2 ^ 24 + 63 * 2 ^ 43 + 64 * 2 ^ 49 + 4 * 2 ^ 56 + 11 * 2 ^ 64)) =
      some (.dsend ⟨3, 1⟩ ⟨9, noSel, 64, 64, 4, 11, noSel⟩) ∧
    decodeWord 3 (BitVec.ofNat 128 (0x18 + 7 * 2 ^ 24 + 1000 * 2 ^ 27)) = some (.hld ⟨3, 1⟩ 7 1000 noSel) ∧
    decodeWord 3 (BitVec.ofNat 128 (0x1A + 4 * 2 ^ 24 + 1 * 2 ^ 28 + 15 * 2 ^ 32 + 2 * 2 ^ 36 + 3 * 2 ^ 40 + 5 * 2 ^ 43 + 256 * 2 ^ 50 +
      512 * 2 ^ 66 + 2 ^ 82 + 6 * 2 ^ 83)) = some (.hchk ⟨3, 1⟩ ⟨4, 1, 15, 2, 3, 5, 256, 512, true, ⟨6, false, noSel⟩⟩) := by decide

theorem test_decode_lathe :
    decodeWord 0 (BitVec.ofNat 128 (0x20 + 3 * 2 ^ 24 + 100 * 2 ^ 28 + 0x7FFF * 2 ^ 47 + 63 * 2 ^ 62 + 2 ^ 68 + 2 ^ 69 + 5 * 2 ^ 70 +
      6 * 2 ^ 76 + 2 ^ 98 + 64 * 2 ^ 104 + 32 * 2 ^ 112 + 1 * 2 ^ 120)) =
      some (.tld ⟨0, 1⟩ ⟨3, 100, noSel, -1, 64, true, true, 5, 6, ⟨0, true, noSel⟩, ⟨64, 32, 1⟩⟩) ∧
    decodeWord 0 (BitVec.ofNat 128 (0x22 + 1 * 2 ^ 24 + 2 * 2 ^ 28 + 3 * 2 ^ 34 + 6 * 2 ^ 40 + 9 * 2 ^ 43 + 8 * 2 ^ 55 + 4 * 2 ^ 61)) =
      some (.cld ⟨0, 1⟩ ⟨1, 2, 4, 6, 9, noSel, 8, ⟨4, false, noSel⟩, ⟨0, 0, 0⟩⟩) ∧
    decodeWord 0 (BitVec.ofNat 128 (0x22 + 7 * 2 ^ 40)) = none ∧
    decodeWord 0 (BitVec.ofNat 128 (0x24 + 5 * 2 ^ 24 + 2 ^ 28 + 7 * 2 ^ 29 + 16 * 2 ^ 33 + 8 * 2 ^ 41 + 3 * 2 ^ 49)) =
      some (.tcfg ⟨0, 1⟩ 5 true 7 ⟨16, 8, 3⟩) ∧
    decodeWord 0 (BitVec.ofNat 128 (0x25 + 1 * 2 ^ 24 + 2 ^ 26 + 2 ^ 27 + 9 * 2 ^ 28 + 0x11 * 2 ^ 35 + 3 * 2 ^ 40)) =
      some (.ntt ⟨0, 1⟩ ⟨16, 1, 1, 9, ⟨true, 1⟩, ⟨3, false, noSel⟩⟩) ∧
    decodeWord 0 (BitVec.ofNat 128 (0x2A + 1 * 2 ^ 24 + 2 * 2 ^ 28 + 3 * 2 ^ 32 + 2 ^ 36 + 7 * 2 ^ 37 + 10 * 2 ^ 51 + 11 * 2 ^ 77 +
      2 * 2 ^ 103)) = some (.emac ⟨0, 1⟩ ⟨1, 2, 3, true, ⟨7, false, noSel⟩, ⟨10, 0, 0⟩, ⟨0, 11, 0⟩, ⟨0, 0, 2⟩⟩) := by decide

theorem test_decode_spindle :
    decodeWord 0 (BitVec.ofNat 128 (0x30 + 62 * 2 ^ 24 + 1 * 2 ^ 30 + 16 * 2 ^ 33 + 31 * 2 ^ 38 + 1 * 2 ^ 43 + 2 * 2 ^ 45 + 300 * 2 ^ 49 +
      4 * 2 ^ 68 + 31 * 2 ^ 76 + 5 * 2 ^ 81 + 2 * 2 ^ 95 + 0xABCD * 2 ^ 97 + 0x13 * 2 ^ 113 + 0x14 * 2 ^ 118)) =
      some (.spin ⟨0, 1⟩ { entry := 62, stages := 2, x := 16, y := 31, o1 := 31, o0kind := 1, o0tile := 2, brow := 300, arb := noSel
                           dstage := 4, mem := ⟨5, false, noSel⟩, keysel := 2, stream := 0xABCD, arbase := ⟨true, 3⟩
                           arctr := ⟨true, 4⟩ }) ∧
    decodeWord 0 (BitVec.ofNat 128 (0x31 + 2 * 2 ^ 24 + 9 * 2 ^ 26 + 2 ^ 45 + 33 * 2 ^ 46)) = some (.sbld ⟨0, 1⟩ 2 9 noSel true 33) ∧
    decodeWord 0 (BitVec.ofNat 128 (0x32 + 1 * 2 ^ 24 + 9 * 2 ^ 25 + 0x15 * 2 ^ 39)) = some (.skld ⟨0, 1⟩ 1 9 ⟨true, 5⟩) ∧
    decodeWord 0 (BitVec.ofNat 128 (0x33 + 3 * 2 ^ 24 + 15 * 2 ^ 28 + 100 * 2 ^ 34 + 200 * 2 ^ 48 + 300 * 2 ^ 62 + 2 ^ 81 + 2 ^ 82)) =
      some (.fsse ⟨0, 1⟩ ⟨3, 16, 100, 200, 300, noSel, true, ⟨1, false, noSel⟩⟩) ∧
    decodeWord 0 (BitVec.ofNat 128 0x0D) = none ∧ decodeWord 0 (BitVec.ofNat 128 0x34) = none := by decide

/-! ### Witnesses: the block and the sequencer -/

theorem witness_StepRunsTheFrontCommand :
    ({ ready with pending := [.gddrRefresh 15] } : State).pending = .gddrRefresh 15 :: [] ∧ State.reset.pending = [] := by decide

theorem witness_EveryStepKeepsMemoryCanonical :
    ({ ready with pending := [.rngFail] } : State).memWf = true ∧ ∃ t, step { ready with pending := [.rngFail] } = .next t :=
  ⟨by decide, _, rfl⟩

theorem witness_AddressInstructions : Issues iss (going {}) ctx ∧ 3 < 4 := ⟨issues {}, by decide⟩

def loop0 : LoopSt := { level := 1, count := 3, start := 5, last := 9, lc := 1 }

theorem witness_PassingAnInstruction :
    (∀ l ∈ ({} : Seq).loops.head?, l.last ≠ ({} : Seq).pc) ∧
    ({ pc := 9, loops := [loop0] } : Seq).loops = loop0 :: [] ∧ loop0.last = ({ pc := 9, loops := [loop0] } : Seq).pc ∧
    loop0.lc + 1 < loop0.count := ⟨by simp, rfl, rfl, by decide⟩

theorem witness_LoopRestoresAddressRegisters : 1 ≤ 1 ∧ 15 < 16 := by decide

theorem witness_LoopInstruction :
    Issues iss (going {}) ctx ∧ 1 ≤ 16777216 ∧ (∀ l ∈ ((going {}).pier 0).seq.loops.head?, l.last ≠ ((going {}).pier 0).seq.pc + 1) :=
  ⟨issues {}, by decide, by simp [going, State.pier, tget]⟩

def frame : Frame := { callPc := 4, routine := none, loops := [], a := [(1, 5)], dyn := [], strides := [] }

theorem witness_CallAndReturn :
    Issues iss (going { seq := { stack := [frame] } }) ctx ∧ ((going { seq := { stack := [frame] } }).pier 0).seq.stack = frame :: [] :=
  ⟨issues _, rfl⟩

theorem witness_HaltAndPtok : Issues iss (going {}) ctx := issues {}

/-- A target ahead of the time base, and one that it has reached. -/
theorem witness_WaitForTime :
    Issues iss (going {}) ctx ∧ (going {}).now < target ctx ((going {}).pier 0).seq { timeOp with offset := 4001 } ∧
      target ctx ((going {}).pier 0).seq { timeOp with offset := 4000 } ≤ (going {}).now := ⟨issues {}, by decide, by decide⟩

def xfer : Xfer := { id := 7, didx := 0, d := { farKind := 3, counts := [4], strides := [1], sbEntry := 2, limit := 8 }, start := 0 }

theorem witness_WaitForChucks :
    Issues iss (going { chucks := [(1, { xfers := [xfer] })] }) ctx ∧
      ((going { chucks := [(1, { xfers := [xfer] })] }).pier 0).busyChuck 1 = true ∧
      ((going { chucks := [(1, { xfers := [xfer] })] }).pier 0).busyChuck 0 = false := ⟨issues _, by decide, by decide⟩

def board : Pier := { sb := [(0, .filling 0 1), (1, .full 16383 1), (2, .draining 5 6 1)] }

theorem witness_ScoreboardInstructions :
    Issues iss (going board) ctx ∧ sbCode (((going board).pier 0).sbAt 15) = 0 ∧ sbCode (((going board).pier 0).sbAt 0) = 1 ∧
      sbCode (((going board).pier 0).sbAt 1) = 2 ∧ sbCode (((going board).pier 0).sbAt 2) = 3 :=
  ⟨issues _, by decide, by decide, by decide, by decide⟩

/-- No FILLING entry lies over row 5, and entry 0 does over row 0. -/
theorem witness_RowInstructions :
    Issues iss (going board) ctx ∧ ((going board).pier 0).fillingOver 5 1 = [] ∧ ((going board).pier 0).fillingOver 0 1 = [0] :=
  ⟨issues _, by decide, by decide⟩

theorem witness_TileLines :
    Issues iss (going {}) ctx ∧ 1 ≤ lineOp.n ∧ lineOp.n ≤ (lineLimits lineOp (latch (going {}) ctx lineOp.tile lineOp.shape)).1 :=
  ⟨issues {}, by decide, by decide⟩

theorem witness_ConstantLoad :
    Issues iss (going {}) ctx ∧ ((going {}).pier 0).sound ∧ cldOp.n ≤ (latch (going {}) ctx cldOp.tile cldOp.shape).rows ∧
      cldOp.crow + cldOp.n ≤ constRows ctx.batch.ring cldOp.table ∧
      (cldOp.table = 4 ∨ ((going {}).pier 0).seq.eff { cldOp with x := 2 }.x noSel < ctx.batch.ring.count) :=
  ⟨issues {}, ⟨rfl, rfl, rfl⟩, by decide, by decide, by decide⟩

def vec : Pier := { mv := [(0, [0]), (3, [1])] }

theorem witness_TcfgSetsTheShape :
    Issues iss (going vec) ctx ∧ (1 ≤ 64 ∧ 64 ≤ 64 ∧ (((going vec).pier 0).mvec 3).isSome = true) ∧
      ¬ (((going vec).pier 0).mvec 1).isSome = true := ⟨issues _, by decide, by decide⟩

theorem witness_Transforms :
    Issues iss (going {}) ctx ∧ ((going {}).pier 0).sound ∧ (∀ t, t < nttOp.tiles → (latch (going {}) ctx (nttOp.first + t) fullShape).rows = 64 ∧
      (latch (going {}) ctx (nttOp.first + t) fullShape).cols = 64) ∧
      ((going {}).pier 0).seq.eff { nttOp with prime := 2 }.prime noSel < ctx.batch.ring.count :=
  ⟨issues {}, ⟨rfl, rfl, rfl⟩, by decide, by decide⟩

theorem witness_MatrixEngine :
    Issues iss (going vec) ctx ∧ ((going vec).pier 0).sound ∧ mmeFits ((going vec).pier 0) true (latch (going vec) ctx 0 full) (latch (going vec) ctx 1 full)
      (latch (going vec) ctx 2 full) = true ∧ mmeFits ((going vec).pier 0) false full full full = true :=
  ⟨issues _, ⟨rfl, rfl, rfl⟩, by decide, by decide⟩

theorem witness_ShapeFaultsAtIssue :
    Issues iss (going vec) ctx ∧ ((going vec).span 0).stop = none ∧
      (lineLimits lineOp (latch (going vec) ctx 0 { full with rows := 63 })).1 < lineOp.n ∧
      (latch (going vec) ctx 0 { full with rows := 1 }).rows < cldOp.n ∧
      mmeFits ((going vec).pier 0) true full { full with cols := 63 } full = false ∧
      mmeFits ((going vec).pier 0) false full { full with mv := 1 } full = false :=
  ⟨issues _, by decide, by decide, by decide, by decide, by decide⟩

theorem witness_SpindlePass :
    Issues iss (going vec) ctx ∧ spinOp.x ≠ 16 ∧ spinFits ((going vec).pier 0) spinOp fullShape = true ∧
      (((going vec).pier 0).mvec fullShape.mv).isSome = true ∧
      (((List.range spinOp.stages).map fun n => ((going vec).pier 0).spinWord (spinOp.entry + n)).any (badPrime ctx.batch.ring.count)) = false :=
  ⟨issues _, by decide, by decide, by decide, by decide⟩

theorem witness_FssEvaluation : Issues iss (going {}) ctx := issues {}

theorem witness_DeckSend : Issues iss (going {}) ctx ∧ 0 < dsendOp.n := ⟨issues {}, by decide⟩

/-- Four transfers outstanding; fewer, with descriptor 0 a local move of one element whose LIMIT, at 0x14, is 1; and the empty
table, whose descriptors have LIMIT 0. -/
def descs : Pier := { imem := mputs [] (imemBase 0 1 + 0x14) [1] }
def busy4 : Pier := { chucks := [(0, { xfers := List.replicate 4 xfer })] }

theorem witness_ChuckIssue :
    Issues iss (going busy4) ctx ∧ 4 ≤ (((going busy4).pier 0).chuck 0).xfers.length ∧
      (((going descs).pier 0).chuck 0).xfers.length < 4 ∧
      issueFault (going descs) 0 (resolveXfer (going descs) 0 (madeXfer ((going descs).pier 0) 0 0 none)).1 = none ∧
      issueFault (going {}) 0 (resolveXfer (going {}) 0 (madeXfer ((going {}).pier 0) 0 0 none)).1 = some (0x0301, 0) ∧
      ((going {}).span 0).stop = none :=
  ⟨issues _, by decide, by decide, by decide, by decide, by decide⟩

def act : TimedAct := { id := 7, target := 5000, sendSlot := 2 }
def armed4 : Pier := { timed := List.replicate 4 act }

theorem witness_TimedExchangeSend :
    Issues iss (going armed4) ctx ∧ target ctx ((going {}).pier 0).seq { timeOp with offset := 4000 } ≤ (going {}).now ∧
      (going {}).now < target ctx ((going {}).pier 0).seq { timeOp with offset := 4001 } ∧ ((going {}).pier 0).timed.length < 4 ∧
      4 ≤ ((going armed4).pier 0).timed.length := ⟨issues _, by decide, by decide, by decide, by decide⟩

theorem witness_HeaderCheck :
    Issues iss (going {}) ctx ∧ hchkOp.cls < 13 ∧
      ctx.batch.members.length ≤ (((going {}).pier 0).seq.member { noMem with idx := 1 }).getD 0 ∧
      ctx.batch.members[(((going {}).pier 0).seq.member noMem).getD 0]? = some member := ⟨issues {}, by decide, by decide, by decide⟩

/-- An operand of zeros is no ciphertext: class 0 answers 0x0205 (R47). -/
def chkArg : ChkArg := { cls := 0, levelArg := 0, g := 0, spt := 0, hoist := false, oper := 1, noiseLimit := 0, noiseAction := 0 }

theorem witness_PoisonedResultsAreSealed : (hdrCheck chkArg ring 0 (some 0) none).code ≠ 0 := by decide +kernel

/-! ### Witnesses: the host's commands -/

/-- `ready` with its ports enabled. -/
def open_ : State := { ready with regs := (List.range 8).map fun k => (prtPortEnable.key 0 k, 1) }

theorem takes (k : Nat) (h : k < 8) : open_.takes k := by
  refine ⟨h, rfl, rfl, ?_, rfl⟩
  have : ∀ k < 8, open_.reg prtPortEnable 0 k ≠ 0 := by decide
  exact this k h

theorem takesPeer : open_.takesPeer 0 := ⟨by decide, rfl, rfl, rfl⟩

theorem mayRun (w : Bool) : Admitted vreq w open_ slot :=
  ⟨by decide, rfl, rfl, by decide, rfl, rfl, fun _ => by decide, rfl, takes 0 (by decide)⟩

theorem witness_ReadRegisters : Admitted vreq false open_ slot ∧ 1 ≤ [0x30000].length ∧ [0x30000].length ≤ 64 ∧ tbNsLoAddr ∉ [0x30004] :=
  ⟨mayRun _, by decide, by decide, by decide⟩

theorem witness_TimeReadsAreOneInstant : Admitted vreq false open_ slot := mayRun _

theorem witness_WriteRegisters : Admitted vreq false open_ slot ∧ prtWinBaseLo ≠ prtWinRkey ∧ 7 ≠ vreq.slot :=
  ⟨mayRun _, by decide, by decide⟩

theorem witness_Attestation :
    Admitted vreq false open_ slot ∧ open_.ks.rngOk = true ∧
      [5].map (fun n => tfind open_.sessions n) = [session].map some ∧ (∀ x ∈ [session], x.slot = vreq.slot) ∧
      ({ open_ with ks := { open_.ks with rngOk := false } } : State).ks.rngOk = false :=
  ⟨mayRun _, rfl, rfl, by decide, rfl⟩

/-- A remote window of slot 0 that answers the bytes asked for. -/
def farWindow : State :=
  { open_ with windows := [(20, { st := .opened, remote := true, length := 64 * 65536, epoch := 1 })] }
def farRange (bs : List Byte) : WinRange := { window := 20, offset := 0, length := bs.length, remote := bs }

theorem mayRunFar (w : Bool) : Admitted vreq w farWindow slot :=
  ⟨by decide, rfl, rfl, by decide, rfl, rfl, fun _ => by decide, rfl, takes 0 (by decide)⟩

/-- A bundle that is none. That one passes rests on a signature, an opaque value. -/
theorem witness_FirmwareUpdate :
    Admitted vreq true farWindow slot ∧ readRange (admitted vreq 5 slot farWindow) 0 (farRange []) = some [] ∧
      parseBundle farWindow.ks [] = none := ⟨mayRunFar _, by decide, by decide⟩

/-- Session 5 exists under key set 7, session 6 does not; under key set 8 nothing passes. -/
theorem witness_SessionPolicy :
    Admitted vreq false open_ slot ∧ policyRefused 0 { pol with keysetTag := 8 } open_ = true ∧ policyRefused 0 pol open_ = false ∧
      policyRefused 0 { pol with session := 6 } open_ = false ∧ open_.ks.rngOk = true ∧
      tfind open_.sessions pol.session = some session ∧
      ({ open_ with regs := (prtBuddyNone.key 0 0, 1) :: open_.regs } : State).hasBuddy = false := by
  exact ⟨mayRun _, by decide, by decide, by decide, rfl, rfl, by decide⟩

theorem witness_SessionEvents :
    (tfind ({ open_ with sessions := [(5, { session with closing := some 9 })] } : State).sessions 5 =
      some { session with closing := some 9 } ∧ open_.hasLive 5 = false) ∧
    open_.takesPeer 0 ∧ ([({ slot := 0, tag := 9, verb := 6, key := 5, bind := some ({}, 7, [], 0) } : WaitVerb)].find?
      fun w => w.verb = 6 ∧ w.key = 5 ∧ w.bind.isSome) = some { slot := 0, tag := 9, verb := 6, key := 5, bind := some ({}, 7, [], 0) } :=
  ⟨⟨rfl, by decide⟩, takesPeer, by decide⟩

theorem witness_KeySets :
    Admitted vreq true farWindow slot ∧ (∀ k ∈ open_.keysets, k.tag ≠ 8) ∧ (∃ k ∈ open_.keysets, k.tag = 7) ∧
      open_.setQuiet 7 = true ∧ open_.gddrOk = true ∧ (∀ h ∈ [1], (tfind open_.images h).isSome = true) ∧
      readRange (admitted vreq 2 slot farWindow) 0 (farRange []) = some [] ∧
      checkKeyset (admitted vreq 2 slot farWindow) [] [image] = .error 0x0205 :=
  ⟨mayRunFar _, by decide, by decide, by decide, by decide, by decide, by decide, rfl⟩

theorem witness_Images :
    Admitted vreq true farWindow slot ∧ open_.gddrOk = true ∧ tfind open_.images 1 = some image ∧
      readRange (admitted vreq 1 slot farWindow) 0 (farRange []) = some [] ∧
      (checkImage (admitted vreq 1 slot farWindow) loadOp []).isSome = true ∧
      (∀ q ∈ open_.requests, q.handle = 1 → q.live = false) ∧ open_.exporting 1 = false ∧
      ({ image with loader := [1] } : Image).loader = slot.partnerKey ∧ (exportStep { slot := 0, tag := 9, verb := 7, key := 1, places := [(20, 0, 0)] } farWindow).mem = farWindow.mem ∧
      farWindow.ownWindow 0 20 = true ∧ (farWindow.win 20).remote = true ∧ 64 % 64 = 0 ∧ 64 < (farWindow.win 20).length :=
  ⟨mayRunFar _, by decide, rfl, by decide, by decide, by decide, by decide, rfl, rfl, by decide, rfl, rfl, by decide⟩

/-- Staged fields of slot 0 for window `w` at LLM offset 64 MiB, 64 bytes long. -/
def staged (w : Nat) : State := { open_ with
  regs := [(prtWinId.key 0 0, w), (prtWinBaseLo.key 0 0, 0x4000000), (prtWinBaseHi.key 0 0, 8), (prtWinLength.key 0 0, 64)]
  windows := [(20, { st := .opened, owner := 0, base := 0x804000000, length := 64, epoch := 9 }),
    (21, { st := .draining, epoch := 0x10000 }), (22, { st := .draining, epoch := 0xFFFF })] }

/-- Window 16, the first that can be opened, and 1,023, the last; windows 15, 20 and 1,024 are refused; 20 closes. -/
theorem witness_WindowCommands :
    (∀ w ∈ [16, 1023], ((staged w).win ((staged w).reg prtWinId 0 0)).st = .free) ∧
    ({ staged 16 with windows := [] } : State).windowPlaceOk 0x804000000 64 = true ∧
    ({ staged 16 with windows := [] } : State).windowOverlap 0x804000000 64 = false ∧
    (staged 15).reg prtWinId 0 0 < 16 ∧ ((staged 20).win 20).st ≠ .free ∧ closeCode 0 20 (staged 20) = 0 ∧
    closeCode 0 1023 (staged 20) ≠ 0 ∧ closeCode 0 15 (staged 20) ≠ 0 ∧
    ((staged 20).win 21).st = .draining ∧ ((staged 20).win 22).st = .draining := by decide

/-- A system image of one device, the unit's own by serial 0, without buddy or channels. -/
def sysBytes : List Byte :=
  let dev := leBytes 2 3 ++ leBytes 2 0x8000 ++ leBytes 4 0 ++ leBytes 8 0 ++ List.replicate 48 0
  let head := leBytes 4 0x48545349 ++ [0, 1, 1, 0] ++ leBytes 8 0 ++ leBytes 4 1 ++ leBytes 2 1 ++ leBytes 2 0 ++ leBytes 4 128 ++
    List.replicate 28 0 ++ leBytes 4 (crc32 dev)
  head ++ leBytes 4 (crc32 head) ++ dev

def sysState : State := { ready with
  spans := [], images := [], windows := [(20, { st := .opened, remote := true, length := 4096, epoch := 1 })]
  regs := [(tbSysWindow.key 0 0, 20), (tbSysLength.key 0 0, 128)] }

theorem witness_SystemImage :
    sysState.wideOther 0 = false ∧ sysFormOk [] 128 = false ∧ (let i := parseSys sysBytes;
      readRange sysState 0 { window := sysState.dreg tbSysWindow, offset := sysState.dreg tbSysOffset
                             length := sysState.dreg tbSysLength, remote := sysBytes } = some sysBytes ∧
      sysFormOk sysBytes 128 = true ∧ getLe sysBytes 6 1 = sysState.fwVersion ∧ sysState.dreg tbSysimgGen < getLe sysBytes 0x10 4 ∧
      sysDevicesOk sysState i = true ∧ sysChannelsOk i = true ∧ sysState.working = false ∧
      ((sysState.sysEntry i).map (·.id)) = [3] ∧
      (placeChannels 3 (i.channels.filter fun c => c.src == 3 || c.dst == 3) { sysState with sys := some { i with channels := [] } }) =
        some ({ sysState with sys := some { i with channels := [] } }, [])) := by decide +kernel

/-! ### Witnesses: resets, power, registers, the long-integer engine -/

def resetting (test : Option Nat) : State := { open_ with spans := [(0, { span with recovery := .resetting 40 test true })], clk := { fc := 40 } }

/-- Slot 0 owns span 0, slot 1 does not; pier 11 is a spare; span 0 is loaded on pier 0. -/
theorem witness_Resets :
    spanResetCode 1 1 open_ ≠ 0 ∧ spanResetCode 0 1 open_ = 0 ∧ 0 ∈ open_.named 1 ∧ (open_.span 0).resetting = false ∧
      open_.pierState 11 ≠ 1 ∧ open_.pierState 0 = 1 ∧ open_.spanOf 0 = some (0, 0) ∧ open_.ownsSpan 0 0 = true ∧
      ((resetting none).span 0).recovery = .resetting 40 none true ∧ 40 ≤ (resetting none).clk.fc ∧
      ((resetting (some 0)).span 0).recovery = .resetting 40 (some 0) true ∧ open_.wideOther 0 = false := by decide +kernel

theorem witness_PowerOnAndReset :
    ({ State.reset with pins := { State.reset.pins with porTries := 1 } } : State).pins.porTries ≠ 0 ∧
      State.reset.pins.pwrGood = true ∧ State.reset.pins.porTries = 0 ∧ State.reset.pins.porDead = false ∧
      State.reset.pins.resetN = true := by decide

theorem witness_JtagPort : State.reset.pins.pwrGood = true := rfl

theorem witness_Standby :
    let s : State := { open_ with pwr := { standbyReq := 2 } }
    s.pwr.standbyReq ≠ 0 ∧ s.working = false ∧ s.awake = true := by decide

def power (p : Power) : State := { open_ with pwr := p }

/-- A decision in A0 and in A1; an entry, a scheduled resume and a resume that are due; a wake in A2 from source 8 and from another. -/
theorem witness_PowerStates :
    open_.dozes = true ∧ open_.pwr.move = .steady ∧ (power { state := .a1, move := .scheduled 9000 }).dozes = true ∧
      (power { move := .entering .a3 5000 }).pwr.move = .entering .a3 5000 ∧ 5000 ≤ open_.now ∧ PState.a3 ≠ .a0 ∧
      (power { state := .a1, move := .scheduled 5000 }).pwr.move = .scheduled 5000 ∧
      (power { state := .a2, wakeAt := 1 }).live = true ∧ (power { state := .a2, wakeAt := 1 }).pwr.wakeAt ≠ 0 ∧
      (power { state := .a2, wakeAt := 1 }).portsOff = false ∧
      (power { state := .a2, move := .resuming 5000 }).pwr.move = .resuming 5000 := by decide

theorem witness_ClockAndTemperature :
    open_.live = true ∧ open_.pwr.prochot = false ∧ open_.pwr.state ≠ .a3 ∧ open_.pwr.state ≠ .a4 ∧
      (power { prochot := true }).pwr.prochot = true ∧ 109 < 110 ∧ open_.pwr.trip = false ∧
      (let s := { power { throttle := true, coolAt := some 5000 } with clk := { ns := 10005000 } };
        s.pwr.coolAt = some 5000 ∧ s.pwr.throttle = true ∧ 5000 + 10000000 ≤ s.now) := by decide

/-- The counters of the time base and of a pier's bench and sequencer; the cache at its largest with nothing above it. -/
theorem witness_CountersAndCache :
    (0x30030, [tbSteps, tbSyncLosses]) ∈ devCounters ∧ open_.pierState 191 ≠ 1 ∧ open_.pierState 190 = 1 ∧
      (∃ e ∈ pierCounters, e.1 ≠ seqClearOff) ∧ (∃ e ∈ pierCounters, e.1 = seqClearOff) ∧ open_.images ≠ [] ∧
      ({ open_ with images := [] } : State).images = [] ∧ ({ open_ with images := [] } : State).llmAbove ((384 - 32 * 10) * 2 ^ 20) = false := by
  decide +kernel

def armed (b : Bool) : State := { ready with piers := [(0, { seq := { armed := b } })] }

/-- The active bank of an unarmed pier; the shadow bank of an armed one. -/
theorem witness_ImemWriteRefusal :
    (armed false).pierState 0 = 1 ∧ (some (0, 0, 0)).map (fun g : Nat × Nat × Nat => g.1 % 2) = some ((armed false).pier 0).seq.bank ∧
      (armed true).pierState 0 = 1 ∧ ((armed true).pier 0).seq.armed = true := by decide

theorem witness_InstructionMemory :
    (armed false).pierState 0 = 1 ∧ 1 ≠ ((armed false).pier 0).seq.bank ∧ ((armed false).pier 0).seq.armed = false := by decide

/-- Slot 0's window over 4 KiB of the LLM, in which an operand block stands for an X25519 operation (OP 1, L 4). -/
def lieState : State := { open_ with
  windows := [(20, { st := .opened, owner := 0, base := 0x804000000, length := 4096, epoch := 1 })]
  mem := mputs [] 0x804000000 [1, 4]
  regs := [(lieSrcAddrLo.key 0 0, 0x4000000), (lieSrcAddrHi.key 0 0, 8), (lieDstAddrLo.key 0 0, 0x4000800), (lieDstAddrHi.key 0 0, 8)] }
def lieOp : LieOp := { slot := 0, src := 0x804000000, dst := 0x804000800 }

theorem witness_LongIntegerEngine :
    ({ queue := [lieOp] } : Lie).busy 0 = true ∧ lieState.lie.busy 0 = false ∧
      lieState.lieWindowOk { slot := 0, src := lieState.lieSrc 0, dst := lieState.lieDst 0 } = true ∧
      open_.lieWindowOk { slot := 0, src := open_.lieSrc 0, dst := open_.lieDst 0 } = false ∧
      (∃ x ∈ ({ queue := [lieOp] } : Lie).queue, x.slot = 0) ∧
      (let l : Lie := { running := some (lieOp, [], 0, 1, 0) }; (∀ y ∈ l.queue, y.slot ≠ 0) ∧ l.running = some (lieOp, [], 0, 1, 0)) ∧
      (let s := { lieState with lie := { queue := [lieOp] } };
        s.lie.running = none ∧ s.lie.zeroUntil ≤ s.clk.fc ∧ s.lieWindowOk lieOp = true ∧
        (let bs := s.rd lieOp.src (s.lieBlocks lieOp.src).1
         let rand := s.dreg lieRandomise = 1
         (lieSlots (getLe bs 0 1)).isSome = true ∧ lieLenOk (getLe bs 0 1) (getLe bs 1 1) rand = true ∧ s.ks.rngOk = true)) ∧
      lieState.lieFits 0 lieOp.dst (64 + 512) = true := by decide +kernel

/-! ### Witnesses: requests, batches, spans -/

def scanning : State := { open_ with
  slots := [(0, slot)], regs := (tbSyncState.key 0 0, 1) :: (prtBuddyNone.key 0 0, 1) :: open_.regs }
def waiting : State := { open_ with requests := [{ request with st := .committing }], mirrored := [mirrorRec]
                                    group := [{ slot := 0, ring := 0, desc := [], code := 0x0408, dup := false, req := none, mat := none }] }

theorem witness_Submission :
    (scanning.slots = [(0, slot)] ∧ slot.closing = false ∧ slot.due = [] ∧ scanning.group = [] ∧ scanning.dreg tbSyncState ≠ 0 ∧
      scanning.ks.boot = 1 ∧ scanning.cutOff = false ∧ scanning.pwr.state ≠ .a3 ∧ scanning.pwr.state ≠ .a4 ∧
      scanning.pwr.standbyReq = 0 ∧ scanning.hasBuddy = false) ∧
    waiting.takesPeer 0 ∧ waiting.group ≠ [] ∧ (tfind waiting.slots 0).isSome = true ∧
    waiting.request 5 0 = some { request with st := .committing } ∧
    (waiting.mirrored.find? fun m => m.device = 2 ∧ m.session = 5 ∧ m.seq = 0) = some mirrorRec ∧
    (waiting.mirrored.find? fun m => m.device = 3 ∧ m.session = 5 ∧ m.seq = 0) = none ∧
    (mirroredRequest { waiting with requests := [], images := [(1, { image with arrivalEntries := 4 })] } { mirrorRec with imageDigest := [] }).isSome = true ∧
    (let s := { waiting with peers := [(0, { downAt := 0 })], clk := { ns := 2000000000000 }, regs := [(prtBuddyNone.key 0 0, 0)] };
      s.hasBuddy = true ∧ s.cutOff = false ∧ s.peerGone (s.dreg prtBuddyId) 1 = true) ∧
    (let s := { waiting with peers := [(2, { downAt := 0 })], clk := { ns := 2000000000000 } };
      (s.mirrored.filter fun m => m.work && s.peerGone m.device 2) = [mirrorRec]) := by
  exact ⟨by decide, takesPeer, by decide +kernel⟩

def channel : Channel :=
  { id := 3, feed := true, dstGddr := false, preferB := false, src := 2, dst := 0, k := 2, pieces := 1, reads := 1, lag := 1
    dstSpan := 0, bytes := 2048, base := 0x804000000, stampAddr := 0x804010000, feeds := [(1, 2, 100)] }
def sysImg (c : Channel) : SysImg := { raw := [], strapIds := false, devices := [], channels := [c] }

/-- `open_` with the span replaced, one request that waits, the time base in step and no channel. -/
def spanned (sp : Span) : State := { open_ with
  spans := [(0, sp)], requests := [{ request with st := .accepted }], regs := (tbSyncState.key 0 0, 1) :: open_.regs }
def idle : Span := { span with batch := none, running := false }

/-- A request that has waited 1 µs longer than BATCH_WAIT; a fixed batch that is due; a prepared one at its launch timestamp;
feeds without and with a span. -/
theorem witness_Batches :
    (let s := { spanned { idle with waiting := [(5, 0, 0)] } with clk := { ns := 11000 } };
      (s.span 0).open = true ∧ s.mayFix = true ∧ s.joinable 0 = [(5, 0, 0)] ∧ 0 + s.waitNs 0 ≤ s.now + Config.prepNs) ∧
    (let s := spanned { idle with fixed := [batch] };
      (s.span 0).fixed = [batch] ∧ (s.span 0).batch = none ∧ (s.span 0).recovery = .none ∧ (s.span 0).blocked = none ∧
      s.mayLaunch = true ∧ s.repairing 0 batch.keyTag = false ∧ batch.prepTs ≤ s.now) ∧
    (let b := { batch with prepared := true }
     let s := spanned { span with batch := some b, running := false };
      (s.span 0).batch = some b ∧ s.imageOf 0 = some image ∧ (s.span 0).running = false ∧ b.launchTs ≤ s.now ∧ s.mayLaunch = true ∧
      s.repairing 0 b.keyTag = false) ∧
    (let s := { spanned idle with sys := some (sysImg channel) };
      s.channelOf (1024 + 3) = some channel ∧ channel.feeds = (1, 2, 100) :: [] ∧ s.feedSpan 3 = none ∧
      (let u := { s with regs := [(tbFeedEn.key 0 3, 1), (tbFeedImage.key 0 3, 1), (tbSyncState.key 0 0, 1)] };
        u.feedSpan 3 = some 0 ∧ (tfind u.spans 0).isSome = true ∧ (u.imageOf 0).isSome = true ∧ 2 + channel.lag ≤ u.now / 1000 ∧
        100 < 1000 * (u.now / 1000) ∧ (u.span 0).batch = none ∧ u.mayLaunch = true)) :=
  ⟨⟨by decide, by decide, by decide, Nat.le_trans (by decide) (Nat.le_add_right _ _)⟩, by decide, by decide, by decide +kernel⟩

/-- Held 12 fc ago and not; a window that ends at its grant and one past it. -/
theorem witness_HeldSpans :
    (let s := spanned { span with held := List.replicate 12 true }; (s.span 0).running = true ∧ (s.span 0).heldBack = true) ∧
    ((tfind (spanned span).spans 0).isSome = true ∧ ((spanned span).span 0).heldBack = false) ∧
    (∀ sum ∈ [100, 101], let s := spanned { span with winFc := 64, winSum := sum };
      (s.span 0).running = true ∧ 64 ≤ (s.span 0).winFc ∧ (s.span 0).stop = none ∧ s.spanOf 0 = some (0, 0) ∧
      s.reg spnWindowPeak 0 0 ≤ sum ∧ sum < 2 ^ spnWindowPeak.w) ∧
    100 ≤ (span.grants.getD 0 0) ∧ span.grants.getD 0 0 < 101 := by decide

def pierState (x : Pier) : State := { spanned span with piers := [(0, x)] }
def far3 (ph : XfPhase) : Xfer := { xfer with d := { xfer.d with farKind := 3, farBase := windowBase + 20 * 2 ^ 32 }, phase := ph }
def far2 (ph : XfPhase) : Xfer := { xfer with d := { xfer.d with farKind := 2 }, phase := ph }
def fromGddr : Xfer := { far2 .moving with d := { (far2 .moving).d with farBase := gddrBase 3 + 2048 } }
def onChuck (x : Xfer) : State := pierState { chucks := [(0, { xfers := [x] })] }

theorem witness_Transfers :
    (let s := pierState board; s.spanOf 0 = some (0, 0) ∧ (s.pier 0).sbAt 0 = some (.filling 0 1) ∧
      ((s.pier 0).ripe 0 false s.clk.fc ≠ [] ∨ (s.pier 0).heldBy 0 false = false) ∧
      (∀ h ∈ (s.span 0).holds, h.pier = 0 → h.after = .nothing)) ∧
    (let h : Hold := { src := .armRel, pier := 0, waits := [0], since := 3, after := .arm 0 9 1 };
      (({ pierState board with spans := [(0, { span with holds := [h] })] } : State).span 0).holds = [h]) ∧
    (let x : Xfer := { far2 .moved with d := { (far2 .moved).d with dir := true }, cursor := 4 }
     let s : State := { pierState { sb := [(2, .draining 5 6 1)], chucks := [(0, { xfers := [x] })] } with clk := { fc := 3 } };
      (s.pier 0).sbAt 2 = some (.draining 5 6 1) ∧ (s.pier 0).ripe 2 true s.clk.fc ≠ [] ∧ (s.pier 0).ripe 3 true s.clk.fc = []) ∧
    (let x := far2 .moving; ((onChuck x).pier 0).ripe 2 false 0 = [] ∧ ((onChuck x).pier 0).heldBy 2 false = true) ∧
    (let x := far2 .entryWait; (((onChuck x).pier 0).chuck 0).xfers = [x] ∧ x.d.dir = false ∧
      ((onChuck x).pier 0).sbAt x.d.sbEntry = none) ∧
    (let x := far2 .moved; (((onChuck x).pier 0).chuck 0).xfers = x :: [] ∧ x.complete (onChuck x).clk.fc = true ∧
      (((onChuck x).pier 0).chuck 0).waiting = []) ∧
    (let x := fromGddr; let s := onChuck x; ((s.pier 0).chuck 0).xfers[0]? = some x ∧ x.d.farKind = 2 ∧ x.index = none ∧ x.d.headers = false ∧
      ((s.span 0).batch.map (·.replay)) = some false ∧ x.burstAt s 0 = some (3, 1) ∧ (s.span 0).stop = none) ∧
    (((onChuck (far3 .moving)).pier 0).remoteXfer 0 = some (far3 .moving)) ∧
    (let x := far3 (.pageWait 1000 3000)
     let s := { onChuck x with windows := [(20, { st := .opened, remote := true, length := 64, epoch := 1 })] }
     let r := { onChuck x with windows := [(20, { st := .opened, remote := true, length := 64, epoch := 1, residency := true })] };
      (s.pier 0).remoteXfer 0 = some x ∧ (s.win (windowOf x.d.farBase)).residency = false ∧
      (r.win (windowOf x.d.farBase)).residency = true ∧ accessOk r 0 { x with cursor := 4 } = true ∧
      (s.span 0).stop = none ∧
      (let late := { s with clk := { ns := 10 ^ 12 } }; 1000 + 1000 * late.reg ckRemoteTimeoutUs 0 0 ≤ late.now)) := by
  decide +kernel

/-- R352: a burst that still fails after 8 reissues: CRC_RETRIES of its device, 0x0605, the halt. -/
theorem test_mem_link : (match exec (.chuckDataArrival 0 0 0 1 9 []) (onChuck fromGddr) with
    | .next t => decide (t.reg mcCrcRetries 0 3 = 8 ∧ t.reg mcLinkFails 0 3 = 1 ∧ (t.span 0).stop = some (.replay 0x0605 none) ∧
      mget t.mem (llmBase + 4) = 0x05 ∧ mget t.mem (llmBase + 5) = 0x06)
    | _ => false) = true := by decide +kernel

/-- R214, R464: an MME mismatch, found while the array runs: RESIDUE_ERRORS, 0x0602, the halt that replays. -/
theorem test_residue : (let t := foundErr 0 0 0 ⟨0, 2, 5⟩ (pierState {})
    t.reg laResidueErrors 0 0 = 1 ∧ (t.span 0).stop = some (.replay 0x0602 (some 0)) ∧
      mget t.mem (llmBase + 4) = 0x02 ∧ mget t.mem (llmBase + 6) = 2) := by decide +kernel

/-- R144, R160: a bench word of bank (700 + 9) mod 64 that a read finds with a mismatch: PARITY_ERRORS, PARITY_LAST_ROW,
PARITY_LAST_LANE, the bank in DETAIL; the word next to it has none. -/
theorem test_parity : (let t := checkBench 0 [700 * 64 + 8, 700 * 64 + 9] (pierState { benchPar := [(700 * 64 + 9, 1)] })
    t.reg bnParityErrors 0 0 = 1 ∧ t.reg bnParityLastRow 0 0 = 700 ∧ t.reg bnParityLastLane 0 0 = 9 ∧
      (t.span 0).stop = some (.replay 0x0601 (some 0))) := by decide +kernel

/-- R472: a replayed batch reads another GENERATION than the BOUNDARY record gives; the member is poisoned. -/
theorem test_replay_diverged :
    (let again := { spanned { span with batch := some { batch with replay := true } } with
      spans := (3, { span with boundaries := [(2, [(5, 0)], [(llmBase + 0x40000, 6)])] }) ::
        (spanned { span with batch := some { batch with replay := true } }).spans }
     let code := fun (s : State) => ((s.span 0).batch.map fun b => b.members.map (·.code))
     code (checkReplay 0 0 0 (llmBase + 0x40000) (BitVec.ofNat 512 (7 * 2 ^ 256)) again) = some [0x0607] ∧
     code (checkReplay 0 0 0 (llmBase + 0x40000) (BitVec.ofNat 512 (6 * 2 ^ 256)) again) = some [0]) := by decide +kernel

def hxpSlot : HxpSlot :=
  { slot := 2, recv := false, op := 0, type := 1, peer := 1, journal := false, discRoute := false, discExit := false, forward := false
    step := 1, tensor := 0, srcTensor := 0, bytes := 64, material := 0, prime := 0, limbs := 0, shift := 0, point := 0
    timeoutMs := 10, mult := 1 }
def recvSlot : HxpSlot := { hxpSlot with recv := true }
def shard : Shard :=
  { tensor := 0, elemType := 2, home := 1, shard := 0, stage := 0, header := 0, data := 0x2000000, bytes := 64, extents := [8], level := 0
    object := 0 }
def inRow : InRow := { id := 4, arrives := 9, drow := 3, lanes := 64, words := [] }
def ftqHold : Hold := { src := .ftq, pier := 0, waits := [0], since := 3 }

theorem witness_TimedActionsAndDeck :
    (let s := { pierState { timed := [act] } with images := [(1, { image with hxp := [hxpSlot], shards := [shard] })] };
      s.spanOf 0 = some (0, 0) ∧ (s.pier 0).timed.find? (fun x => x.id = act.id) = some act ∧ act.target ≤ s.now ∧
      (∀ y ∈ (s.span 0).holds, y.pier = 0 → y.src ≠ .launch) ∧ (s.span 0).batch = some batch ∧
      ({ image with hxp := [hxpSlot], shards := [shard] } : Image).hxp.find? (fun t => t.slot = act.sendSlot ∧ ¬ t.recv) = some hxpSlot ∧
      (({ image with hxp := [hxpSlot], shards := [shard] } : Image).shardOf hxpSlot.tensor).isSome = true ∧ (s.request 5 0).isSome = true) ∧
    (let x := far2 (.timed 5000)
     let s := onChuck x; s.spanOf 0 = some (0, 0) ∧ (∀ a ∈ (s.pier 0).timed, a.id ≠ x.id) ∧ x ∈ ((s.pier 0).chuck 0).xfers ∧
      (∀ i, i < 3 → ∀ y ∈ ((s.pier 0).chuck i).xfers, y.id = x.id → i = 0 ∧ y = x) ∧ 5000 ≤ s.now ∧ x.d.farKind ≠ 3) := by decide

theorem witness_TimedActionsAndDeck2 :
    (let s := pierState { inbound := [inRow] }; (s.pier 0).inbound.find? (fun r => r.id = 4) = some inRow ∧
      inRow.arrives ≤ (s.span 0).relFc) ∧
    ([0].Nodup ∧ (∀ k ∈ [0], (tfind (spanned span).spans k).isSome = true)) ∧
    (let s := { spanned span with flits := [(2, 7, 2, [0])] };
      s.flits.find? (fun f => f.1 = 2 ∧ f.2.1 = 7) = some (2, 7, 2, [0])) ∧
    (let s := { pierState {} with spans := [(0, { span with frozen := true, holds := [ftqHold] })] };
      (s.span 0).stop = none ∧ (s.span 0).frozen = true ∧ (∃ h ∈ (s.span 0).holds, h.pier = 0 ∧ h.src = .ftq) ∧ (s.pier 0).ftq.length < 8) ∧
    (let s := { pierState {} with spans := [(0, { span with holds := [{ ftqHold with src := .sendq }] })] };
      (∃ h ∈ (s.span 0).holds, h.pier = 0 ∧ h.src = .sendq) ∧ (s.pier 0).sendq.length < 16) := by decide

/-! ### Witnesses: reliability, attachments, ports, time, exchange -/

def taking (r : Recovery) : State := { spanned { idle with recovery := r, spares := [(0, 11)] } with spareTests := [11], degraded := true }

/-- `taking` with one shard of one byte on the stage of pier 0, whose SHARD_CRC is not that of a zero byte. -/
def damaged : State := { taking (.takeover 0 11 3) with images := [(1, { image with backing := [(0, 9)], stages := [
  { span := 0, stage := 0, instr := [], desc := [], prog := [], ram := [], routines := [], cacheBlocks := 0, remoteUs := 0, retryUs := 0
    paramMap := [], phases := [], patches := [], weights := [(0, 0, 0, 1, 5)] }] })] }

theorem witness_Takeover :
    ((tfind (spanned span).spans 0).isSome = true ∧ ((spanned span).span 0).stop = none) ∧
    badWords ({ benchPar := [(9, 1)] } : Pier).benchPar [8, 9] = [9] ∧
    open_.pierState 11 = 2 ∧ 11 ∉ open_.spareTests ∧ 11 ∈ (taking (.testing 0 false)).spareTests ∧
      (taking (.testing 0 false)).awaiting 11 = [] ∧ (taking (.testing 0 false)).degraded = true ∧
      (taking (.takeover 0 11 2)).awaiting 11 = [(0, 0, true)] ∧ (taking (.testing 0 false)).routeFree 0 0 11 = true ∧
      (restoreChecked 11 0 0 ((taking (.takeover 0 11 3)).weightsOn 0) (taking (.takeover 0 11 3))).1 = true ∧
      (restoreChecked 11 0 0 (damaged.weightsOn 0) damaged).1 = false ∧
      (taking (.testing 0 false)).pierState 0 ≠ 2 ∧ (taking (.testing 0 false)).spanOf 0 = some (0, 0) ∧
      ((taking (.testing 0 true)).span 0).recovery = .testing 0 true ∧
      (taking (.testing 0 true)).recentFaults 0 < (taking (.testing 0 true)).dreg rasRetireThreshold ∧
      tfind ((taking (.testing 0 false)).span 0).spares 0 = some 11 ∧
      (taking (.takeover 0 11 3)).imageOf 0 = some image ∧ (taking (.takeover 0 11 3)).takeoverOf 0 3 = some (0, 11) ∧
      (taking (.takeover 0 11 4)).takeoverOf 0 4 = some (0, 11) ∧ (taking (.takeover 0 11 5)).takeoverOf 0 5 = some (0, 11) ∧
      fitsAt [] [] 0 (((taking (.takeover 0 11 4)).span 0).piers.map fun x => if x = 0 then 11 else x) = true := by decide +kernel

theorem witness_ScrubsAndTraining :
    (let s := { open_ with scrub := { llm := 0x2000000 / 64 } }; 64 * s.scrub.llm < s.scratch ∧ 0x2000000 ≤ 64 * s.scrub.llm) ∧
      (let s := { open_ with scrub := { llm := 0x1000000 / 64 } }; 64 * s.scrub.llm < s.scratch ∧ 0x1000000 ≤ 64 * s.scrub.llm) ∧
      (let s := { open_ with scrub := { llm := 6291455 }, regs := [(llmCacheSteps.key 0 0, 1)] }; s.scratch ≤ 64 * s.scrub.llm) ∧
      damaged.storeOf 9 = some (6, 0) ∧ (damaged.span 0).running = false ∧
      ((spanned span).span 0).running = true ∧ (spanned span).spanOf 0 = some (0, 0) ∧ ((spanned span).span 0).stop = none ∧
      open_.pierState 191 ≠ 1 ∧ damaged.sliceGood 0 (damaged.weightsOn 0) = false ∧ open_.sliceGood 0 (open_.weightsOn 0) = true ∧
      open_.pierState 0 = 1 ∧
      (let r : Repair := { id := 4, store := 3, addr := 9, pier := 0xFF }
       let s := { open_ with repairs := [r] }; s.repairs.find? (fun r => r.id = 4) = some r ∧ Memory.wf s.mem = true ∧ [(7 : Byte)].length ≤ 2 ^ 20) ∧
      (let s := { open_ with ks := { open_.ks with burnDue := true } }; s.ks.run = some resetBundle ∧ s.ks.burnDue = true ∧ s.ks.boot = 1) := by
  decide +kernel

def hs (device : Option Nat) (keys : List Byte) : Handshake :=
  { id := 1, port := 0, partnerKey := [], claim := false, operatorKey := [], transcript := [], keys := keys, device := device, net := 0
    draw := 0 }
def shaking (h : Handshake) : State := { open_ with ks := { open_.ks with handshakes := [h] } }

/-- Handshakes of a partner and of peer 2, before and after REPLY; the keys and the acceptance of a credential are opaque. -/
theorem witness_Handshakes :
    open_.takes helloOp.port ∧ open_.ks.rngOk = true ∧
      ((shaking (hs none [1])).ks.handshakes.find? fun h => h.id = 1) = some (hs none [1]) ∧ finishOp.aeadOk = true ∧
      (hs none [1]).keys ≠ [] ∧ (hs none [1]).device = none ∧ finishOp.peer = none ∧ (hs (some 2) [1]).device = some 2 ∧
      lowestFree (shaking (hs none [1])).slots 0 8 = some 1 ∧
      (shaking (hs (some 2) [])).peerHandshake peerMsg false = some (hs (some 2) []) ∧
      (shaking (hs (some 2) [1])).peerHandshake peerMsg true = some (hs (some 2) [1]) ∧ peerMsg.sigOk = true ∧
      versionsOk (shaking (hs (some 2) [1])) peerMsg = true ∧ versionsOk (shaking (hs (some 2) [1])) { peerMsg with fwVersion := 3 } = false :=
  ⟨takes 0 (by decide), by decide⟩

def meeting (p : Peer) (c : Channel) : State := { open_ with peers := [(2, p)], sys := some (sysImg c) }

theorem witness_AttachmentsAndPeers :
    tfind open_.slots 0 = some slot ∧ slot.closing = false ∧ open_.takes (slot.port slot.onStandby) ∧ slot.ctrIn < 1 ∧
      (open_.sessions.map (·.1)).Nodup ∧ (∃ e ∈ open_.sessions, e.2.slot = 0) ∧ (∀ e ∈ ({ open_ with sessions := [] } : State).sessions, e.2.slot ≠ 0) ∧
      (let s := { open_ with clk := { ns := 10 ^ 15 } }; slot.lastMgmt + 1000000 * s.dreg ksnAttachLossMs ≤ s.now) ∧
      open_.now < slot.lastMgmt + 1000000 * open_.dreg ksnAttachLossMs ∧
      tfind (meeting { state := 1, upA := true } channel).peers 2 = some { state := 1, upA := true } ∧
      (meeting {} channel).dreg tbDeviceId < 2 ∧ (meeting {} channel).ks.rngOk = true ∧
      (meeting {} channel).channelOf (1024 + 3) = some channel ∧ (meeting {} channel).channelNet channel = 0 ∧
      (meeting {} channel).isSource channel = false ∧ (meeting {} { channel with src := 0 }).isSource { channel with src := 0 } = true ∧
      (meeting {} channel).feedSpan 3 = none ∧
      (({ meeting {} channel with regs := [(tbFeedEn.key 0 3, 1), (tbFeedImage.key 0 3, 1)] } : State).feedSpan 3).isSome = true ∧
      (let o : GObj := { id := 9, base := 0, mib := 1, bytes := 64 }
       let s := { open_ with objs := [o], keysets := [{ keySet with objs := [{ kind := 1, galois := 0, boot := 0, obj := 9 }] }] };
        (s.objs.filter fun o => ((s.storeOf o.id).map (·.1)) == some 3)[0]? = some o) :=
  ⟨rfl, rfl, takes 0 (by decide), by decide +kernel⟩

def qp : Qp := { qpn := 3, slot := 0, standby := false, kind := 2, remoteQpn := 0, rxPsn := 5, txPsn := 0 }
def paired : State := { open_ with
  qps := [qp], windows := [(0, { st := .opened, owner := 0, base := 0x800100000, length := 64, epoch := 1 }),
    (1, { st := .opened, owner := 0, base := 0x800010000, length := 64, epoch := 1 }),
    (20, { st := .opened, owner := 0, base := 0x804000000, length := 64, epoch := 1 })] }

/-- Key of window `w` under epoch 1; reads and writes that end at the last byte, one byte further; the system windows. -/
def rkey (w : Nat) : Nat := w + 2 ^ 15 + 1 * 2 ^ 16

theorem witness_PartnerRdma :
    paired.takes rdmaOp.port ∧ (paired.qps.find? fun q => q.qpn = rdmaOp.qpn) = some qp ∧ qp.kind = 2 ∧
      tfind paired.slots qp.slot = some slot ∧ slot.port qp.standby = rdmaOp.port ∧ qp.failed = false ∧ rdmaOp.psn = qp.rxPsn ∧
      (∀ w ∈ [0, 1, 20], (paired.rdmaWindow (rkey w)).map (·.1) = some w) ∧ paired.rdmaWindow 0 = none ∧
      (paired.win 20).length = 60 + 4 ∧ (paired.win 20).length < 61 + 4 ∧
      ({ rdmaOp with psn := 6 } : RdmaOp).psn ≠ qp.rxPsn ∧ (∃ q ∈ paired.qps, q.qpn = 3) ∧ (∀ q ∈ paired.qps, q.qpn ≠ 4) ∧
      ((({ qp with unacked := [(9, 7, 0)] } : Qp).unacked.find? fun u => u.1 = 9).map (·.2.1)).getD 0 = 7 ∧
      ((({ qp with unacked := [(9, 6, 0)] } : Qp).unacked.find? fun u => u.1 = 9).map (·.2.1)).getD 0 < 7 :=
  ⟨takes 0 (by decide), by decide⟩

theorem witness_PortFrames :
    open_.takes netOp.port ∧ netOp.target = open_.portV4 0 ∧ [1, 0, 0, 0] ≠ open_.portV4 0 ∧
      ({ netOp with target := open_.portV6 0 } : NetOp).target ≠ open_.portV4 0 ∧ open_.macOn 7 = true ∧
      ({ open_ with ks := { open_.ks with boot := 0 } } : State).macOn 0 = false ∧ open_.reg prtPfcEnable 0 0 ≤ 1 :=
  ⟨takes 0 (by decide), by decide⟩

def timed (v : PtpNet) (st : Nat) : State := { open_ with
  servo := { nets := [(0, v)] }, regs := (tbSyncState.key 0 0, st) :: (tbValidA.key 0 0, 1) :: open_.regs }

/-- The time base FREE and LOCKED; a Sync of the network's own master and of another; two-step; a Sync seen 1 ns too short and
exactly long enough ago. -/
theorem witness_TimeSync :
    open_.takes (open_.ptpPort 0) ∧ syncOp.net = 0 ∧ ptpFrom open_ 0 syncOp.domain syncOp.identity = true ∧ open_.dreg tbPreferB = 0 ∧
      open_.dreg tbSyncState = 0 ∧ (timed {} 1).dreg tbSyncState = 1 ∧
      ptpFrom (timed { master := some (0, 0, 0, 0, 0, 2) } 1) 0 syncOp.domain syncOp.identity = false ∧
      ((timed { pendingSync := some (4, 40, 0) } 1).servo.net 0).pendingSync = some (4, 40, 0) ∧
      ((timed { delayReq := some (4, 40) } 1).servo.net 0).delayReq = some (4, 40) ∧
      open_.reg prtPortEnable 0 (open_.ptpPort 1) ≠ 0 ∧
      (let s := { timed { lastSync := some 0 } 1 with clk := { ns := 1000000 * open_.dreg tbSyncLossMs - 1 } };
        s.dreg tbValidA ≠ 0 ∧ (s.servo.net 0).lastSync = some 0 ∧ s.now < 0 + 1000000 * s.dreg tbSyncLossMs) ∧
      (let s := { timed { lastSync := some 0 } 1 with clk := { ns := 1000000 * open_.dreg tbSyncLossMs } };
        0 + 1000000 * s.dreg tbSyncLossMs ≤ s.now ∧ s.dreg tbValidB = 0) := ⟨takes _ (by decide), by decide⟩

def bound : State := { open_ with
  sessions := [(5, { session with policy := { c := some { addr := [9], port := 77, kaRec := [], keyOut := [], keyIn := [] } } })]
  requests := [request] }
def running : State := { bound with spans := [(0, span)], images := [(1, { image with hxp := [recvSlot] })] }
def frag : TxFrag :=
  { id := 7, session := 5, request := 0, step := 1, type := 1, peer := 1, frag := 0, count := 1, payload := [], seq := 3, rtoUs := 10
    due := 5000, first := 0, deadline := 5001, serial := 0 }
def rtimer : RxTimer := { session := 5, request := 0, step := 1, due := 5000 }

theorem witness_HxpMessages :
    bound.takes hxpMsg.port ∧ authentic bound { hxpMsg with ok := false } = false ∧ authentic bound hxpMsg = true ∧
      hxpMsg.epoch = (bound.stream 5 1).rxEpoch ∧ hxpMsg.seq ∉ (bound.stream 5 1).seen ∧
      (bound.stream 5 1).highest ≤ hxpMsg.seq + 1024 ∧
      (let s := { bound with streams := [{ session := 5, peer := 1, epoch := 0, nextSeq := 0, rxEpoch := 0, seen := [0], highest := 0 }] };
        authentic s hxpMsg = true ∧ hxpMsg.seq ∈ (s.stream 5 1).seen) ∧
      bound.request 5 0 = some request ∧ request.live = true ∧ bound.memberOf 5 0 = none ∧
      running.memberOf 5 0 = some (0, 0) ∧ running.imageOf 0 = some { image with hxp := [recvSlot] } ∧
      tfind running.images request.handle = some { image with hxp := [recvSlot] } ∧
      ([recvSlot].find? fun h => h.recv && h.step == hxpMsg.step && h.peer == hxpMsg.src) = some recvSlot ∧ running.isDone 5 0 1 = false ∧
      running.rx = [] ∧ hxpMsg.payload.length = ({ recvSlot with bytes := 2 } : HxpSlot).bytes ∧
      (let im := { image with hxp := [{ recvSlot with bytes := 2 }] }
       let s := { bound with images := [(1, im)] }
       s.recvSlot hxpMsg = some (request, im, { recvSlot with bytes := 2 }) ∧ s.memberOf 5 0 = none) ∧
      (let s := { bound with tx := [frag] }; (s.tx.find? fun g => g.id = frag.id) = some frag ∧ frag.due ≤ s.now ∧ s.now < frag.deadline) ∧
      (let s := { bound with rxTimers := [rtimer] };
        (s.rxTimers.find? fun t => t.session = 5 ∧ t.request = 0 ∧ t.step = 1) = some rtimer ∧ rtimer.due ≤ s.now) :=
  ⟨takes 0 (by decide), by decide⟩

/-! ### The manual's worked examples, and what a step does on small states -/

/-- The two words that chapter 10's worked example encodes: PC 4 and PC 3 of Table 10-10. -/
theorem test_words_of_table_10_10 :
    decodeWord 0 0x0000000000000023C02B415811002520#128 =
      some (.tld ⟨0, 38⟩ { tile := 1, brow := 5505, arb := ⟨true, 0⟩, step := 86, n := 16, bcol := false, tcol := true, lane := 0, tidx := 0
                           mem := noMem, shape := ⟨0, 0, 0⟩ }) ∧
    decodeWord 0 0x000000000000000000300000A8000001#128 = some (.loop ⟨0, 1⟩ 0 42 6) := by decide

/-- Travel times of chapter 1's worked example and of its largest route; the block of P.0.3.07. -/
theorem test_travel_times :
    travel (2 * 12 + 3) (6 * 12 + 7) = 8 ∧ travel (6 * 12 + 7) (96 + 12 + 2) = 21 ∧ travel 0 191 = 39 ∧ travel 107 84 = 39 ∧
      seqState.key 43 0 / 32 / 0x10000 = 0x12B := by decide

def exRing : Ring :=
  { logN := 16, q := 48, p := 16, dnum := 3, eEnc := 0x400, eRs := 0x600, eKs := 0xA00, lq := List.replicate 48 0x2380 }
def exHdr (level scale noise : Nat) : Hdr :=
  ((((((((((((((0 : Hdr).put 0 4 ctMagic).put 5 1 1).put 6 2 2).put 8 8 7).put 0x10 1 level).put 0x11 1 16).put 0x12 2 scale).put 0x14 4
    32768).put 0x18 2 noise).put 0x29 1 (level + 1)).put 0x2A 1 3).put 0x2E 2 1).put 0x34 4 65536).seal
def exArg (cls g spt : Nat) : ChkArg :=
  { cls := cls, levelArg := 0, g := g, spt := spt, hoist := false, oper := 1, noiseLimit := 0x1800, noiseAction := 0 }
def triple (r : ChkRes) : Nat × Nat × Nat × Nat := (r.code, r.hd.level, r.hd.scale, r.hd.noise)

/-- Table 2-12: rotation noise, product with a plaintext, rescale, bias. -/
theorem test_level_accounting :
    lsum 0xC00 0xA00 = 0xC54 ∧
    triple (hdrCheck (exArg 2 0x2680 0x2380) exRing (exHdr 47 0x2380 0xC54) none none) = (0, 47, 0x4700, 0x32D4) ∧
    triple (hdrCheck (exArg 6 0 0) exRing (exHdr 47 0x4700 0x38D4) none none) = (0, 46, 0x2380, 0x1555) ∧
    triple (hdrCheck (exArg 1 0 0x2380) exRing (exHdr 46 0x2380 0x1555) none none) = (0, 46, 0x2380, 0x1556) ∧
    lsum 0xC00 0x400 = 0xC02 := by decide +kernel

/-- At LEVEL 0 a product is refused with 0x0201, and the result carries POISON and the code. -/
theorem test_level_exhausted :
    let r := hdrCheck (exArg 2 0 0) exRing (exHdr 0 0x2380 0xC00) none none
    r.code = 0x0201 ∧ r.hd.poisoned = true ∧ r.hd.code = 0x0201 := by decide +kernel

/-- Shard 5 of 12 of 48 limbs, and of 512 grains (chapter 5's worked example). -/
theorem test_shard_bounds :
    (partOf 48 12 5, partOf 48 12 6) = (20, 24) ∧ (partOf 512 12 5, partOf 512 12 6 - 1) = (213, 255) := by decide

/-- Element (1, 20, 1000) of the source tensor of chapter 5's worked example; the largest offset of descriptor 12 of chapter 7's. -/
theorem test_walk_offsets :
    ({ xfer with d := { xfer.d with counts := [2, 4, 65536], strides := [3145728, 65536, 1] }, start := 1310720 } : Xfer).bounds =
      (1310720, 4718591) ∧
    (coords [2, 48, 65536] 4457448) = [1, 20, 1000] := by decide +kernel

/-- A row of 64 residues is 5 flits (chapter 1's worked example). -/
theorem test_flits : flitsOf 64 = 5 := by decide

/-- T of MODEXP at L = 64 and of P384_VERIFY, and c_W(64) (chapter 16's worked example). -/
theorem test_lie_times : lieTime 6 64 false false = 6081088 ∧ lieTime 4 6 false false = 7037052 ∧ wmacFc 64 = 168 := by decide

/-- The shard of chapter 3's worked example: 1,664 bytes a stored block; a dense int4 block is 2,176. -/
theorem test_weight_blocks :
    let h : WHdr := { (weightHdr ready 0) with width := 1, sparsity := 1 }
    h.blockBytes = 1664 ∧ ({ h with sparsity := 0 } : WHdr).blockBytes = 2176 := by decide

/-- CRC-32 of the nine digits, the check value of that CRC. -/
theorem test_crc32 : crc32 [0x31, 0x32, 0x33, 0x34, 0x35, 0x36, 0x37, 0x38, 0x39] = 0xCBF43926 := by decide +kernel

/-- The first four bytes of SHA3-256 of the empty message, which FIPS 202's examples give. -/
theorem test_sha3 : (sha3 []).take 4 = [0xA7, 0xFF, 0xC6, 0xF8] := by decide +kernel

/-- The JTAG port answers its identification, least significant bit first (R487). -/
theorem test_idcode :
    (match exec (.tapInstruction 1 (List.replicate 8 false)) State.reset with
      | .next t => t.out
      | _ => []) = [.tdo [true, false, true, false, true, true, false, true]] := by decide

/-- A tick on an empty queue is 1 ns in A0, and an idle device then has a power state to decide (R441, R444, log entry 2). -/
theorem test_tick : (match step ready with
    | .next t => (t.clk.ns, t.pending)
    | _ => (0, [])) = (5001, [.pstateDecision]) := by decide +kernel

/-- Reads of TB_NS_LO latch the high part (R387). -/
theorem test_time_latch : (match exec (.tbNsLo 0) { ready with clk := { ns := 2 ^ 32 * 7 + 3 } } with
    | .next t => (t.regWord 0x30004, t.clk.ns)
    | _ => (0, 0)) = (7, 2 ^ 32 * 7 + 3) := by decide +kernel

/-- A read of a row in a FILLING range raises a hold, 12 fc before its slot (R152, Table 6-6). -/
theorem test_filling_range_holds :
    (match exec (.tld iss { lineOp with brow := 1024 }) (going { board with sb := [(3, .filling 1024 64)] }) with
      | .next t => (t.span 0).holds.map fun h => (h.src, h.waits)
      | _ => []) = [(.scoreboard, [3])] := by decide

/-- REL of a range that is FULL frees it; ARM then fills it (Table 6-4). -/
theorem test_arm_after_rel :
    (match exec (.rel iss 1) (going board) with
      | .next t => (match exec (.arm ⟨0, 1⟩ 1 32 noSel 16) t with
        | .next u => ((t.pier 0).sbAt 1, (u.pier 0).sbAt 1)
        | _ => (none, none))
      | _ => (none, none)) = (none, some (.filling 32 16)) := by decide

/-- The loop of Table 10-10 in its last iteration: A0 returns to 0 (R256). -/
theorem test_loop_exit :
    let q : Seq := { pc := 9, loops := [{ level := 0, count := 42, start := 4, last := 9, lc := 41 }], a := [(0, 82)], strides := [(0, 2)] }
    (q.advance 5426 14).areg 0 = 0 ∧ (q.advance 5426 14).pc = 10 ∧ (q.advance 5426 14).due = 5440 := by decide

/-- A window that is open is closed with its next epoch; the last epoch retires it (R365). -/
theorem test_window_close :
    closedWindow { st := .opened, epoch := 9 } = { epoch := 10 } ∧ (closedWindow { st := .opened, epoch := 0xFFFF }).st = .retired := by decide

/-- R271, Table 10-7: NULL counts 2 fc from CALL, of which the first leads to its first instruction: RET with NEXT 1. -/
theorem test_null_routine_returns : decodeWord 0 (romWord 0 0) = some (.ret { pier := 0, next := 1 }) := by decide

/-- R154 and the worked example of 06_bench: a transfer whose entry 0 is DRAINING over rows 0 to 63 reads row 5 although
entry 1 has since become FILLING over the same rows; a transfer of a FULL entry would wait for entry 1. -/
theorem test_later_fill_waits_for_the_drain :
    let x : Xfer := { id := 0, didx := 0, d := { dir := true }, start := 0 }
    let pr : Pier := { sb := [(0, .draining 0 64 1), (1, .filling 0 64)] }
    x.awaits pr 5 = [] ∧ x.awaits { pr with sb := [(0, .full 0 64), (1, .filling 0 64)] } 5 = [1] := by decide

/-- IMEM_WRITE to the active bank is refused and recorded (R275). -/
theorem test_imem_refused :
    (match exec (.imemWrite 0 (some (0, 0, 32)) 5) (armed false) with
      | .next t => ((t.pier 0).imem, t.dreg rasFaultWritten, mget t.mem (llmBase + 4), mget t.mem (llmBase + 5))
      | _ => ([], 0, 0, 0)) = ([], 1, 0x02, 0x05) := by decide +kernel

end Sys2Proof.Tests
end

/-! Facts for the instructions that may record a fault at their issue: what counting ISSUED leaves as it was, and all that
`lathe01` does. -/
namespace Sys2Proof.Machine

/-! ### What counting ISSUED leaves (Table 10-9) -/

/-- A pier's registers lie from 0x01000000 on: a field at a lower address is not ISSUED of any pier. -/
theorem key_notMem_issuedKeys (f : Fld) (p : Nat) (h : f.key 0 0 < 0x01000000 * 32) : f.key 0 0 ∉ issuedKeys p := by
  have hlo : 0x01000000 * 32 ≤ seqIssuedLo.key p 0 := by simp [Fld.key, seqIssuedLo]; omega
  have hhi : 0x01000000 * 32 ≤ seqIssuedHi.key p 0 := by simp [Fld.key, seqIssuedHi]; omega
  simp only [issuedKeys, List.mem_cons, List.not_mem_nil, or_false, not_or]
  omega

theorem dreg_bump2_issued (s : State) (p : Nat) (f : Fld) (h : f.key 0 0 < 0x01000000 * 32) :
    (s.bump2 seqIssuedLo seqIssuedHi p 0 1).dreg f = s.dreg f :=
  issued_regsBut s p _ (key_notMem_issuedKeys f p h) _

@[simp] theorem pier_bump2 (s : State) (lo hi : Fld) (p i n q : Nat) : (s.bump2 lo hi p i n).pier q = s.pier q := rfl

/-! ### The run of a record -/

/-- `Recorded` speaks of memory, time and two registers before, and of memory and one register after. -/
theorem Recorded.congr {r : Rec} {s s' t t' : State} (h : Recorded r s t) (hmem : s'.mem = s.mem) (hnow : s'.now = s.now)
    (hn : s'.dreg rasFaultWritten = s.dreg rasFaultWritten) (hdev : s'.dreg tbDeviceId = s.dreg tbDeviceId)
    (tmem : t'.mem = t.mem) (tregs : t'.regs = t.regs) : Recorded r s' t' := by
  obtain ⟨hring, hcount⟩ := h
  have tn : t'.dreg rasFaultWritten = t.dreg rasFaultWritten := by simp only [State.dreg, State.reg, tregs]
  exact ⟨by rw [tmem, hmem, hnow, hn, hdev, hring], by rw [tn, hn, hcount]⟩

/-- A record raised by the effect of an instruction is the record of the whole issue: what the effect has done to its pier,
ISSUED and the advance of the sequencer are no part of it. -/
theorem Recorded.of_issue {r : Rec} {s t : State} {p : Nat} {f : Pier → Pier}
    (h : Recorded r ((s.bump2 seqIssuedLo seqIssuedHi p 0 1).modPier p f) t) (g : Seq → Seq) :
    Recorded r s (t.modSeq p g) :=
  h.congr rfl rfl (dreg_bump2_issued s p _ (by decide)).symm (dreg_bump2_issued s p _ (by decide)).symm
    (setPier_mem _ _ _) (setPier_regs _ _ _)

/-! ### A fault of class 0x01 (R216) -/

/-- A halt raised changes the spans alone (R216). -/
theorem stopSpan_frame (k : Nat) (st : Stop) (s : State) : stopSpan k st s = { s with spans := (stopSpan k st s).spans } :=
  modSpan_frame s k _

theorem stopSpan_piers (k : Nat) (st : Stop) (s : State) : (stopSpan k st s).piers = s.piers := by rw [stopSpan_frame]

theorem stopSpan_mem (k : Nat) (st : Stop) (s : State) : (stopSpan k st s).mem = s.mem := by rw [stopSpan_frame]

theorem stopSpan_regs (k : Nat) (st : Stop) (s : State) : (stopSpan k st s).regs = s.regs := by rw [stopSpan_frame]

theorem raise_piers (r : Rec) (s : State) : (raise r s).piers = s.piers := by rw [raise_frame]

@[simp] theorem lathe01_piers (code p k : Nat) (s : State) : (lathe01 code p k s).piers = s.piers :=
  (stopSpan_piers _ _ _).trans (raise_piers _ _)

@[simp] theorem pier_lathe01 (code p k q : Nat) (s : State) : (lathe01 code p k s).pier q = s.pier q := by
  simp only [State.pier, lathe01_piers]

theorem lathe01_recorded (code p k : Nat) (s : State) :
    Recorded { code := code, action := 3, unit := 1, pier := p, span := k } s (lathe01 code p k s) :=
  (raise_spec _ s).1.congr rfl rfl rfl rfl (stopSpan_mem _ _ _) (stopSpan_regs _ _ _)

end Sys2Proof.Machine

/-! TCFG (R198): its effect on the pier where its values are valid and where they are not, and the statement about it. -/
namespace Sys2Proof.Machine

/-- The shape that a TCFG gives: its own operands, or the fields of an address register (R197). -/
def Pier.tcfgShape (x : Pier) (fromReg : Bool) (areg : Nat) (shape : Shape) : Shape :=
  let v := (x.seq.areg areg).toNat
  if fromReg then { rows := fld v 0 7, cols := fld v 8 7, mv := fld v 16 2 } else shape

/-- The values that a TCFG may set on pier `x` (R198). -/
def Pier.takesShape (x : Pier) (sh : Shape) : Prop :=
  1 ≤ sh.rows ∧ sh.rows ≤ 64 ∧ 1 ≤ sh.cols ∧ sh.cols ≤ 64 ∧ (x.mvec sh.mv).isSome = true

/-! ### What the parts of the effect leave of a pier -/

/-- Forgetting the cached operands of a tile and passing the instruction keep what operations under way use. -/
theorem past_ocDrop_frame (x : Pier) (tile : Nat) (i : Iss) (c : Ctx) :
    ((x.ocDrop tile).past i c).tiles = x.tiles ∧ ((x.ocDrop tile).past i c).acts = x.acts ∧
      ((x.ocDrop tile).past i c).passes = x.passes ∧ ((x.ocDrop tile).past i c).ftq = x.ftq ∧
      ∀ u, ((x.ocDrop tile).past i c).shape u = x.shape u := ⟨rfl, rfl, rfl, rfl, fun _ => rfl⟩

/-- The pier with the shape of one tile set. -/
def Pier.setShape (x : Pier) (tile : Nat) (sh : Shape) : Pier := { x with shapes := tput x.shapes tile sh }

@[simp] theorem shape_setShape_same (x : Pier) (tile : Nat) (sh : Shape) : (x.setShape tile sh).shape tile = sh :=
  tget_tput_same _ _ _ _

theorem shape_setShape_ne (x : Pier) {tile u : Nat} (sh : Shape) (h : u ≠ tile) :
    (x.setShape tile sh).shape u = x.shape u := tget_tput_ne _ _ _ h

/-! ### The two outcomes -/

theorem exec_tcfg (i : Iss) (tile : Nat) (fromReg : Bool) (areg : Nat) (shape : Shape) (s : State) :
    exec (.tcfg i tile fromReg areg shape) s = execTcfg i tile fromReg areg shape s := rfl

section
variable {i : Iss} {s : State} {c : Ctx} (tile : Nat) (fromReg : Bool) (areg : Nat) (shape : Shape)

/-- TCFG with valid values: the tile has the shape, and memory is as before. -/
theorem exec_tcfg_valid (h : Issues i s c)
    (hv : (s.pier i.pier).takesShape ((s.pier i.pier).tcfgShape fromReg areg shape)) :
    ∃ t, exec (.tcfg i tile fromReg areg shape) s = .next t ∧ t.mem = s.mem ∧
      t.pier i.pier =
        (((s.pier i.pier).setShape tile ((s.pier i.pier).tcfgShape fromReg areg shape)).ocDrop tile).past i c := by
  obtain ⟨hp, -⟩ := issues_ctx i s c h
  rw [exec_tcfg, execTcfg, issue_issues i s c _ h, hp, pier_bump2]
  refine ⟨_, rfl, ?_⟩
  dsimp only
  rw [if_pos (by exact hv)]
  exact ⟨rfl, by simp only [modSeq_eq, modPier_eq, pier_setPier_same]; rfl⟩

/-- TCFG with values that are not valid: 0x0102 is recorded, and the pier has no new shape. -/
theorem exec_tcfg_invalid (h : Issues i s c)
    (hv : ¬ (s.pier i.pier).takesShape ((s.pier i.pier).tcfgShape fromReg areg shape)) :
    ∃ t, exec (.tcfg i tile fromReg areg shape) s = .next t ∧
      Recorded { code := 0x0102, action := 3, unit := 1, pier := i.pier, span := c.k } s t ∧
      t.pier i.pier = ((s.pier i.pier).ocDrop tile).past i c := by
  obtain ⟨hp, -⟩ := issues_ctx i s c h
  rw [exec_tcfg, execTcfg, issue_issues i s c _ h, hp, pier_bump2]
  refine ⟨_, rfl, ?_⟩
  dsimp only
  rw [if_neg (by exact hv)]
  exact ⟨(lathe01_recorded 0x0102 i.pier c.k _).of_issue _,
    by simp only [modSeq_eq, modPier_eq, pier_lathe01, pier_setPier_same]; rfl⟩

end

/-- Settles O16: by cases on whether the values are valid. -/
theorem tcfgSetsTheShape : Obligations.TcfgSetsTheShape := by
  intro i s c tile fromReg areg shape h x v sh valid
  by_cases hv : valid
  · obtain ⟨t, ht, hmem, hpier⟩ := exec_tcfg_valid tile fromReg areg shape h hv
    obtain ⟨htiles, hacts, hpasses, hftq, hshape⟩ := past_ocDrop_frame (x.setShape tile sh) tile i c
    refine ⟨t, ht, ?_⟩
    rw [hpier]
    exact ⟨htiles, hacts, hpasses, hftq, fun u hu => (hshape u).trans (shape_setShape_ne x sh hu),
      fun _ => ⟨(hshape tile).trans (shape_setShape_same x tile sh), hmem⟩, fun hn => absurd hv hn⟩
  · obtain ⟨t, ht, hrec, hpier⟩ := exec_tcfg_invalid tile fromReg areg shape h hv
    obtain ⟨htiles, hacts, hpasses, hftq, hshape⟩ := past_ocDrop_frame x tile i c
    refine ⟨t, ht, ?_⟩
    rw [hpier]
    exact ⟨htiles, hacts, hpasses, hftq, fun u _ => hshape u, fun hy => absurd hy hv, fun _ => ⟨hshape tile, hrec⟩⟩

end Sys2Proof.Machine

/-! IMEM_WRITE (R274, R275): what its staged fields write, and the refusal of a write to a bank that runs or is armed. -/
namespace Sys2Proof.Machine

/-! ### Registers written, and all others as before -/

section
variable {s t : State} {ks : List Nat}

theorem regsBut_refl (ks : List Nat) (s : State) : regsBut ks s s := fun _ _ _ => rfl

/-- One more field written, its key among those that may differ. -/
theorem regsBut.setReg (h : regsBut ks s t) {f : Fld} {p i : Nat} (v : Nat) (hk : f.key p i ∈ ks) :
    regsBut ks s (t.setReg f p i v) := by
  intro k hn d
  have hne : k ≠ f.key p i := fun e => hn (e ▸ hk)
  rw [setReg_regs, tget_tput_ne _ _ _ hne, h k hn d]

/-- Instances of one field written in turn, their keys among those that may differ. -/
theorem regsBut.foldl_setReg {f : Fld} {p : Nat} (v : Nat → Nat) (is : List Nat) (hk : ∀ i ∈ is, f.key p i ∈ ks)
    (h : regsBut ks s t) : regsBut ks s (is.foldl (fun s i => s.setReg f p i (v i)) t) := by
  induction is generalizing t with
  | nil => exact h
  | cons i is ih => exact ih (fun j hj => hk j (.tail _ hj)) (h.setReg (v i) (hk i (.head _)))

theorem regsBut.reg_eq (h : regsBut ks s t) {f : Fld} {p i : Nat} (hk : f.key p i ∉ ks) : t.reg f p i = s.reg f p i :=
  h _ hk _

/-- The field of a pier lies at a key from 0x01000000 × 32 on. -/
theorem le_key_of_pier {f : Fld} (hf : f.pier = true) (p i : Nat) : 0x01000000 * 32 ≤ f.key p i := by
  simp only [Fld.key, hf, if_true]
  omega

/-- A fault record leaves the fields of every pier as they were. -/
theorem reg_raise_of_pier (r : Rec) {f : Fld} (hf : f.pier = true) (p i : Nat) (s : State) :
    (raise r s).reg f p i = s.reg f p i := by
  have hk := le_key_of_pier hf p i
  have hw : f.key p i ≠ rasFaultWritten.key 0 0 := by
    have : rasFaultWritten.key 0 0 < 0x01000000 * 32 := by decide
    omega
  have hl : f.key p i ≠ rasFaultLatch.key 0 0 := by
    have : rasFaultLatch.key 0 0 < 0x01000000 * 32 := by decide
    omega
  unfold raise
  dsimp only
  split
  · rw [setDreg_eq, reg_setReg_ne _ _ hl, setDreg_eq, reg_setReg_ne _ _ hw, State.reg, wr_regs, ← State.reg]
  · rw [setDreg_eq, reg_setReg_ne _ _ hw, State.reg, wr_regs, ← State.reg]

end

/-! ### The staged fields of an IMEM_WRITE -/

/-- The state with IMEM_DATA0 to IMEM_DATA3 of pier `p` written. -/
def State.stageImemData (s : State) (p data : Nat) : State :=
  (List.range 4).foldl (fun s k => s.setReg seqImemData p k (fld data (32 * k) 32)) s

/-- The state in which the IMEM_WRITE of pier `p` finds its fields: the data written, and the bank, target and address that
the command brings, if it brings them. -/
def State.stageImem (s : State) (p : Nat) (staged : Option (Nat × Nat × Nat)) (data : Nat) : State :=
  match staged with
  | some g => (((s.stageImemData p data).setReg seqImemBank p 0 g.1).setReg seqImemTarget p 0 g.2.1).setReg
      seqImemAddr p 0 (g.2.2 / 16)
  | none => s.stageImemData p data

/-- The keys of the fields that an IMEM_WRITE stages (Table 10-9). -/
def imemStagedKeys (p : Nat) : List Nat :=
  [seqImemBank.key p 0, seqImemTarget.key p 0, seqImemAddr.key p 0] ++ (List.range 4).map (seqImemData.key p)

section
variable (s : State) (p : Nat) (staged : Option (Nat × Nat × Nat)) (data : Nat)

theorem stageImemData_regsBut : regsBut ((List.range 4).map (seqImemData.key p)) s (s.stageImemData p data) :=
  (regsBut_refl _ s).foldl_setReg _ _ fun _ hk => List.mem_map_of_mem hk

theorem stageImem_regsBut : regsBut (imemStagedKeys p) s (s.stageImem p staged data) := by
  have hdata : regsBut (imemStagedKeys p) s (s.stageImemData p data) := fun k hk =>
    stageImemData_regsBut s p data k fun h => hk (List.mem_append_right _ h)
  cases staged with
  | none => exact hdata
  | some g =>
    exact ((hdata.setReg _ (by simp [imemStagedKeys])).setReg _ (by simp [imemStagedKeys])).setReg _
      (by simp [imemStagedKeys])

/-- Staging changes registers alone. -/
theorem stageImem_frame : s.stageImem p staged data = { s with regs := (s.stageImem p staged data).regs } := by
  have hdata : s.stageImemData p data = { s with regs := (s.stageImemData p data).regs } := by
    simp only [State.stageImemData, List.range_succ, List.range_zero, List.nil_append, List.cons_append, List.foldl_cons,
      List.foldl_nil, State.setReg]
  cases staged with
  | none => exact hdata
  | some g => simp only [State.stageImem, State.setReg]; rw [hdata]

/-- A device-wide field below the piers' registers is none of those staged. -/
theorem dreg_stageImem {f : Fld} (h : f.key 0 0 < 0x01000000 * 32) : (s.stageImem p staged data).dreg f = s.dreg f := by
  have hpier : ∀ k ∈ imemStagedKeys p, 0x01000000 * 32 ≤ k := by
    simp only [imemStagedKeys, List.mem_append, List.mem_cons, List.not_mem_nil, or_false, List.mem_map]
    rintro k ((rfl | rfl | rfl) | ⟨i, -, rfl⟩) <;> exact le_key_of_pier rfl _ _
  exact (stageImem_regsBut s p staged data).reg_eq fun hk => absurd (hpier _ hk) (by omega)

/-- The bank that the write aims at: the one staged by the command, else the one in IMEM_BANK. -/
theorem stageImem_bank : (s.stageImem p staged data).reg seqImemBank p 0 =
    (staged.map fun g => g.1 % 2).getD (s.reg seqImemBank p 0) := by
  cases staged with
  | none =>
    exact (stageImemData_regsBut s p data).reg_eq (by simp [Fld.key, seqImemBank, seqImemData]; omega)
  | some g =>
    have ht : seqImemBank.key p 0 ≠ seqImemTarget.key p 0 := by simp [Fld.key, seqImemBank, seqImemTarget]
    have ha : seqImemBank.key p 0 ≠ seqImemAddr.key p 0 := by simp [Fld.key, seqImemBank, seqImemAddr]; omega
    simp only [State.stageImem]
    rw [reg_setReg_ne _ _ ha, reg_setReg_ne _ _ ht, reg_setReg_same]
    rfl

/-- IMEM_ADDR before the write: as staged by the command, else as it was. -/
theorem stageImem_addr : (s.stageImem p staged data).reg seqImemAddr p 0 =
    (staged.map fun g => g.2.2 / 16 % 4096).getD (s.reg seqImemAddr p 0) := by
  cases staged with
  | none =>
    exact (stageImemData_regsBut s p data).reg_eq (by simp [Fld.key, seqImemAddr, seqImemData]; omega)
  | some g => exact reg_setReg_same _ _ _ _ _

/-- An IMEM_WRITE aimed at the active bank, or at a bank armed for a swap, records 0x0502 on the staged state (R275). -/
theorem exec_imemWrite_refused (hp : p < 192) (hactive : s.pierState p = 1)
    (hbank : (s.stageImem p staged data).reg seqImemBank p 0 = (s.pier p).seq.bank ∨ (s.pier p).seq.armed = true) :
    exec (.imemWrite p staged data) s =
      .next (raise { code := 0x0502, action := 0, unit := 1, pier := p } (s.stageImem p staged data)) := by
  have hpier : (s.stageImem p staged data).pier p = s.pier p := by rw [stageImem_frame]; rfl
  rw [← hpier] at hbank
  change execImemWrite p staged data s = _
  rw [execImemWrite, if_neg (by omega), if_neg (by simp [hactive])]
  cases staged <;> exact if_pos hbank

end

/-- Settles O45: the refused write is its staging and then a fault record, and neither reaches instruction memory. -/
theorem imemWriteRefusal : Obligations.ImemWriteRefusal := by
  intro p data staged s hp hactive bank addr hbank
  have hframe := stageImem_frame s p staged data
  have haim : (s.stageImem p staged data).reg seqImemBank p 0 = bank := stageImem_bank s p staged data
  refine ⟨_, exec_imemWrite_refused s p staged data hp hactive (by rwa [haim]), ?_, ?_, ?_, ?_⟩
  · rw [raise_frame, hframe]
  · exact (raise_spec _ _).1.congr (by rw [hframe]) (by rw [hframe]; rfl)
      (dreg_stageImem s p staged data (by decide)).symm (dreg_stageImem s p staged data (by decide)).symm rfl rfl
  · simp only [State.pier, raise_piers]
    rw [hframe]
  · rw [reg_raise_of_pier _ rfl, stageImem_addr]

end Sys2Proof.Machine

/-! The time base as registers show it (R387): the words of TB_NS_LO, TB_NS_HI and TB_FRAC, the read latches, and a READ_REG
of the three. -/
namespace Sys2Proof.Machine

/-! ### A slot changed, and the answer of its verb (R379, R380) -/

/-- A change of slot `p` changes what is found there, if anything is. -/
theorem tfind_modSlot_same (s : State) (p : Nat) (f : Slot → Slot) :
    tfind (s.modSlot p f).slots p = (tfind s.slots p).map f := by
  simp only [State.modSlot]
  induction s.slots with
  | nil => rfl
  | cons e m ih =>
    obtain ⟨j, sl⟩ := e
    by_cases hj : j = p
    · simp [tfind, hj]
    · simpa [tfind, hj, Ne.symm hj] using ih

/-- An admitted request's slot runs its verb. -/
theorem admitted_verb {r : VerbReq} {wide : Bool} {s : State} {sl : Slot} (h : Admitted r wide s sl) (v : Nat) :
    (tfind (admitted r v sl s).slots r.slot).bind (·.verb) = some (v, r.tag) := by
  obtain ⟨-, hfind, -⟩ := h
  rw [admitted, tfind_modSlot_same, bump_eq, setReg_slots, hfind]
  rfl

/-- The response to a verb that its slot runs is the last message sent. -/
theorem respond_lastOut {s : State} {p tag v : Nat} (h : (tfind s.slots p).bind (·.verb) = some (v, tag)) (status : Nat)
    (detail : List Byte) : lastOut (respond p tag status detail s) (.verb p tag status detail) := by
  rw [respond, if_pos (by simp [h])]
  exact ⟨_, send_out _ _⟩

/-! ### The words of the time base (Table 15-4) -/

/-- A field outside the pier blocks that fills its word from bit 0 alone is the word (R10). -/
theorem regWord_eq_value {a : Nat} {f : Fld} (hat : fieldsAt a = [(f, 0, 0)]) (hpier : f.pier = false) (hlo : f.lo = 0)
    (s : State) : s.regWord a = s.value f 0 0 := by
  simp [State.regWord, hat, hpier, hlo]

theorem fieldsAt_tbNsLo : fieldsAt 0x30000 = [(tbTbNsLo, 0, 0)] := by decide +kernel

theorem fieldsAt_tbNsHi : fieldsAt 0x30004 = [(tbTbNsHi, 0, 0)] := by decide +kernel

theorem fieldsAt_tbFrac : fieldsAt 0x30008 = [(tbTbFrac, 0, 0)] := by decide +kernel

section
variable (s : State)

theorem regWord_tbNsLo : s.regWord 0x30000 = s.clk.ns % 2 ^ 32 :=
  (regWord_eq_value fieldsAt_tbNsLo rfl rfl s).trans (Nat.mod_mod _ _)

theorem regWord_tbNsHi : s.regWord 0x30004 = s.clk.latchHi % 2 ^ 32 := regWord_eq_value fieldsAt_tbNsHi rfl rfl s

theorem regWord_tbFrac : s.regWord 0x30008 = s.clk.latchFrac % 2 ^ 16 := regWord_eq_value fieldsAt_tbFrac rfl rfl s

/-! ### The latches and the registers that are read -/

theorem latchTime_clk : (latchTime s).clk =
    { s.clk with latchHi := s.clk.ns / 2 ^ 32 % 2 ^ 32, latchFrac := s.clk.frac / 2 ^ 8 % 2 ^ 16 } := rfl

theorem latchTime_slots : (latchTime s).slots = s.slots := rfl

theorem exec_tbNsLo {p : Nat} (hp : p < 8) : exec (.tbNsLo p) s = .next (latchTime s) := by
  change execTbNsLo p s = _
  rw [execTbNsLo, if_neg (by omega)]

theorem readRegs_cons_tbNsLo (as : List Nat) : readRegs (0x30000 :: as) s =
    ((latchTime s).regWord 0x30000 :: (readRegs as (latchTime s)).1, (readRegs as (latchTime s)).2) := by
  simp [readRegs, tbNsLoAddr]

theorem readRegs_cons_ne {a : Nat} (ha : a ≠ tbNsLoAddr) (as : List Nat) :
    readRegs (a :: as) s = (s.regWord a :: (readRegs as s).1, (readRegs as s).2) := by
  simp [readRegs, ha]

/-- The three words read in order are those of the time at the first read: the later two come from its latches (R387). -/
theorem readRegs_time : readRegs [0x30000, 0x30004, 0x30008] s =
    ([s.clk.ns % 2 ^ 32, s.clk.ns / 2 ^ 32 % 2 ^ 32, s.clk.frac / 2 ^ 8 % 2 ^ 16], latchTime s) := by
  rw [readRegs_cons_tbNsLo, readRegs_cons_ne _ (by decide), readRegs_cons_ne _ (by decide), regWord_tbNsLo, regWord_tbNsHi,
    regWord_tbFrac, latchTime_clk]
  simp only [Nat.mod_mod, readRegs]

end

/-- An admitted READ_REG of 1 to 64 registers answers their words, read in order. -/
theorem exec_readReg_admitted {r : VerbReq} {s : State} {sl : Slot} (h : Admitted r false s sl) {addrs : List Nat}
    (hpos : addrs ≠ []) (hmax : addrs.length ≤ 64) :
    exec (.readReg r addrs) s = .next (respond r.slot r.tag 0 ((readRegs addrs (admitted r 8 sl s)).1.flatMap (leBytes 4))
      (readRegs addrs (admitted r 8 sl s)).2) := by
  change execReadReg r addrs s = _
  rw [execReadReg, onVerb_admitted (h := h), if_neg (by simp [hpos, hmax])]

/-- Settles O28: a READ_REG of the three words runs in the admitted state, whose time base is that of the state before. -/
theorem timeReadsAreOneInstant : Obligations.TimeReadsAreOneInstant := by
  refine ⟨fun s p hp => exec_tbNsLo s hp, fun s => ⟨regWord_tbNsLo s, regWord_tbNsHi s, regWord_tbFrac s⟩, ?_⟩
  intro r s sl h
  have hclk : (admitted r 8 sl s).clk = s.clk := rfl
  have hverb := admitted_verb h 8
  rw [← latchTime_slots] at hverb
  refine ⟨_, exec_readReg_admitted h (by simp) (by simp), ?_⟩
  rw [readRegs_time, hclk]
  simpa only [List.flatMap_cons, List.flatMap_nil, List.append_nil, List.append_assoc] using respond_lastOut hverb 0 _

end Sys2Proof.Machine

/-! The canonical form of every memory (O2): a lemma for each operation of the model, in the order of the model's files.
An operation keeps the form where its parts do; few of them write a memory themselves. -/
namespace Sys2Proof.Machine

/-! ### The form, taken apart and put together -/

/-- The state that follows, if the outcome has one, holds its memories in canonical form. -/
def KeepsMem (o : Host.Outcome State Fault Refusal) : Prop := ∀ t, o = .next t → t.memWf = true

theorem keepsMem_next (t : State) : KeepsMem (.next t) ↔ t.memWf = true := by simp [KeepsMem]

theorem keepsMem_fault (r : Fault) : KeepsMem (.fault r) := by simp [KeepsMem]

theorem ite_keepsMem {c : Prop} [Decidable c] {o p : Host.Outcome State Fault Refusal} (ho : KeepsMem o) (hp : KeepsMem p) :
    KeepsMem (if c then o else p) := by split <;> assumption

/-- The memories of every pier in the list are in canonical form. -/
def piersWf (ps : List (Nat × Pier)) : Bool := ps.all fun e => e.2.memWf

/-- A change of every pier that keeps each one's form keeps that of the list. -/
theorem piersWf_map {ps : List (Nat × Pier)} {f : Pier → Pier} (hf : ∀ x, x.memWf = true → (f x).memWf = true)
    (hs : piersWf ps = true) : piersWf (ps.map fun e => (e.1, f e.2)) = true := by
  simp only [piersWf, List.all_eq_true, List.mem_map] at hs ⊢
  rintro _ ⟨e, he, rfl⟩
  exact hf _ (hs e he)

theorem State.mem_wf {s : State} (h : s.memWf = true) : Memory.wf s.mem = true := by
  rw [State.memWf, Bool.and_eq_true] at h
  exact h.1

theorem State.piers_wf {s : State} (h : s.memWf = true) : piersWf s.piers = true := by
  rw [State.memWf, Bool.and_eq_true] at h
  exact h.2

/-- Of the fields of a state, its memory and its piers decide about the form. -/
theorem State.memWf_mk {pending' free' epochDraw' clk' regs' mem' piers' spans' images' keysets' sessions' requests'
    slots' windows' qps' journal' group' mirrored' objs' tx' rx' streams' rxDone' rxTimers' sent' sys' peers' servo'
    ks' lie' pwr' pins' repairs' waits' llmCache' badTier' badLlm' badTraining' degraded' cutOff' spareTests'
    placementFailed' wakeBuf' paused' pausing' scrub' gddrRead' links' linkTurn' flits' boundHidden' out'
    nextSerial' nextId'} (hm : Memory.wf mem' = true) (hp : piersWf piers' = true) : State.memWf ⟨pending', free',
    epochDraw', clk', regs', mem', piers', spans', images', keysets', sessions', requests', slots', windows', qps',
    journal', group', mirrored', objs', tx', rx', streams', rxDone', rxTimers', sent', sys', peers', servo', ks',
    lie', pwr', pins', repairs', waits', llmCache', badTier', badLlm', badTraining', degraded', cutOff',
    spareTests', placementFailed', wakeBuf', paused', pausing', scrub', gddrRead', links', linkTurn', flits',
    boundHidden', out', nextSerial', nextId'⟩ = true := by
  rw [State.memWf, Bool.and_eq_true]
  exact ⟨hm, hp⟩

theorem Pier.bench_wf {x : Pier} (h : x.memWf = true) : Memory.wf x.bench = true := by
  simp only [Pier.memWf, Bool.and_eq_true] at h
  exact h.1.1

theorem Pier.tiles_wf {x : Pier} (h : x.memWf = true) : Memory.wf x.tiles = true := by
  simp only [Pier.memWf, Bool.and_eq_true] at h
  exact h.1.2

theorem Pier.imem_wf {x : Pier} (h : x.memWf = true) : Memory.wf x.imem = true := by
  simp only [Pier.memWf, Bool.and_eq_true] at h
  exact h.2

/-- Of the fields of a pier, bench, tiles and instruction memory decide about the form. -/
theorem Pier.memWf_mk {seq' sb' chucks' bench' tiles' benchPar' tilePar' storePar' fssRows' shapes' oc' mv' ftq'
    constTag' poison' br' seeds' acc' members' passes' nttBuf' acts' sendq' announced' inbound' timed' imem'
    routines' cacheBlocks' cache' turn' portTurn' stores' nttUntil' mmeUntil' mmeArray' passUntil' fssUntil' errors'
    faults' nextId'} (hb : Memory.wf bench' = true) (ht : Memory.wf tiles' = true) (hi : Memory.wf imem' = true) :
    Pier.memWf ⟨seq', sb', chucks', bench', tiles', benchPar', tilePar', storePar', fssRows', shapes', oc', mv',
    ftq', constTag', poison', br', seeds', acc', members', passes', nttBuf', acts', sendq', announced', inbound',
    timed', imem', routines', cacheBlocks', cache', turn', portTurn', stores', nttUntil', mmeUntil', mmeArray',
    passUntil', fssUntil', errors', faults', nextId'⟩ = true := by
  simp only [Pier.memWf, hb, ht, hi, Bool.and_self]

/-! ### Branches and folds -/

theorem ite_memWf {c : Prop} [Decidable c] {s t : State} (hs : s.memWf = true) (ht : t.memWf = true) :
    (if c then s else t).memWf = true := by split <;> assumption

theorem foldl_memWf {α : Type} {f : State → α → State} {l : List α} {s : State}
    (hf : ∀ x a, x.memWf = true → (f x a).memWf = true) (hs : s.memWf = true) : (l.foldl f s).memWf = true :=
  l.foldlRecOn (motive := fun s : State => s.memWf = true) f hs fun x hx a _ => hf x a hx

theorem foldl_pier_memWf {α : Type} {f : Pier → α → Pier} {l : List α} {x : Pier}
    (hf : ∀ x a, x.memWf = true → (f x a).memWf = true) (hx : x.memWf = true) : (l.foldl f x).memWf = true :=
  l.foldlRecOn (motive := fun x : Pier => x.memWf = true) f hx fun x hx a _ => hf x a hx

theorem foldl_snd_memWf {α β : Type} {f : β × State → α → β × State} {l : List α} {s : β × State}
    (hf : ∀ x a, x.2.memWf = true → (f x a).2.memWf = true) (hs : s.2.memWf = true) : (l.foldl f s).2.memWf = true :=
  l.foldlRecOn (motive := fun s : β × State => s.2.memWf = true) f hs fun x hx a _ => hf x a hx

theorem forall_mem_some {α : Type} {p : α → Prop} {a : α} : (∀ y ∈ some a, p y) ↔ p a := by simp

/-- A fold that may fail: what each step answers keeps the form if what it is given does. -/
theorem foldl_option_memWf {α β : Type} {f : Option (β × State) → α → Option (β × State)} {l : List α}
    {a : Option (β × State)} (ha : ∀ y ∈ a, y.2.memWf = true)
    (hf : ∀ a, (∀ y ∈ a, y.2.memWf = true) → ∀ e, ∀ y ∈ f a e, y.2.memWf = true) : ∀ y ∈ l.foldl f a, y.2.memWf = true :=
  l.foldlRecOn f ha fun a ha e _ => hf a ha e

/-! ### Ops -/

theorem State.setDreg_memWf {s : State} {f : Fld} {v : Nat} (hs : s.memWf = true) : (s.setDreg f v).memWf = true := by
  unfold State.setDreg
  grind -ring -linarith [setReg_memWf]

theorem State.bump_memWf {s : State} {f : Fld} {p i n : Nat} (hs : s.memWf = true) : (s.bump f p i n).memWf = true := by
  unfold State.bump
  grind -ring -linarith [setReg_memWf]

theorem State.bump2_memWf {s : State} {lo hi : Fld} {p i n : Nat} (hs : s.memWf = true) :
    (s.bump2 lo hi p i n).memWf = true := by
  unfold State.bump2
  grind -ring -linarith [setReg_memWf]

theorem State.clearRegs_memWf {s : State} {fs : List Fld} (hs : s.memWf = true) : (s.clearRegs fs).memWf = true := by
  unfold State.clearRegs
  grind -ring -linarith [State.memWf_mk, State.mem_wf, State.piers_wf]

theorem State.clearPierRegs_memWf {s : State} {p : Nat} (hs : s.memWf = true) : (s.clearPierRegs p).memWf = true := by
  unfold State.clearPierRegs
  grind -ring -linarith [State.memWf_mk, State.mem_wf, State.piers_wf]

theorem State.draw_memWf {s : State} (hs : s.memWf = true) : (s.draw).2.memWf = true := by
  unfold State.draw
  grind -ring -linarith [State.memWf_mk, State.mem_wf, State.piers_wf]

theorem State.fresh_memWf {s : State} (hs : s.memWf = true) : (s.fresh).2.memWf = true := by
  unfold State.fresh
  grind -ring -linarith [State.memWf_mk, State.mem_wf, State.piers_wf]

theorem State.modSeq_memWf {s : State} {p : Nat} {f : Seq → Seq} (hs : s.memWf = true) :
    (s.modSeq p f).memWf = true := by
  unfold State.modSeq
  grind -ring -linarith [Pier.memWf_mk, Pier.bench_wf, Pier.tiles_wf, Pier.imem_wf, modPier_memWf]

theorem State.modSpan_memWf {s : State} {k : Nat} {f : Span → Span} (hs : s.memWf = true) :
    (s.modSpan k f).memWf = true := by
  unfold State.modSpan
  grind -ring -linarith [setSpan_memWf]

theorem startSpareTests_memWf {s : State} (hs : s.memWf = true) : (startSpareTests s).memWf = true := by
  unfold startSpareTests
  grind -ring -linarith [State.memWf_mk, State.mem_wf, State.piers_wf]

theorem State.modSlot_memWf {s : State} {p : Nat} {f : Slot → Slot} (hs : s.memWf = true) :
    (s.modSlot p f).memWf = true := by
  unfold State.modSlot
  grind -ring -linarith [State.memWf_mk, State.mem_wf, State.piers_wf]

/-! ### Spans -/

theorem raiseHold_memWf {k p : Nat} {src : HoldSrc} {waits : List Nat} {after : HoldThen} {s : State}
    (hs : s.memWf = true) :
    (raiseHold k p src waits after s).memWf = true := by
  unfold raiseHold
  grind -ring -linarith [State.bump_memWf, State.modSpan_memWf]

theorem countHolds_memWf {k : Nat} {s : State} (hs : s.memWf = true) : (countHolds k s).memWf = true := by
  unfold countHolds
  grind -ring -linarith [foldl_memWf, State.bump_memWf]

theorem endHolds_memWf {k : Nat} {p : Hold → Bool} {s : State} (hs : s.memWf = true) :
    (endHolds k p s).memWf = true := by
  unfold endHolds
  grind -ring -linarith [State.modSpan_memWf]

theorem stopSpan_memWf {k : Nat} {st : Stop} {s : State} (hs : s.memWf = true) : (stopSpan k st s).memWf = true := by
  unfold stopSpan
  grind -ring -linarith [State.modSpan_memWf]

theorem lathe01_memWf {code p k : Nat} {s : State} (hs : s.memWf = true) : (lathe01 code p k s).memWf = true := by
  unfold lathe01
  grind -ring -linarith [stopSpan_memWf, raise_memWf]

theorem replayFault_memWf {code p k : Nat} {detail : List Byte} {s : State} (hs : s.memWf = true) :
    (replayFault code p k detail s).memWf = true := by
  unfold replayFault
  grind -ring -linarith [stopSpan_memWf, raise_memWf]

theorem addRepair_memWf {store addr pier : Nat} {s : State} (hs : s.memWf = true) :
    (addRepair store addr pier s).memWf = true := by
  unfold addRepair
  grind -ring -linarith [State.memWf_mk, State.mem_wf, State.piers_wf, State.fresh_memWf]

theorem pierStoreLost_memWf {p store addr : Nat} {active : Bool} {s : State} (hs : s.memWf = true) :
    (pierStoreLost p store addr active s).memWf = true := by
  unfold pierStoreLost
  grind -ring -linarith [addRepair_memWf, replayFault_memWf, raise_memWf]

theorem present_memWf {k p : Nat} {ranges : List (Nat × Nat)} {s : State} (hs : s.memWf = true) :
    (present k p ranges s).memWf = true := by
  unfold present
  grind -ring -linarith [pier_memWf, raiseHold_memWf]

theorem holdEffect_memWf {h : Hold} {s : State} (hs : s.memWf = true) : (holdEffect h s).memWf = true := by
  unfold holdEffect
  grind -ring -linarith [Pier.memWf_mk, Pier.bench_wf, Pier.tiles_wf, Pier.imem_wf, modPier_memWf]

theorem sbRelease_memWf {k p e : Nat} {s : State} (hs : s.memWf = true) : (sbRelease k p e s).memWf = true := by
  unfold sbRelease
  grind -ring -linarith [foldl_memWf, State.modSpan_memWf, holdEffect_memWf, endHolds_memWf]

theorem sbFull_memWf {p e : Nat} {s : State} (hs : s.memWf = true) : (sbFull p e s).memWf = true := by
  unfold sbFull
  grind -ring -linarith [Pier.memWf_mk, Pier.bench_wf, Pier.tiles_wf, Pier.imem_wf, pier_memWf, modPier_memWf, sbRelease_memWf]

theorem sbReaderDone_memWf {p e : Nat} {s : State} (hs : s.memWf = true) : (sbReaderDone p e s).memWf = true := by
  unfold sbReaderDone
  grind -ring -linarith [Pier.memWf_mk, Pier.bench_wf, Pier.tiles_wf, Pier.imem_wf, pier_memWf, modPier_memWf, sbRelease_memWf]

theorem Pier.putBench_memWf {x : Pier} {ws : List (Nat × W36)} (hx : x.memWf = true) :
    (x.putBench ws).memWf = true := by
  unfold Pier.putBench
  grind -ring -linarith [Pier.memWf_mk, Pier.bench_wf, Pier.tiles_wf, Pier.imem_wf, mputAll_wf]

theorem checkBench_memWf {p : Nat} {keys : List Nat} {s : State} (hs : s.memWf = true) :
    (checkBench p keys s).memWf = true := by
  unfold checkBench
  grind -ring -linarith [foldl_memWf, replayFault_memWf, setReg_memWf, State.bump_memWf, pier_memWf]

theorem checkTile_memWf {p : Nat} {keys : List Nat} {s : State} (hs : s.memWf = true) :
    (checkTile p keys s).memWf = true := by
  unfold checkTile
  grind -ring -linarith [foldl_memWf, replayFault_memWf, pier_memWf]

theorem checkStore_memWf {p part : Nat} {pick : Nat → Bool} {s : State} (hs : s.memWf = true) :
    (checkStore p part pick s).memWf = true := by
  unfold checkStore
  grind -ring -linarith [foldl_memWf, replayFault_memWf, pier_memWf]

theorem Pier.cleanStore_memWf {x : Pier} {part entry : Nat} (hx : x.memWf = true) :
    (x.cleanStore part entry).memWf = true := by
  unfold Pier.cleanStore
  grind -ring -linarith [Pier.memWf_mk, Pier.bench_wf, Pier.tiles_wf, Pier.imem_wf]

theorem Pier.putTile_memWf {x : Pier} {ws : List (Nat × W36)} (hx : x.memWf = true) : (x.putTile ws).memWf = true := by
  unfold Pier.putTile
  grind -ring -linarith [Pier.memWf_mk, Pier.bench_wf, Pier.tiles_wf, Pier.imem_wf, mputAll_wf]

theorem sched_memWf {p due : Nat} {atEnd : Bool} {slot : Nat} {op : ActOp} {s : State} (hs : s.memWf = true) :
    (sched p due atEnd slot op s).memWf = true := by
  unfold sched
  grind -ring -linarith [Pier.memWf_mk, Pier.bench_wf, Pier.tiles_wf, Pier.imem_wf, modPier_memWf]

theorem schedEach_memWf {p n : Nat} {due : Nat → Nat} {atEnd : Bool} {slot : Nat} {op : Nat → ActOp} {s : State}
    (hs : s.memWf = true) :
    (schedEach p n due atEnd slot op s).memWf = true := by
  unfold schedEach
  grind -ring -linarith [Pier.memWf_mk, Pier.bench_wf, Pier.tiles_wf, Pier.imem_wf, modPier_memWf]

theorem presentEach_memWf {k p i n : Nat} {acc : Nat → Access} {s : State} (hs : s.memWf = true) :
    (presentEach k p i n acc s).memWf = true := by
  unfold presentEach
  grind -ring -linarith [Pier.memWf_mk, Pier.bench_wf, Pier.tiles_wf, Pier.imem_wf, present_memWf, modPier_memWf]

/-! ### Operands -/

theorem Pier.ocDrop_memWf {x : Pier} {t : Nat} (hx : x.memWf = true) : (x.ocDrop t).memWf = true := by
  unfold Pier.ocDrop
  grind -ring -linarith [Pier.memWf_mk, Pier.bench_wf, Pier.tiles_wf, Pier.imem_wf]

theorem Pier.ocUse_memWf {x : Pier} {t : Nat} (hx : x.memWf = true) : (x.ocUse t).memWf = true := by
  unfold Pier.ocUse
  grind -ring -linarith [Pier.memWf_mk, Pier.bench_wf, Pier.tiles_wf, Pier.imem_wf]

theorem Pier.putBlock_memWf {x : Pier} {t r0 cols : Nat} {ws : List Nat} (hx : x.memWf = true) :
    (x.putBlock t r0 cols ws).memWf = true := by
  unfold Pier.putBlock
  grind -ring -linarith [Pier.ocDrop_memWf, Pier.putTile_memWf]

theorem issueWith_memWf {i : Iss} {s : State} {eff : Ctx → State → State} (hs : s.memWf = true)
    (heff : ∀ c x, x.memWf = true → (eff c x).memWf = true) :
    KeepsMem (issueWith i s eff) := by
  unfold issueWith
  grind -ring -linarith [keepsMem_next, keepsMem_fault, State.bump2_memWf]

theorem issue_memWf {i : Iss} {s : State} {eff : Ctx → State → State} (hs : s.memWf = true)
    (heff : ∀ c x, x.memWf = true → (eff c x).memWf = true) :
    KeepsMem (issue i s eff) := by
  unfold issue
  grind -ring -linarith [keepsMem_next, keepsMem_fault, issueWith_memWf, State.modSeq_memWf]

theorem chargeFor_memWf {k p rate last : Nat} {s : State} (hs : s.memWf = true) :
    (chargeFor k p rate last s).memWf = true := by
  unfold chargeFor
  grind -ring -linarith [State.modSpan_memWf]

theorem openPhase_memWf {c : Ctx} {s : State} (hs : s.memWf = true) : (openPhase c s).memWf = true := by
  unfold openPhase
  grind -ring -linarith [pier_memWf, State.modSpan_memWf]

theorem closePhase_memWf {c : Ctx} {next : Nat} {s : State} (hs : s.memWf = true) :
    (closePhase c next s).memWf = true := by
  unfold closePhase
  grind -ring -linarith [pier_memWf, State.modSpan_memWf]

theorem State.putBench_memWf {s : State} {p : Nat} {ws : List (Nat × W36)} (hs : s.memWf = true) :
    (s.putBench p ws).memWf = true := by
  unfold State.putBench
  grind -ring -linarith [modPier_memWf, Pier.putBench_memWf]

/-! ### Sequencer -/

theorem execNop_memWf {i : Iss} {s : State} (hs : s.memWf = true) : KeepsMem (execNop i s) := by
  unfold execNop
  grind -ring -linarith [keepsMem_next, keepsMem_fault, issue_memWf]

theorem execLoop_memWf {i : Iss} {level count body : Nat} {s : State} (hs : s.memWf = true) :
    KeepsMem (execLoop i level count body s) := by
  unfold execLoop
  grind -ring -linarith [keepsMem_next, keepsMem_fault, issueWith_memWf, State.modSeq_memWf]

theorem execCall_memWf {i : Iss} {id arg : Nat} {s : State} (hs : s.memWf = true) : KeepsMem (execCall i id arg s) := by
  unfold execCall
  grind -ring -linarith [keepsMem_next, keepsMem_fault, issueWith_memWf, State.modSeq_memWf]

theorem execRet_memWf {i : Iss} {s : State} (hs : s.memWf = true) : KeepsMem (execRet i s) := by
  unfold execRet
  grind -ring -linarith [keepsMem_next, keepsMem_fault, issueWith_memWf, State.modSeq_memWf]

theorem execHalt_memWf {i : Iss} {s : State} (hs : s.memWf = true) : KeepsMem (execHalt i s) := by
  unfold execHalt
  grind -ring -linarith [keepsMem_next, keepsMem_fault, issueWith_memWf, State.modSeq_memWf]

theorem execWaitc_memWf {i : Iss} {chucks : Nat} {s : State} (hs : s.memWf = true) : KeepsMem
    (execWaitc i chucks s) := by
  unfold execWaitc
  grind -ring -linarith [keepsMem_next, keepsMem_fault, issue_memWf, pier_memWf, closePhase_memWf, raiseHold_memWf]

theorem execWaitt_memWf {i : Iss} {t : TimeOp} {s : State} (hs : s.memWf = true) : KeepsMem (execWaitt i t s) := by
  unfold execWaitt
  grind -ring -linarith [keepsMem_next, keepsMem_fault, issue_memWf, pier_memWf, raiseHold_memWf]

theorem execPtok_memWf {i : Iss} {level : Nat} {s : State} (hs : s.memWf = true) : KeepsMem (execPtok i level s) := by
  unfold execPtok
  grind -ring -linarith [keepsMem_next, keepsMem_fault, issue_memWf, State.modSpan_memWf]

theorem execAset_memWf {i : Iss} {a value : Nat} {s : State} (hs : s.memWf = true) : KeepsMem
    (execAset i a value s) := by
  unfold execAset
  grind -ring -linarith [keepsMem_next, keepsMem_fault, issue_memWf, State.modSeq_memWf]

theorem execAstr_memWf {i : Iss} {a level stride : Nat} {s : State} (hs : s.memWf = true) :
    KeepsMem (execAstr i a level stride s) := by
  unfold execAstr
  grind -ring -linarith [keepsMem_next, keepsMem_fault, issue_memWf, State.modSeq_memWf]

theorem execAadd_memWf {i : Iss} {d r imm : Nat} {s : State} (hs : s.memWf = true) : KeepsMem
    (execAadd i d r imm s) := by
  unfold execAadd
  grind -ring -linarith [keepsMem_next, keepsMem_fault, issue_memWf, State.modSeq_memWf]

theorem execLparm_memWf {i : Iss} {d word : Nat} {s : State} (hs : s.memWf = true) : KeepsMem
    (execLparm i d word s) := by
  unfold execLparm
  grind -ring -linarith [keepsMem_next, keepsMem_fault, issue_memWf, State.modSeq_memWf]

theorem execArm_memWf {i : Iss} {entry row : Nat} {arb : Sel} {count : Nat} {s : State} (hs : s.memWf = true) :
    KeepsMem (execArm i entry row arb count s) := by
  unfold execArm
  grind -ring -linarith [keepsMem_next, keepsMem_fault, Pier.memWf_mk, Pier.bench_wf, Pier.tiles_wf, Pier.imem_wf, issue_memWf,
    pier_memWf, raiseHold_memWf, modPier_memWf]

theorem execRel_memWf {i : Iss} {entry : Nat} {s : State} (hs : s.memWf = true) : KeepsMem (execRel i entry s) := by
  unfold execRel
  grind -ring -linarith [keepsMem_next, keepsMem_fault, Pier.memWf_mk, Pier.bench_wf, Pier.tiles_wf, Pier.imem_wf, issue_memWf,
    pier_memWf, modPier_memWf, raiseHold_memWf]

theorem execHld_memWf {i : Iss} {h brow : Nat} {arb : Sel} {s : State} (hs : s.memWf = true) :
    KeepsMem (execHld i h brow arb s) := by
  unfold execHld
  grind -ring -linarith [keepsMem_next, keepsMem_fault, issue_memWf, pier_memWf, sched_memWf, present_memWf]

theorem execHst_memWf {i : Iss} {h brow : Nat} {arb : Sel} {s : State} (hs : s.memWf = true) :
    KeepsMem (execHst i h brow arb s) := by
  unfold execHst
  grind -ring -linarith [keepsMem_next, keepsMem_fault, issue_memWf, pier_memWf, sched_memWf, present_memWf]

theorem poisonMember_memWf {p m : Nat} {s : State} (hs : s.memWf = true) : (poisonMember p m s).memWf = true := by
  unfold poisonMember
  grind -ring -linarith [Pier.memWf_mk, Pier.bench_wf, Pier.tiles_wf, Pier.imem_wf, modPier_memWf]

theorem modMember_memWf {k m : Nat} {f : Member → Member} {s : State} (hs : s.memWf = true) :
    (modMember k m f s).memWf = true := by
  unfold modMember
  grind -ring -linarith [State.modSpan_memWf]

theorem chkEffects_memWf {c : Ctx} {i : Nat} {m : Member} {r : ChkRes} {s : State} (hs : s.memWf = true) :
    (chkEffects c i m r s).memWf = true := by
  unfold chkEffects
  grind -ring -linarith [poisonMember_memWf, modMember_memWf, raise_memWf, State.bump_memWf]

theorem execHchk_memWf {i : Iss} {o : HchkOp} {s : State} (hs : s.memWf = true) : KeepsMem (execHchk i o s) := by
  unfold execHchk
  grind -ring -linarith [keepsMem_next, keepsMem_fault, issue_memWf, pier_memWf, State.modSeq_memWf, poisonMember_memWf,
    chkEffects_memWf]

/-! ### Stream -/

theorem farPut_memWf {f : FarMap} {t o v : Nat} {s : State} (hs : s.memWf = true) :
    (farPut f t o v s).memWf = true := by
  unfold farPut
  grind -ring -linarith [wr_memWf]

theorem llmTouch_memWf {block unpinnedMib : Nat} {s : State} (hs : s.memWf = true) :
    (llmTouch block unpinnedMib s).memWf = true := by
  unfold llmTouch
  grind -ring -linarith [State.memWf_mk, State.mem_wf, State.piers_wf, State.bump_memWf]

theorem State.lineTouch_memWf {s : State} {line : Nat} (hs : s.memWf = true) : (s.lineTouch line).memWf = true := by
  unfold State.lineTouch
  grind -ring -linarith [foldl_memWf, llmTouch_memWf]

/-! ### Chucks -/

theorem State.modChannel_memWf {s : State} {id : Nat} {f : Channel → Channel} (hs : s.memWf = true) :
    (s.modChannel id f).memWf = true := by
  unfold State.modChannel
  grind -ring -linarith [State.memWf_mk, State.mem_wf, State.piers_wf]

theorem noteCommits_memWf {k : Nat} {hs : List (Nat × Hdr)} {s : State} (hswf : s.memWf = true) :
    (noteCommits k hs s).memWf = true := 
  ite_memWf hswf (State.modSpan_memWf hswf)

theorem noteOut_memWf {k a i : Nat} {h : Hdr} {s : State} (hs : s.memWf = true) : (noteOut k a i h s).memWf = true := by
  unfold noteOut
  grind -ring -linarith [State.modSpan_memWf]

theorem checkReplay_memWf {p k i a : Nat} {h : Hdr} {s : State} (hs : s.memWf = true) :
    (checkReplay p k i a h s).memWf = true := by
  unfold checkReplay
  grind -ring -linarith [raise_memWf, poisonMember_memWf, modMember_memWf]

theorem streamFault_memWf {code p k j : Nat} {x : Xfer} {n : Nat} {s : State} (hs : s.memWf = true) :
    (streamFault code p k j x n s).memWf = true := by
  unfold streamFault
  grind -ring -linarith [stopSpan_memWf, raise_memWf]

theorem pageStop_memWf {p : Nat} {x : Xfer} {s : State} (hs : s.memWf = true) : (pageStop p x s).2.memWf = true := by
  unfold pageStop
  grind -ring -linarith [State.bump_memWf]

theorem tryMove_memWf {p : Nat} {x : Xfer} {s : State} (hs : s.memWf = true) : (tryMove p x s).2.memWf = true := by
  unfold tryMove
  grind -ring -linarith [pageStop_memWf]

theorem State.modChuck_memWf {s : State} {p j : Nat} {f : Chuck → Chuck} (hs : s.memWf = true) :
    (s.modChuck p j f).memWf = true := by
  unfold State.modChuck
  grind -ring -linarith [Pier.memWf_mk, Pier.bench_wf, Pier.tiles_wf, Pier.imem_wf, modPier_memWf]

theorem enterSb_memWf {x : Xfer} {pr : Pier} (hpr : pr.memWf = true) : ((enterSb x pr).1).memWf = true := by
  unfold enterSb
  grind -ring -linarith [Pier.memWf_mk, Pier.bench_wf, Pier.tiles_wf, Pier.imem_wf]

theorem admitXfer_memWf {p j : Nat} {x : Xfer} {s : State} (hs : s.memWf = true) :
    (admitXfer p j x s).memWf = true := by
  unfold admitXfer
  grind -ring -linarith [enterSb_memWf, pier_memWf, tryMove_memWf, setPier_memWf, State.modChuck_memWf]

theorem beginXfer_memWf {p k j : Nat} {x0 : Xfer} {s : State} (hs : s.memWf = true) :
    (beginXfer p k j x0 s).memWf = true := by
  unfold beginXfer
  grind -ring -linarith [streamFault_memWf, admitXfer_memWf, State.bump_memWf]

theorem issueXfer_memWf {c : Ctx} {j didx startAdd : Nat} {target : Option Nat} {s : State} (hs : s.memWf = true) :
    (issueXfer c j didx startAdd target s).memWf = true := by
  unfold issueXfer
  grind -ring -linarith [Pier.memWf_mk, Pier.bench_wf, Pier.tiles_wf, Pier.imem_wf, pier_memWf, modPier_memWf, openPhase_memWf,
    beginXfer_memWf, raiseHold_memWf, State.modChuck_memWf]

theorem execChk_memWf {i : Iss} {chuck desc : Nat} {arstart : Sel} {s : State} (hs : s.memWf = true) :
    KeepsMem (execChk i chuck desc arstart s) := by
  unfold execChk
  grind -ring -linarith [keepsMem_next, keepsMem_fault, issue_memWf, issueXfer_memWf, pier_memWf]

theorem execLaunch_memWf {i : Iss} {o : LaunchOp} {s : State} (hs : s.memWf = true) : KeepsMem (execLaunch i o s) := by
  unfold execLaunch
  grind -ring -linarith [keepsMem_next, keepsMem_fault, Pier.memWf_mk, Pier.bench_wf, Pier.tiles_wf, Pier.imem_wf, issue_memWf,
    pier_memWf, State.bump_memWf, issueXfer_memWf, openPhase_memWf, modPier_memWf, enqueue_memWf, raiseHold_memWf]

/-! ### Transfers -/

theorem State.setXfer_memWf {s : State} {p j : Nat} {x : Xfer} (hs : s.memWf = true) :
    (s.setXfer p j x).memWf = true := by
  unfold State.setXfer
  grind -ring -linarith [State.modChuck_memWf]

theorem keyDone_memWf {k : Nat} {x : Xfer} {s : State} (hs : s.memWf = true) : (keyDone k x s).memWf = true := by
  unfold keyDone
  grind -ring -linarith [State.memWf_mk, State.mem_wf, State.piers_wf, State.bump2_memWf]

theorem afterMove_memWf {p k j : Nat} {x : Xfer} {s : State} (hs : s.memWf = true) :
    (afterMove p k j x s).memWf = true := by
  unfold afterMove
  grind -ring -linarith [State.setXfer_memWf, keyDone_memWf]

theorem countElems_memWf {p : Nat} {x : Xfer} {ns : List Nat} {s : State} (hs : s.memWf = true) :
    (countElems p x ns s).memWf = true := by
  unfold countElems
  grind -ring -linarith [foldl_memWf, State.bump2_memWf, State.bump_memWf]

theorem acceptLink_memWf {port : Nat} {s : State} (hs : s.memWf = true) : (acceptLink port s).memWf = true := by
  unfold acceptLink
  grind -ring -linarith [State.memWf_mk, State.mem_wf, State.piers_wf]

theorem landIn_memWf {k : Nat} {f : Flit} {s : State} (hs : s.memWf = true) : (landIn k f s).memWf = true := by
  unfold landIn
  grind -ring -linarith [foldl_memWf, afterMove_memWf, countElems_memWf]

theorem sendItem_memWf {p : Nat} {k : Nat} {x : Xfer} {s : State} {i : FarItem} (hs : s.memWf = true) :
    (sendItem p k x s i).memWf = true := by
  cases i with
  | hdr i h =>
    rw [sendItem]
    have hput : ∀ (w o a : Nat) (bs : List Byte), (match s.farMap p x with | .remote => s.send (.remoteWrite w o bs) | _ => s.wr a bs).memWf = true := by
      intro w o a bs
      split
      · exact send_memWf _ _ hs
      · exact wr_memWf _ _ _ hs
    exact ite_memWf (noteCommits_memWf (noteOut_memWf (hput _ _ _ _))) (noteOut_memWf (hput _ _ _ _))
  | elem n v =>
    rw [sendItem]
    split
    · exact send_memWf _ _ hs
    · exact farPut_memWf hs
  | line _ _ => exact hs

theorem landOut_memWf {k : Nat} {f : Flit} {s : State} (hs : s.memWf = true) : (landOut k f s).memWf = true := by
  unfold landOut
  grind -ring -linarith [foldl_memWf, sendItem_memWf, afterMove_memWf, countElems_memWf]

theorem linkFc_memWf {s : State} (hs : s.memWf = true) : (linkFc s).memWf = true := by
  unfold linkFc
  grind -ring -linarith [State.memWf_mk, State.mem_wf, State.piers_wf, foldl_memWf, landIn_memWf, landOut_memWf, acceptLink_memWf]

theorem farPort_memWf {p : Nat} {s : State} (hs : s.memWf = true) : (farPort p s).memWf = true := by
  unfold farPort
  grind -ring -linarith [State.memWf_mk, State.mem_wf, State.piers_wf, Pier.memWf_mk, Pier.bench_wf, Pier.tiles_wf, Pier.imem_wf,
    pier_memWf, modPier_memWf, State.setXfer_memWf]

theorem sendIn_memWf {p j : Nat} {x : Xfer} {is : List FarItem} {s : State} (hs : s.memWf = true) :
    (sendIn p j x is s).2.memWf = true := by
  unfold sendIn
  grind -ring -linarith [State.memWf_mk, State.mem_wf, State.piers_wf]

theorem deliverHdr_memWf {p : Nat} {x : Xfer} {i : Nat} {h : Hdr} {s : State} (hs : s.memWf = true) :
    (deliverHdr p x i h s).2.2.memWf = true := by
  unfold deliverHdr
  grind -ring -linarith [raise_memWf]

theorem bringHdrs_memWf {p : Nat} {x : Xfer} {data : List Byte} {s : State} (hs : s.memWf = true) :
    (bringHdrs p x data s).2.2.memWf = true := by
  unfold bringHdrs
  split
  · extract_lets raw s1
    have h1 : s1.memWf = true := by
      unfold s1
      split
      · exact ite_memWf (foldl_memWf (fun _ _ => checkReplay_memWf) hs) hs
      · exact hs
    exact raw.zipIdx.foldlRecOn _ (motive := fun a : List FarItem × Xfer × State => a.2.2.memWf = true) h1 fun a ha e _
      => deliverHdr_memWf ha
  · exact hs

theorem touchLines_memWf {x : Xfer} {f : FarMap} {n : Nat} {s : State} (hs : s.memWf = true) :
    (touchLines x f n s).memWf = true := by
  unfold touchLines
  grind -ring -linarith [foldl_memWf, State.lineTouch_memWf]

theorem poisonRequest_memWf {e : Nat × Nat} {code : Nat} {s : State} (hs : s.memWf = true) :
    (poisonRequest e code s).memWf = true := by
  unfold poisonRequest
  grind -ring -linarith [State.memWf_mk, State.mem_wf, State.piers_wf]

theorem llmLost_memWf {a : Nat} {s : State} (hs : s.memWf = true) : (llmLost a s).memWf = true := by
  unfold llmLost
  grind -ring -linarith [foldl_memWf, raise_memWf, addRepair_memWf, zeroMem_memWf, State.modSlot_memWf, poisonRequest_memWf]

theorem readLines_memWf {lines : List Nat} {s : State} (hs : s.memWf = true) : (readLines lines s).memWf = true := by
  unfold readLines
  grind -ring -linarith [State.memWf_mk, State.mem_wf, State.piers_wf, foldl_memWf, llmLost_memWf, State.bump_memWf,
    State.setDreg_memWf]

theorem bringElems_memWf {p j : Nat} {x : Xfer} {f : FarMap} {hdrs : List FarItem} {m : Nat}
    {value : State → Nat → Nat} {s : State} (hs : s.memWf = true) :
    (bringElems p j x f hdrs m value s).2.memWf = true := by
  unfold bringElems
  grind -ring -linarith [sendIn_memWf, pier_memWf, touchLines_memWf]

theorem arrive_memWf {p k j : Nat} {x : Xfer} {n : Nat} {data : List Byte} {s : State} (hs : s.memWf = true) :
    (arrive p k j x n data s).memWf = true := by
  unfold arrive
  grind -ring -linarith [pageStop_memWf, State.setXfer_memWf, readLines_memWf, bringHdrs_memWf, bringElems_memWf, tryMove_memWf]

theorem pageResume_memWf {p : Nat} {x : Xfer} {s : State} (hs : s.memWf = true) :
    (pageResume p x s).2.memWf = true := by
  unfold pageResume
  grind -ring -linarith [State.bump_memWf]

theorem countRead_memWf {d bytes : Nat} {s : State} (hs : s.memWf = true) : (countRead d bytes s).memWf = true := by
  unfold countRead
  grind -ring -linarith [State.memWf_mk, State.mem_wf, State.piers_wf, State.bump_memWf]

theorem arriveBurst_memWf {p k j : Nat} {x : Xfer} {n failed : Nat} {data : List Byte} {s : State}
    (hs : s.memWf = true) :
    (arriveBurst p k j x n failed data s).memWf = true := by
  unfold arriveBurst
  grind -ring -linarith [arrive_memWf, State.bump_memWf, countRead_memWf, stopSpan_memWf, raise_memWf]

theorem execChuckDataArrival_memWf {p j xi n failed : Nat} {data : List Byte} {s : State} (hs : s.memWf = true) :
    KeepsMem (execChuckDataArrival p j xi n failed data s) := by
  unfold execChuckDataArrival
  grind -ring -linarith [keepsMem_next, keepsMem_fault, pier_memWf, arriveBurst_memWf, pageResume_memWf, State.setXfer_memWf]

theorem returnItem_memWf {p : Nat} {a : Xfer × State} {i : FarItem} (ha : a.2.memWf = true) :
    (returnItem p a i).2.memWf = true := by
  unfold returnItem
  grind -ring -linarith [deliverHdr_memWf]

theorem returnRead_memWf {p : Nat} {a : Xfer × State} {is : List FarItem} (ha : a.2.memWf = true) :
    (returnRead p a is).2.memWf = true := by
  unfold returnRead
  extract_lets x es
  split
  · exact ha
  · exact foldl_snd_memWf (fun _ _ => returnItem_memWf) ha

theorem returnReads_memWf {p : Nat} {x : Xfer} {s : State} (hs : s.memWf = true) :
    (returnReads p x s).2.memWf = true := by
  unfold returnReads
  extract_lets q r
  split
  · exact hs
  · exact foldl_snd_memWf (fun _ _ => returnRead_memWf) hs

theorem startFill_memWf {p j : Nat} {x : Xfer} {line : Nat} {s : State} (hs : s.memWf = true) :
    (startFill p j x line s).memWf = true := by
  unfold startFill
  grind -ring -linarith [Pier.memWf_mk, Pier.bench_wf, Pier.tiles_wf, Pier.imem_wf, pier_memWf, modPier_memWf, sendIn_memWf,
    State.setXfer_memWf]

theorem cacheMiss_memWf {p j : Nat} {x : Xfer} {s : State} (hs : s.memWf = true) :
    (cacheMiss p j x s).memWf = true := by
  unfold cacheMiss
  grind -ring -linarith [pier_memWf, startFill_memWf, State.bump_memWf, State.lineTouch_memWf]

theorem cacheRead_memWf {p j : Nat} {x : Xfer} {r : Nat} {s : State} (hs : s.memWf = true) :
    (cacheRead p j x r s).memWf = true := by
  unfold cacheRead
  grind -ring -linarith [Pier.memWf_mk, Pier.bench_wf, Pier.tiles_wf, Pier.imem_wf, pier_memWf, startFill_memWf, State.bump_memWf,
    modPier_memWf, State.setXfer_memWf, countElems_memWf]

theorem readIndex_memWf {p j : Nat} {x : Xfer} {left : Nat} {s : State} (hs : s.memWf = true) :
    (readIndex p j x left s).memWf = true := by
  unfold readIndex
  grind -ring -linarith [State.setXfer_memWf, checkBench_memWf, pier_memWf]

theorem readBench_memWf {p j : Nat} {x : Xfer} {s : State} (hs : s.memWf = true) :
    (readBench p j x s).memWf = true := by
  unfold readBench
  grind -ring -linarith [pier_memWf, State.setXfer_memWf, checkBench_memWf, pageStop_memWf, countElems_memWf, tryMove_memWf]

theorem writeBench_memWf {p j : Nat} {x : Xfer} {i : Nat} {s : State} (hs : s.memWf = true) :
    (writeBench p j x i s).memWf = true := by
  unfold writeBench
  grind -ring -linarith [Pier.memWf_mk, Pier.bench_wf, Pier.tiles_wf, Pier.imem_wf, pier_memWf, State.setXfer_memWf, modPier_memWf]

theorem moveRow_memWf {p k j : Nat} {x : Xfer} {s : State} (hs : s.memWf = true) :
    (moveRow p k j x s).memWf = true := by
  unfold moveRow
  grind -ring -linarith [pier_memWf, writeBench_memWf, readIndex_memWf, cacheRead_memWf, readBench_memWf, afterMove_memWf]

theorem slot3_memWf {p k : Nat} {s : State} (hs : s.memWf = true) : (slot3 p k s).memWf = true := by
  unfold slot3
  grind -ring -linarith [Pier.memWf_mk, Pier.bench_wf, Pier.tiles_wf, Pier.imem_wf, pier_memWf, moveRow_memWf, modPier_memWf]

theorem nextBlock_memWf {p j : Nat} {x : Xfer} {s : State} (hs : s.memWf = true) :
    (nextBlock p j x s).memWf = true := by
  unfold nextBlock
  grind -ring -linarith [pierStoreLost_memWf, State.setXfer_memWf, State.bump2_memWf]

theorem indexFc_memWf {p k j : Nat} {x : Xfer} {s : State} (hs : s.memWf = true) :
    (indexFc p k j x s).memWf = true := by
  unfold indexFc
  grind -ring -linarith [State.setXfer_memWf, streamFault_memWf, tryMove_memWf]

theorem xferFc_memWf {p k j id : Nat} {s : State} (hs : s.memWf = true) : (xferFc p k j id s).memWf = true := by
  unfold xferFc
  grind -ring -linarith [returnReads_memWf, afterMove_memWf, State.setXfer_memWf, pier_memWf, cacheMiss_memWf, nextBlock_memWf,
    indexFc_memWf]

theorem chuckFc_memWf {p k : Nat} {free : Bool} {s : State} (hs : s.memWf = true) :
    (chuckFc p k free s).memWf = true := by
  unfold chuckFc
  grind -ring -linarith [foldl_memWf, pier_memWf, xferFc_memWf, farPort_memWf, slot3_memWf]

theorem resumeOne_memWf {p j : Nat} {x : Xfer} {s : State} (hs : s.memWf = true) :
    (resumeOne p j x s).memWf = true := by
  unfold resumeOne
  grind -ring -linarith [enterSb_memWf, pier_memWf, tryMove_memWf, setPier_memWf, State.setXfer_memWf]

theorem execChuckResume_memWf {p j : Nat} {s : State} (hs : s.memWf = true) : KeepsMem (execChuckResume p j s) := by
  unfold execChuckResume
  grind -ring -linarith [keepsMem_next, keepsMem_fault, foldl_memWf, resumeOne_memWf, pier_memWf]

theorem waitcRelease_memWf {k p j : Nat} {s : State} (hs : s.memWf = true) : (waitcRelease k p j s).memWf = true := by
  unfold waitcRelease
  grind -ring -linarith [pier_memWf, endHolds_memWf, State.modSpan_memWf]

theorem admitWaiting_memWf {p k j : Nat} {s : State} (hs : s.memWf = true) : (admitWaiting p k j s).memWf = true := by
  unfold admitWaiting
  grind -ring -linarith [pier_memWf, State.modChuck_memWf, State.modSpan_memWf, beginXfer_memWf]

theorem exchangeDone_memWf {p : Nat} {x : Xfer} {s : State} (hs : s.memWf = true) :
    (exchangeDone p x s).memWf = true := by
  unfold exchangeDone
  refine ite_memWf hs ?_
  split
  · exact hs
  · exact ite_memWf (State.modChannel_memWf hs) (send_memWf _ _ (State.modChannel_memWf hs))

theorem settle_memWf {p : Nat} {x : Xfer} {s : State} (hs : s.memWf = true) : (settle p x s).memWf = true := by
  unfold settle
  grind -ring -linarith [sbReaderDone_memWf, sbFull_memWf]

theorem execChuckTransferDone_memWf {p j : Nat} {s : State} (hs : s.memWf = true) :
    KeepsMem (execChuckTransferDone p j s) := by
  unfold execChuckTransferDone
  grind -ring -linarith [keepsMem_next, keepsMem_fault, pier_memWf, State.modChuck_memWf, waitcRelease_memWf, admitWaiting_memWf,
    exchangeDone_memWf, settle_memWf]

theorem markSettled_memWf {p id : Nat} {s : State} (hs : s.memWf = true) : (markSettled p id s).memWf = true := by
  unfold markSettled
  grind -ring -linarith [Pier.memWf_mk, Pier.bench_wf, Pier.tiles_wf, Pier.imem_wf, modPier_memWf]

theorem execSbRangeFull_memWf {p entry : Nat} {s : State} (hs : s.memWf = true) :
    KeepsMem (execSbRangeFull p entry s) := by
  unfold execSbRangeFull
  grind -ring -linarith [keepsMem_next, keepsMem_fault, pier_memWf, sbFull_memWf, markSettled_memWf]

theorem execSbDrainDone_memWf {p entry : Nat} {s : State} (hs : s.memWf = true) :
    KeepsMem (execSbDrainDone p entry s) := by
  unfold execSbDrainDone
  grind -ring -linarith [keepsMem_next, keepsMem_fault, pier_memWf, sbReaderDone_memWf, markSettled_memWf]

theorem execChuckPageStop_memWf {p j : Nat} {s : State} (hs : s.memWf = true) : KeepsMem (execChuckPageStop p j s) := by
  unfold execChuckPageStop
  grind -ring -linarith [keepsMem_next, keepsMem_fault, pier_memWf, pageStop_memWf, State.setXfer_memWf]

theorem execChuckRetry_memWf {p : Nat} {j : Nat} {s : State} (hs : s.memWf = true) :
    KeepsMem (execChuckRetry p j s) := by
  unfold execChuckRetry
  refine ite_keepsMem (keepsMem_fault _) ?_
  split
  · split
    · extract_lets w known r
      have hr : r.2.memWf = true := pageResume_memWf hs
      exact ite_keepsMem ((keepsMem_next _).2 (State.setXfer_memWf hr)) ((keepsMem_next _).2 (State.setXfer_memWf hs))
    · exact (keepsMem_next _).2 hs
  · exact (keepsMem_next _).2 hs

theorem execChuckRemoteTimeout_memWf {p j : Nat} {s : State} (hs : s.memWf = true) :
    KeepsMem (execChuckRemoteTimeout p j s) := by
  unfold execChuckRemoteTimeout
  grind -ring -linarith [keepsMem_next, keepsMem_fault, pier_memWf, streamFault_memWf]

theorem execStreamRemoteError_memWf {p j : Nat} {s : State} (hs : s.memWf = true) :
    KeepsMem (execStreamRemoteError p j s) := by
  unfold execStreamRemoteError
  grind -ring -linarith [keepsMem_next, keepsMem_fault, pier_memWf, streamFault_memWf]

/-! ### Launch -/

theorem State.modRequest_memWf {s : State} {se q : Nat} {f : Request → Request} (hs : s.memWf = true) :
    (s.modRequest se q f).memWf = true := by
  unfold State.modRequest
  grind -ring -linarith [State.memWf_mk, State.mem_wf, State.piers_wf]

theorem State.modSession_memWf {s : State} {id : Nat} {f : Session → Session} (hs : s.memWf = true) :
    (s.modSession id f).memWf = true := by
  unfold State.modSession
  grind -ring -linarith [State.memWf_mk, State.mem_wf, State.piers_wf]

theorem State.modImage_memWf {s : State} {h : Nat} {f : Image → Image} (hs : s.memWf = true) :
    (s.modImage h f).memWf = true := by
  unfold State.modImage
  grind -ring -linarith [State.memWf_mk, State.mem_wf, State.piers_wf]

theorem writeCompletions_memWf {p : Nat} {s : State} (hs : s.memWf = true) : (writeCompletions p s).memWf = true := by
  unfold writeCompletions
  grind -ring -linarith [foldl_memWf, send_memWf, State.modSlot_memWf]

theorem complete_memWf {p : Nat} {x : Completion} {s : State} (hs : s.memWf = true) :
    (complete p x s).memWf = true := by
  unfold complete
  grind -ring -linarith [writeCompletions_memWf, State.modSlot_memWf]

theorem spendItems_memWf {se : Nat} {ent : MatEnt} {serials : List Nat} {s : State} (hs : s.memWf = true) :
    (spendItems se ent serials s).memWf = true := by
  unfold spendItems
  split
  · exact hs
  extract_lets hit
  split
  · exact hs
  extract_lets s1 spent ended gone upd s2
  have h1 : s1.memWf = true := foldl_memWf (fun s n hs => by
    split
    · exact foldl_memWf (fun _ _ => wr_memWf _ _ _) hs
    · exact hs) hs
  exact State.memWf_mk (State.mem_wf h1) (State.piers_wf h1)

theorem spendRequest_memWf {r : Request} {s : State} (hs : s.memWf = true) : (spendRequest r s).memWf = true := by
  unfold spendRequest
  grind -ring -linarith [foldl_memWf, spendItems_memWf]

theorem drainEvents_memWf {r : Request} {s : State} (hs : s.memWf = true) :
    (drainEvents r s).memWf = true := by
  unfold drainEvents
  extract_lets quiet tagOf s1 t s2
  have h1 : s1.memWf = true := ite_memWf hs hs
  have h2 : s2.memWf = true := ite_memWf h1 h1
  exact ite_memWf h2 h2

theorem commitNow_memWf {r : Request} {s : State} (hs : s.memWf = true) : (commitNow r s).memWf = true := by
  unfold commitNow
  grind -ring -linarith [State.memWf_mk, State.mem_wf, State.piers_wf, foldl_memWf, State.modRequest_memWf, State.bump2_memWf,
    State.modImage_memWf, spendRequest_memWf, complete_memWf, drainEvents_memWf]

theorem advanceCommits_memWf {se : Nat} {n : Nat} {s : State} (hs : s.memWf = true) :
    (advanceCommits se n s).memWf = true := by
  induction n generalizing s with
  | zero => exact hs
  | succ n ih =>
    unfold advanceCommits
    extract_lets live low
    clear_value low
    cases low with
    | none => exact hs
    | some r =>
      refine ite_memWf ?_ hs
      exact ite_memWf hs (ih (commitNow_memWf hs))

theorem outputDone_memWf {se q code : Nat} {s : State} (hs : s.memWf = true) :
    (outputDone se q code s).memWf = true := by
  unfold outputDone
  grind -ring -linarith [advanceCommits_memWf, State.modRequest_memWf]

theorem commitAcked_memWf {se q : Nat} {s : State} (hs : s.memWf = true) : (commitAcked se q s).memWf = true := by
  unfold commitAcked
  grind -ring -linarith [advanceCommits_memWf, commitNow_memWf]

theorem fixBatch_memWf {k : Nat} {ws : List (Nat × Nat × Nat)} {at_ : Nat} {s : State} (hs : s.memWf = true) :
    (fixBatch k ws at_ s).memWf = true := by
  unfold fixBatch
  grind -ring -linarith [State.memWf_mk, State.mem_wf, State.piers_wf, foldl_memWf, State.modRequest_memWf, State.modSpan_memWf]

theorem trySchedule_memWf {k : Nat} {s : State} (hs : s.memWf = true) : (trySchedule k s).memWf = true := by
  unfold trySchedule
  grind -ring -linarith [fixBatch_memWf]

theorem execBatchWait_memWf {k : Nat} {s : State} (hs : s.memWf = true) : KeepsMem (execBatchWait k s) := by
  unfold execBatchWait
  grind -ring -linarith [keepsMem_next, keepsMem_fault, fixBatch_memWf]

theorem admitRequest_memWf {r : Request} {s : State} (hs : s.memWf = true) : (admitRequest r s).memWf = true := by
  unfold admitRequest
  grind -ring -linarith [outputDone_memWf, trySchedule_memWf, State.modSpan_memWf]

theorem memberEnds_memWf {k : Nat} {im : Option Image} {b : Batch} {e : Member × Nat} {s0 : State}
    (hs0 : s0.memWf = true) :
    (memberEnds k im b e s0).memWf = true := by
  unfold memberEnds
  grind -ring -linarith [State.modRequest_memWf, admitRequest_memWf, outputDone_memWf]

theorem prepareBatch_memWf {k : Nat} {b : Batch} {s : State} (hs : s.memWf = true) :
    (prepareBatch k b s).memWf = true := by
  unfold prepareBatch
  grind -ring -linarith [Pier.memWf_mk, Pier.bench_wf, Pier.tiles_wf, Pier.imem_wf, foldl_memWf, State.modSpan_memWf, modPier_memWf,
    wr_memWf]

theorem execBatchPrepare_memWf {k : Nat} {s : State} (hs : s.memWf = true) : KeepsMem (execBatchPrepare k s) := by
  unfold execBatchPrepare
  grind -ring -linarith [keepsMem_next, keepsMem_fault, prepareBatch_memWf, State.modSpan_memWf]

theorem launchPier_memWf {im : Image} {k : Nat} {b : Batch} {g : Option StageProg} {x : Pier} (hx : x.memWf = true) :
    (launchPier im k b g x).memWf = true := by
  refine Pier.memWf_mk ?_ rfl (Pier.imem_wf hx)
  split <;> exact mzero_wf _ _ _ (Pier.bench_wf hx)

theorem fetchPier_memWf {k p : Nat} {s : State} (hs : s.memWf = true) : (fetchPier k p s).memWf = true := by
  unfold fetchPier
  grind -ring -linarith [pier_memWf, State.modSeq_memWf, enqueue_memWf]

theorem fetchDue_memWf {k : Nat} {s : State} (hs : s.memWf = true) : (fetchDue k s).memWf = true := by
  unfold fetchDue
  grind -ring -linarith [foldl_memWf, fetchPier_memWf]

theorem fetchAll_memWf {s : State} (hs : s.memWf = true) : (fetchAll s).memWf = true := by
  unfold fetchAll
  grind -ring -linarith [foldl_memWf, fetchPier_memWf]

theorem setTimeouts_memWf {p : Nat} {g : Option StageProg} {s : State} (hs : s.memWf = true) :
    (setTimeouts p g s).memWf = true := by
  unfold setTimeouts
  grind -ring -linarith [setReg_memWf]

theorem remapRecvs_memWf {im : Image} {replay : Bool} {m : Member} {s : State} (hs : s.memWf = true) :
    (remapRecvs im replay m s).memWf = true := by
  unfold remapRecvs
  grind -ring -linarith [State.memWf_mk, State.mem_wf, State.piers_wf]

theorem launchBatch_memWf {k : Nat} {b : Batch} {im : Image} {s : State} (hs : s.memWf = true) :
    (launchBatch k b im s).memWf = true := by
  unfold launchBatch
  grind -ring -linarith [foldl_memWf, State.modSpan_memWf, remapRecvs_memWf, setTimeouts_memWf, setReg_memWf, modPier_memWf,
    launchPier_memWf, fetchDue_memWf]

theorem execLaunchTimestamp_memWf {k : Nat} {s : State} (hs : s.memWf = true) : KeepsMem (execLaunchTimestamp k s) := by
  unfold execLaunchTimestamp
  grind -ring -linarith [keepsMem_next, keepsMem_fault, launchBatch_memWf]

theorem endBatch_memWf {k : Nat} {s : State} (hs : s.memWf = true) : (endBatch k s).memWf = true := by
  unfold endBatch
  grind -ring -linarith [Pier.memWf_mk, Pier.bench_wf, Pier.tiles_wf, Pier.imem_wf, foldl_memWf, State.modSpan_memWf, modPier_memWf,
    memberEnds_memWf, trySchedule_memWf]

theorem abortPiers_memWf {k : Nat} {fault : Bool} {s0 : State} (hs0 : s0.memWf = true) :
    (abortPiers k fault s0).memWf = true := by
  unfold abortPiers
  grind -ring -linarith [State.memWf_mk, State.mem_wf, State.piers_wf, Pier.memWf_mk, Pier.bench_wf, Pier.tiles_wf, Pier.imem_wf,
    foldl_memWf, modPier_memWf]

theorem mwfFrom_filterMap_bank (b : Nat) (m : List (Nat × BitVec 8)) : ∀ lo, mwfFrom lo m = true →
    mwfFrom (lo - 0x40000 * b) (m.filterMap fun e => if e.1 / 0x40000 = b then some (e.1 % 0x40000, e.2) else none) =
      true := by
  induction m with
  | nil => intro _ _; rfl
  | cons e m ih =>
    obtain ⟨k, v⟩ := e
    intro lo h
    simp only [mwfFrom, Bool.and_eq_true, decide_eq_true_eq] at h
    obtain ⟨⟨hk, hv⟩, hm⟩ := h
    have hrest := ih (k + 1) hm
    by_cases hb : k / 0x40000 = b
    · simp only [List.filterMap_cons, hb, if_true, mwfFrom, Bool.and_eq_true, decide_eq_true_eq]
      refine ⟨⟨by omega, hv⟩, mwfFrom_mono _ (by omega) hrest⟩
    · simp only [List.filterMap_cons, hb, if_false]
      exact mwfFrom_mono _ (by omega) hrest

theorem Pier.rebank_memWf {x : Pier} (hx : x.memWf = true) : (Pier.rebank x).memWf = true :=
  Pier.memWf_mk (Pier.bench_wf hx) (Pier.tiles_wf hx)
    (mwfFrom_mono _ (Nat.zero_le _) (mwfFrom_filterMap_bank x.seq.bank x.imem 0 (Pier.imem_wf hx)))

theorem clearPier_memWf {x : Pier} (hx : x.memWf = true) : (clearPier x).memWf = true :=
  Pier.memWf_mk rfl rfl (Pier.imem_wf (Pier.rebank_memWf hx))

theorem dropBatch_memWf {k : Nat} {s : State} (hs : s.memWf = true) : (dropBatch k s).memWf = true := by
  unfold dropBatch
  grind -ring -linarith [State.modSpan_memWf]

theorem poisonMembers_memWf {b : Batch} {code : Nat} {s : State} (hs : s.memWf = true) :
    (poisonMembers b code s).memWf = true := by
  unfold poisonMembers
  grind -ring -linarith [foldl_memWf, outputDone_memWf]

theorem replayBatch_memWf {k : Nat} {b : Batch} {code : Nat} {s : State} (hs : s.memWf = true) :
    (replayBatch k b code s).memWf = true := by
  unfold replayBatch
  grind -ring -linarith [foldl_memWf, outputDone_memWf, State.bump_memWf, State.modRequest_memWf, State.modSpan_memWf]

theorem resetSpan_memWf {k code : Nat} {test : Option Nat} {s : State} (hs : s.memWf = true) :
    (resetSpan k code test s).memWf = true := by
  unfold resetSpan
  grind -ring -linarith [State.memWf_mk, State.mem_wf, State.piers_wf, foldl_memWf, abortPiers_memWf, State.clearPierRegs_memWf,
    modPier_memWf, clearPier_memWf, dropBatch_memWf, State.modSpan_memWf, replayBatch_memWf]

theorem spanResetCmd_memWf {k : Nat} {s : State} (hs : s.memWf = true) : (spanResetCmd k s).memWf = true := by
  unfold spanResetCmd
  grind -ring -linarith [resetSpan_memWf, State.bump_memWf]

theorem applyStop_memWf {k : Nat} {s : State} (hs : s.memWf = true) : (applyStop k s).memWf = true := by
  unfold applyStop
  grind -ring -linarith [Pier.memWf_mk, Pier.bench_wf, Pier.tiles_wf, Pier.imem_wf, foldl_memWf, modPier_memWf, resetSpan_memWf,
    dropBatch_memWf, abortPiers_memWf, State.modSpan_memWf, poisonMembers_memWf, outputDone_memWf, trySchedule_memWf]

theorem execSpanResetDone_memWf {k : Nat} {s : State} (hs : s.memWf = true) : KeepsMem (execSpanResetDone k s) := by
  unfold execSpanResetDone
  grind -ring -linarith [keepsMem_next, keepsMem_fault, State.modSpan_memWf, trySchedule_memWf]

/-! ### Deck -/

theorem actSendqPresent_memWf {k p now enters flits : Nat} {s : State} (hs : s.memWf = true) :
    (actSendqPresent k p now enters flits s).memWf = true := by
  unfold actSendqPresent
  grind -ring -linarith [Pier.memWf_mk, Pier.bench_wf, Pier.tiles_wf, Pier.imem_wf, pier_memWf, modPier_memWf, raiseHold_memWf]

theorem actSendqEnter_memWf {p due : Nat} {r : SendRow} {s : State} (hs : s.memWf = true) :
    (actSendqEnter p due r s).memWf = true := by
  unfold actSendqEnter
  grind -ring -linarith [Pier.memWf_mk, Pier.bench_wf, Pier.tiles_wf, Pier.imem_wf, modPier_memWf]

theorem injectFlit_memWf {k p fc : Nat} {s : State} (hs : s.memWf = true) : (injectFlit k p fc s).memWf = true := by
  unfold injectFlit
  grind -ring -linarith [Pier.memWf_mk, Pier.bench_wf, Pier.tiles_wf, Pier.imem_wf, pier_memWf, State.bump2_memWf, modPier_memWf]

theorem execDsend_memWf {i : Iss} {o : DsendOp} {s : State} (hs : s.memWf = true) : KeepsMem (execDsend i o s) := by
  unfold execDsend
  grind -ring -linarith [keepsMem_next, keepsMem_fault, Pier.memWf_mk, Pier.bench_wf, Pier.tiles_wf, Pier.imem_wf, issue_memWf,
    pier_memWf, present_memWf, modPier_memWf, schedEach_memWf]

theorem actDsendRead_memWf {k p due : Nat} {o : DsendOp} {row drow : Nat} {s : State} (hs : s.memWf = true) :
    (actDsendRead k p due o row drow s).memWf = true := by
  unfold actDsendRead
  grind -ring -linarith [sched_memWf, pier_memWf, checkBench_memWf]

theorem execDeckRowArrival_memWf {p row : Nat} {s : State} (hs : s.memWf = true) :
    KeepsMem (execDeckRowArrival p row s) := by
  unfold execDeckRowArrival
  grind -ring -linarith [keepsMem_next, keepsMem_fault, Pier.memWf_mk, Pier.bench_wf, Pier.tiles_wf, Pier.imem_wf, pier_memWf,
    modPier_memWf, State.bump2_memWf, sched_memWf]

/-! ### Lathe -/

theorem shapeAtEnd_memWf {c : Ctx} {due tile : Nat} {sh : Shape} {s : State} (hs : s.memWf = true) :
    (shapeAtEnd c due tile sh s).memWf = true := by
  unfold shapeAtEnd
  grind -ring -linarith [sched_memWf]

theorem execTld_memWf {i : Iss} {o : LineOp} {s : State} (hs : s.memWf = true) : KeepsMem (execTld i o s) := by
  unfold execTld
  grind -ring -linarith [keepsMem_next, keepsMem_fault, issue_memWf, pier_memWf, lathe01_memWf, presentEach_memWf, schedEach_memWf,
    shapeAtEnd_memWf, sched_memWf]

theorem actTldRead_memWf {p due tile idx w : Nat} {tcol : Bool} {acc : Access} {zero : Bool} {s : State}
    (hs : s.memWf = true) :
    (actTldRead p due tile idx w tcol acc zero s).memWf = true := by
  unfold actTldRead
  grind -ring -linarith [pier_memWf, sched_memWf, checkBench_memWf]

theorem actTileLine_memWf {p tile idx : Nat} {tcol : Bool} {ws : List W36} {s : State} (hs : s.memWf = true) :
    (actTileLine p tile idx tcol ws s).memWf = true := by
  unfold actTileLine
  grind -ring -linarith [modPier_memWf, Pier.ocDrop_memWf, Pier.putTile_memWf]

theorem execTst_memWf {i : Iss} {o : LineOp} {s : State} (hs : s.memWf = true) : KeepsMem (execTst i o s) := by
  unfold execTst
  grind -ring -linarith [keepsMem_next, keepsMem_fault, issue_memWf, pier_memWf, lathe01_memWf, schedEach_memWf, presentEach_memWf]

theorem actTstRead_memWf {p due tile idx w : Nat} {tcol : Bool} {acc : Access} {zero : Bool} {s : State}
    (hs : s.memWf = true) :
    (actTstRead p due tile idx w tcol acc zero s).memWf = true := by
  unfold actTstRead
  grind -ring -linarith [pier_memWf, sched_memWf, checkTile_memWf]

theorem actBenchStore_memWf {p : Nat} {acc : Access} {ws : List W36} {s : State} (hs : s.memWf = true) :
    (actBenchStore p acc ws s).memWf = true := by
  unfold actBenchStore
  grind -ring -linarith [State.putBench_memWf]

theorem execCld_memWf {i : Iss} {o : CldOp} {s : State} (hs : s.memWf = true) : KeepsMem (execCld i o s) := by
  unfold execCld
  grind -ring -linarith [keepsMem_next, keepsMem_fault, Pier.memWf_mk, Pier.bench_wf, Pier.tiles_wf, Pier.imem_wf, issue_memWf,
    pier_memWf, lathe01_memWf, modPier_memWf, checkStore_memWf, shapeAtEnd_memWf]

theorem execMvld_memWf {i : Iss} {mv brow : Nat} {arb : Sel} {s : State} (hs : s.memWf = true) :
    KeepsMem (execMvld i mv brow arb s) := by
  unfold execMvld
  grind -ring -linarith [keepsMem_next, keepsMem_fault, issue_memWf, pier_memWf, sched_memWf, present_memWf]

theorem actMvldRead_memWf {p due mv row : Nat} {s : State} (hs : s.memWf = true) :
    (actMvldRead p due mv row s).memWf = true := by
  unfold actMvldRead
  grind -ring -linarith [sched_memWf, pier_memWf, checkBench_memWf]

theorem actMvSet_memWf {k p mv : Nat} {vals : List Nat} {s : State} (hs : s.memWf = true) :
    (actMvSet k p mv vals s).memWf = true := by
  unfold actMvSet
  grind -ring -linarith [Pier.memWf_mk, Pier.bench_wf, Pier.tiles_wf, Pier.imem_wf, lathe01_memWf, modPier_memWf,
    Pier.cleanStore_memWf]

theorem execTcfg_memWf {i : Iss} {tile : Nat} {fromReg : Bool} {areg : Nat} {shape : Shape} {s : State}
    (hs : s.memWf = true) :
    KeepsMem (execTcfg i tile fromReg areg shape s) := by
  unfold execTcfg
  grind -ring -linarith [keepsMem_next, keepsMem_fault, Pier.memWf_mk, Pier.bench_wf, Pier.tiles_wf, Pier.imem_wf, issue_memWf,
    pier_memWf, modPier_memWf, Pier.ocDrop_memWf, lathe01_memWf]

theorem actTileShape_memWf {p tile : Nat} {sh : Shape} {s : State} (hs : s.memWf = true) :
    (actTileShape p tile sh s).memWf = true := by
  unfold actTileShape
  grind -ring -linarith [Pier.memWf_mk, Pier.bench_wf, Pier.tiles_wf, Pier.imem_wf, modPier_memWf]

theorem nttIssue_memWf {i : Iss} {o : NttOp} {s : State} {eff : Ctx → Nat → Bool → State → State}
    (hs : s.memWf = true) (heff : ∀ c n b x, x.memWf = true → (eff c n b x).memWf = true) :
    KeepsMem (nttIssue i o s eff) := by
  unfold nttIssue
  grind -ring -linarith [keepsMem_next, keepsMem_fault, Pier.memWf_mk, Pier.bench_wf, Pier.tiles_wf, Pier.imem_wf, issue_memWf,
    pier_memWf, lathe01_memWf, State.bump_memWf, chargeFor_memWf, checkStore_memWf, modPier_memWf]

theorem execNtt_memWf {i : Iss} {o : NttOp} {s : State} (hs : s.memWf = true) : KeepsMem (execNtt i o s) := by
  unfold execNtt
  grind -ring -linarith [keepsMem_next, keepsMem_fault, nttIssue_memWf, pier_memWf, schedEach_memWf, checkTile_memWf]

theorem actInttRead_memWf {p tile : Nat} {s : State} (hs : s.memWf = true) : (actInttRead p tile s).memWf = true := by
  unfold actInttRead
  grind -ring -linarith [Pier.memWf_mk, Pier.bench_wf, Pier.tiles_wf, Pier.imem_wf, modPier_memWf, checkTile_memWf]

theorem execIntt_memWf {i : Iss} {o : NttOp} {s : State} (hs : s.memWf = true) : KeepsMem (execIntt i o s) := by
  unfold execIntt
  grind -ring -linarith [keepsMem_next, keepsMem_fault, Pier.memWf_mk, Pier.bench_wf, Pier.tiles_wf, Pier.imem_wf, nttIssue_memWf,
    actInttRead_memWf, modPier_memWf, sched_memWf]

theorem actTileAll_memWf {p tile : Nat} {ws : List Nat} {s : State} (hs : s.memWf = true) :
    (actTileAll p tile ws s).memWf = true := by
  unfold actTileAll
  grind -ring -linarith [modPier_memWf, Pier.putBlock_memWf]

theorem actInttEnd_memWf {k p : Nat} {o : NttOp} {px : Nat} {zero : Bool} {s : State} (hs : s.memWf = true) :
    (actInttEnd k p o px zero s).memWf = true := by
  unfold actInttEnd
  grind -ring -linarith [Pier.memWf_mk, Pier.bench_wf, Pier.tiles_wf, Pier.imem_wf, foldl_memWf, pier_memWf, actTileAll_memWf,
    modPier_memWf]

theorem actFtqPresent_memWf {k p due ent : Nat} {s : State} (hs : s.memWf = true) :
    (actFtqPresent k p due ent s).memWf = true := by
  unfold actFtqPresent
  grind -ring -linarith [pier_memWf, raiseHold_memWf]

theorem actFtqPush_memWf {p : Nat} {e : FtqEnt} {s : State} (hs : s.memWf = true) :
    (actFtqPush p e s).memWf = true := by
  unfold actFtqPush
  grind -ring -linarith [Pier.memWf_mk, Pier.bench_wf, Pier.tiles_wf, Pier.imem_wf, modPier_memWf]

theorem actFtqFree_memWf {p ent : Nat} {s : State} (hs : s.memWf = true) : (actFtqFree p ent s).memWf = true := by
  unfold actFtqFree
  grind -ring -linarith [Pier.memWf_mk, Pier.bench_wf, Pier.tiles_wf, Pier.imem_wf, modPier_memWf]

theorem actTileBlock_memWf {p tile cols : Nat} {ws : List Nat} {s : State} (hs : s.memWf = true) :
    (actTileBlock p tile cols ws s).memWf = true := by
  unfold actTileBlock
  grind -ring -linarith [modPier_memWf, Pier.putBlock_memWf]

theorem checkMme_memWf {p : Nat} {acc : Bool} {o : MmeOp} {a b c : Shape} {s : State} (hs : s.memWf = true) :
    (checkMme p acc o a b c s).memWf = true := by
  unfold checkMme
  grind -ring -linarith [checkTile_memWf, pier_memWf, checkStore_memWf]

theorem mme_memWf {i : Iss} {matrix acc : Bool} {o : MmeOp} {s : State} (hs : s.memWf = true) :
    KeepsMem (mme i matrix acc o s) := by
  unfold mme
  grind -ring -linarith [keepsMem_next, keepsMem_fault, Pier.memWf_mk, Pier.bench_wf, Pier.tiles_wf, Pier.imem_wf, issue_memWf,
    pier_memWf, lathe01_memWf, State.bump_memWf, chargeFor_memWf, checkMme_memWf, modPier_memWf, Pier.ocUse_memWf,
    sched_memWf, actFtqPresent_memWf, shapeAtEnd_memWf]

theorem execMmul_memWf {i : Iss} {o : MmeOp} {s : State} (hs : s.memWf = true) : KeepsMem (execMmul i o s) := by
  unfold execMmul
  grind -ring -linarith [keepsMem_next, keepsMem_fault, mme_memWf]

theorem execMmac_memWf {i : Iss} {o : MmeOp} {s : State} (hs : s.memWf = true) : KeepsMem (execMmac i o s) := by
  unfold execMmac
  grind -ring -linarith [keepsMem_next, keepsMem_fault, mme_memWf]

theorem execEmul_memWf {i : Iss} {o : MmeOp} {s : State} (hs : s.memWf = true) : KeepsMem (execEmul i o s) := by
  unfold execEmul
  grind -ring -linarith [keepsMem_next, keepsMem_fault, mme_memWf]

theorem execEmac_memWf {i : Iss} {o : MmeOp} {s : State} (hs : s.memWf = true) : KeepsMem (execEmac i o s) := by
  unfold execEmac
  grind -ring -linarith [keepsMem_next, keepsMem_fault, mme_memWf]

/-! ### Spindle -/

theorem schedPass_memWf {p pass due : Nat} {atEnd : Bool} {slot : Nat} {op : ActOp} {s : State} (hs : s.memWf = true) :
    (schedPass p pass due atEnd slot op s).memWf = true := by
  unfold schedPass
  grind -ring -linarith [Pier.memWf_mk, Pier.bench_wf, Pier.tiles_wf, Pier.imem_wf, modPier_memWf]

theorem checkRow_memWf {p row : Nat} {a : Pass} {s : State} (hs : s.memWf = true) :
    (checkRow p row a s).memWf = true := by
  unfold checkRow
  grind -ring -linarith [checkStore_memWf, checkTile_memWf]

theorem actSpinRow_memWf {k p due pass row : Nat} {s : State} (hs : s.memWf = true) :
    (actSpinRow k p due pass row s).memWf = true := by
  unfold actSpinRow
  grind -ring -linarith [Pier.memWf_mk, Pier.bench_wf, Pier.tiles_wf, Pier.imem_wf, pier_memWf, State.bump2_memWf, modPier_memWf,
    checkRow_memWf, schedPass_memWf]

theorem actTileRow_memWf {p tile row : Nat} {ws : List W36} {s : State} (hs : s.memWf = true) :
    (actTileRow p tile row ws s).memWf = true := by
  unfold actTileRow
  grind -ring -linarith [actTileLine_memWf]

theorem actPassEnd_memWf {p pass : Nat} {s : State} (hs : s.memWf = true) : (actPassEnd p pass s).memWf = true := by
  unfold actPassEnd
  grind -ring -linarith [Pier.memWf_mk, Pier.bench_wf, Pier.tiles_wf, Pier.imem_wf, modPier_memWf]

theorem startPass_memWf {c : Ctx} {a : Pass} {deckFlits : Nat} {s : State} (hs : s.memWf = true) :
    (startPass c a deckFlits s).memWf = true := by
  unfold startPass
  grind -ring -linarith [Pier.memWf_mk, Pier.bench_wf, Pier.tiles_wf, Pier.imem_wf, foldl_memWf, chargeFor_memWf, modPier_memWf,
    State.bump_memWf, schedPass_memWf, present_memWf, actSendqPresent_memWf, sched_memWf, shapeAtEnd_memWf]

theorem execSpin_memWf {i : Iss} {o : SpinOp} {s : State} (hs : s.memWf = true) : KeepsMem (execSpin i o s) := by
  unfold execSpin
  grind -ring -linarith [keepsMem_next, keepsMem_fault, Pier.memWf_mk, Pier.bench_wf, Pier.tiles_wf, Pier.imem_wf, foldl_memWf,
    issue_memWf, pier_memWf, lathe01_memWf, modPier_memWf, startPass_memWf]

theorem execSbld_memWf {i : Iss} {br brow : Nat} {arb : Sel} {bcol : Bool} {lane : Nat} {s : State}
    (hs : s.memWf = true) :
    KeepsMem (execSbld i br brow arb bcol lane s) := by
  unfold execSbld
  grind -ring -linarith [keepsMem_next, keepsMem_fault, issue_memWf, pier_memWf, sched_memWf, present_memWf]

theorem actBrRead_memWf {p due br : Nat} {acc : Access} {s : State} (hs : s.memWf = true) :
    (actBrRead p due br acc s).memWf = true := by
  unfold actBrRead
  grind -ring -linarith [sched_memWf, pier_memWf, checkBench_memWf]

theorem actBrSet_memWf {p br : Nat} {ws : List W36} {s : State} (hs : s.memWf = true) :
    (actBrSet p br ws s).memWf = true := by
  unfold actBrSet
  grind -ring -linarith [Pier.memWf_mk, Pier.bench_wf, Pier.tiles_wf, Pier.imem_wf, modPier_memWf, Pier.cleanStore_memWf]

theorem execSkld_memWf {i : Iss} {seed brow : Nat} {arb : Sel} {s : State} (hs : s.memWf = true) :
    KeepsMem (execSkld i seed brow arb s) := by
  unfold execSkld
  grind -ring -linarith [keepsMem_next, keepsMem_fault, issue_memWf, pier_memWf, sched_memWf, present_memWf]

theorem actSeedRead_memWf {p due seed row : Nat} {s : State} (hs : s.memWf = true) :
    (actSeedRead p due seed row s).memWf = true := by
  unfold actSeedRead
  grind -ring -linarith [foldl_memWf, pier_memWf, sched_memWf, checkBench_memWf]

theorem actSeedSet_memWf {p seed : Nat} {key : Block} {s : State} (hs : s.memWf = true) :
    (actSeedSet p seed key s).memWf = true := by
  unfold actSeedSet
  grind -ring -linarith [Pier.memWf_mk, Pier.bench_wf, Pier.tiles_wf, Pier.imem_wf, modPier_memWf, Pier.cleanStore_memWf]

theorem execFsse_memWf {i : Iss} {o : FsseOp} {s : State} (hs : s.memWf = true) : KeepsMem (execFsse i o s) := by
  unfold execFsse
  grind -ring -linarith [keepsMem_next, keepsMem_fault, Pier.memWf_mk, Pier.bench_wf, Pier.tiles_wf, Pier.imem_wf, issue_memWf,
    pier_memWf, chargeFor_memWf, present_memWf, schedEach_memWf, sched_memWf, modPier_memWf]

theorem actFsseRead_memWf {p row : Nat} {s : State} (hs : s.memWf = true) : (actFsseRead p row s).memWf = true := by
  unfold actFsseRead
  grind -ring -linarith [Pier.memWf_mk, Pier.bench_wf, Pier.tiles_wf, Pier.imem_wf, modPier_memWf, checkBench_memWf]

theorem actFsseRun_memWf {p due : Nat} {o : FsseOp} {off nt w blocks : Nat} {zero : Bool} {s : State}
    (hs : s.memWf = true) :
    (actFsseRun p due o off nt w blocks zero s).memWf = true := by
  unfold actFsseRun
  grind -ring -linarith [Pier.memWf_mk, Pier.bench_wf, Pier.tiles_wf, Pier.imem_wf, foldl_memWf, pier_memWf, State.bump_memWf,
    modPier_memWf, sched_memWf, State.bump2_memWf]

/-! ### Advance -/

theorem doAct_memWf {k p : Nat} {a : Act} {s : State} (hs : s.memWf = true) : (doAct k p a s).memWf = true := by
  unfold doAct
  grind -ring -linarith [present_memWf, actTldRead_memWf, modPier_memWf, Pier.ocUse_memWf, actTileShape_memWf, actTileLine_memWf,
    actTstRead_memWf, actBenchStore_memWf, actMvldRead_memWf, actMvSet_memWf, actFtqPresent_memWf, actFtqPush_memWf,
    actFtqFree_memWf, actTileBlock_memWf, actTileAll_memWf, actInttRead_memWf, actInttEnd_memWf, sched_memWf,
    pier_memWf, checkBench_memWf, State.modSeq_memWf, actBrRead_memWf, actBrSet_memWf, actSeedRead_memWf,
    actSeedSet_memWf, actSpinRow_memWf, actTileRow_memWf, actPassEnd_memWf, actFsseRead_memWf, actFsseRun_memWf,
    actDsendRead_memWf, actSendqPresent_memWf, actSendqEnter_memWf]

theorem runActs_memWf {k p : Nat} {pick : Act → Bool} {s : State} (hs : s.memWf = true) :
    (runActs k p pick s).memWf = true := by
  unfold runActs
  grind -ring -linarith [Pier.memWf_mk, Pier.bench_wf, Pier.tiles_wf, Pier.imem_wf, foldl_memWf, pier_memWf, doAct_memWf,
    modPier_memWf]

theorem windowEnd_memWf {k : Nat} {s : State} (hs : s.memWf = true) : (windowEnd k s).memWf = true := by
  unfold windowEnd
  grind -ring -linarith [foldl_memWf, setReg_memWf, State.modSpan_memWf, stopSpan_memWf, raise_memWf]

theorem execTokenWindowEnd_memWf {k : Nat} {s : State} (hs : s.memWf = true) : KeepsMem (execTokenWindowEnd k s) := by
  unfold execTokenWindowEnd
  grind -ring -linarith [keepsMem_next, keepsMem_fault, windowEnd_memWf]

theorem meterFc_memWf {k : Nat} {s : State} (hs : s.memWf = true) : (meterFc k s).memWf = true := by
  unfold meterFc
  grind -ring -linarith [State.modSpan_memWf, windowEnd_memWf]

theorem foundErr_memWf {k st p : Nat} {e : EngErr} {s : State} (hs : s.memWf = true) :
    (foundErr k st p e s).memWf = true := by
  unfold foundErr
  grind -ring -linarith [replayFault_memWf, State.bump_memWf]

theorem findErrors_memWf {k : Nat} {s : State} (hs : s.memWf = true) : (findErrors k s).memWf = true := by
  unfold findErrors
  grind -ring -linarith [Pier.memWf_mk, Pier.bench_wf, Pier.tiles_wf, Pier.imem_wf, foldl_memWf, pier_memWf, foundErr_memWf,
    modPier_memWf]

theorem execSpanFreeze_memWf {k : Nat} {s : State} (hs : s.memWf = true) : KeepsMem (execSpanFreeze k s) := by
  unfold execSpanFreeze
  grind -ring -linarith [keepsMem_next, keepsMem_fault, State.modSpan_memWf]

theorem execSpanThaw_memWf {k : Nat} {s : State} (hs : s.memWf = true) : KeepsMem (execSpanThaw k s) := by
  unfold execSpanThaw
  grind -ring -linarith [keepsMem_next, keepsMem_fault, State.modSpan_memWf]

theorem storeDue_memWf {p : Nat} {s : State} (hs : s.memWf = true) : (storeDue p s).memWf = true := by
  unfold storeDue
  grind -ring -linarith [Pier.memWf_mk, Pier.bench_wf, Pier.tiles_wf, Pier.imem_wf, foldl_memWf, pier_memWf, State.putBench_memWf,
    modPier_memWf]

theorem endFc_memWf {k : Nat} {s : State} (hs : s.memWf = true) : (endFc k s).memWf = true := by
  unfold endFc
  grind -ring -linarith [foldl_memWf, storeDue_memWf, runActs_memWf]

theorem headPass_memWf {k p f : Nat} {s : State} (hs : s.memWf = true) : (headPass k p f s).memWf = true := by
  unfold headPass
  grind -ring -linarith [pier_memWf, runActs_memWf]

theorem frozenFc_memWf {k : Nat} {s : State} (hs : s.memWf = true) : (frozenFc k s).memWf = true := by
  unfold frozenFc
  grind -ring -linarith [foldl_memWf, State.bump_memWf, headPass_memWf, injectFlit_memWf]

theorem unfrozenFc_memWf {k : Nat} {s : State} (hs : s.memWf = true) : (unfrozenFc k s).memWf = true := by
  unfold unfrozenFc
  grind -ring -linarith [foldl_memWf, State.modSpan_memWf, pier_memWf, State.bump_memWf, runActs_memWf, injectFlit_memWf]

theorem advanceSpan_memWf {k : Nat} {s : State} (hs : s.memWf = true) : (advanceSpan k s).memWf = true := by
  unfold advanceSpan
  grind -ring -linarith [countHolds_memWf, endFc_memWf, meterFc_memWf, applyStop_memWf, State.modSpan_memWf, frozenFc_memWf,
    unfrozenFc_memWf]

theorem execWaittTarget_memWf {p : Nat} {s : State} (hs : s.memWf = true) : KeepsMem (execWaittTarget p s) := by
  unfold execWaittTarget
  grind -ring -linarith [keepsMem_next, keepsMem_fault, endHolds_memWf]

theorem execFtqOverflow_memWf {p : Nat} {s : State} (hs : s.memWf = true) :
    KeepsMem (execFtqOverflow p s) := by
  unfold execFtqOverflow
  refine ite_keepsMem (keepsMem_fault _) ?_
  split
  · exact (keepsMem_next _).2 hs
  extract_lets x mine room push s1
  have h1 : s1.memWf = true := by
    unfold s1
    clear_value push
    cases push
    · exact hs
    · exact ite_memWf (doAct_memWf (modPier_memWf _ _ _ hs fun x hx => hx)) hs
  exact ite_keepsMem ((keepsMem_next _).2 hs) ((keepsMem_next _).2 (lathe01_memWf (endHolds_memWf h1)))

theorem execSendqOverflow_memWf {p : Nat} {s : State} (hs : s.memWf = true) : KeepsMem (execSendqOverflow p s) := by
  unfold execSendqOverflow
  grind -ring -linarith [keepsMem_next, keepsMem_fault, pier_memWf, stopSpan_memWf, raise_memWf, endHolds_memWf]

theorem execFlitReplay_memWf {link channel replays : Nat} {spans : List Nat} {s : State} (hs : s.memWf = true) :
    KeepsMem (execFlitReplay link channel replays spans s) := by
  unfold execFlitReplay
  grind -ring -linarith [keepsMem_next, keepsMem_fault, State.memWf_mk, State.mem_wf, State.piers_wf, foldl_memWf, State.bump_memWf,
    State.modSpan_memWf, raise_memWf]

theorem execFlitDelivered_memWf {link channel : Nat} {s : State} (hs : s.memWf = true) :
    KeepsMem (execFlitDelivered link channel s) := by
  unfold execFlitDelivered
  grind -ring -linarith [keepsMem_next, keepsMem_fault, State.memWf_mk, State.mem_wf, State.piers_wf, foldl_memWf, endHolds_memWf]

theorem execImemWrite_memWf {p : Nat} {staged : Option (Nat × Nat × Nat)} {data : Nat} {s : State}
    (hs : s.memWf = true) :
    KeepsMem (execImemWrite p staged data s) := by
  unfold execImemWrite
  grind -ring -linarith [keepsMem_next, keepsMem_fault, Pier.memWf_mk, Pier.bench_wf, Pier.tiles_wf, Pier.imem_wf, foldl_memWf,
    raise_memWf, setReg_memWf, pier_memWf, modPier_memWf, mputs_wf]

theorem execSwapArm_memWf {p value : Nat} {s : State} (hs : s.memWf = true) : KeepsMem (execSwapArm p value s) := by
  unfold execSwapArm
  grind -ring -linarith [keepsMem_next, keepsMem_fault, raise_memWf, State.modSeq_memWf]

/-! ### Store -/

theorem allocObj_memWf {bs : List Byte} {s : State} (hs : s.memWf = true) :
    ∀ y ∈ allocObj bs s, y.2.memWf = true := by
  have h : allocObj = allocObj := rfl
  conv at h => rhs; delta allocObj
  rw [h]
  dsimp -zeta only
  cases s.objPlace bs.length with
  | none => simp
  | some b => exact forall_mem_some.2 (foldl_memWf (fun s q hs => wr_memWf _ _ _ hs) hs)

theorem storeLost_memWf {store pier id : Nat} {s : State} (hs : s.memWf = true) :
    (storeLost store pier id s).memWf = true := by
  unfold storeLost
  grind -ring -linarith [addRepair_memWf, raise_memWf]

theorem zeroObj_memWf {o : GObj} {s : State} (hs : s.memWf = true) : (zeroObj o s).memWf = true := by
  unfold zeroObj
  grind -ring -linarith [foldl_memWf, zeroMem_memWf]

theorem freeObjs_memWf {ids : List Nat} {s : State} (hs : s.memWf = true) : (freeObjs ids s).memWf = true := by
  unfold freeObjs
  grind -ring -linarith [State.memWf_mk, State.mem_wf, State.piers_wf, foldl_memWf, zeroObj_memWf]

theorem writeRange_memWf {w off : Nat} {bs : List Byte} {s : State} (hs : s.memWf = true) :
    (writeRange w off bs s).memWf = true := by
  unfold writeRange
  grind -ring -linarith [send_memWf, wr_memWf]

/-! ### Lie -/

theorem State.setLie_memWf {s : State} {l : Lie} (hs : s.memWf = true) : (s.setLie l).memWf = true := by
  unfold State.setLie
  grind -ring -linarith [State.memWf_mk, State.mem_wf, State.piers_wf]

theorem lieGoCmd_memWf {p : Nat} {s : State} (hs : s.memWf = true) : (lieGoCmd p s).memWf = true := by
  unfold lieGoCmd
  grind -ring -linarith [setReg_memWf, State.setLie_memWf]

theorem lieEnd_memWf {p code t : Nat} {s : State} (hs : s.memWf = true) : (lieEnd p code t s).memWf = true := by
  unfold lieEnd
  grind -ring -linarith [setReg_memWf]

theorem lieAbortCmd_memWf {p : Nat} {s : State} (hs : s.memWf = true) : (lieAbortCmd p s).memWf = true := by
  unfold lieAbortCmd
  grind -ring -linarith [setReg_memWf, State.setLie_memWf, lieEnd_memWf]

theorem execGo_memWf {p : Nat} {s : State} (hs : s.memWf = true) : KeepsMem (execGo p s) := by
  unfold execGo
  grind -ring -linarith [keepsMem_next, keepsMem_fault, lieGoCmd_memWf]

theorem execAbort_memWf {p : Nat} {s : State} (hs : s.memWf = true) : KeepsMem (execAbort p s) := by
  unfold execAbort
  grind -ring -linarith [keepsMem_next, keepsMem_fault, lieAbortCmd_memWf]

theorem lieOwn_memWf {n : Nat} {s : State} (hs : s.memWf = true) : (lieOwn n s).memWf = true := by
  unfold lieOwn
  grind -ring -linarith [State.setLie_memWf]

theorem lieStart_memWf {o : LieOp} {rest : List LieOp} {s : State} (hs : s.memWf = true) :
    (lieStart o rest s).memWf = true := by
  unfold lieStart
  grind -ring -linarith [State.setLie_memWf, lieEnd_memWf, State.draw_memWf]

theorem execLieOpStart_memWf {s : State} (hs : s.memWf = true) : KeepsMem (execLieOpStart s) := by
  unfold execLieOpStart
  grind -ring -linarith [keepsMem_next, keepsMem_fault, lieStart_memWf]

theorem execLieOpDone_memWf {mismatch : Bool} {s : State} (hs : s.memWf = true) :
    KeepsMem (execLieOpDone mismatch s) := by
  unfold execLieOpDone
  grind -ring -linarith [keepsMem_next, keepsMem_fault, State.bump_memWf, State.setLie_memWf, lieEnd_memWf, raise_memWf, wr_memWf]

/-! ### Gate -/

theorem startResume_memWf {s : State} (hs : s.memWf = true) : (startResume s).memWf = true := by
  unfold startResume
  grind -ring -linarith [State.memWf_mk, State.mem_wf, State.piers_wf]

theorem holdFrame_memWf {k n : Nat} {c : Instr} {s : State} (hs : s.memWf = true) :
    (holdFrame k n c s).memWf = true := by
  unfold holdFrame
  grind -ring -linarith [State.memWf_mk, State.mem_wf, State.piers_wf, State.bump_memWf, send_memWf, startResume_memWf]

theorem onPort_memWf {k n : Nat} {c : Instr} {s : State} {run : State → State} (hs : s.memWf = true)
    (hrun : ∀ x, x.memWf = true → (run x).memWf = true) :
    KeepsMem (onPort k n c s run) := by
  unfold onPort
  grind -ring -linarith [keepsMem_next, keepsMem_fault, holdFrame_memWf, State.bump_memWf]

theorem onPeer_memWf {net n : Nat} {c : Instr} {s : State} {run : State → State} (hs : s.memWf = true)
    (hrun : ∀ x, x.memWf = true → (run x).memWf = true) :
    KeepsMem (onPeer net n c s run) := by
  unfold onPeer
  grind -ring -linarith [keepsMem_next, keepsMem_fault, holdFrame_memWf]

theorem sendVerb_memWf {p tag status : Nat} {detail : List Byte} {s : State} (hs : s.memWf = true) :
    (sendVerb p tag status detail s).memWf = true := by
  unfold sendVerb
  grind -ring -linarith [send_memWf, State.modSlot_memWf, State.bump_memWf]

theorem respond_memWf {p tag status : Nat} {detail : List Byte} {s : State} (hs : s.memWf = true) :
    (respond p tag status detail s).memWf = true := by
  unfold respond
  grind -ring -linarith [sendVerb_memWf, State.modSlot_memWf]

theorem respondFault_memWf {p tag code : Nat} {s : State} (hs : s.memWf = true) :
    (respondFault p tag code s).memWf = true := by
  unfold respondFault
  grind -ring -linarith [respond_memWf, raise_memWf]

theorem onVerb_memWf {r : VerbReq} {verb n : Nat} {wide : Bool} {c : Instr} {s : State} {run : State → State}
    (hs : s.memWf = true) (hrun : ∀ x, x.memWf = true → (run x).memWf = true) :
    KeepsMem (onVerb r verb n wide c s run) := by
  unfold onVerb
  grind -ring -linarith [keepsMem_next, keepsMem_fault, State.memWf_mk, State.mem_wf, State.piers_wf, startResume_memWf, onPort_memWf,
    State.modSlot_memWf, sendVerb_memWf]

theorem execUnknownVerb_memWf {r : VerbReq} {verb : Nat} {s : State} (hs : s.memWf = true) :
    KeepsMem (execUnknownVerb r verb s) := by
  unfold execUnknownVerb
  grind -ring -linarith [keepsMem_next, keepsMem_fault, onVerb_memWf, respond_memWf]

/-! ### Submission -/

theorem addBundle_memWf {se : Nat} {e : MatEnt} {items : List Byte} {s : State} (hs : s.memWf = true) :
    (addBundle se e items s).memWf = true := by
  have h : addBundle = addBundle := rfl
  conv at h => rhs; delta addBundle
  rw [h]
  dsimp -zeta only
  cases ha : allocObj items s with
  | none => exact hs
  | some y => exact State.modSession_memWf (allocObj_memWf hs y ha)

theorem acceptEnt_memWf {g : GroupEnt} {s : State} (hs : s.memWf = true) : (acceptEnt g s).memWf = true := by
  unfold acceptEnt
  grind -ring -linarith [State.memWf_mk, State.mem_wf, State.piers_wf, State.modSlot_memWf, complete_memWf, State.bump_memWf,
    State.modRequest_memWf, State.modSession_memWf, State.modImage_memWf, admitRequest_memWf, State.bump2_memWf,
    addBundle_memWf]

theorem scanOne_memWf {p : Nat} {s : State} (hs : s.memWf = true) : (scanOne p s).memWf = true := by
  unfold scanOne
  grind -ring -linarith [State.memWf_mk, State.mem_wf, State.piers_wf, raise_memWf, State.modSlot_memWf, State.bump_memWf]

theorem credit_memWf {p : Nat} {s : State} (hs : s.memWf = true) : (credit p s).memWf = true := by
  unfold credit
  grind -ring -linarith [wr_memWf, send_memWf, State.modSlot_memWf]

theorem settleGroup_memWf {n : Nat} {s : State} (hs : s.memWf = true) : (settleGroup n s).memWf = true := by
  unfold settleGroup
  grind -ring -linarith [State.memWf_mk, State.mem_wf, State.piers_wf, foldl_memWf, State.modSlot_memWf, acceptEnt_memWf]

theorem execWindowScan_memWf {s : State} (hs : s.memWf = true) : KeepsMem (execWindowScan s) := by
  unfold execWindowScan
  grind -ring -linarith [keepsMem_next, keepsMem_fault, foldl_memWf, writeCompletions_memWf, scanOne_memWf, settleGroup_memWf,
    send_memWf, credit_memWf]

theorem execMirrorAck_memWf {n : Nat} {s : State} (hs : s.memWf = true) : KeepsMem (execMirrorAck n s) := by
  unfold execMirrorAck
  grind -ring -linarith [keepsMem_next, keepsMem_fault, onPeer_memWf, settleGroup_memWf]

theorem execCommitAck_memWf {se q : Nat} {s : State} (hs : s.memWf = true) : KeepsMem (execCommitAck se q s) := by
  unfold execCommitAck
  grind -ring -linarith [keepsMem_next, keepsMem_fault, onPeer_memWf, commitAcked_memWf]

theorem execMirrorRecords_memWf {recs : List MirrorRec} {s : State} (hs : s.memWf = true) :
    KeepsMem (execMirrorRecords recs s) := by
  unfold execMirrorRecords
  grind -ring -linarith [keepsMem_next, keepsMem_fault, State.memWf_mk, State.mem_wf, State.piers_wf, onPeer_memWf, send_memWf]

/-! ### Exchange -/

theorem State.putStream_memWf {s : State} {x : Machine.Stream} (hs : s.memWf = true) :
    (s.putStream x).memWf = true := by
  unfold State.putStream
  grind -ring -linarith [State.memWf_mk, State.mem_wf, State.piers_wf]

theorem transmit_memWf {f : TxFrag} {s : State} (hs : s.memWf = true) : (transmit f s).2.memWf = true := by
  unfold transmit
  grind -ring -linarith [State.putStream_memWf, send_memWf, State.bump2_memWf]

theorem sendMessage_memWf {se rq step type peer serial timeoutMs : Nat} {bs : List Byte} {s : State}
    (hs : s.memWf = true) :
    (sendMessage se rq step type peer serial timeoutMs bs s).memWf = true := by
  unfold sendMessage
  grind -ring -linarith [State.memWf_mk, State.mem_wf, State.piers_wf, foldl_memWf, State.fresh_memWf, transmit_memWf]

theorem spendStep_memWf {im : Image} {r : Request} {h : HxpSlot} {s : State} (hs : s.memWf = true) :
    (spendStep im r h s).memWf = true := by
  unfold spendStep
  grind -ring -linarith [spendItems_memWf]

theorem putMember_memWf {sh : Shard} {m : Nat} {h : Hdr} {stride : Nat} {data : List Byte} {s : State}
    (hs : s.memWf = true) :
    (putMember sh m h stride data s).memWf = true := by
  unfold putMember
  grind -ring -linarith [wr_memWf]

theorem recvDone_memWf {se rq step code fcs : Nat} {s : State} (hs : s.memWf = true) :
    (recvDone se rq step code fcs s).memWf = true := by
  unfold recvDone
  grind -ring -linarith [State.memWf_mk, State.mem_wf, State.piers_wf]

theorem deliverPoison_memWf {k m : Nat} {im : Image} {h : HxpSlot} {se rq code : Nat} {s : State}
    (hs : s.memWf = true) :
    (deliverPoison k m im h se rq code s).memWf = true := by
  unfold deliverPoison
  grind -ring -linarith [putMember_memWf, recvDone_memWf, modMember_memWf]

theorem sendNotice_memWf {se rq : Nat} {t : HxpSlot} {code : Nat} {s : State} (hs : s.memWf = true) :
    (sendNotice se rq t code s).memWf = true := by
  unfold sendNotice
  grind -ring -linarith [State.bump_memWf, sendMessage_memWf]

theorem journalOpening_memWf {im : Image} {r : Request} {t : HxpSlot} {bs : List Byte} {s : State}
    (hs : s.memWf = true) :
    (journalOpening im r t bs s).memWf = true := by
  unfold journalOpening
  grind -ring -linarith [State.memWf_mk, State.mem_wf, State.piers_wf, send_memWf, spendStep_memWf]

theorem recvRecord_memWf {k m : Nat} {r : Request} {x : RecvRes} {s : State} (hs : s.memWf = true) :
    (recvRecord k m r x s).memWf = true := by
  unfold recvRecord
  grind -ring -linarith [raise_memWf, modMember_memWf]

theorem startTimer_memWf {se rq : Nat} {h : HxpSlot} {from_ : Nat} {s : State} (hs : s.memWf = true) :
    (startTimer se rq h from_ s).memWf = true := by
  unfold startTimer
  grind -ring -linarith [State.memWf_mk, State.mem_wf, State.piers_wf]

theorem sendFires_memWf {im : Image} {r : Request} {t : HxpSlot} {s : State} (hs : s.memWf = true) :
    (sendFires im r t s).memWf = true := by
  unfold sendFires
  grind -ring -linarith [State.memWf_mk, State.mem_wf, State.piers_wf, startTimer_memWf]

theorem tryRecv_memWf {k : Nat} {m : Nat} {im : Image} {h : HxpSlot} {r : Request} {s : State} (hs : s.memWf = true) :
    (tryRecv k m im h r s).memWf = true := by
  unfold tryRecv
  extract_lets ready notice other clash
  refine ite_memWf hs (ite_memWf (deliverPoison_memWf hs) (ite_memWf (spendStep_memWf (raise_memWf _ _
    (deliverPoison_memWf hs)))
    (ite_memWf (deliverPoison_memWf hs) (ite_memWf hs ?_))))
  split
  · extract_lets x bad dv s1
    clear_value dv
    cases dv with
    | none => exact raise_memWf _ _ (deliverPoison_memWf hs)
    | some v =>
      have h1 : s1.memWf = true := recvRecord_memWf (putMember_memWf hs)
      exact ite_memWf (ite_memWf (sendNotice_memWf (sendFires_memWf (recvDone_memWf (ite_memWf (State.modRequest_memWf
        h1) h1)))) (sendMessage_memWf (journalOpening_memWf (sendFires_memWf (recvDone_memWf (ite_memWf
          (State.modRequest_memWf h1) h1)))))) (recvDone_memWf (ite_memWf (State.modRequest_memWf h1) h1))
  · exact hs

theorem tryRecvs_memWf {se rq : Nat} {s : State} (hs : s.memWf = true) : (tryRecvs se rq s).memWf = true := by
  unfold tryRecvs
  grind -ring -linarith [foldl_memWf, tryRecv_memWf]

theorem poisonOwn_memWf {m : Nat} {im : Image} {t : HxpSlot} {code : Nat} {s : State} (hs : s.memWf = true) :
    (poisonOwn m im t code s).memWf = true := by
  unfold poisonOwn
  grind -ring -linarith [putMember_memWf]

theorem sendPayload_memWf {im : Image} {r : Request} {t : HxpSlot} {payload : List Byte} {s : State}
    (hs : s.memWf = true) :
    (sendPayload im r t payload s).memWf = true := by
  unfold sendPayload
  grind -ring -linarith [sendMessage_memWf, journalOpening_memWf]

theorem sendMember_memWf {k m : Nat} {im : Image} {t : HxpSlot} {r : Request} {s : State} (hs : s.memWf = true) :
    (sendMember k m im t r s).memWf = true := by
  unfold sendMember
  grind -ring -linarith [sendFires_memWf, poisonOwn_memWf, raise_memWf, modMember_memWf, sendNotice_memWf, deliverPoison_memWf,
    sendPayload_memWf]

theorem fireSlot_memWf {k slot : Nat} {s : State} (hs : s.memWf = true) : (fireSlot k slot s).memWf = true := by
  unfold fireSlot
  grind -ring -linarith [foldl_memWf, tryRecvs_memWf, sendMember_memWf]

theorem execTimedActionFire_memWf {p id : Nat} {s : State} (hs : s.memWf = true) :
    KeepsMem (execTimedActionFire p id s) := by
  unfold execTimedActionFire
  grind -ring -linarith [keepsMem_next, keepsMem_fault, Pier.memWf_mk, Pier.bench_wf, Pier.tiles_wf, Pier.imem_wf, pier_memWf,
    modPier_memWf, holdEffect_memWf, State.modSpan_memWf, fireSlot_memWf, tryMove_memWf, State.setXfer_memWf]

theorem ackFrags_memWf {se q base bits : Nat} {s : State} (hs : s.memWf = true) :
    (ackFrags se q base bits s).memWf = true := by
  unfold ackFrags
  grind -ring -linarith [State.memWf_mk, State.mem_wf, State.piers_wf]

theorem noteSeq_memWf {m : HxpMsg} {s : State} (hs : s.memWf = true) : ∀ y ∈ noteSeq m s, y.memWf = true := by
  unfold noteSeq
  grind -ring -linarith [State.putStream_memWf]

theorem sendAck_memWf {se q : Nat} {s : State} (hs : s.memWf = true) : (sendAck se q s).memWf = true := by
  unfold sendAck
  grind -ring -linarith [send_memWf]

theorem putArrival_memWf {m : HxpMsg} {s : State} (hs : s.memWf = true) : (putArrival m s).memWf = true := by
  unfold putArrival
  grind -ring -linarith [wr_memWf]

theorem answerAgain_memWf {m : HxpMsg} {s : State} (hs : s.memWf = true) :
    (answerAgain m s).memWf = true := by
  unfold answerAgain
  split
  · split
    · extract_lets waits
      refine ite_memWf hs ?_
      split
      · extract_lets x
        split
        · exact sendNotice_memWf hs
        · exact sendPayload_memWf hs
      · exact hs
    · exact hs
  · exact hs

theorem storeFrag_memWf {notice : Bool} {m : HxpMsg} {s : State} (hs : s.memWf = true) :
    (storeFrag notice m s).memWf = true := by
  unfold storeFrag
  grind -ring -linarith [State.memWf_mk, State.mem_wf, State.piers_wf, sendAck_memWf, putArrival_memWf, answerAgain_memWf,
    State.bump_memWf, raise_memWf, deliverPoison_memWf]

theorem receive_memWf {m : HxpMsg} {s : State} (hs : s.memWf = true) : (receive m s).memWf = true := by
  unfold receive
  grind -ring -linarith [State.bump_memWf, noteSeq_memWf, ackFrags_memWf, storeFrag_memWf, State.bump2_memWf, tryRecvs_memWf]

theorem receiveNotice_memWf {m : HxpMsg} {s : State} (hs : s.memWf = true) : (receiveNotice m s).memWf = true := by
  unfold receiveNotice
  grind -ring -linarith [State.bump_memWf, noteSeq_memWf, ackFrags_memWf, storeFrag_memWf, State.bump2_memWf, deliverPoison_memWf]

theorem receiveAck_memWf {m : HxpMsg} {s : State} (hs : s.memWf = true) : (receiveAck m s).memWf = true := by
  unfold receiveAck
  grind -ring -linarith [State.bump_memWf, noteSeq_memWf, State.bump2_memWf, ackFrags_memWf]

theorem execDecryptShare_memWf {m : HxpMsg} {s : State} (hs : s.memWf = true) : KeepsMem (execDecryptShare m s) := by
  unfold execDecryptShare
  grind -ring -linarith [keepsMem_next, keepsMem_fault, onPort_memWf, receive_memWf]

theorem execMaskedInput_memWf {m : HxpMsg} {s : State} (hs : s.memWf = true) : KeepsMem (execMaskedInput m s) := by
  unfold execMaskedInput
  grind -ring -linarith [keepsMem_next, keepsMem_fault, onPort_memWf, receive_memWf]

theorem execOpenMsg_memWf {m : HxpMsg} {s : State} (hs : s.memWf = true) : KeepsMem (execOpenMsg m s) := by
  unfold execOpenMsg
  grind -ring -linarith [keepsMem_next, keepsMem_fault, onPort_memWf, receive_memWf]

theorem execReturnCt_memWf {m : HxpMsg} {s : State} (hs : s.memWf = true) : KeepsMem (execReturnCt m s) := by
  unfold execReturnCt
  grind -ring -linarith [keepsMem_next, keepsMem_fault, onPort_memWf, receive_memWf]

theorem execPoisonNotice_memWf {m : HxpMsg} {s : State} (hs : s.memWf = true) : KeepsMem (execPoisonNotice m s) := by
  unfold execPoisonNotice
  grind -ring -linarith [keepsMem_next, keepsMem_fault, onPort_memWf, receiveNotice_memWf]

theorem execAck_memWf {m : HxpMsg} {s : State} (hs : s.memWf = true) : KeepsMem (execAck m s) := by
  unfold execAck
  grind -ring -linarith [keepsMem_next, keepsMem_fault, onPort_memWf, receiveAck_memWf]

theorem execHxpInvalidType_memWf {m : HxpMsg} {s : State} (hs : s.memWf = true) :
    KeepsMem (execHxpInvalidType m s) := by
  unfold execHxpInvalidType
  grind -ring -linarith [keepsMem_next, keepsMem_fault, onPort_memWf, State.bump_memWf]

theorem execHxpRetransmit_memWf {id : Nat} {s : State} (hs : s.memWf = true) : KeepsMem (execHxpRetransmit id s) := by
  unfold execHxpRetransmit
  grind -ring -linarith [keepsMem_next, keepsMem_fault, State.memWf_mk, State.mem_wf, State.piers_wf, transmit_memWf,
    State.bump_memWf]

theorem execHxpTimeout_memWf {se rq step : Nat} {s : State} (hs : s.memWf = true) :
    KeepsMem (execHxpTimeout se rq step s) := by
  unfold execHxpTimeout
  grind -ring -linarith [keepsMem_next, keepsMem_fault, State.memWf_mk, State.mem_wf, State.piers_wf, raise_memWf, State.bump_memWf,
    deliverPoison_memWf]

theorem launchRecvs_memWf {k : Nat} {s : State} (hs : s.memWf = true) : (launchRecvs k s).memWf = true := by
  unfold launchRecvs
  grind -ring -linarith [foldl_memWf, startTimer_memWf, tryRecvs_memWf]

/-! ### Verify -/

theorem Pier.loadBank_memWf {x : Pier} {b : Nat} {g : StageProg} (hx : x.memWf = true) :
    (Pier.loadBank x b g).memWf = true :=
  Pier.memWf_mk (Pier.bench_wf hx) (Pier.tiles_wf hx)
    (mputs_wf _ _ (mputs_wf _ _ (mputs_wf _ _ (mputs_wf _ _ (filter_wf _ _ (Pier.imem_wf hx)) _) _) _) _)

/-! ### Windows -/

theorem State.setWin_memWf {s : State} {w : Nat} {e : Window} (hs : s.memWf = true) : (s.setWin w e).memWf = true := by
  unfold State.setWin
  grind -ring -linarith [State.memWf_mk, State.mem_wf, State.piers_wf]

theorem windowOpen_memWf {p : Nat} {s : State} (hs : s.memWf = true) : (windowOpen p s).2.memWf = true := by
  unfold windowOpen
  grind -ring -linarith [State.setWin_memWf]

theorem windowClose_memWf {p : Nat} {s : State} (hs : s.memWf = true) : (windowClose p s).2.memWf = true := by
  unfold windowClose
  grind -ring -linarith [State.setWin_memWf]

theorem windowDrain_memWf {p : Nat} {s : State} (hs : s.memWf = true) : (windowDrain p s).2.memWf = true := by
  unfold windowDrain
  grind -ring -linarith [State.setWin_memWf]

theorem windowDrained_memWf {w : Nat} {s : State} (hs : s.memWf = true) : (windowDrained w s).memWf = true := by
  unfold windowDrained
  grind -ring -linarith [State.setWin_memWf]

theorem setWinResult_memWf {p : Nat} {r : Nat × State} (hr : r.2.memWf = true) : (setWinResult p r).memWf = true := by
  unfold setWinResult
  grind -ring -linarith [setReg_memWf]

theorem execWindowOpen_memWf {p : Nat} {s : State} (hs : s.memWf = true) : KeepsMem (execWindowOpen p s) := by
  unfold execWindowOpen
  grind -ring -linarith [keepsMem_next, keepsMem_fault, setWinResult_memWf, windowOpen_memWf]

theorem execWindowClose_memWf {p : Nat} {s : State} (hs : s.memWf = true) : KeepsMem (execWindowClose p s) := by
  unfold execWindowClose
  grind -ring -linarith [keepsMem_next, keepsMem_fault, setWinResult_memWf, windowClose_memWf]

theorem execWindowCloseDrain_memWf {p : Nat} {s : State} (hs : s.memWf = true) : KeepsMem
    (execWindowCloseDrain p s) := by
  unfold execWindowCloseDrain
  grind -ring -linarith [keepsMem_next, keepsMem_fault, setWinResult_memWf, windowDrain_memWf]

theorem eraseSession_memWf {se : Nat} {s : State} (hs : s.memWf = true) : (eraseSession se s).memWf = true := by
  unfold eraseSession
  grind -ring -linarith [State.memWf_mk, State.mem_wf, State.piers_wf, freeObjs_memWf]

theorem closeSession_memWf {se tag : Nat} {s : State} (hs : s.memWf = true) : (closeSession se tag s).memWf = true := by
  unfold closeSession
  grind -ring -linarith [State.modSession_memWf, enqueue_memWf]

theorem freeSlot_memWf {p : Nat} {s : State} (hs : s.memWf = true) : (freeSlot p s).memWf = true := by
  unfold freeSlot
  grind -ring -linarith [State.memWf_mk, State.mem_wf, State.piers_wf]

theorem loseSlot_memWf {p : Nat} {s : State} (hs : s.memWf = true) : (loseSlot p s).memWf = true := by
  unfold loseSlot
  grind -ring -linarith [State.memWf_mk, State.mem_wf, State.piers_wf, foldl_memWf, State.modImage_memWf, State.modSlot_memWf,
    writeCompletions_memWf, closeSession_memWf, freeSlot_memWf]

theorem execSessionCloseDone_memWf {se : Nat} {s : State} (hs : s.memWf = true) :
    KeepsMem (execSessionCloseDone se s) := by
  unfold execSessionCloseDone
  grind -ring -linarith [keepsMem_next, keepsMem_fault, State.memWf_mk, State.mem_wf, State.piers_wf, eraseSession_memWf,
    respond_memWf, freeSlot_memWf]

theorem execAttachmentLoss_memWf {p : Nat} {s : State} (hs : s.memWf = true) : KeepsMem (execAttachmentLoss p s) := by
  unfold execAttachmentLoss
  grind -ring -linarith [keepsMem_next, keepsMem_fault, loseSlot_memWf]

theorem execDetach_memWf {p ctr : Nat} {ok : Bool} {s : State} (hs : s.memWf = true) :
    KeepsMem (execDetach p ctr ok s) := by
  unfold execDetach
  grind -ring -linarith [keepsMem_next, keepsMem_fault, onPort_memWf, loseSlot_memWf]

/-! ### LoadImage -/

theorem writeSlice_memWf {p : Nat} {parts : List (Nat × List Byte)} {s : State} (hs : s.memWf = true) :
    (writeSlice p parts s).memWf = true := by
  unfold writeSlice
  grind -ring -linarith [foldl_memWf, wr_memWf, zeroMem_memWf]

theorem allocSpace_memWf {n : Nat} {s : State} (hs : s.memWf = true) :
    ∀ y ∈ allocSpace n s, y.2.memWf = true := by
  have h : allocSpace = allocSpace := rfl
  conv at h => rhs; delta allocSpace
  rw [h]
  dsimp -zeta only
  cases s.objPlace n with
  | none => simp
  | some b => exact forall_mem_some.2 (zeroObj_memWf hs)

theorem objWr_memWf {id y : Nat} {bs : List Byte} {s : State} (hs : s.memWf = true) :
    (objWr id y bs s).memWf = true := by
  unfold objWr
  grind -ring -linarith [foldl_memWf, wr_memWf]

theorem copyCells_memWf {lo hi : Nat} {f : Nat → Nat} {s : State} (hs : s.memWf = true) :
    (copyCells lo hi f s).memWf = true := by
  unfold copyCells
  grind -ring -linarith [State.memWf_mk, State.mem_wf, State.piers_wf, mputAll_wf]

theorem restoreSlice_memWf {p id : Nat} {s : State} (hs : s.memWf = true) : (restoreSlice p id s).memWf = true := by
  unfold restoreSlice
  grind -ring -linarith [State.memWf_mk, State.mem_wf, State.piers_wf, zeroMem_memWf, mputAll_wf]

theorem restoreChecked_memWf {q p id : Nat} {ws : List (Nat × Nat × Nat × Nat × Nat)} {s : State}
    (hs : s.memWf = true) :
    (restoreChecked q p id ws s).2.memWf = true := by
  unfold restoreChecked
  grind -ring -linarith [restoreSlice_memWf, storeLost_memWf]

theorem backupSlice_memWf {p id : Nat} {s : State} (hs : s.memWf = true) : (backupSlice p id s).memWf = true := by
  unfold backupSlice
  grind -ring -linarith [copyCells_memWf, zeroObj_memWf]

theorem writeStores_memWf {im : Image} {l : List (Nat × StageProg)} {s : State} (hs : s.memWf = true) :
    ∀ y ∈ writeStores im l s, y.2.memWf = true := by
  unfold writeStores
  refine foldl_option_memWf (forall_mem_some.2 hs) fun a ha e y hy => ?_
  obtain ⟨x, hx, hy⟩ := Option.mem_bind_iff.1 hy
  obtain ⟨r, hr, rfl⟩ := Option.map_eq_some_iff.1 hy
  have hr := allocSpace_memWf (ha x hx) r hr
  dsimp only
  refine writeSlice_memWf (foldl_memWf (fun s q hs => ?_) hr)
  exact objWr_memWf hs

theorem unloadImage_memWf {h : Nat} {s : State} (hs : s.memWf = true) : (unloadImage h s).memWf = true := by
  unfold unloadImage
  grind -ring -linarith [State.memWf_mk, State.mem_wf, State.piers_wf, foldl_memWf, abortPiers_memWf]

theorem installSpans_memWf {im : Image} {ps : List Placed} {s : State} (hs : s.memWf = true) :
    (installSpans im ps s).memWf = true := by
  unfold installSpans
  grind -ring -linarith [foldl_memWf, setSpan_memWf]

theorem placeImage_memWf {p : Nat} {tag : Nat} {o : LoadOp} {bs : List Byte} {s : State} (hs : s.memWf = true) :
    (placeImage p tag o bs s).memWf = true := by
  unfold placeImage
  extract_lets need
  split
  · exact respond_memWf hs
  split
  · exact respond_memWf hs
  split
  · exact respond_memWf hs
  split
  · extract_lets im0 prog gs pierOf im1 s0
    split
    · exact respond_memWf hs
    · rename_i backing s1 h
      have h0 : s0.memWf = true := hs
      have h1 : s1.memWf = true := writeStores_memWf h0 _ h
      split
      · exact respond_memWf hs
      · extract_lets s2 s3 s4 s5 report s6
        have h3 : s3.memWf = true := installSpans_memWf (State.modImage_memWf h1)
        have h4 : s4.memWf = true := foldl_memWf (fun s e h => modPier_memWf _ _ _ h fun x hx => Pier.loadBank_memWf
          hx) h3
        have h5 : s5.memWf = true := ite_memWf h4 h4
        have h6 : s6.memWf = true := by
          unfold s6
          split
          · exact ite_memWf (writeRange_memWf h5) h5
          · exact h5
        exact respond_memWf h6
  · exact respond_memWf hs

theorem replaceImage_memWf {p tag h : Nat} {o : LoadOp} {bs : List Byte} {s : State} (hs : s.memWf = true) :
    (replaceImage p tag h o bs s).memWf = true := by
  unfold replaceImage
  grind -ring -linarith [State.memWf_mk, State.mem_wf, State.piers_wf, respond_memWf, State.modImage_memWf, enqueue_memWf]

theorem execLoadImage_memWf {r : VerbReq} {o : LoadOp} {s : State} (hs : s.memWf = true) :
    KeepsMem (execLoadImage r o s) := by
  unfold execLoadImage
  grind -ring -linarith [keepsMem_next, keepsMem_fault, onVerb_memWf, respond_memWf, replaceImage_memWf, placeImage_memWf]

theorem execLoadImageReplaceDrained_memWf {h : Nat} {s : State} (hs : s.memWf = true) :
    KeepsMem (execLoadImageReplaceDrained h s) := by
  unfold execLoadImageReplaceDrained
  grind -ring -linarith [keepsMem_next, keepsMem_fault, State.memWf_mk, State.mem_wf, State.piers_wf, unloadImage_memWf,
    respond_memWf, placeImage_memWf]

theorem execExportWeights_memWf {r : VerbReq} {h : Nat} {places : List (Nat × Nat)} {s : State} (hs : s.memWf = true) :
    KeepsMem (execExportWeights r h places s) := by
  unfold execExportWeights
  grind -ring -linarith [keepsMem_next, keepsMem_fault, State.memWf_mk, State.mem_wf, State.piers_wf, foldl_memWf, onVerb_memWf,
    respond_memWf, storeLost_memWf, State.modSlot_memWf]

theorem exportStep_memWf {w : WaitVerb} {s : State} (hs : s.memWf = true) : (exportStep w s).memWf = true := by
  unfold exportStep
  grind -ring -linarith [State.memWf_mk, State.mem_wf, State.piers_wf, respond_memWf, writeRange_memWf]

theorem exportTick_memWf {s : State} (hs : s.memWf = true) : (exportTick s).memWf = true := by
  unfold exportTick
  grind -ring -linarith [foldl_memWf, exportStep_memWf]

/-! ### Keysets -/

theorem storeKeys_memWf {x : NewSet} {s : State} (hs : s.memWf = true) :
    ∀ y ∈ storeKeys x s, y.2.2.memWf = true := by
  intro y hy
  obtain ⟨a, ha, hy⟩ := Option.bind_eq_some_iff.mp hy
  obtain ⟨r, hr, rfl⟩ := Option.map_eq_some_iff.mp hy
  refine allocSpace_memWf (foldl_option_memWf (forall_mem_some.2 hs) (fun a ha e y hy => ?_) a ha) r hr
  obtain ⟨x, hx, hy⟩ := Option.bind_eq_some_iff.mp hy
  obtain ⟨r, hr, rfl⟩ := Option.map_eq_some_iff.mp hy
  exact allocObj_memWf (ha x hx) r hr

theorem keepKeyset_memWf {p : Nat} {tag : Nat} {x : NewSet} {images : List Nat} {readBackOk : Bool} {s : State}
    (hs : s.memWf = true) :
    (keepKeyset p tag x images readBackOk s).memWf = true := by
  unfold keepKeyset
  dsimp only
  split
  · exact respond_memWf hs
  · split
    · exact respond_memWf hs
    · rename_i objs const s1 h
      have h1 : s1.memWf = true := storeKeys_memWf hs _ h
      have h2 := freeObjs_memWf (ids := const :: objs.map (·.obj)) h1
      exact ite_memWf (respond_memWf h2) (ite_memWf (respond_memWf h2) (respond_memWf h1))

theorem execInstallKeyset_memWf {r : VerbReq} {src : WinRange} {images : List Nat} {readBackOk : Bool} {s : State}
    (hs : s.memWf = true) :
    KeepsMem (execInstallKeyset r src images readBackOk s) := by
  unfold execInstallKeyset
  grind -ring -linarith [keepsMem_next, keepsMem_fault, onVerb_memWf, respond_memWf, keepKeyset_memWf]

theorem zeroKeyset_memWf {tag : Nat} {s : State} (hs : s.memWf = true) : (zeroKeyset tag s).memWf = true := by
  unfold zeroKeyset
  grind -ring -linarith [State.memWf_mk, State.mem_wf, State.piers_wf, freeObjs_memWf]

theorem startErase_memWf {tag mode : Nat} {s : State} (hs : s.memWf = true) : (startErase tag mode s).memWf = true := by
  unfold startErase
  grind -ring -linarith [State.memWf_mk, State.mem_wf, State.piers_wf, enqueue_memWf]

theorem execEraseKeyset_memWf {r : VerbReq} {tag mode : Nat} {s : State} (hs : s.memWf = true) :
    KeepsMem (execEraseKeyset r tag mode s) := by
  unfold execEraseKeyset
  grind -ring -linarith [keepsMem_next, keepsMem_fault, State.memWf_mk, State.mem_wf, State.piers_wf, onVerb_memWf, startErase_memWf,
    respond_memWf]

theorem execEraseKeysetDone_memWf {tag : Nat} {s : State} (hs : s.memWf = true) :
    KeepsMem (execEraseKeysetDone tag s) := by
  unfold execEraseKeysetDone
  grind -ring -linarith [keepsMem_next, keepsMem_fault, State.memWf_mk, State.mem_wf, State.piers_wf, zeroKeyset_memWf, respond_memWf]

/-! ### Keystone -/

theorem execFwSvnBurn_memWf {s : State} (hs : s.memWf = true) : KeepsMem (execFwSvnBurn s) := by
  unfold execFwSvnBurn
  grind -ring -linarith [keepsMem_next, keepsMem_fault, State.memWf_mk, State.mem_wf, State.piers_wf]

theorem writeBank_memWf {x : Bundle} {s : State} (hs : s.memWf = true) : (writeBank x s).memWf = true := by
  unfold writeBank
  grind -ring -linarith [State.memWf_mk, State.mem_wf, State.piers_wf, State.setDreg_memWf]

theorem execUpdateFw_memWf {r : VerbReq} {src : WinRange} {s : State} (hs : s.memWf = true) :
    KeepsMem (execUpdateFw r src s) := by
  unfold execUpdateFw
  grind -ring -linarith [keepsMem_next, keepsMem_fault, onVerb_memWf, respond_memWf, respondFault_memWf, writeBank_memWf]

theorem execRngFail_memWf {s : State} (hs : s.memWf = true) : KeepsMem (execRngFail s) := by
  unfold execRngFail
  grind -ring -linarith [keepsMem_next, keepsMem_fault, State.memWf_mk, State.mem_wf, State.piers_wf, raise_memWf]

theorem execAttest_memWf {r : VerbReq} {nonce : List Byte} {sessions : List Nat} {s : State} (hs : s.memWf = true) :
    KeepsMem (execAttest r nonce sessions s) := by
  refine onVerb_memWf hs fun x hx => ?_
  dsimp only
  split
  · exact respondFault_memWf hx
  split
  · exact respond_memWf hx
  · exact respond_memWf (State.bump_memWf hx)

theorem authFail_memWf {device : Option Nat} {s : State} (hs : s.memWf = true) : (authFail device s).memWf = true := by
  unfold authFail
  grind -ring -linarith [State.memWf_mk, State.mem_wf, State.piers_wf, raise_memWf, State.bump_memWf]

theorem replyTo_memWf {o : HelloOp} {device : Option Nat} {net : Nat} {s : State} (hs : s.memWf = true) :
    (replyTo o device net s).memWf = true := by
  unfold replyTo
  extract_lets d d2 n pub ss kem h1 fields unsigned signed reply h2 f hs'
  have hf : f.2.memWf = true := hs
  exact ite_memWf (authFail_memWf hs) (send_memWf _ _ (lieOwn_memWf hf))

theorem execHello_memWf {o : HelloOp} {s : State} (hs : s.memWf = true) : KeepsMem (execHello o s) := by
  unfold execHello
  grind -ring -linarith [keepsMem_next, keepsMem_fault, onPort_memWf, replyTo_memWf, authFail_memWf]

theorem State.modPeer_memWf {s : State} {d : Nat} {f : Peer → Peer} (hs : s.memWf = true) :
    (s.modPeer d f).memWf = true := by
  unfold State.modPeer
  grind -ring -linarith [State.memWf_mk, State.mem_wf, State.piers_wf]

theorem connect_memWf {m : PeerMsg} {s : State} (hs : s.memWf = true) : (connect m s).memWf = true := by
  unfold connect
  grind -ring -linarith [State.modPeer_memWf, State.setDreg_memWf, raise_memWf]

theorem helloPeer_memWf {device net : Nat} {s : State} (hs : s.memWf = true) :
    (helloPeer device net s).memWf = true := by
  unfold helloPeer
  grind -ring -linarith [State.memWf_mk, State.mem_wf, State.piers_wf, State.draw_memWf, State.fresh_memWf, send_memWf, lieOwn_memWf]

theorem dropHandshake_memWf {id : Nat} {s : State} (hs : s.memWf = true) : (dropHandshake id s).memWf = true := by
  unfold dropHandshake
  grind -ring -linarith [State.memWf_mk, State.mem_wf, State.piers_wf]

theorem execReply_memWf {m : PeerMsg} {s : State} (hs : s.memWf = true) : KeepsMem (execReply m s) := by
  unfold execReply
  grind -ring -linarith [keepsMem_next, keepsMem_fault, State.memWf_mk, State.mem_wf, State.piers_wf, onPeer_memWf, authFail_memWf,
    dropHandshake_memWf, send_memWf]

theorem execAccept_memWf {m : PeerMsg} {s : State} (hs : s.memWf = true) : KeepsMem (execAccept m s) := by
  unfold execAccept
  grind -ring -linarith [keepsMem_next, keepsMem_fault, onPeer_memWf, connect_memWf, dropHandshake_memWf]

theorem execPeerDown_memWf {device : Nat} {s : State} (hs : s.memWf = true) : KeepsMem (execPeerDown device s) := by
  unfold execPeerDown
  grind -ring -linarith [keepsMem_next, keepsMem_fault, State.modPeer_memWf, raise_memWf, State.setDreg_memWf]

theorem execPeerConnectionReopen_memWf {device net : Nat} {s : State} (hs : s.memWf = true) :
    KeepsMem (execPeerConnectionReopen device net s) := by
  unfold execPeerConnectionReopen
  grind -ring -linarith [keepsMem_next, keepsMem_fault, helloPeer_memWf]

theorem addQp_memWf {p i : Nat} {remote : Nat × Nat} {s : State} (hs : s.memWf = true) :
    (addQp p i remote s).memWf = true := by
  unfold addQp
  grind -ring -linarith [State.memWf_mk, State.mem_wf, State.piers_wf, State.draw_memWf]

theorem openSystem_memWf {w p base n : Nat} {s : State} (hs : s.memWf = true) :
    (openSystem w p base n s).memWf = true := by
  unfold openSystem
  grind -ring -linarith [State.setWin_memWf]

theorem attach_memWf {h : Handshake} {qps : List (Nat × Nat)} {s : State} (hs : s.memWf = true) :
    (attach h qps s).memWf = true := by
  unfold attach
  grind -ring -linarith [State.memWf_mk, State.mem_wf, State.piers_wf, foldl_memWf, send_memWf, addQp_memWf, openSystem_memWf]

theorem execFinish_memWf {o : FinishOp} {s : State} (hs : s.memWf = true) : KeepsMem (execFinish o s) := by
  unfold execFinish
  grind -ring -linarith [keepsMem_next, keepsMem_fault, onPort_memWf, dropHandshake_memWf, send_memWf, connect_memWf, authFail_memWf,
    attach_memWf]

/-! ### Time -/

theorem State.modNet_memWf {s : State} {n : Nat} {f : PtpNet → PtpNet} (hs : s.memWf = true) :
    (s.modNet n f).memWf = true := by
  unfold State.modNet
  grind -ring -linarith [State.memWf_mk, State.mem_wf, State.piers_wf]

theorem setValid_memWf {n v : Nat} {s : State} (hs : s.memWf = true) : (setValid n v s).memWf = true := by
  unfold setValid
  grind -ring -linarith [State.memWf_mk, State.mem_wf, State.piers_wf, State.setDreg_memWf]

theorem shiftTimers_memWf {f : Nat → Nat} {s : State} (hs : s.memWf = true) :
    (shiftTimers f s).memWf = true :=
  State.memWf_mk (State.mem_wf hs) (piersWf_map (f := fun x => { x with faults := x.faults.map f }) (fun _ h => h)
    (State.piers_wf hs))

theorem stepTime_memWf {o : Int} {s : State} (hs : s.memWf = true) : (stepTime o s).memWf = true := by
  unfold stepTime
  grind -ring -linarith [State.memWf_mk, State.mem_wf, State.piers_wf, shiftTimers_memWf, State.setDreg_memWf, State.bump_memWf]

theorem steer_memWf {o : Int} {t : Nat} {s : State} (hs : s.memWf = true) : (steer o t s).memWf = true := by
  unfold steer
  grind -ring -linarith [State.memWf_mk, State.mem_wf, State.piers_wf, stepTime_memWf, raise_memWf, State.setDreg_memWf]

theorem compareNets_memWf {s : State} (hs : s.memWf = true) : (compareNets s).memWf = true := by
  unfold compareNets
  grind -ring -linarith [State.memWf_mk, State.mem_wf, State.piers_wf, State.setDreg_memWf, raise_memWf]

theorem acceptSync_memWf {n : Nat} {t1 t2 : Int} {s : State} (hs : s.memWf = true) :
    (acceptSync n t1 t2 s).memWf = true := by
  unfold acceptSync
  grind -ring -linarith [State.modNet_memWf, setValid_memWf, State.setDreg_memWf, compareNets_memWf, steer_memWf]

theorem execSync_memWf {o : SyncOp} {s : State} (hs : s.memWf = true) : KeepsMem (execSync o s) := by
  unfold execSync
  grind -ring -linarith [keepsMem_next, keepsMem_fault, onPort_memWf, State.modNet_memWf, acceptSync_memWf]

theorem execFollowUp_memWf {net seqId origin : Nat} {corr : Int} {s : State} (hs : s.memWf = true) :
    KeepsMem (execFollowUp net seqId origin corr s) := by
  unfold execFollowUp
  grind -ring -linarith [keepsMem_next, keepsMem_fault, onPort_memWf, acceptSync_memWf]

theorem execAnnounce_memWf {net domain p1 cls acc var p2 identity : Nat} {s : State} (hs : s.memWf = true) :
    KeepsMem (execAnnounce net domain p1 cls acc var p2 identity s) := by
  unfold execAnnounce
  grind -ring -linarith [keepsMem_next, keepsMem_fault, onPort_memWf, State.modNet_memWf]

theorem execDelayReq_memWf {net : Nat} {s : State} (hs : s.memWf = true) : KeepsMem (execDelayReq net s) := by
  unfold execDelayReq
  grind -ring -linarith [keepsMem_next, keepsMem_fault, send_memWf, State.modNet_memWf]

theorem execDelayResp_memWf {net seqId rx : Nat} {corr : Int} {s : State} (hs : s.memWf = true) :
    KeepsMem (execDelayResp net seqId rx corr s) := by
  unfold execDelayResp
  grind -ring -linarith [keepsMem_next, keepsMem_fault, onPort_memWf, State.modNet_memWf]

theorem execSyncLoss_memWf {net : Nat} {s : State} (hs : s.memWf = true) : KeepsMem (execSyncLoss net s) := by
  unfold execSyncLoss
  grind -ring -linarith [keepsMem_next, keepsMem_fault, compareNets_memWf, setValid_memWf, State.bump_memWf]

/-! ### Net -/

theorem State.sendOn_memWf {s : State} {k : Nat} {m : Out} (hs : s.memWf = true) : (s.sendOn k m).memWf = true := by
  unfold State.sendOn
  grind -ring -linarith [send_memWf, State.bump_memWf]

theorem State.modQp_memWf {s : State} {n : Nat} {f : Qp → Qp} (hs : s.memWf = true) : (s.modQp n f).memWf = true := by
  unfold State.modQp
  grind -ring -linarith [State.memWf_mk, State.mem_wf, State.piers_wf]

theorem staleMessage_memWf {o : RdmaOp} {s : State} (hs : s.memWf = true) : (staleMessage o s).memWf = true := by
  unfold staleMessage
  grind -ring -linarith [State.bump_memWf, raise_memWf, State.setWin_memWf, State.sendOn_memWf]

theorem rdma_memWf {o : RdmaOp} {write : Bool} {n : Nat} {s : State} {run : Nat → Window → State → State}
    (hs : s.memWf = true) (hrun : ∀ n w x, x.memWf = true → (run n w x).memWf = true) :
    (rdma o write n s run).memWf = true := by
  unfold rdma
  grind -ring -linarith [State.bump_memWf, State.sendOn_memWf, State.modQp_memWf, State.modSlot_memWf, staleMessage_memWf]

theorem markRing_memWf {w off n p : Nat} {s : State} (hs : s.memWf = true) : (markRing w off n p s).memWf = true := by
  unfold markRing
  grind -ring -linarith [State.modSlot_memWf]

theorem execRdmaWrite_memWf {o : RdmaOp} {s : State} (hs : s.memWf = true) : KeepsMem (execRdmaWrite o s) := by
  unfold execRdmaWrite
  grind -ring -linarith [keepsMem_next, keepsMem_fault, onPort_memWf, rdma_memWf, State.sendOn_memWf, markRing_memWf, wr_memWf]

theorem execRdmaRead_memWf {o : RdmaOp} {s : State} (hs : s.memWf = true) : KeepsMem (execRdmaRead o s) := by
  unfold execRdmaRead
  grind -ring -linarith [keepsMem_next, keepsMem_fault, onPort_memWf, rdma_memWf, State.sendOn_memWf]

theorem execCnp_memWf {port qpn : Nat} {s : State} (hs : s.memWf = true) : KeepsMem (execCnp port qpn s) := by
  unfold execCnp
  grind -ring -linarith [keepsMem_next, keepsMem_fault, onPort_memWf, State.bump_memWf, State.modQp_memWf]

theorem execRoceRetransmit_memWf {qpn psn : Nat} {s : State} (hs : s.memWf = true) :
    KeepsMem (execRoceRetransmit qpn psn s) := by
  unfold execRoceRetransmit
  grind -ring -linarith [keepsMem_next, keepsMem_fault, foldl_memWf, State.modQp_memWf, State.sendOn_memWf, enqueue_memWf]

theorem execArp_memWf {o : NetOp} {s : State} (hs : s.memWf = true) : KeepsMem (execArp o s) := by
  unfold execArp
  grind -ring -linarith [keepsMem_next, keepsMem_fault, onPort_memWf, State.sendOn_memWf, State.bump_memWf]

theorem execNeighborDiscovery_memWf {o : NetOp} {s : State} (hs : s.memWf = true) :
    KeepsMem (execNeighborDiscovery o s) := by
  unfold execNeighborDiscovery
  grind -ring -linarith [keepsMem_next, keepsMem_fault, onPort_memWf, State.sendOn_memWf, State.bump_memWf]

theorem execEchoRequest_memWf {o : NetOp} {s : State} (hs : s.memWf = true) : KeepsMem (execEchoRequest o s) := by
  unfold execEchoRequest
  grind -ring -linarith [keepsMem_next, keepsMem_fault, onPort_memWf, State.sendOn_memWf, State.bump_memWf]

theorem execUnsupportedFrame_memWf {port : Nat} {badFcs : Bool} {s : State} (hs : s.memWf = true) :
    KeepsMem (execUnsupportedFrame port badFcs s) := by
  unfold execUnsupportedFrame
  grind -ring -linarith [keepsMem_next, keepsMem_fault, State.bump_memWf]

theorem execPfcFrame_memWf {port : Nat} {pause : Bool} {s : State} (hs : s.memWf = true) :
    KeepsMem (execPfcFrame port pause s) := by
  unfold execPfcFrame
  grind -ring -linarith [keepsMem_next, keepsMem_fault, State.memWf_mk, State.mem_wf, State.piers_wf, State.bump_memWf]

theorem execLinkUp_memWf {port : Nat} {s : State} (hs : s.memWf = true) : KeepsMem (execLinkUp port s) := by
  unfold execLinkUp
  grind -ring -linarith [keepsMem_next, keepsMem_fault, setReg_memWf]

theorem linkLost_memWf {port : Nat} {s : State} (hs : s.memWf = true) : (linkLost port s).memWf = true := by
  unfold linkLost
  grind -ring -linarith [setReg_memWf]

theorem execLinkDown_memWf {port : Nat} {s : State} (hs : s.memWf = true) : KeepsMem (execLinkDown port s) := by
  unfold execLinkDown
  grind -ring -linarith [keepsMem_next, keepsMem_fault, linkLost_memWf]

theorem resetPort_memWf {k : Nat} {s : State} (hs : s.memWf = true) : (resetPort k s).memWf = true := by
  unfold resetPort
  grind -ring -linarith [State.memWf_mk, State.mem_wf, State.piers_wf, foldl_memWf, setReg_memWf, linkLost_memWf, State.bump_memWf,
    setValid_memWf, State.modNet_memWf]

theorem portReset_memWf {mask : Nat} {s : State} (hs : s.memWf = true) : (portReset mask s).memWf = true := by
  unfold portReset
  grind -ring -linarith [foldl_memWf, resetPort_memWf]

theorem execPortReset_memWf {slot mask : Nat} {s : State} (hs : s.memWf = true) :
    KeepsMem (execPortReset slot mask s) := by
  unfold execPortReset
  grind -ring -linarith [keepsMem_next, keepsMem_fault, portReset_memWf]

/-! ### Ras -/

theorem handOff_memWf {r : Request} {s : State} (hs : s.memWf = true) : (handOff r s).memWf = true := by
  unfold handOff
  grind -ring -linarith [State.modRequest_memWf, State.modImage_memWf, drainEvents_memWf, send_memWf, State.bump_memWf]

theorem handAll_memWf {s : State} (hs : s.memWf = true) : (handAll s).memWf = true := by
  unfold handAll
  grind -ring -linarith [foldl_memWf, State.modSpan_memWf, dropBatch_memWf, abortPiers_memWf, handOff_memWf, raise_memWf,
    outputDone_memWf]

theorem checkDegraded_memWf {s : State} (hs : s.memWf = true) : (checkDegraded s).memWf = true := by
  unfold checkDegraded
  grind -ring -linarith [State.memWf_mk, State.mem_wf, State.piers_wf, handAll_memWf, raise_memWf]

theorem takeOver_memWf {m : MirrorRec} {r : Request} {s : State} (hs : s.memWf = true) :
    (takeOver m r s).memWf = true := by
  unfold takeOver
  grind -ring -linarith [State.memWf_mk, State.mem_wf, State.piers_wf, foldl_memWf, State.modImage_memWf, State.modSession_memWf,
    admitRequest_memWf, State.bump_memWf]

theorem completeHanded_memWf {m : MirrorRec} {status : Nat} {s : State} (hs : s.memWf = true) :
    (completeHanded m status s).memWf = true := by
  unfold completeHanded
  grind -ring -linarith [State.memWf_mk, State.mem_wf, State.piers_wf, complete_memWf]

theorem execHandoff_memWf {o : HandoffOp} {s : State} (hs : s.memWf = true) : KeepsMem (execHandoff o s) := by
  unfold execHandoff
  grind -ring -linarith [keepsMem_next, keepsMem_fault, onPeer_memWf, send_memWf, completeHanded_memWf, takeOver_memWf]

theorem execBuddyLossTimeout_memWf {s : State} (hs : s.memWf = true) : KeepsMem (execBuddyLossTimeout s) := by
  unfold execBuddyLossTimeout
  grind -ring -linarith [keepsMem_next, keepsMem_fault, State.memWf_mk, State.mem_wf, State.piers_wf, foldl_memWf, dropBatch_memWf,
    abortPiers_memWf]

theorem execBuddyTakeoverTimeout_memWf {s : State} (hs : s.memWf = true) : KeepsMem (execBuddyTakeoverTimeout s) := by
  unfold execBuddyTakeoverTimeout
  grind -ring -linarith [keepsMem_next, keepsMem_fault, foldl_memWf, takeOver_memWf]

theorem burnPair_memWf {p q : Nat} {s : State} (hs : s.memWf = true) : (burnPair p q s).memWf = true := by
  unfold burnPair
  grind -ring -linarith [State.memWf_mk, State.mem_wf, State.piers_wf]

theorem redesignate_memWf {k : Nat} {s : State} (hs : s.memWf = true) : (redesignate k s).memWf = true := by
  unfold redesignate
  grind -ring -linarith [State.modSpan_memWf]

theorem redesignateOf_memWf {q : Nat} {s : State} (hs : s.memWf = true) : (redesignateOf q s).memWf = true := by
  unfold redesignateOf
  grind -ring -linarith [foldl_memWf, redesignate_memWf]

theorem retireSpare_memWf {q : Nat} {s : State} (hs : s.memWf = true) : (retireSpare q s).memWf = true := by
  unfold retireSpare
  grind -ring -linarith [redesignateOf_memWf, raise_memWf, burnPair_memWf]

theorem reprogram_memWf {k : Nat} {s : State} (hs : s.memWf = true) : (reprogram k s).memWf = true := by
  unfold reprogram
  grind -ring -linarith [Pier.memWf_mk, Pier.bench_wf, Pier.tiles_wf, Pier.imem_wf, foldl_memWf, State.modImage_memWf, modPier_memWf,
    Pier.loadBank_memWf]

theorem moveSpan_memWf {k : Nat} {x : Placed} {s : State} (hs : s.memWf = true) : (moveSpan k x s).memWf = true := by
  unfold moveSpan
  grind -ring -linarith [foldl_memWf, State.modImage_memWf, restoreChecked_memWf, reprogram_memWf, State.modSpan_memWf]

theorem retiredRec_memWf {k p q : Nat} {s : State} (hs : s.memWf = true) : (retiredRec k p q s).memWf = true := by
  unfold retiredRec
  grind -ring -linarith [raise_memWf]

theorem recovered_memWf {k : Nat} {s : State} (hs : s.memWf = true) : (recovered k s).memWf = true := by
  unfold recovered
  grind -ring -linarith [trySchedule_memWf, State.modSpan_memWf]

theorem testSpare_memWf {k p q n : Nat} {s : State} (hs : s.memWf = true) : (testSpare k p q n s).memWf = true := by
  unfold testSpare
  grind -ring -linarith [State.memWf_mk, State.mem_wf, State.piers_wf, State.modSpan_memWf]

theorem replacePier_memWf {k p : Nat} {s : State} (hs : s.memWf = true) : (replacePier k p s).memWf = true := by
  unfold replacePier
  grind -ring -linarith [checkDegraded_memWf, recovered_memWf, retiredRec_memWf, burnPair_memWf, testSpare_memWf]

theorem replaceBy_memWf {k p q : Nat} {s : State} (hs : s.memWf = true) : (replaceBy k p q s).memWf = true := by
  unfold replaceBy
  grind -ring -linarith [State.memWf_mk, State.mem_wf, State.piers_wf, redesignateOf_memWf, retiredRec_memWf, burnPair_memWf,
    checkDegraded_memWf, recovered_memWf, State.bump_memWf, moveSpan_memWf]

theorem takeSpare_memWf {k p : Nat} {next : Option Nat} {s : State} (hs : s.memWf = true) :
    (takeSpare k p next s).memWf = true := by
  unfold takeSpare
  grind -ring -linarith [replacePier_memWf, testSpare_memWf]

theorem beginTakeover.redesignateOthers_memWf {k q : Nat} {s : State} (hs : s.memWf = true) :
    (beginTakeover.redesignateOthers k q s).memWf = true := by
  unfold beginTakeover.redesignateOthers
  grind -ring -linarith [foldl_memWf, redesignate_memWf]

theorem startTakeover_memWf {k p : Nat} {s : State} (hs : s.memWf = true) : (startTakeover k p s).memWf = true := by
  unfold startTakeover
  grind -ring -linarith [takeSpare_memWf]

theorem beginTakeover_memWf {k p q : Nat} {s : State} (hs : s.memWf = true) : (beginTakeover k p q s).memWf = true := by
  unfold beginTakeover
  grind -ring -linarith [retiredRec_memWf, burnPair_memWf, State.modSpan_memWf, beginTakeover.redesignateOthers_memWf]

theorem nextSpare_memWf {k p q : Nat} {s : State} (hs : s.memWf = true) : (nextSpare k p q s).memWf = true := by
  unfold nextSpare
  grind -ring -linarith [State.modSpan_memWf, replacePier_memWf, State.modImage_memWf, takeSpare_memWf]

theorem spareTested_memWf {q : Nat} {pass : Bool} {s : State} (hs : s.memWf = true) :
    (spareTested q pass s).memWf = true := by
  unfold spareTested
  grind -ring -linarith [State.memWf_mk, State.mem_wf, State.piers_wf, foldl_memWf, startTakeover_memWf, beginTakeover_memWf,
    replaceBy_memWf, checkDegraded_memWf, retireSpare_memWf]

theorem execPierSelfTestDone_memWf {p : Nat} {pass : Bool} {s : State} (hs : s.memWf = true) :
    KeepsMem (execPierSelfTestDone p pass s) := by
  unfold execPierSelfTestDone
  grind -ring -linarith [keepsMem_next, keepsMem_fault, spareTested_memWf, recovered_memWf, startTakeover_memWf]

theorem execTakeoverSliceWritten_memWf {p : Nat} {ok : Bool} {s : State} (hs : s.memWf = true) :
    KeepsMem (execTakeoverSliceWritten p ok s) := by
  unfold execTakeoverSliceWritten
  grind -ring -linarith [keepsMem_next, keepsMem_fault, nextSpare_memWf, restoreChecked_memWf, State.modImage_memWf,
    State.modSpan_memWf]

theorem execTakeoverReverified_memWf {p : Nat} {s : State} (hs : s.memWf = true) :
    KeepsMem (execTakeoverReverified p s) := by
  unfold execTakeoverReverified
  grind -ring -linarith [keepsMem_next, keepsMem_fault, State.modSpan_memWf, nextSpare_memWf]

theorem execTakeoverProgramWritten_memWf {p : Nat} {s : State} (hs : s.memWf = true) :
    KeepsMem (execTakeoverProgramWritten p s) := by
  unfold execTakeoverProgramWritten
  grind -ring -linarith [keepsMem_next, keepsMem_fault, recovered_memWf, State.bump_memWf, redesignateOf_memWf, redesignate_memWf,
    reprogram_memWf]

theorem execLlmScrub_memWf {errors : Nat} {s : State} (hs : s.memWf = true) :
    KeepsMem (execLlmScrub errors s) := by
  unfold execLlmScrub
  extract_lets a cursors s1 s2
  have h1 : s1.memWf = true := hs
  have h2 : s2.memWf = true := State.setDreg_memWf h1
  refine ite_keepsMem ((keepsMem_next _).2 h1) (ite_keepsMem ((keepsMem_next _).2 (State.bump_memWf h1)) ?_)
  exact ite_keepsMem ((keepsMem_next _).2 (State.bump_memWf h2)) ((keepsMem_next _).2 (llmLost_memWf (State.bump_memWf h2)))

theorem poisonSet_memWf {tag code : Nat} {s : State} (hs : s.memWf = true) : (poisonSet tag code s).memWf = true := by
  unfold poisonSet
  grind -ring -linarith [foldl_memWf, stopSpan_memWf, poisonMembers_memWf, dropBatch_memWf, State.modSpan_memWf, outputDone_memWf]

theorem objectLost_memWf {id : Nat} {s : State} (hs : s.memWf = true) : (objectLost id s).memWf = true := by
  unfold objectLost
  grind -ring -linarith [foldl_memWf, raise_memWf, startErase_memWf, poisonSet_memWf, storeLost_memWf]

theorem execGddrScrub_memWf {k corrected : Nat} {bad : Option Nat} {s : State} (hs : s.memWf = true) :
    KeepsMem (execGddrScrub k corrected bad s) := by
  unfold execGddrScrub
  grind -ring -linarith [keepsMem_next, keepsMem_fault, State.memWf_mk, State.mem_wf, State.piers_wf, State.bump_memWf,
    objectLost_memWf]

theorem execGddrRefresh_memWf {k : Nat} {s : State} (hs : s.memWf = true) : KeepsMem (execGddrRefresh k s) := by
  unfold execGddrRefresh
  grind -ring -linarith [keepsMem_next, keepsMem_fault]

theorem execWeightScrub_memWf {p errors : Nat} {s : State} (hs : s.memWf = true) :
    KeepsMem (execWeightScrub p errors s) := by
  unfold execWeightScrub
  grind -ring -linarith [keepsMem_next, keepsMem_fault, State.memWf_mk, State.mem_wf, State.piers_wf, State.bump_memWf,
    pierStoreLost_memWf]

theorem execImemScrub_memWf {p b errors : Nat} {s : State} (hs : s.memWf = true) :
    KeepsMem (execImemScrub p b errors s) := by
  unfold execImemScrub
  grind -ring -linarith [keepsMem_next, keepsMem_fault, State.memWf_mk, State.mem_wf, State.piers_wf, pier_memWf, State.bump_memWf,
    pierStoreLost_memWf, State.modSeq_memWf]

theorem execStoreRepairDone_memWf {id : Nat} {copy : List Byte} {s : State} (hs : s.memWf = true) :
    KeepsMem (execStoreRepairDone id copy s) := by
  unfold execStoreRepairDone
  split
  · exact (keepsMem_next _).2 hs
  extract_lets s1 backing
  have h1 : s1.memWf = true := hs
  clear_value backing
  split <;> rw [keepsMem_next]
  · cases backing
    · exact h1
    · exact restoreChecked_memWf h1
  · split
    · split
      · exact modPier_memWf _ _ _ h1 fun x hx => Pier.loadBank_memWf hx
      · exact h1
    · exact h1
  · exact ite_memWf (backupSlice_memWf h1) h1
  · exact h1
  · exact h1
  · exact objWr_memWf h1

theorem execGddrTrainingDone_memWf {k : Nat} {ok : Bool} {s : State} (hs : s.memWf = true) :
    KeepsMem (execGddrTrainingDone k ok s) := by
  unfold execGddrTrainingDone
  grind -ring -linarith [keepsMem_next, keepsMem_fault, State.memWf_mk, State.mem_wf, State.piers_wf, State.setDreg_memWf,
    checkDegraded_memWf, raise_memWf]

theorem execChannelRetrainDone_memWf {k channel : Nat} {ok : Bool} {s : State} (hs : s.memWf = true) :
    KeepsMem (execChannelRetrainDone k channel ok s) := by
  unfold execChannelRetrainDone
  grind -ring -linarith [keepsMem_next, keepsMem_fault, State.memWf_mk, State.mem_wf, State.piers_wf, checkDegraded_memWf,
    raise_memWf]

theorem execBuddyStripeFetch_memWf {device store index stripe : Nat} {s : State} (hs : s.memWf = true) :
    KeepsMem (execBuddyStripeFetch device store index stripe s) := by
  unfold execBuddyStripeFetch
  grind -ring -linarith [keepsMem_next, keepsMem_fault, onPeer_memWf, send_memWf]

/-! ### ScaleOut -/

theorem placeChannel_memWf {me : Nat} {c : Channel} {acc : Option (State × List Channel)}
    (hacc : ∀ y ∈ acc, y.1.memWf = true) :
    ∀ y ∈ placeChannel me c acc, y.1.memWf = true := by
  intro y hy
  obtain ⟨⟨s, done⟩, hx, hy⟩ := Option.bind_eq_some_iff.mp hy
  obtain ⟨b, -, hy⟩ := Option.bind_eq_some_iff.mp hy
  obtain ⟨a, -, rfl⟩ := Option.map_eq_some_iff.mp hy
  exact wr_memWf _ _ _ (hacc _ hx)

theorem placeChannels_memWf {me : Nat} {cs : List Channel} {s : State} (hs : s.memWf = true) :
    ∀ y ∈ placeChannels me cs s, y.1.memWf = true :=
  cs.foldlRecOn _ (motive := fun a : Option (State × List Channel) => ∀ y ∈ a, y.1.memWf = true) (forall_mem_some.2 hs)
    fun _ ha _ _ => placeChannel_memWf ha

theorem installSys_memWf {i : SysImg} {me : SysDev} {bs : List Byte} {cs : List Channel} {s : State}
    (hs : s.memWf = true) :
    (installSys i me bs cs s).memWf = true := by
  unfold installSys
  grind -ring -linarith [State.memWf_mk, State.mem_wf, State.piers_wf, foldl_memWf, State.setDreg_memWf, helloPeer_memWf]

theorem installChecks_memWf {bs : List Byte} {n : Nat} {s : State} (hs : s.memWf = true) :
    (installChecks bs n s).2.memWf = true := by
  unfold installChecks
  extract_lets i same oper s1
  iterate 5 (split; exact hs)
  split
  · exact State.setDreg_memWf (State.setDreg_memWf hs)
  split
  · rename_i me _
    extract_lets mine
    split
    · rename_i s1 cs h
      have h0 : ({ s with sys := some { i with channels := [] } } : State).memWf = true := hs
      exact installSys_memWf (placeChannels_memWf h0 (s1, cs) h : s1.memWf = true)
    · exact hs
  · exact hs

theorem sysCommand_memWf {p : Nat} {remote : List Byte} {s : State} (hs : s.memWf = true) :
    (sysCommand p remote s).2.memWf = true := by
  unfold sysCommand
  grind -ring -linarith [installChecks_memWf, raise_memWf, State.setDreg_memWf]

theorem execSysCommand_memWf {p : Nat} {remote : List Byte} {s : State} (hs : s.memWf = true) :
    KeepsMem (execSysCommand p remote s) := by
  unfold execSysCommand
  grind -ring -linarith [keepsMem_next, keepsMem_fault, sysCommand_memWf]

theorem feedUnbound_memWf {c : Channel} {k b : Nat} {s : State} (hs : s.memWf = true) :
    (feedUnbound c k b s).memWf = true := by
  unfold feedUnbound
  grind -ring -linarith [raise_memWf, send_memWf]

theorem execArrivedPlaced_memWf {channel k b : Nat} {s : State} (hs : s.memWf = true) :
    KeepsMem (execArrivedPlaced channel k b s) := by
  unfold execArrivedPlaced
  grind -ring -linarith [keepsMem_next, keepsMem_fault, onPeer_memWf, wr_memWf, feedUnbound_memWf, State.modChannel_memWf,
    startResume_memWf]

theorem execReleasedPlaced_memWf {channel k b : Nat} {s : State} (hs : s.memWf = true) :
    KeepsMem (execReleasedPlaced channel k b s) := by
  unfold execReleasedPlaced
  grind -ring -linarith [keepsMem_next, keepsMem_fault, onPeer_memWf, wr_memWf]

theorem execFeedLaunch_memWf {channel : Nat} {k : Nat} {s : State} (hs : s.memWf = true) :
    KeepsMem (execFeedLaunch channel k s) := by
  unfold execFeedLaunch
  split
  · exact (keepsMem_next _).2 hs
  split
  · exact (keepsMem_next _).2 hs
  refine ite_keepsMem ((keepsMem_next _).2 hs) ?_
  split
  · exact (keepsMem_next _).2 (feedUnbound_memWf (State.modChannel_memWf hs))
  extract_lets beat sp s1
  have h1 : s1.memWf = true := prepareBatch_memWf (State.modChannel_memWf hs)
  refine ite_keepsMem ((keepsMem_next _).2 hs) ?_
  split
  · exact (keepsMem_next _).2 (launchBatch_memWf h1)
  · exact (keepsMem_next _).2 h1

/-! ### Power -/

theorem State.resetRegs_memWf {s : State} {e : Nat} (hs : s.memWf = true) : (s.resetRegs e).memWf = true := by
  unfold State.resetRegs
  grind -ring -linarith [State.memWf_mk, State.mem_wf, State.piers_wf, State.clearRegs_memWf]

theorem blankPier_memWf {x : Pier} : (blankPier x).memWf = true := rfl

theorem blankPiers_memWf {s : State} (hs : s.memWf = true) :
    (blankPiers s).memWf = true :=
  State.memWf_mk (State.mem_wf hs) (piersWf_map (fun _ _ => rfl) (State.piers_wf hs))

theorem rewriteAll_memWf {s : State} (hs : s.memWf = true) : (rewriteAll s).memWf = true := by
  unfold rewriteAll
  grind -ring -linarith [foldl_memWf, modPier_memWf, Pier.loadBank_memWf]

theorem zeroSlices_memWf {s : State} (hs : s.memWf = true) : (zeroSlices s).memWf = true := by
  unfold zeroSlices
  grind -ring -linarith [zeroMem_memWf]

theorem buddyAgain_memWf {s : State} (hs : s.memWf = true) : (buddyAgain s).memWf = true := by
  unfold buddyAgain
  grind -ring -linarith [State.setDreg_memWf]

theorem clockCause_memWf {s : State} (hs : s.memWf = true) : (clockCause s).memWf = true := by
  unfold clockCause
  grind -ring -linarith [enqueue_memWf]

theorem execFcActiveChange_memWf {s : State} (hs : s.memWf = true) : KeepsMem (execFcActiveChange s) := by
  unfold execFcActiveChange
  grind -ring -linarith [keepsMem_next, keepsMem_fault, State.memWf_mk, State.mem_wf, State.piers_wf]

theorem noteThrottle_memWf {s : State} (hs : s.memWf = true) : (noteThrottle s).memWf = true := by
  unfold noteThrottle
  grind -ring -linarith [State.memWf_mk, State.mem_wf, State.piers_wf, raise_memWf]

theorem execProchotOnset_memWf {s : State} (hs : s.memWf = true) : KeepsMem (execProchotOnset s) := by
  unfold execProchotOnset
  grind -ring -linarith [keepsMem_next, keepsMem_fault, State.memWf_mk, State.mem_wf, State.piers_wf, clockCause_memWf,
    noteThrottle_memWf]

theorem execProchotEnd_memWf {s : State} (hs : s.memWf = true) : KeepsMem (execProchotEnd s) := by
  unfold execProchotEnd
  grind -ring -linarith [keepsMem_next, keepsMem_fault, State.memWf_mk, State.mem_wf, State.piers_wf, clockCause_memWf]

theorem execPstateDecision_memWf {s : State} (hs : s.memWf = true) : KeepsMem (execPstateDecision s) := by
  unfold execPstateDecision
  grind -ring -linarith [keepsMem_next, keepsMem_fault, State.memWf_mk, State.mem_wf, State.piers_wf]

theorem timeAlone_memWf {s : State} (hs : s.memWf = true) : (timeAlone s).memWf = true := by
  unfold timeAlone
  grind -ring -linarith [State.memWf_mk, State.mem_wf, State.piers_wf, State.setDreg_memWf]

theorem enterA3_memWf {s : State} (hs : s.memWf = true) : (enterA3 s).memWf = true := by
  unfold enterA3
  grind -ring -linarith [State.memWf_mk, State.mem_wf, State.piers_wf, timeAlone_memWf, State.resetRegs_memWf, blankPiers_memWf]

theorem saveLlm_memWf {s : State} (hs : s.memWf = true) : (saveLlm s).memWf = true := by
  unfold saveLlm
  grind -ring -linarith [zeroMem_memWf, copyCells_memWf]

theorem restoreLlm_memWf {s : State} (hs : s.memWf = true) : (restoreLlm s).memWf = true := by
  unfold restoreLlm
  grind -ring -linarith [State.memWf_mk, State.mem_wf, State.piers_wf, mputAll_wf]

theorem loseLinks_memWf {s : State} (hs : s.memWf = true) : (loseLinks s).memWf = true := by
  unfold loseLinks
  grind -ring -linarith [State.memWf_mk, State.mem_wf, State.piers_wf, blankPiers_memWf, State.resetRegs_memWf, freeObjs_memWf]

theorem loseMemory_memWf {s : State} :
    (loseMemory s).memWf = true := rfl

theorem enterA4_memWf {s : State} (hs : s.memWf = true) : (enterA4 s).memWf = true := by
  unfold enterA4
  grind -ring -linarith [State.memWf_mk, State.mem_wf, State.piers_wf, foldl_memWf, loseMemory_memWf, loseLinks_memWf,
    zeroSlices_memWf, saveLlm_memWf, wr_memWf]

theorem execPstateEntered_memWf {s : State} (hs : s.memWf = true) : KeepsMem (execPstateEntered s) := by
  unfold execPstateEntered
  grind -ring -linarith [keepsMem_next, keepsMem_fault, State.memWf_mk, State.mem_wf, State.piers_wf, State.bump_memWf, enterA3_memWf,
    enterA4_memWf, startResume_memWf]

theorem standbyReq_memWf {n : Nat} {s : State} (hs : s.memWf = true) : (standbyReq n s).memWf = true := by
  unfold standbyReq
  grind -ring -linarith [State.memWf_mk, State.mem_wf, State.piers_wf]

theorem execStandbyReqGddrKept_memWf {p : Nat} {s : State} (hs : s.memWf = true) :
    KeepsMem (execStandbyReqGddrKept p s) := by
  unfold execStandbyReqGddrKept
  grind -ring -linarith [keepsMem_next, keepsMem_fault, standbyReq_memWf]

theorem execStandbyReqGddrOff_memWf {p : Nat} {s : State} (hs : s.memWf = true) :
    KeepsMem (execStandbyReqGddrOff p s) := by
  unfold execStandbyReqGddrOff
  grind -ring -linarith [keepsMem_next, keepsMem_fault, standbyReq_memWf]

theorem execStandbyEntry_memWf {s : State} (hs : s.memWf = true) : KeepsMem (execStandbyEntry s) := by
  unfold execStandbyEntry
  grind -ring -linarith [keepsMem_next, keepsMem_fault, State.memWf_mk, State.mem_wf, State.piers_wf, foldl_memWf, loseSlot_memWf,
    eraseSession_memWf, freeSlot_memWf]

theorem execWake_memWf {source : Nat} {s : State} (hs : s.memWf = true) : KeepsMem (execWake source s) := by
  unfold execWake
  grind -ring -linarith [keepsMem_next, keepsMem_fault, startResume_memWf]

theorem execResumeStart_memWf {s : State} (hs : s.memWf = true) : KeepsMem (execResumeStart s) := by
  unfold execResumeStart
  grind -ring -linarith [keepsMem_next, keepsMem_fault, startResume_memWf]

theorem retrained_memWf {s : State} (hs : s.memWf = true) : (retrained s).memWf = true := by
  unfold retrained
  grind -ring -linarith [State.setDreg_memWf]

theorem restoreSlices_memWf {s : State} (hs : s.memWf = true) : (restoreSlices s).memWf = true := by
  unfold restoreSlices
  grind -ring -linarith [foldl_memWf, restoreChecked_memWf]

theorem reopenPeers_memWf {s : State} (hs : s.memWf = true) : (reopenPeers s).memWf = true := by
  unfold reopenPeers
  grind -ring -linarith [foldl_memWf, helloPeer_memWf]

theorem blankStamps_memWf {s : State} (hs : s.memWf = true) : (blankStamps s).memWf = true := by
  unfold blankStamps
  grind -ring -linarith [foldl_memWf, wr_memWf]

theorem reviseDegraded_memWf {s : State} (hs : s.memWf = true) : (reviseDegraded s).memWf = true := by
  unfold reviseDegraded
  grind -ring -linarith [State.memWf_mk, State.mem_wf, State.piers_wf, checkDegraded_memWf]

theorem resumeA4_memWf {s : State} (hs : s.memWf = true) : (resumeA4 s).memWf = true := by
  unfold resumeA4
  grind -ring -linarith [State.memWf_mk, State.mem_wf, State.piers_wf, startSpareTests_memWf, reviseDegraded_memWf, reopenPeers_memWf,
    blankStamps_memWf, rewriteAll_memWf, restoreSlices_memWf, restoreLlm_memWf, retrained_memWf, raise_memWf]

theorem reachA0_memWf {s : State} (hs : s.memWf = true) : (reachA0 s).memWf = true := by
  unfold reachA0
  grind -ring -linarith [State.memWf_mk, State.mem_wf, State.piers_wf, foldl_memWf, raise_memWf, clockCause_memWf, trySchedule_memWf]

theorem execResumeDone_memWf {s : State} (hs : s.memWf = true) : KeepsMem (execResumeDone s) := by
  unfold execResumeDone
  grind -ring -linarith [keepsMem_next, keepsMem_fault, reachA0_memWf, resumeA4_memWf, rewriteAll_memWf, retrained_memWf]

theorem trip_memWf {code : Nat} {s : State} (hs : s.memWf = true) : (trip code s).memWf = true := by
  unfold trip
  grind -ring -linarith [State.memWf_mk, State.mem_wf, State.piers_wf, foldl_memWf, resumeA4_memWf, dropBatch_memWf, abortPiers_memWf,
    State.clearRegs_memWf, blankPiers_memWf, handAll_memWf, raise_memWf, zeroSlices_memWf]

theorem execSupplyFault_memWf {s : State} (hs : s.memWf = true) : KeepsMem (execSupplyFault s) := by
  unfold execSupplyFault
  grind -ring -linarith [keepsMem_next, keepsMem_fault, trip_memWf]

theorem throttleAt_memWf {t : Nat} {s : State} (hs : s.memWf = true) : (throttleAt t s).memWf = true := by
  unfold throttleAt
  grind -ring -linarith [State.memWf_mk, State.mem_wf, State.piers_wf, clockCause_memWf, noteThrottle_memWf, startResume_memWf]

theorem execTempUpdate_memWf {temp : Nat} {s : State} (hs : s.memWf = true) : KeepsMem (execTempUpdate temp s) := by
  unfold execTempUpdate
  grind -ring -linarith [keepsMem_next, keepsMem_fault, State.memWf_mk, State.mem_wf, State.piers_wf, State.setDreg_memWf, trip_memWf,
    throttleAt_memWf]

theorem execThrottleEnd_memWf {s : State} (hs : s.memWf = true) : KeepsMem (execThrottleEnd s) := by
  unfold execThrottleEnd
  grind -ring -linarith [keepsMem_next, keepsMem_fault, State.memWf_mk, State.mem_wf, State.piers_wf, clockCause_memWf]

/-! ### Reset -/

theorem latchStraps_memWf {st : Straps} {s : State} (hs : s.memWf = true) : (latchStraps st s).memWf = true := by
  unfold latchStraps
  grind -ring -linarith [State.memWf_mk, State.mem_wf, State.piers_wf]

theorem fullReset_memWf {e : Nat} {s : State} :
    (fullReset e s).memWf = true := rfl

theorem boot_memWf {e : Nat} {s : State} (hs : s.memWf = true) : (boot e s).memWf = true := by
  unfold boot
  grind -ring -linarith [State.memWf_mk, State.mem_wf, State.piers_wf, startSpareTests_memWf, reviseDegraded_memWf]

theorem startPor_memWf {s : State} : (startPor s).memWf = true := by
  unfold startPor
  grind -ring -linarith [State.memWf_mk, State.mem_wf, State.piers_wf, fullReset_memWf, boot_memWf]

theorem execPor_memWf {st : Straps} {railsOk : Bool} {s : State} : KeepsMem (execPor st railsOk s) := by
  unfold execPor
  grind -ring -linarith [keepsMem_next, keepsMem_fault, State.memWf_mk, State.mem_wf, State.piers_wf, latchStraps_memWf,
    startPor_memWf, fullReset_memWf]

theorem execPorCheckRetry_memWf {railsOk : Bool} {s : State} (hs : s.memWf = true) :
    KeepsMem (execPorCheckRetry railsOk s) := by
  unfold execPorCheckRetry
  grind -ring -linarith [keepsMem_next, keepsMem_fault, State.memWf_mk, State.mem_wf, State.piers_wf, startPor_memWf]

theorem execPin_memWf {st : Straps} {s : State} (hs : s.memWf = true) : KeepsMem (execPin st s) := by
  unfold execPin
  grind -ring -linarith [keepsMem_next, keepsMem_fault, State.memWf_mk, State.mem_wf, State.piers_wf, latchStraps_memWf, boot_memWf,
    fullReset_memWf]

theorem execResetNAssertion_memWf {s : State} : KeepsMem (execResetNAssertion s) := by
  unfold execResetNAssertion
  grind -ring -linarith [keepsMem_next, keepsMem_fault, State.memWf_mk, State.mem_wf, State.piers_wf, fullReset_memWf]

theorem execPwrGoodFall_memWf {s : State} : KeepsMem (execPwrGoodFall s) := by
  unfold execPwrGoodFall
  grind -ring -linarith [keepsMem_next, keepsMem_fault, State.memWf_mk, State.mem_wf, State.piers_wf, fullReset_memWf]

theorem endVerbs_memWf {p : Nat} {s : State} (hs : s.memWf = true) : (endVerbs p s).memWf = true := by
  unfold endVerbs
  grind -ring -linarith [State.memWf_mk, State.mem_wf, State.piers_wf, foldl_memWf, respond_memWf]

theorem warmSpan_memWf {k : Nat} {s : State} (hs : s.memWf = true) : (warmSpan k s).memWf = true := by
  unfold warmSpan
  grind -ring -linarith [State.modSpan_memWf, dropBatch_memWf, abortPiers_memWf, replayBatch_memWf]

theorem restartStreams_memWf {s : State} (hs : s.memWf = true) : (restartStreams s).memWf = true := by
  unfold restartStreams
  grind -ring -linarith [State.memWf_mk, State.mem_wf, State.piers_wf]

theorem rebootWarm_memWf {s : State} (hs : s.memWf = true) : (rebootWarm s).memWf = true := by
  unfold rebootWarm
  grind -ring -linarith [State.memWf_mk, State.mem_wf, State.piers_wf]

theorem warmReset_memWf {p tag : Nat} {s : State} (hs : s.memWf = true) : (warmReset p tag s).memWf = true := by
  unfold warmReset
  grind -ring -linarith [State.memWf_mk, State.mem_wf, State.piers_wf, foldl_memWf, warmSpan_memWf, endVerbs_memWf,
    restartStreams_memWf, rewriteAll_memWf, rebootWarm_memWf, blankPiers_memWf, State.resetRegs_memWf,
    State.bump_memWf, buddyAgain_memWf, clockCause_memWf, startSpareTests_memWf, reviseDegraded_memWf, respond_memWf,
    trySchedule_memWf]

theorem execWarmReset_memWf {p tag : Nat} {s : State} (hs : s.memWf = true) : KeepsMem (execWarmReset p tag s) := by
  unfold execWarmReset
  grind -ring -linarith [keepsMem_next, keepsMem_fault, respond_memWf, warmReset_memWf]

theorem spanResets_memWf {mask : Nat} {s : State} (hs : s.memWf = true) : (spanResets mask s).memWf = true := by
  unfold spanResets
  grind -ring -linarith [foldl_memWf, spanResetCmd_memWf]

theorem execSpanReset_memWf {p mask : Nat} {s : State} (hs : s.memWf = true) : KeepsMem (execSpanReset p mask s) := by
  unfold execSpanReset
  grind -ring -linarith [keepsMem_next, keepsMem_fault, spanResets_memWf]

theorem pierResetCmd_memWf {q : Nat} {s : State} (hs : s.memWf = true) : (pierResetCmd q s).memWf = true := by
  unfold pierResetCmd
  grind -ring -linarith [State.bump_memWf, State.clearPierRegs_memWf, modPier_memWf, blankPier_memWf, resetSpan_memWf,
    Pier.loadBank_memWf]

theorem execPierReset_memWf {p q : Nat} {s : State} (hs : s.memWf = true) : KeepsMem (execPierReset p q s) := by
  unfold execPierReset
  grind -ring -linarith [keepsMem_next, keepsMem_fault, raise_memWf, pierResetCmd_memWf]

theorem execTapInstruction_memWf {ir : Nat} {data : List Bool} {s : State} (hs : s.memWf = true) :
    KeepsMem (execTapInstruction ir data s) := by
  unfold execTapInstruction
  grind -ring -linarith [keepsMem_next, keepsMem_fault, State.memWf_mk, State.mem_wf, State.piers_wf, send_memWf]

theorem execTrstNAssertion_memWf {s : State} (hs : s.memWf = true) : KeepsMem (execTrstNAssertion s) := by
  unfold execTrstNAssertion
  grind -ring -linarith [keepsMem_next, keepsMem_fault, State.memWf_mk, State.mem_wf, State.piers_wf]

/-! ### RegWrite -/

theorem latchTime_memWf {s : State} (hs : s.memWf = true) : (latchTime s).memWf = true := by
  unfold latchTime
  grind -ring -linarith [State.memWf_mk, State.mem_wf, State.piers_wf]

theorem readRegs_memWf {as : List Nat} {s : State} (hs : s.memWf = true) :
    (readRegs as s).2.memWf = true := by
  induction as generalizing s with
  | nil => exact hs
  | cons a r ih =>
    refine ih ?_
    split
    · exact latchTime_memWf hs
    · exact hs

theorem execReadReg_memWf {r : VerbReq} {addrs : List Nat} {s : State} (hs : s.memWf = true) :
    KeepsMem (execReadReg r addrs s) := by
  unfold execReadReg
  grind -ring -linarith [keepsMem_next, keepsMem_fault, onVerb_memWf, respond_memWf, readRegs_memWf]

theorem execTbNsLo_memWf {p : Nat} {s : State} (hs : s.memWf = true) : KeepsMem (execTbNsLo p s) := by
  unfold execTbNsLo
  grind -ring -linarith [keepsMem_next, keepsMem_fault, latchTime_memWf]

theorem clearCounters_memWf {partner : Bool} {a : Nat} {s : State} (hs : s.memWf = true) :
    (clearCounters partner a s).memWf = true := by
  unfold clearCounters
  grind -ring -linarith [foldl_memWf, setReg_memWf, State.clearRegs_memWf]

theorem execCounterClear_memWf {p a : Nat} {s : State} (hs : s.memWf = true) : KeepsMem (execCounterClear p a s) := by
  unfold execCounterClear
  grind -ring -linarith [keepsMem_next, keepsMem_fault, clearCounters_memWf]

theorem writeCacheSteps_memWf {v : Nat} {s : State} (hs : s.memWf = true) : (writeCacheSteps v s).2.memWf = true := by
  unfold writeCacheSteps
  grind -ring -linarith [State.memWf_mk, State.mem_wf, State.piers_wf, zeroMem_memWf, State.setDreg_memWf]

theorem execCacheSteps_memWf {p v : Nat} {s : State} (hs : s.memWf = true) : KeepsMem (execCacheSteps p v s) := by
  unfold execCacheSteps
  grind -ring -linarith [keepsMem_next, keepsMem_fault, writeCacheSteps_memWf]

theorem writeWakeHi_memWf {v : Nat} {s : State} (hs : s.memWf = true) : (writeWakeHi v s).memWf = true := by
  unfold writeWakeHi
  grind -ring -linarith [State.memWf_mk, State.mem_wf, State.piers_wf, State.setDreg_memWf]

theorem execWakeAtHi_memWf {p v : Nat} {s : State} (hs : s.memWf = true) : KeepsMem (execWakeAtHi p v s) := by
  unfold execWakeAtHi
  grind -ring -linarith [keepsMem_next, keepsMem_fault, writeWakeHi_memWf]

theorem writeField_memWf {f : Fld} {i v : Nat} {s : State} (hs : s.memWf = true) :
    (writeField f i v s).memWf = true := by
  unfold writeField
  grind -ring -linarith [State.modSlot_memWf, setReg_memWf]

theorem writeRto_memWf {v : Nat} {s : State} (hs : s.memWf = true) : (writeRto v s).memWf = true := by
  unfold writeRto
  grind -ring -linarith [writeField_memWf]

theorem writePlain_memWf {a : Nat} {v : Nat} {s : State} (hs : s.memWf = true) :
    (writePlain a v s).memWf = true := by
  unfold writePlain
  refine ite_memWf (writeRto_memWf hs) ?_
  extract_lets t keep
  have ht : t.memWf = true := foldl_memWf (fun _ _ h => ite_memWf h (writeField_memWf h)) hs
  have hkeep : ∀ n s t, t.memWf = true → (keep n s t).memWf = true := by
    intro n s t ht
    unfold keep
    split
    · exact ht
    · exact State.modNet_memWf ht
  exact ite_memWf (clockCause_memWf ht) (ite_memWf (State.setDreg_memWf ht)
    (ite_memWf (hkeep 1 s _ (hkeep 0 s t ht)) (ite_memWf (linkLost_memWf ht) ht)))

theorem writeStandby_memWf {v : Nat} {s : State} (hs : s.memWf = true) : (writeStandby v s).memWf = true := by
  unfold writeStandby
  grind -ring -linarith [writeField_memWf, standbyReq_memWf]

/-- The state that one pair of a WRITE_REG leaves. -/
def WrOut.state : WrOut → State
  | .go s | .stop _ s | .wait _ s | .done s => s

theorem WrOut.ite_state_memWf {c : Prop} [Decidable c] {o p : WrOut} (ho : o.state.memWf = true)
    (hp : p.state.memWf = true) :
    (if c then o else p).state.memWf = true := by split <;> assumption

theorem winCommand_memWf {p v : Nat} {s : State} (hs : s.memWf = true) : (winCommand p v s).state.memWf = true := by
  unfold winCommand
  extract_lets w run r
  have hrun : ∀ r : Nat × State, r.2.memWf = true → (run r).state.memWf = true := fun r hr =>
    WrOut.ite_state_memWf (o := .go _) (p := .stop _ _) (setWinResult_memWf hr) (setWinResult_memWf hr)
  exact WrOut.ite_state_memWf (hrun _ (windowOpen_memWf hs)) (WrOut.ite_state_memWf (hrun _ (windowClose_memWf hs))
    (WrOut.ite_state_memWf
    (WrOut.ite_state_memWf (o := .wait _ _) (p := .stop _ _) (setWinResult_memWf (windowDrain_memWf hs))
      (setWinResult_memWf (windowDrain_memWf hs)))
    hs))

theorem writeOne_memWf {p tag : Nat} {remote : List Byte} {a v : Nat} {s : State} (hs : s.memWf = true) :
    (writeOne p tag remote a v s).state.memWf = true := by
  unfold writeOne
  extract_lets code
  have hcode : ∀ r : Nat × State, r.2.memWf = true → (code r).state.memWf = true := fun r hr =>
    by
    unfold code
    split
    · exact hr
    · exact hr
  refine WrOut.ite_state_memWf (winCommand_memWf hs) ?_
  refine WrOut.ite_state_memWf (WrOut.ite_state_memWf (hcode _ (sysCommand_memWf hs)) hs) ?_
  refine WrOut.ite_state_memWf (WrOut.ite_state_memWf hs (WrOut.ite_state_memWf hs (warmReset_memWf hs))) ?_
  refine WrOut.ite_state_memWf (spanResets_memWf hs) ?_
  refine WrOut.ite_state_memWf (ite_memWf (pierResetCmd_memWf hs) hs) ?_
  refine WrOut.ite_state_memWf (portReset_memWf hs) ?_
  refine WrOut.ite_state_memWf (writeStandby_memWf hs) ?_
  refine WrOut.ite_state_memWf (writeWakeHi_memWf hs) ?_
  refine WrOut.ite_state_memWf (hcode _ (writeCacheSteps_memWf hs)) ?_
  refine WrOut.ite_state_memWf (ite_memWf (lieGoCmd_memWf (ite_memWf (lieAbortCmd_memWf hs) hs)) (ite_memWf
    (lieAbortCmd_memWf hs) hs)) ?_
  exact WrOut.ite_state_memWf (ite_memWf (clearCounters_memWf hs) hs) (writePlain_memWf hs)

theorem applyPairs_memWf {p tag : Nat} {remote : List Byte} {ps : List (Nat × Nat)} {s : State} (hs : s.memWf = true) :
    (applyPairs p tag remote ps s).memWf = true := by
  induction ps generalizing s with
  | nil => exact respond_memWf hs
  | cons e r ih =>
    obtain ⟨a, v⟩ := e
    rw [applyPairs]
    have h1 : (writeOne p tag remote a v s).state.memWf = true := writeOne_memWf hs
    split <;> rename_i h <;> rw [h] at h1
    · exact ih h1
    · exact respond_memWf h1
    · exact h1
    · exact h1

theorem execWriteReg_memWf {r : VerbReq} {pairs : List (Nat × Nat)} {remote : List Byte} {s : State}
    (hs : s.memWf = true) :
    KeepsMem (execWriteReg r pairs remote s) := by
  unfold execWriteReg
  grind -ring -linarith [keepsMem_next, keepsMem_fault, onVerb_memWf, respond_memWf, raise_memWf, applyPairs_memWf]

theorem execWindowDrainDone_memWf {w : Nat} {s : State} (hs : s.memWf = true) : KeepsMem (execWindowDrainDone w s) := by
  unfold execWindowDrainDone
  grind -ring -linarith [keepsMem_next, keepsMem_fault, State.memWf_mk, State.mem_wf, State.piers_wf, windowDrained_memWf,
    applyPairs_memWf]

/-! ### Sessions -/

theorem maskFor_memWf {se : Nat} {s : State} (hs : s.memWf = true) : (maskFor se s).2.memWf = true := by
  unfold maskFor
  grind -ring -linarith [State.draw_memWf]

theorem bindSession_memWf {p se tag : Nat} {pol : Policy} {mask : Block} {s0 : State} (hs0 : s0.memWf = true) :
    (bindSession p se tag pol mask s0).memWf = true := by
  unfold bindSession
  grind -ring -linarith [State.memWf_mk, State.mem_wf, State.piers_wf, State.modSession_memWf]

theorem setPolicy_memWf {p tag : Nat} {o : PolicyOp} {s : State} (hs : s.memWf = true) :
    (setPolicy p tag o s).memWf = true := by
  unfold setPolicy
  grind -ring -linarith [State.memWf_mk, State.mem_wf, State.piers_wf, respond_memWf, closeSession_memWf, respondFault_memWf,
    lieOwn_memWf, maskFor_memWf, send_memWf, bindSession_memWf]

theorem execSetPolicy_memWf {r : VerbReq} {o : PolicyOp} {s : State} (hs : s.memWf = true) :
    KeepsMem (execSetPolicy r o s) := by
  unfold execSetPolicy
  grind -ring -linarith [keepsMem_next, keepsMem_fault, onVerb_memWf, respond_memWf, setPolicy_memWf]

theorem execMirroredSessionStateAck_memWf {se : Nat} {s : State} (hs : s.memWf = true) :
    KeepsMem (execMirroredSessionStateAck se s) := by
  unfold execMirroredSessionStateAck
  grind -ring -linarith [keepsMem_next, keepsMem_fault, State.memWf_mk, State.mem_wf, State.piers_wf, onPeer_memWf, respond_memWf,
    bindSession_memWf]

/-! ### Dispatch -/

theorem exec_memWf {i : Instr} {s : State} (hs : s.memWf = true) : KeepsMem (exec i s) := by
  cases i with
  | nop => exact execNop_memWf hs
  | loop => exact execLoop_memWf hs
  | call => exact execCall_memWf hs
  | ret => exact execRet_memWf hs
  | halt => exact execHalt_memWf hs
  | waitc => exact execWaitc_memWf hs
  | waitt => exact execWaitt_memWf hs
  | launch => exact execLaunch_memWf hs
  | ptok => exact execPtok_memWf hs
  | aset => exact execAset_memWf hs
  | astr => exact execAstr_memWf hs
  | aadd => exact execAadd_memWf hs
  | lparm => exact execLparm_memWf hs
  | arm => exact execArm_memWf hs
  | rel => exact execRel_memWf hs
  | chk => exact execChk_memWf hs
  | dsend => exact execDsend_memWf hs
  | hld => exact execHld_memWf hs
  | hst => exact execHst_memWf hs
  | hchk => exact execHchk_memWf hs
  | tld => exact execTld_memWf hs
  | tst => exact execTst_memWf hs
  | cld => exact execCld_memWf hs
  | mvld => exact execMvld_memWf hs
  | tcfg => exact execTcfg_memWf hs
  | ntt => exact execNtt_memWf hs
  | intt => exact execIntt_memWf hs
  | mmul => exact execMmul_memWf hs
  | mmac => exact execMmac_memWf hs
  | emul => exact execEmul_memWf hs
  | emac => exact execEmac_memWf hs
  | spin => exact execSpin_memWf hs
  | sbld => exact execSbld_memWf hs
  | skld => exact execSkld_memWf hs
  | fsse => exact execFsse_memWf hs
  | loadImage => exact execLoadImage_memWf hs
  | loadImageReplaceDrained => exact execLoadImageReplaceDrained_memWf hs
  | installKeyset => exact execInstallKeyset_memWf hs
  | eraseKeyset => exact execEraseKeyset_memWf hs
  | eraseKeysetDone => exact execEraseKeysetDone_memWf hs
  | attest => exact execAttest_memWf hs
  | updateFw => exact execUpdateFw_memWf hs
  | setPolicy => exact execSetPolicy_memWf hs
  | sessionCloseDone => exact execSessionCloseDone_memWf hs
  | exportWeights => exact execExportWeights_memWf hs
  | readReg => exact execReadReg_memWf hs
  | writeReg => exact execWriteReg_memWf hs
  | unknownVerb => exact execUnknownVerb_memWf hs
  | windowOpen => exact execWindowOpen_memWf hs
  | windowClose => exact execWindowClose_memWf hs
  | windowCloseDrain => exact execWindowCloseDrain_memWf hs
  | windowDrainDone => exact execWindowDrainDone_memWf hs
  | sysCommand => exact execSysCommand_memWf hs
  | warmReset => exact execWarmReset_memWf hs
  | spanReset => exact execSpanReset_memWf hs
  | pierReset => exact execPierReset_memWf hs
  | spanResetDone => exact execSpanResetDone_memWf hs
  | portReset => exact execPortReset_memWf hs
  | standbyReqGddrKept => exact execStandbyReqGddrKept_memWf hs
  | standbyReqGddrOff => exact execStandbyReqGddrOff_memWf hs
  | standbyEntry => exact execStandbyEntry_memWf hs
  | counterClear => exact execCounterClear_memWf hs
  | imemWrite => exact execImemWrite_memWf hs
  | swapArm => exact execSwapArm_memWf hs
  | go => exact execGo_memWf hs
  | abort => exact execAbort_memWf hs
  | cacheSteps => exact execCacheSteps_memWf hs
  | wakeAtHi => exact execWakeAtHi_memWf hs
  | tbNsLo => exact execTbNsLo_memWf hs
  | windowScan => exact execWindowScan_memWf hs
  | mirrorAck => exact execMirrorAck_memWf hs
  | mirrorRecords => exact execMirrorRecords_memWf hs
  | commitAck => exact execCommitAck_memWf hs
  | batchWait => exact execBatchWait_memWf hs
  | batchPrepare => exact execBatchPrepare_memWf hs
  | launchTimestamp => exact execLaunchTimestamp_memWf hs
  | feedLaunch => exact execFeedLaunch_memWf hs
  | spanFreeze => exact execSpanFreeze_memWf hs
  | spanThaw => exact execSpanThaw_memWf hs
  | sbRangeFull => exact execSbRangeFull_memWf hs
  | sbDrainDone => exact execSbDrainDone_memWf hs
  | chuckDataArrival => exact execChuckDataArrival_memWf hs
  | chuckResume => exact execChuckResume_memWf hs
  | chuckTransferDone => exact execChuckTransferDone_memWf hs
  | chuckPageStop => exact execChuckPageStop_memWf hs
  | chuckRetry => exact execChuckRetry_memWf hs
  | chuckRemoteTimeout => exact execChuckRemoteTimeout_memWf hs
  | streamRemoteError => exact execStreamRemoteError_memWf hs
  | waittTarget => exact execWaittTarget_memWf hs
  | timedActionFire => exact execTimedActionFire_memWf hs
  | tokenWindowEnd => exact execTokenWindowEnd_memWf hs
  | deckRowArrival => exact execDeckRowArrival_memWf hs
  | flitReplay => exact execFlitReplay_memWf hs
  | flitDelivered => exact execFlitDelivered_memWf hs
  | ftqOverflow => exact execFtqOverflow_memWf hs
  | sendqOverflow => exact execSendqOverflow_memWf hs
  | pierSelfTestDone => exact execPierSelfTestDone_memWf hs
  | takeoverSliceWritten => exact execTakeoverSliceWritten_memWf hs
  | takeoverReverified => exact execTakeoverReverified_memWf hs
  | takeoverProgramWritten => exact execTakeoverProgramWritten_memWf hs
  | storeRepairDone => exact execStoreRepairDone_memWf hs
  | handoff => exact execHandoff_memWf hs
  | buddyLossTimeout => exact execBuddyLossTimeout_memWf hs
  | buddyTakeoverTimeout => exact execBuddyTakeoverTimeout_memWf hs
  | llmScrub => exact execLlmScrub_memWf hs
  | gddrScrub => exact execGddrScrub_memWf hs
  | gddrRefresh => exact execGddrRefresh_memWf hs
  | weightScrub => exact execWeightScrub_memWf hs
  | imemScrub => exact execImemScrub_memWf hs
  | gddrTrainingDone => exact execGddrTrainingDone_memWf hs
  | channelRetrainDone => exact execChannelRetrainDone_memWf hs
  | por => exact execPor_memWf
  | porCheckRetry => exact execPorCheckRetry_memWf hs
  | pin => exact execPin_memWf hs
  | pwrGoodFall => exact execPwrGoodFall_memWf
  | fwSvnBurn => exact execFwSvnBurn_memWf hs
  | rngFail => exact execRngFail_memWf hs
  | prochotOnset => exact execProchotOnset_memWf hs
  | prochotEnd => exact execProchotEnd_memWf hs
  | tempUpdate => exact execTempUpdate_memWf hs
  | throttleEnd => exact execThrottleEnd_memWf hs
  | supplyFault => exact execSupplyFault_memWf hs
  | fcActiveChange => exact execFcActiveChange_memWf hs
  | pstateDecision => exact execPstateDecision_memWf hs
  | pstateEntered => exact execPstateEntered_memWf hs
  | resumeStart => exact execResumeStart_memWf hs
  | wake => exact execWake_memWf hs
  | resumeDone => exact execResumeDone_memWf hs
  | sync => exact execSync_memWf hs
  | delayResp => exact execDelayResp_memWf hs
  | syncLoss => exact execSyncLoss_memWf hs
  | hello => exact execHello_memWf hs
  | reply => exact execReply_memWf hs
  | finish => exact execFinish_memWf hs
  | accept => exact execAccept_memWf hs
  | detach => exact execDetach_memWf hs
  | attachmentLoss => exact execAttachmentLoss_memWf hs
  | peerDown => exact execPeerDown_memWf hs
  | rdmaWrite => exact execRdmaWrite_memWf hs
  | rdmaRead => exact execRdmaRead_memWf hs
  | cnp => exact execCnp_memWf hs
  | roceRetransmit => exact execRoceRetransmit_memWf hs
  | arp => exact execArp_memWf hs
  | neighborDiscovery => exact execNeighborDiscovery_memWf hs
  | echoRequest => exact execEchoRequest_memWf hs
  | unsupportedFrame => exact execUnsupportedFrame_memWf hs
  | linkUp => exact execLinkUp_memWf hs
  | linkDown => exact execLinkDown_memWf hs
  | decryptShare => exact execDecryptShare_memWf hs
  | maskedInput => exact execMaskedInput_memWf hs
  | openMsg => exact execOpenMsg_memWf hs
  | returnCt => exact execReturnCt_memWf hs
  | poisonNotice => exact execPoisonNotice_memWf hs
  | ack => exact execAck_memWf hs
  | hxpRetransmit => exact execHxpRetransmit_memWf hs
  | hxpTimeout => exact execHxpTimeout_memWf hs
  | arrivedPlaced => exact execArrivedPlaced_memWf hs
  | releasedPlaced => exact execReleasedPlaced_memWf hs
  | lieOpStart => exact execLieOpStart_memWf hs
  | lieOpDone => exact execLieOpDone_memWf hs
  | resetNAssertion => exact execResetNAssertion_memWf
  | tapInstruction => exact execTapInstruction_memWf hs
  | trstNAssertion => exact execTrstNAssertion_memWf hs
  | followUp => exact execFollowUp_memWf hs
  | announce => exact execAnnounce_memWf hs
  | delayReq => exact execDelayReq_memWf hs
  | pfcFrame => exact execPfcFrame_memWf hs
  | hxpInvalidType => exact execHxpInvalidType_memWf hs
  | mirroredSessionStateAck => exact execMirroredSessionStateAck_memWf hs
  | buddyStripeFetch => exact execBuddyStripeFetch_memWf hs
  | peerConnectionReopen => exact execPeerConnectionReopen_memWf hs

/-! ### Tick -/

theorem tickTime_memWf {s : State} (hs : s.memWf = true) : (tickTime s).memWf = true := by
  unfold tickTime
  grind -ring -linarith [State.memWf_mk, State.mem_wf, State.piers_wf]

theorem tickThrottle_memWf {s : State} (hs : s.memWf = true) : (tickThrottle s).memWf = true := by
  unfold tickThrottle
  grind -ring -linarith [State.memWf_mk, State.mem_wf, State.piers_wf, State.bump_memWf]

theorem spanFc_memWf {k : Nat} {s : State} (hs : s.memWf = true) : (spanFc k s).memWf = true := by
  unfold spanFc
  grind -ring -linarith [foldl_memWf, launchRecvs_memWf, advanceSpan_memWf, chuckFc_memWf, pier_memWf, findErrors_memWf,
    endBatch_memWf]

theorem sortRecords_memWf {n : Nat} {s : State} (hs : s.memWf = true) :
    (sortRecords n s).memWf = true := by
  unfold sortRecords
  extract_lets m at_ rs
  exact ite_memWf hs (foldl_memWf (fun _ _ => wr_memWf _ _ _) hs)

theorem fcStep_memWf {s : State} (hs : s.memWf = true) : (fcStep s).memWf = true := by
  unfold fcStep
  grind -ring -linarith [State.memWf_mk, State.mem_wf, State.piers_wf, foldl_memWf, linkFc_memWf, sortRecords_memWf, fetchAll_memWf,
    spanFc_memWf]

theorem tickFc_memWf {s : State} (hs : s.memWf = true) : (tickFc s).memWf = true := by
  unfold tickFc
  grind -ring -linarith [State.memWf_mk, State.mem_wf, State.piers_wf, fcStep_memWf]

theorem tickScrub_memWf {f : Nat} {s : State} (hs : s.memWf = true) : (tickScrub f s).memWf = true := by
  unfold tickScrub
  grind -ring -linarith [State.memWf_mk, State.mem_wf, State.piers_wf]

theorem tick_memWf {s : State} (hs : s.memWf = true) : (tick s).memWf = true := by
  unfold tick
  grind -ring -linarith [State.memWf_mk, State.mem_wf, State.piers_wf, tickScrub_memWf, tickFc_memWf, tickThrottle_memWf,
    tickTime_memWf, exportTick_memWf]

/-! ### Step -/

theorem step_memWf {s : State} (hs : s.memWf = true) : KeepsMem (step s) := by
  unfold step
  grind -ring -linarith [keepsMem_next, keepsMem_fault, State.memWf_mk, State.mem_wf, State.piers_wf, exec_memWf, tick_memWf]

/-- Settles O2: each meaning keeps the canonical form, and so does the tick. -/
theorem everyStepKeepsMemoryCanonical : Obligations.EveryStepKeepsMemoryCanonical :=
  fun _ t hs ht => step_memWf hs t ht

end Sys2Proof.Machine

/-! What an issue changes: the next states of the instructions of a sequencer, put together from the updates that make them. -/
namespace Sys2Proof.Machine

/-! ### Tables -/

theorem tput_tput_same {α : Type} (m : List (Nat × α)) (k : Nat) (v w : α) : tput (tput m k v) k w = tput m k w := by
  induction m with
  | nil => simp [tput]
  | cons e m ih =>
    obtain ⟨j, u⟩ := e
    by_cases h : k = j <;> simp [tput, h, ih]

/-- A table cut by a test of its keys: the entries that pass it as before, the default for the others. -/
theorem tget_filter_key {α : Type} (d : α) (m : List (Nat × α)) (p : Nat → Prop) [DecidablePred p] (k : Nat) :
    tget d (m.filter fun e => decide (p e.1)) k = if p k then tget d m k else d := by
  induction m with
  | nil => simp [tget]
  | cons e m ih =>
    obtain ⟨j, v⟩ := e
    by_cases hk : k = j
    · subst hk
      by_cases hp : p k
      · simp [tget, hp]
      · simpa [hp] using ih
    · by_cases hp : p j
      · simpa [tget, hk, hp] using ih
      · simpa [tget, hk, hp] using ih

theorem tget_append {α : Type} (d : α) (m n : List (Nat × α)) (k : Nat) : tget d (m ++ n) k = tget (tget d n k) m k := by
  induction m with
  | nil => rfl
  | cons e m ih =>
    obtain ⟨j, v⟩ := e
    simp only [List.cons_append, tget, ih]

/-! ### Updates of a loaded span -/

theorem tfind_isSome_tput {α : Type} (m : List (Nat × α)) (k : Nat) (v : α) {j : Nat} (h : (tfind m j).isSome) :
    (tfind (tput m k v) j).isSome := by
  by_cases hj : j = k
  · rw [hj, tfind_tput_same]; rfl
  · rwa [tfind_tput_ne _ _ hj]

section
variable {s : State} {k : Nat} {f : Span → Span}

theorem modSpan_isSome {j : Nat} (h : (tfind s.spans j).isSome) : (tfind (s.modSpan k f).spans j).isSome := by
  by_cases hk : (tfind s.spans k).isSome
  · rw [modSpan_loaded s k f hk]
    exact tfind_isSome_tput _ _ _ h
  · rw [modSpan_unloaded s k f (by simpa using hk)]
    exact h

theorem span_modSpan_same (h : (tfind s.spans k).isSome) : (s.modSpan k f).span k = f (s.span k) := by
  rw [modSpan_loaded s k f h, span_setSpan_same]

theorem span_modSpan_ne {j : Nat} (h : j ≠ k) : (s.modSpan k f).span j = s.span j := by
  by_cases hk : (tfind s.spans k).isSome
  · rw [modSpan_loaded s k f hk, span_setSpan_ne _ _ h]
  · rw [modSpan_unloaded s k f (by simpa using hk)]

@[simp] theorem modSpan_piers : (s.modSpan k f).piers = s.piers := by rw [modSpan_frame]

@[simp] theorem modSpan_regs : (s.modSpan k f).regs = s.regs := by rw [modSpan_frame]

@[simp] theorem modSpan_clk : (s.modSpan k f).clk = s.clk := by rw [modSpan_frame]

@[simp] theorem modSpan_mem : (s.modSpan k f).mem = s.mem := by rw [modSpan_frame]

@[simp] theorem modSpan_pending : (s.modSpan k f).pending = s.pending := by rw [modSpan_frame]

@[simp] theorem pier_modSpan (q : Nat) : (s.modSpan k f).pier q = s.pier q := by simp only [State.pier, modSpan_piers]

end

@[simp] theorem span_setPier (s : State) (p : Nat) (x : Pier) (k : Nat) : (s.setPier p x).span k = s.span k := rfl
@[simp] theorem span_modPier (s : State) (p : Nat) (f : Pier → Pier) (k : Nat) : (s.modPier p f).span k = s.span k := rfl
@[simp] theorem span_modSeq (s : State) (p : Nat) (f : Seq → Seq) (k : Nat) : (s.modSeq p f).span k = s.span k := rfl

@[simp] theorem span_setReg (s : State) (f : Fld) (p i v k : Nat) : (s.setReg f p i v).span k = s.span k := rfl
@[simp] theorem pier_setReg (s : State) (f : Fld) (p i v q : Nat) : (s.setReg f p i v).pier q = s.pier q := rfl

/-! ### What an issue counts and leaves -/

/-- The state in which the effect of an instruction that issues on pier `p` begins: ISSUED has counted it. -/
def State.counted (s : State) (p : Nat) : State := s.bump2 seqIssuedLo seqIssuedHi p 0 1

@[simp] theorem counted_clk (s : State) (p : Nat) : (s.counted p).clk = s.clk := rfl
@[simp] theorem counted_now (s : State) (p : Nat) : (s.counted p).now = s.now := rfl
@[simp] theorem counted_spans (s : State) (p : Nat) : (s.counted p).spans = s.spans := rfl
@[simp] theorem counted_mem (s : State) (p : Nat) : (s.counted p).mem = s.mem := rfl
@[simp] theorem counted_pending (s : State) (p : Nat) : (s.counted p).pending = s.pending := rfl
@[simp] theorem pier_counted (s : State) (p q : Nat) : (s.counted p).pier q = s.pier q := rfl
@[simp] theorem span_counted (s : State) (p k : Nat) : (s.counted p).span k = s.span k := rfl

theorem issued_counted (s : State) (p : Nat) : Issued p s (s.counted p) :=
  ⟨issued_bump2 s p, fun _ _ => rfl, rfl⟩

theorem regsBut_counted (s : State) (p : Nat) : regsBut (issuedKeys p) s (s.counted p) := issued_regsBut s p

section
variable {s t : State} {p : Nat}

theorem Issued.piersBut (h : Issued p s t) : piersBut p s t := h.2.1

theorem Issued.setPier (h : Issued p s t) (x : Pier) : Issued p s (t.setPier p x) := by
  obtain ⟨hcount, hpiers, hframe⟩ := h
  exact ⟨hcount, fun q hq => (pier_setPier_ne t x hq).trans (hpiers q hq), by rw [hframe]; rfl⟩

theorem Issued.modPier (h : Issued p s t) (f : Pier → Pier) : Issued p s (t.modPier p f) := h.setPier _

theorem Issued.modSeq (h : Issued p s t) (f : Seq → Seq) : Issued p s (t.modSeq p f) := h.setPier _

theorem Issued.modSpan (h : Issued p s t) (k : Nat) (f : Span → Span) : Issued p s (t.modSpan k f) := by
  obtain ⟨hcount, hpiers, hframe⟩ := h
  refine ⟨by simpa only [issuedCount, State.reg, modSpan_regs] using hcount,
    fun q hq => (pier_modSpan q).trans (hpiers q hq), ?_⟩
  rw [modSpan_frame, hframe]

/-- A register other than ISSUED of the pier may be written. -/
theorem Issued.setReg (h : Issued p s t) {f : Fld} {q i : Nat} (v : Nat) (hk : f.key q i ∉ issuedKeys p) :
    Issued p s (t.setReg f q i v) := by
  obtain ⟨hcount, hpiers, hframe⟩ := h
  simp only [issuedKeys, List.mem_cons, List.not_mem_nil, or_false, not_or] at hk
  refine ⟨?_, hpiers, by rw [hframe]; rfl⟩
  rw [issuedCount, reg_setReg_ne _ _ (Ne.symm hk.1), reg_setReg_ne _ _ (Ne.symm hk.2)]
  exact hcount

end

/-! ### An issue that changes its pier alone -/

section
variable {i : Iss} {s t : State} {x : Pier}

theorem pierStep_counted (i : Iss) (s : State) : PierStep i s (s.counted i.pier) (s.pier i.pier) :=
  ⟨issued_counted s i.pier, regsBut_counted s i.pier, rfl, rfl⟩

theorem PierStep.setPier (h : PierStep i s t x) (y : Pier) : PierStep i s (t.setPier i.pier y) y := by
  obtain ⟨hissued, hregs, hspans, -⟩ := h
  exact ⟨hissued.setPier y, hregs, hspans, pier_setPier_same _ _ _⟩

theorem PierStep.modPier (h : PierStep i s t x) (f : Pier → Pier) : PierStep i s (t.modPier i.pier f) (f x) := by
  have hx : t.pier i.pier = x := h.2.2.2
  rw [modPier_eq, hx]
  exact h.setPier _

theorem PierStep.modSeq (h : PierStep i s t x) (f : Seq → Seq) :
    PierStep i s (t.modSeq i.pier f) { x with seq := f x.seq } := h.modPier _

/-- The instruction passed: the pier is `x` past the instruction. -/
theorem PierStep.past (h : PierStep i s t x) (c : Ctx) :
    PierStep i s (t.modSeq i.pier fun q => q.advance c.fc i.next) (x.past i c) := h.modSeq _

end

/-! ### The two branches of a condition -/

theorem ite_eq_then_or_else {α : Type} (c : Prop) [Decidable c] (a b : α) : (if c then a else b) = a ∨ (if c then a else b) = b :=
  (Decidable.em c).imp (fun h => if_pos h) fun h => if_neg h

/-! ### An issue that raises a hold -/

theorem holdsRaised_notMem_issuedKeys (p : Nat) : spnHoldsRaised.key p 0 ∉ issuedKeys p := by
  simp [issuedKeys, Fld.key, spnHoldsRaised, seqIssuedLo, seqIssuedHi] <;> omega

section
variable {i : Iss} {s t : State} {x : Pier} {k : Nat} {src : HoldSrc} {waits : List Nat} {after : HoldThen}

theorem raiseHold_eq (k p : Nat) (src : HoldSrc) (waits : List Nat) (after : HoldThen) (s : State) :
    raiseHold k p src waits after s = (s.modSpan k fun sp =>
      { sp with holds := sp.holds ++ [{ src := src, pier := p, waits := waits, since := s.clk.fc, after := after }] }).setReg
        spnHoldsRaised p 0 (satAdd 32 (s.reg spnHoldsRaised p 0) 1) := by
  rw [raiseHold, bump_eq, State.reg, modSpan_regs, ← State.reg]
  rfl

theorem PierStep.raiseHold (h : PierStep i s t x) (hk : (tfind s.spans k).isSome) (src : HoldSrc) (waits : List Nat)
    (after : HoldThen) : HoldStep i k src waits after s (raiseHold k i.pier src waits after t) x := by
  obtain ⟨hissued, hregs, hspans, hx⟩ := h
  have hreg : t.reg spnHoldsRaised i.pier 0 = s.reg spnHoldsRaised i.pier 0 :=
    hregs _ (holdsRaised_notMem_issuedKeys _) _
  have hspan : t.span k = s.span k := by rw [State.span, hspans, ← State.span]
  have hclk : t.clk = s.clk := by rw [hissued.2.2]
  rw [raiseHold_eq, hreg]
  refine ⟨(hissued.modSpan _ _).setReg _ (holdsRaised_notMem_issuedKeys _), ?_, ?_, ?_, ?_, ?_⟩
  · refine regsBut.setReg ?_ _ (.head _)
    intro n hn d
    rw [modSpan_regs]
    exact hregs n (fun hm => hn (.tail _ hm)) d
  · rw [reg_setReg_same]
    exact Nat.mod_eq_of_lt (by simp only [satAdd, spnHoldsRaised]; omega)
  · rw [← hx]
    exact pier_modSpan _
  · intro j hj
    refine (span_modSpan_ne hj).trans ?_
    rw [State.span, hspans, ← State.span]
  · refine (span_modSpan_same (by rwa [hspans])).trans ?_
    rw [hspan, hclk]

theorem HoldStep.setPier (h : HoldStep i k src waits after s t x) (y : Pier) :
    HoldStep i k src waits after s (t.setPier i.pier y) y := by
  obtain ⟨hissued, hregs, hcount, -, hspans, hspan⟩ := h
  exact ⟨hissued.setPier y, hregs, hcount, pier_setPier_same _ _ _, hspans, hspan⟩

theorem HoldStep.modPier (h : HoldStep i k src waits after s t x) (f : Pier → Pier) :
    HoldStep i k src waits after s (t.modPier i.pier f) (f x) := by
  have hx : t.pier i.pier = x := h.2.2.2.1
  rw [modPier_eq, hx]
  exact h.setPier _

theorem HoldStep.past (h : HoldStep i k src waits after s t x) (c : Ctx) :
    HoldStep i k src waits after s (t.modSeq i.pier fun q => q.advance c.fc i.next) (x.past i c) := h.modPier _

end

/-! ### The effect of an instruction and its next state -/

section
variable {i : Iss} {s : State} {c : Ctx}

/-- An instruction that issues runs its effect on the counted state. -/
theorem issueWith_counted (h : Issues i s c) (eff : Ctx → State → State) :
    issueWith i s eff = .next (eff c (s.counted i.pier)) := issueWith_issues i s c eff h

/-- An instruction that issues and changes no program state but the PC is then passed. -/
theorem issue_counted (h : Issues i s c) (eff : Ctx → State → State) :
    issue i s eff = .next ((eff c (s.counted i.pier)).modSeq i.pier fun q => q.advance c.fc i.next) := by
  rw [issue_issues i s c eff h, (issues_ctx i s c h).1]
  rfl

/-- An instruction that changes its sequencer alone. -/
theorem issueWith_modSeq (h : Issues i s c) (f : Ctx → Seq → Seq) :
    ∃ t, issueWith i s (fun c s => s.modSeq c.p (f c)) = .next t ∧ SeqStep i s t (f c (s.pier i.pier).seq) := by
  refine ⟨_, issueWith_counted h _, ?_⟩
  rw [(issues_ctx i s c h).1]
  exact (pierStep_counted i s).modSeq _

/-- An instruction that changes registers of its sequencer, which then passes it. -/
theorem issue_modSeq (h : Issues i s c) (f : Seq → Seq) :
    ∃ t, issue i s (fun c s => s.modSeq c.p f) = .next t ∧
      SeqStep i s t ((f (s.pier i.pier).seq).advance c.fc i.next) := by
  refine ⟨_, issue_counted h _, ?_⟩
  rw [(issues_ctx i s c h).1]
  exact ((pierStep_counted i s).modSeq f).past c

end

end Sys2Proof.Machine

/-! The instructions of Table 10-3 that act on the sequencer itself: address registers, loops, routines, HALT and PTOK. -/
namespace Sys2Proof.Machine

/-! ### Address registers (R258) -/

section
variable (q : Seq)

/-- The sequencer with a value in address register `a`, dynamic or static. -/
def Seq.setA (q : Seq) (a : Nat) (v : W32) (dynamic : Bool) : Seq :=
  { q with a := tput q.a a v, dyn := if dynamic then a :: q.dyn.filter (· != a) else q.dyn.filter (· != a) }

@[simp] theorem areg_setA_same (a : Nat) (v : W32) (d : Bool) : (q.setA a v d).areg a = v := tget_tput_same _ _ _ _

theorem areg_setA_ne {a b : Nat} (v : W32) (d : Bool) (h : b ≠ a) : (q.setA a v d).areg b = q.areg b := tget_tput_ne _ _ _ h

theorem mem_dyn_setA_same (a : Nat) (v : W32) (d : Bool) : a ∈ (q.setA a v d).dyn ↔ d = true := by
  cases d <;> simp [Seq.setA]

theorem mem_dyn_setA_ne {a b : Nat} (v : W32) (d : Bool) (h : b ≠ a) : b ∈ (q.setA a v d).dyn ↔ b ∈ q.dyn := by
  cases d <;> simp [Seq.setA, h]

theorem setA_others {a : Nat} (v : W32) (d : Bool) : ∀ b, b ≠ a →
    (q.setA a v d).areg b = q.areg b ∧ (b ∈ (q.setA a v d).dyn ↔ b ∈ q.dyn) :=
  fun _ hb => ⟨areg_setA_ne q v d hb, mem_dyn_setA_ne q v d hb⟩

end

theorem exec_nop (i : Iss) (s : State) : exec (.nop i) s = issue i s fun _ s => s := rfl

theorem exec_aset (i : Iss) (a v : Nat) (s : State) : exec (.aset i a v) s =
    issue i s fun c s => s.modSeq c.p fun q => q.setA a (BitVec.ofNat 32 v) false := rfl

theorem exec_astr (i : Iss) (a l v : Nat) (s : State) : exec (.astr i a l v) s =
    issue i s fun c s => s.modSeq c.p fun q => { q with strides := tput q.strides (4 * a + l) (BitVec.ofNat 32 v) } := rfl

theorem exec_aadd (i : Iss) (d r v : Nat) (s : State) : exec (.aadd i d r v) s =
    issue i s fun c s => s.modSeq c.p fun q => q.setA d (q.areg r + BitVec.ofNat 32 v) (q.dyn.contains r) := rfl

theorem exec_lparm (i : Iss) (d w : Nat) (s : State) : exec (.lparm i d w) s =
    issue i s fun c s => s.modSeq c.p fun q => q.setA d (tget 0 q.params w) true := rfl

/-- The stride of a register and a level stands in a place of its own. -/
theorem stride_key_ne {a l b m : Nat} (hl : l < 4) (hm : m < 4) (h : (b, m) ≠ (a, l)) : 4 * b + m ≠ 4 * a + l := by
  intro e
  exact h (Prod.ext (by omega) (by omega))

/-- Settles O4: each of the five changes its sequencer and passes; what it changes is one register, or one stride. -/
theorem addressInstructions : Obligations.AddressInstructions := by
  intro i s c h q
  refine ⟨?_, fun a v => ?_, fun a l v hl => ?_, fun d r v => ?_, fun d w => ?_⟩
  · exact ⟨_, (exec_nop i s).trans (issue_counted h _), (pierStep_counted i s).past c⟩
  · obtain ⟨t, ht, hstep⟩ := issue_modSeq h fun q => q.setA a (BitVec.ofNat 32 v) false
    exact ⟨t, _, ht, hstep, rfl, areg_setA_same _ _ _ _, by simp [mem_dyn_setA_same], setA_others _ _ _⟩
  · obtain ⟨t, ht, hstep⟩ := issue_modSeq h fun q => { q with strides := tput q.strides (4 * a + l) (BitVec.ofNat 32 v) }
    exact ⟨t, _, ht, hstep, rfl, tget_tput_same _ _ _ _, fun b m hm hne => tget_tput_ne _ _ _ (stride_key_ne hl hm hne)⟩
  · obtain ⟨t, ht, hstep⟩ := issue_modSeq h fun q => q.setA d (q.areg r + BitVec.ofNat 32 v) (q.dyn.contains r)
    exact ⟨t, _, ht, hstep, rfl, areg_setA_same _ _ _ _, by simp [mem_dyn_setA_same, q], setA_others _ _ _⟩
  · obtain ⟨t, ht, hstep⟩ := issue_modSeq h fun q => q.setA d (tget 0 q.params w) true
    exact ⟨t, _, ht, hstep, rfl, areg_setA_same _ _ _ _, by simp [mem_dyn_setA_same], setA_others _ _ _⟩

/-! ### Loops (R254 to R257) -/

/-- The fold of `Seq.stepA` over some registers: each that is among them takes its step once, the others keep their value. -/
theorem tget_foldl_stepA (q : Seq) (l : Nat) (m : Int) (rs : List Nat) (hrs : rs.Nodup) (as : List (Nat × W32)) (a : Nat) :
    tget 0 (rs.foldl (fun a r => if q.stride r l = 0 then a
      else tput a r (BitVec.ofInt 32 ((tget 0 a r).toNat + m * (q.stride r l).toInt))) as) a =
    if a ∈ rs then BitVec.ofInt 32 ((tget 0 as a).toNat + m * (q.stride a l).toInt) else tget 0 as a := by
  induction rs generalizing as with
  | nil => simp
  | cons r rs ih =>
    obtain ⟨hr, hrs⟩ := List.nodup_cons.1 hrs
    rw [List.foldl_cons, ih hrs]
    by_cases hs : q.stride r l = 0
    · rw [if_pos hs]
      by_cases ha : a = r
      · subst ha; simp [hs, hr]
      · simp [ha]
    · rw [if_neg hs]
      by_cases ha : a = r
      · subst ha; simp [hr]
      · simp [ha, tget_tput_ne _ _ _ ha]

/-- A step of a level adds to every address register a multiple of its stride of the level, modulo 2^32. -/
theorem areg_stepA (q : Seq) (l : Nat) (m : Int) {a : Nat} (ha : a < 16) :
    (q.stepA l m).areg a = BitVec.ofInt 32 ((q.areg a).toNat + m * (q.stride a l).toInt) := by
  rw [Seq.areg, Seq.stepA]
  dsimp only
  rw [tget_foldl_stepA q l m (List.range 16) List.nodup_range, if_pos (List.mem_range.2 ha), ← Seq.areg]

theorem areg_stepA_one (q : Seq) (l : Nat) {a : Nat} (ha : a < 16) : (q.stepA l 1).areg a = q.areg a + q.stride a l := by
  rw [areg_stepA q l 1 ha, Int.one_mul, BitVec.ofInt_add, BitVec.ofInt_toInt, BitVec.ofInt_natCast, BitVec.ofNat_toNat,
    BitVec.setWidth_eq]

/-- Where no active body ends at `pc`, the loops stay and the PC counts on. -/
theorem loopEnd_no_end {ls : List LoopSt} {pc : Nat} (h : ∀ l ∈ ls.head?, l.last ≠ pc) (q : Seq) :
    loopEnd ls pc q = { q with loops := ls, pc := pc + 1 } := by
  cases ls with
  | nil => rfl
  | cons l ls => rw [loopEnd, if_neg (h l rfl)]

/-- Where the innermost body ends and iterations remain, its next iteration begins. -/
theorem loopEnd_again {l : LoopSt} {ls : List LoopSt} {pc : Nat} (hlast : l.last = pc) (hlc : l.lc + 1 < l.count) (q : Seq) :
    loopEnd (l :: ls) pc q = { q.stepA l.level 1 with
      loops := { l with lc := l.lc + 1 } :: ls, lc := tput q.lc l.level (l.lc + 1), pc := l.start } := by
  rw [loopEnd, if_pos hlast, if_pos hlc]

theorem loopEnd_frame (ls : List LoopSt) (pc : Nat) (q : Seq) : (loopEnd ls pc q).strides = q.strides ∧
    (loopEnd ls pc q).h = q.h ∧ (loopEnd ls pc q).stack = q.stack := by
  induction ls generalizing q with
  | nil => exact ⟨rfl, rfl, rfl⟩
  | cons l ls ih =>
    rw [loopEnd]
    split
    · split
      · exact ⟨rfl, rfl, rfl⟩
      · exact ih _
    · exact ⟨rfl, rfl, rfl⟩

/-- Settles O5: by the two arms of the loop's end that the statement names. -/
theorem passingAnInstruction : Obligations.PassingAnInstruction := by
  intro q fc next
  refine ⟨rfl, fun hno => ?_, fun l ls hloops hlast hlc => ?_⟩
  · rw [Seq.advance, loopEnd_no_end hno]
    exact ⟨rfl, rfl, rfl⟩
  · rw [Seq.advance, hloops, loopEnd_again hlast hlc]
    exact ⟨rfl, rfl, tget_tput_same _ _ _ _, fun a ha => areg_stepA_one q l.level ha⟩

theorem exec_loop (i : Iss) (level count body : Nat) (s : State) : exec (.loop i level count body) s =
    issueWith i s fun c s => s.modSeq c.p fun q =>
      { q.loopStart level count body with due := c.fc + i.next, fetched := false } := rfl

theorem loopStart_frame (q : Seq) (level count body : Nat) : (q.loopStart level count body).strides = q.strides ∧
    (q.loopStart level count body).h = q.h ∧ (q.loopStart level count body).stack = q.stack := by
  rw [Seq.loopStart]
  split
  · exact loopEnd_frame _ _ _
  · exact ⟨rfl, rfl, rfl⟩

theorem loopStart_some (q : Seq) (level : Nat) {count : Nat} (body : Nat) (h : 1 ≤ count) :
    q.loopStart level count body = { q with
      loops := { level := level, count := count, start := q.pc + 1, last := q.pc + body, lc := 0 } :: q.loops
      lc := tput q.lc level 0
      pc := q.pc + 1 } := by
  rw [Seq.loopStart, if_neg (by omega)]

theorem loopStart_zero (q : Seq) (level body : Nat) (h : ∀ l ∈ q.loops.head?, l.last ≠ q.pc + body) :
    q.loopStart level 0 body = { q with lc := tput q.lc level 0, loops := q.loops, pc := q.pc + body + 1 } := by
  rw [Seq.loopStart, if_pos rfl, loopEnd_no_end h]

/-- Settles O7: by whether COUNT is 0. -/
theorem loopInstruction : Obligations.LoopInstruction := by
  intro i s c level count body h q
  obtain ⟨t, ht, hstep⟩ := issueWith_modSeq h fun c q =>
    { q.loopStart level count body with due := c.fc + i.next, fetched := false }
  obtain ⟨hstrides, hh, hstack⟩ := loopStart_frame q level count body
  refine ⟨t, _, ht, hstep, rfl, hstrides, hh, hstack, fun hc => ?_, fun hc hno => ?_⟩
  · rw [loopStart_some _ _ _ hc]
    exact ⟨rfl, rfl, tget_tput_same _ _ _ _, rfl⟩
  · rw [hc, loopStart_zero _ _ _ hno]
    exact ⟨rfl, rfl, rfl⟩

/-! ### Routines (R271) -/

theorem exec_call (i : Iss) (id arg : Nat) (s : State) : exec (.call i id arg) s =
    issueWith i s fun c s => s.modSeq c.p fun q => { q.call id arg with due := c.fc + 1, fetched := false } := rfl

theorem exec_ret (i : Iss) (s : State) : exec (.ret i) s =
    issueWith i s fun c s => s.modSeq c.p fun q => q.ret.advance c.fc i.next := rfl

section
variable (q : Seq) (id arg : Nat)

/-- A routine finds the argument in A11 and the caller's A12 to A15; the others are 0. -/
theorem areg_call (a : Nat) : (q.call id arg).areg a =
    if a = 11 then BitVec.ofNat 32 arg else if 12 ≤ a then q.areg a else 0 := by
  exact (tget_tput _ _ _ _ _).trans (by rw [tget_filter_key 0 q.a (12 ≤ ·) a]; rfl)

/-- The frame of a call holds A0 to A11 of the caller. -/
theorem tget_frame_a {a : Nat} (h : a < 12) : tget 0 (q.a.filter fun e => decide (e.1 < 12)) a = q.areg a := by
  rw [tget_filter_key 0 q.a (· < 12) a, if_pos h]
  rfl

/-- Back at the caller A0 to A11 are those of the frame, and A12 to A15 stay. -/
theorem areg_ret {f : Frame} {r : List Frame} (h : q.stack = f :: r) (a : Nat) :
    q.ret.areg a = if a < 12 then tget 0 f.a a else q.areg a := by
  have hret : q.ret.areg a = tget 0 (f.a.filter (fun e => decide (e.1 < 12)) ++ q.a.filter fun e => decide (12 ≤ e.1)) a := by
    rw [Seq.ret, h]; rfl
  rw [hret, tget_append, tget_filter_key 0 q.a (12 ≤ ·), tget_filter_key _ f.a (· < 12)]
  by_cases ha : a < 12
  · rw [if_pos ha, if_pos ha, if_neg (by omega)]
  · rw [if_neg ha, if_neg ha, if_pos (by omega)]
    rfl

theorem ret_frame {f : Frame} {r : List Frame} (h : q.stack = f :: r) : q.ret.stack = r ∧ q.ret.routine = f.routine ∧
    q.ret.pc = f.callPc ∧ q.ret.loops = f.loops ∧ q.ret.strides = f.strides ∧ q.ret.h = q.h := by
  rw [Seq.ret, h]
  exact ⟨rfl, rfl, rfl, rfl, rfl, rfl⟩

end

/-- Settles O8: what the frame keeps of the caller's registers, and what comes back from it. -/
theorem callAndReturn : Obligations.CallAndReturn := by
  intro i s c h q
  refine ⟨fun id arg => ?_, fun f r hstack => ?_⟩
  · obtain ⟨t, ht, hstep⟩ := issueWith_modSeq h fun c q => { q.call id arg with due := c.fc + 1, fetched := false }
    refine ⟨t, _, ht, hstep, rfl, rfl, rfl, rfl, ?_, fun a ha => ?_, fun a ha => ?_, fun _ _ => rfl, rfl, rfl, _, rfl, rfl, rfl,
      rfl, rfl, fun a ha => tget_frame_a q ha⟩
    · exact (areg_call q id arg 11).trans (if_pos rfl)
    · exact (areg_call q id arg a).trans (by rw [if_neg (by omega), if_neg (by omega)])
    · exact (areg_call q id arg a).trans (by rw [if_neg (by omega), if_pos ha])
  · obtain ⟨t, ht, hstep⟩ := issueWith_modSeq h fun c q => q.ret.advance c.fc i.next
    obtain ⟨hs, hr, hpc, hl, hst, hh⟩ := ret_frame q hstack
    exact ⟨t, q.ret, ht, hstep, hs, hr, hpc, hl, hst, hh, fun a ha => (areg_ret q hstack a).trans (if_pos ha),
      fun a ha => (areg_ret q hstack a).trans (if_neg (by omega))⟩

/-! ### HALT and PTOK -/

theorem exec_halt (i : Iss) (s : State) : exec (.halt i) s =
    issueWith i s fun c s => s.modSeq c.p fun q => { q with st := .idle, fetched := false } := rfl

theorem exec_ptok (i : Iss) (level : Nat) (s : State) : exec (.ptok i level) s = issue i s fun c s =>
    if c.st = 0 then s.modSpan c.k fun sp => { sp with nextLevel := level } else s := rfl

/-- Settles O9: PTOK by whether its stage is stage 0. -/
theorem haltAndPtok : Obligations.HaltAndPtok := by
  intro i s c h x
  obtain ⟨-, -, -, hloaded, -⟩ := issues_ctx i s c h
  refine ⟨?_, fun level => ?_⟩
  · obtain ⟨t, ht, hstep⟩ := issueWith_modSeq h fun c q => { q with st := .idle, fetched := false }
    exact ⟨t, _, ht, hstep, rfl⟩
  refine ⟨_, (exec_ptok i level s).trans (issue_counted h _), ?_⟩
  by_cases hst : c.st = 0
  · simp only [if_pos hst]
    refine ⟨((issued_counted s i.pier).modSpan _ _).modSeq _, ?_, ?_, fun j hj => ?_, ?_⟩
    · intro k hk d
      exact (congrArg (tget d · k) modSpan_regs).trans (regsBut_counted s i.pier k hk d)
    · rw [modSeq_eq, pier_setPier_same, pier_modSpan]
      rfl
    · rw [span_modSeq, span_modSpan_ne hj, span_counted]
    · rw [span_modSeq, span_modSpan_same (s := s.counted i.pier) hloaded, span_counted]
  · simp only [if_neg hst]
    obtain ⟨hissued, hregs, hspans, hpier⟩ := (pierStep_counted i s).past c
    exact ⟨hissued, hregs, hpier, fun _ _ => rfl, rfl⟩

end Sys2Proof.Machine

/-! The instructions that wait or may raise a hold: WAITT, WAITC, ARM and REL. -/
namespace Sys2Proof.Machine

/-! ### WAITT (R263, R264) -/

/-- A time rounded up to a multiple of 1000 is the first at or above it. -/
theorem roundUp_1000 (x : Nat) : x ≤ ceilDiv x 1000 * 1000 ∧ ceilDiv x 1000 * 1000 < x + 1000 ∧ ceilDiv x 1000 * 1000 % 1000 = 0 := by
  simp only [ceilDiv]
  omega

theorem exec_waitt (i : Iss) (o : TimeOp) (s : State) : exec (.waitt i o) s = issue i s fun c s =>
    if s.now < target c (s.pier c.p).seq o then
      raiseHold c.k c.p .waitt [target c (s.pier c.p).seq o] .nothing s else s := rfl

/-- Settles O10: the target is that of R263, and a hold stands where it lies ahead. -/
theorem waitForTime : Obligations.WaitForTime := by
  intro i s c o h x raw
  obtain ⟨hp, -, -, hloaded, -⟩ := issues_ctx i s c h
  refine ⟨_, target c x.seq o, (exec_waitt i o s).trans (issue_counted h _), fun hb => ?_, fun hb => ?_, fun hT => ?_, fun hT => ?_⟩
  · simp [target, hb, raw]
  · simpa [target, hb] using roundUp_1000 raw
  · simp only [hp, counted_now, pier_counted]
    rw [if_pos (by exact hT)]
    exact ((pierStep_counted i s).raiseHold hloaded _ _ _).past c
  · simp only [hp, counted_now, pier_counted]
    rw [if_neg (by exact Nat.not_lt.2 hT)]
    exact (pierStep_counted i s).past c

/-! ### WAITC (R262, R266) -/

/-- The end of a transfer phase changes charges of the span, or nothing. -/
theorem closePhase_cases (c : Ctx) (next : Nat) (s : State) : closePhase c next s = s ∨
    ∃ f, closePhase c next s = s.modSpan c.k fun sp => { sp with charges := sp.charges.map f } := by
  unfold closePhase
  extract_lets x
  split
  · exact .inl rfl
  · split
    · exact .inr ⟨_, rfl⟩
    · exact .inl rfl

/-- A next state in which the issue of `i` has changed at most charges of span `k`. -/
def ChargeStep (i : Iss) (k : Nat) (s t : State) : Prop :=
  Issued i.pier s t ∧ regsBut (issuedKeys i.pier) s t ∧ t.pier i.pier = s.pier i.pier ∧ spansBut k s t ∧
    t.span k = { s.span k with charges := (t.span k).charges } ∧ (tfind t.spans k).isSome

theorem chargeStep_closePhase {i : Iss} {s : State} {c : Ctx} (h : Issues i s c) :
    ChargeStep i c.k s (closePhase c i.next (s.counted i.pier)) := by
  obtain ⟨-, -, -, hloaded, -⟩ := issues_ctx i s c h
  have hstart := issued_counted s i.pier
  have hregs := regsBut_counted s i.pier
  rcases closePhase_cases c i.next (s.counted i.pier) with he | ⟨f, he⟩ <;> rw [he]
  · exact ⟨hstart, hregs, rfl, fun _ _ => rfl, rfl, hloaded⟩
  · refine ⟨hstart.modSpan _ _, fun k hk d => ?_, pier_modSpan _, fun j hj => span_modSpan_ne hj, ?_, modSpan_isSome hloaded⟩
    · rw [modSpan_regs]
      exact hregs k hk d
    · rw [span_modSpan_same (s := s.counted i.pier) hloaded]
      rfl

theorem exec_waitc (i : Iss) (chucks : Nat) (s : State) : exec (.waitc i chucks) s = issue i s fun c s =>
    if ((List.range 3).filter fun j => bit chucks j && (s.pier c.p).busyChuck j).isEmpty then closePhase c i.next s
    else raiseHold c.k c.p .waitc ((List.range 3).filter fun j => bit chucks j && (s.pier c.p).busyChuck j) .nothing
      (closePhase c i.next s) := rfl

/-- Settles O11: the phase's charge closes, and a hold follows where a named chuck is busy. -/
theorem waitForChucks : Obligations.WaitForChucks := by
  intro i s c chucks h x busy
  obtain ⟨hp, -⟩ := issues_ctx i s c h
  obtain ⟨hissued, hregs, hpier, hspans, hspan, hloaded⟩ := chargeStep_closePhase h
  refine ⟨_, (exec_waitc i chucks s).trans (issue_counted h _), ?_⟩
  simp only [hp, pier_counted]
  by_cases hb : busy = []
  · rw [if_pos (by exact List.isEmpty_iff.2 hb)]
    refine ⟨hissued.modSeq _, ?_, hspans, ?_, fun _ => ⟨?_, hregs⟩, fun hn => absurd hb hn⟩
    · rw [modSeq_eq, pier_setPier_same, hpier]
      rfl
    · rw [span_modSeq, hspan]
    · rw [span_modSeq, hspan]
  · rw [if_neg (by rwa [List.isEmpty_iff]), raiseHold_eq]
    have hclk : (closePhase c i.next (s.counted i.pier)).clk = s.clk := by rw [hissued.2.2]
    refine ⟨((hissued.modSpan _ _).setReg _ (holdsRaised_notMem_issuedKeys _)).modSeq _, ?_, fun j hj => ?_, ?_,
      fun hn => absurd hn hb, fun _ => ?_⟩
    · rw [modSeq_eq, pier_setPier_same, pier_setReg, pier_modSpan, hpier]
      rfl
    · rw [span_modSeq, span_setReg, span_modSpan_ne hj, hspans j hj]
    · rw [span_modSeq, span_setReg, span_modSpan_same hloaded, hspan]
    · rw [span_modSeq, span_setReg, span_modSpan_same hloaded, hspan, hclk]

/-! ### The scoreboard (R260, Table 6-4) -/

theorem exec_arm (i : Iss) (e row : Nat) (arb : Sel) (n : Nat) (s : State) : exec (.arm i e row arb n) s = issue i s fun c s =>
    match (s.pier c.p).sbAt e with
    | some (.filling _ _) => raiseHold c.k c.p .armRel [e] (.arm e ((s.pier c.p).seq.eff row arb) n) s
    | some (.draining _ _ _) => raiseHold c.k c.p .armRel [e] (.arm e ((s.pier c.p).seq.eff row arb) n) s
    | _ => s.modPier c.p fun x => { x with sb := tput x.sb e (.filling ((s.pier c.p).seq.eff row arb) n) } := rfl

theorem exec_rel (i : Iss) (e : Nat) (s : State) : exec (.rel i e) s = issue i s fun c s =>
    match (s.pier c.p).sbAt e with
    | none => s
    | some (.full _ _) => s.modPier c.p fun x => { x with sb := tdel x.sb e }
    | some _ => raiseHold c.k c.p .armRel [e] (.rel e) s := rfl

/-- Settles O12: by the state of the entry. -/
theorem scoreboardInstructions : Obligations.ScoreboardInstructions := by
  intro i s c e h x
  obtain ⟨hp, -, -, hloaded, -⟩ := issues_ctx i s c h
  have hold := fun after => ((pierStep_counted i s).raiseHold hloaded .armRel [e] after).past c
  have step := fun f => ((pierStep_counted i s).modPier f).past c
  refine ⟨fun row arb n => ⟨_, (exec_arm i e row arb n s).trans (issue_counted h _), ?_⟩,
    _, (exec_rel i e s).trans (issue_counted h _), ?_⟩ <;>
    simp only [hp, pier_counted] <;> rw [show s.pier i.pier = x from rfl] <;> rcases x.sbAt e with _ | (_ | _ | _)
  · exact ⟨fun _ => step _, fun hn => by simp [sbCode] at hn⟩
  · exact ⟨fun hn => by simp [sbCode] at hn, fun _ => hold _⟩
  · exact ⟨fun _ => step _, fun hn => by simp [sbCode] at hn⟩
  · exact ⟨fun hn => by simp [sbCode] at hn, fun _ => hold _⟩
  · exact ⟨fun _ => (pierStep_counted i s).past c, fun hn => by simp [sbCode] at hn, fun hn => by simp [sbCode] at hn⟩
  · exact ⟨fun hn => by simp [sbCode] at hn, fun hn => by simp [sbCode] at hn, fun _ => hold _⟩
  · exact ⟨fun hn => by simp [sbCode] at hn, fun _ => step _, fun hn => by simp [sbCode] at hn⟩
  · exact ⟨fun hn => by simp [sbCode] at hn, fun hn => by simp [sbCode] at hn, fun _ => hold _⟩

end Sys2Proof.Machine

/-! Accesses presented to the scoreboard and effects scheduled for later fc: the row instructions of Tables 10-3 to 10-5, TLD, TST
and CLD. -/
namespace Sys2Proof.Machine

/-! ### Scheduled effects -/

/-- The pier with effects scheduled behind those it has. -/
def Pier.plan (x : Pier) (as : List Act) : Pier := { x with acts := x.acts ++ as }

theorem plan_plan (x : Pier) (as bs : List Act) : (x.plan as).plan bs = x.plan (as ++ bs) := by
  simp only [Pier.plan, List.append_assoc]

theorem sched_eq (p due : Nat) (atEnd : Bool) (slot : Nat) (op : ActOp) (s : State) :
    sched p due atEnd slot op s = s.modPier p fun x => x.plan [Act.mk due atEnd slot op none] := rfl

theorem schedEach_eq (p n : Nat) (due : Nat → Nat) (atEnd : Bool) (slot : Nat) (op : Nat → ActOp) (s : State) :
    schedEach p n due atEnd slot op s = s.modPier p fun x => x.plan ((List.range n).map fun k => Act.mk (due k) atEnd slot (op k) none) :=
  rfl

/-! ### A presented access (R152) -/

section
variable {i : Iss} {s t : State} {c : Ctx} {x : Pier} {rows : Nat × Nat}

theorem present_counted (h : Issues i s c) (rows : Nat × Nat) :
    Presented i c rows s (present c.k i.pier [rows] (s.counted i.pier)) (s.pier i.pier) := by
  obtain ⟨-, -, -, hloaded, -⟩ := issues_ctx i s c h
  simp only [present, pier_counted, List.flatMap_cons, List.flatMap_nil, List.append_nil, List.isEmpty_iff]
  refine ⟨fun hes => ?_, fun hes => ?_⟩
  · rw [if_pos hes]
    exact pierStep_counted i s
  · rw [if_neg hes]
    exact (pierStep_counted i s).raiseHold hloaded _ _ _

theorem Presented.modPier (h : Presented i c rows s t x) (f : Pier → Pier) :
    Presented i c rows s (t.modPier i.pier f) (f x) :=
  ⟨fun hes => (h.1 hes).modPier f, fun hes => (h.2 hes).modPier f⟩

theorem Presented.past (h : Presented i c rows s t x) :
    Presented i c rows s (t.modSeq i.pier fun q => q.advance c.fc i.next) (x.past i c) := h.modPier _

/-- Of the pier's span a presented access changes its holds alone. -/
theorem Presented.configured (h : Presented i c rows s t x) : (t.span c.k).configured = (s.span c.k).configured := by
  by_cases hes : ((s.pier i.pier).fillingOver rows.1 rows.2).eraseDups = []
  · obtain ⟨-, -, hspans, -⟩ := h.1 hes
    rw [State.span, hspans, ← State.span]
  · obtain ⟨-, -, -, -, -, hspan⟩ := h.2 hes
    rw [hspan]

/-- An instruction that presents its access at issue and schedules one effect. -/
theorem issue_present (h : Issues i s c) (rows : Pier → Nat × Nat) (act : Ctx → State → Act) :
    ∃ t, issue i s (fun c s => (present c.k c.p [rows (s.pier c.p)] s).modPier c.p fun x => x.plan [act c s]) = .next t ∧
      Presented i c (rows (s.pier i.pier)) s t (((s.pier i.pier).plan [act c (s.counted i.pier)]).past i c) := by
  refine ⟨_, issue_counted h _, ?_⟩
  rw [(issues_ctx i s c h).1]
  exact ((present_counted h _).modPier _).past

end

/-! ### The instructions of one row -/

section
variable (i : Iss) (brow : Nat) (arb : Sel) (s : State)

theorem exec_hld (h : Nat) : exec (.hld i h brow arb) s = issue i s fun c s =>
    (present c.k c.p [((s.pier c.p).seq.eff brow arb, 1)] s).modPier c.p fun x =>
      x.plan [Act.mk (c.fc + 12) false 0 (.hldRead h ((s.pier c.p).seq.eff brow arb)) none] := rfl

/-- The words of the row that an HST stores. -/
def State.hstWords (s : State) (p row h : Nat) : List W36 := (List.range 64).map fun w =>
  if w < 16 then BitVec.ofNat 36 (fld (s.benchHdr p row ((s.pier p).seq.hreg h)).toNat (32 * w) 32) else 0

theorem exec_hst (h : Nat) : exec (.hst i h brow arb) s = issue i s fun c s =>
    (present c.k c.p [((s.pier c.p).seq.eff brow arb, 1)] s).modPier c.p fun x =>
      x.plan [Act.mk (c.fc + 17) true 1 (.benchStore { col := false, row := (s.pier c.p).seq.eff brow arb, lane := 0 }
        (s.hstWords c.p ((s.pier c.p).seq.eff brow arb) h)) none] := rfl

theorem exec_mvld (mv : Nat) : exec (.mvld i mv brow arb) s = issue i s fun c s =>
    (present c.k c.p [((s.pier c.p).seq.eff brow arb, 1)] s).modPier c.p fun x =>
      x.plan [Act.mk (c.fc + 12) false 0 (.mvldRead mv ((s.pier c.p).seq.eff brow arb)) none] := rfl

theorem exec_sbld_row (br lane : Nat) : exec (.sbld i br brow arb false lane) s = issue i s fun c s =>
    (present c.k c.p [((s.pier c.p).seq.eff brow arb, 1)] s).modPier c.p fun x => x.plan [Act.mk (c.fc + 12) false 2
      (.brRead br { col := false, row := (s.pier c.p).seq.eff brow arb, lane := 0 }) none] := rfl

theorem exec_sbld_col (br lane : Nat) : exec (.sbld i br brow arb true lane) s = issue i s fun c s =>
    (present c.k c.p [((s.pier c.p).seq.eff brow arb, 64)] s).modPier c.p fun x => x.plan [Act.mk (c.fc + 12) false 2
      (.brRead br { col := true, row := (s.pier c.p).seq.eff brow arb, lane := lane }) none] := rfl

theorem exec_skld (sd : Nat) : exec (.skld i sd brow arb) s = issue i s fun c s =>
    (present c.k c.p [((s.pier c.p).seq.eff brow arb, 1)] s).modPier c.p fun x =>
      x.plan [Act.mk (c.fc + 12) false 2 (.seedRead sd ((s.pier c.p).seq.eff brow arb)) none] := rfl

end

theorem hstWords_length (s : State) (p row h : Nat) : (s.hstWords p row h).length = 64 := by simp [State.hstWords]

theorem hstWords_getElem? (s : State) (p row h : Nat) {w : Nat} (hw : w < 64) : (s.hstWords p row h)[w]? =
    some (if w < 16 then BitVec.ofNat 36 (fld (s.benchHdr p row ((s.pier p).seq.hreg h)).toNat (32 * w) 32) else 0) := by
  simp [State.hstWords, hw]

/-- Settles O13: each presents its row and schedules the one effect of its row of the tables. -/
theorem rowInstructions : Obligations.RowInstructions := by
  intro i s c brow arb h
  obtain ⟨hp, -⟩ := issues_ctx i s c h
  obtain ⟨p, k, st, fc, batch⟩ := c
  obtain rfl : p = i.pier := hp
  intro x row after
  refine ⟨fun r => ?_, fun r => ?_, fun mv => ?_, fun br lane => ?_, fun br lane => ?_, fun sd => ?_⟩
  · rw [exec_hld]
    exact issue_present h (fun x => (x.seq.eff brow arb, 1)) _
  · rw [exec_hst]
    obtain ⟨t, ht, hpres⟩ := issue_present h (fun x => (x.seq.eff brow arb, 1)) _
    exact ⟨t, _, ht, hstWords_length _ _ _ _, fun w hw => hstWords_getElem? s i.pier row r hw, hpres⟩
  · rw [exec_mvld]
    exact issue_present h (fun x => (x.seq.eff brow arb, 1)) _
  · rw [exec_sbld_row]
    exact issue_present h (fun x => (x.seq.eff brow arb, 1)) _
  · rw [exec_sbld_col]
    exact issue_present h (fun x => (x.seq.eff brow arb, 64)) _
  · rw [exec_skld]
    exact issue_present h (fun x => (x.seq.eff brow arb, 1)) _

end Sys2Proof.Machine

/-! The lathe: TLD, TST, CLD, the NTT unit and the matrix engine (08_lathe). -/
namespace Sys2Proof.Machine

/-! ### Reads of a pier without parity mismatches (R160, R192, R215) -/

section
variable {s : State} {p : Nat}

theorem checkTile_sound (h : (s.pier p).tilePar = []) (keys : List Nat) : checkTile p keys s = s := by
  unfold checkTile
  split
  · rfl
  · simp [badWords, h]

theorem checkStore_sound (h : (s.pier p).storePar = []) (part : Nat) (pick : Nat → Bool) : checkStore p part pick s = s := by
  unfold checkStore
  split
  · rfl
  · simp [h]

end

/-! ### Lines of a tile: TLD and TST (Tables 8-1, 8-3) -/

/-- The later accesses of a row of `n`, each presented 12 fc before its slot. -/
def presentsOf (fc n : Nat) (acc : Nat → Access) : List Act :=
  (List.range (n - 1)).map fun j => Act.mk (fc + 1 + j) false 0 (.present [(acc (j + 1)).rows]) none

theorem mem_presentsOf (fc : Nat) {n k : Nat} (acc : Nat → Access) (h : k + 1 < n) :
    Act.mk (fc + (k + 1)) false 0 (.present [(acc (k + 1)).rows]) none ∈ presentsOf fc n acc :=
  List.mem_map.2 ⟨k, List.mem_range.2 (by omega), by rw [show fc + 1 + k = fc + (k + 1) by omega]⟩

theorem presentEach_eq (k p fc n : Nat) (acc : Nat → Access) (s : State) : presentEach k p fc n acc s =
    (present k p [(acc 0).rows] s).modPier p fun x => x.plan (presentsOf fc n acc) := rfl

/-- The reads of the lines of a TLD, and of those of a TST. -/
def tldReads (fc : Nat) (o : LineOp) (sh : Shape) (acc : Nat → Access) (zero : Bool) : List Act :=
  (List.range o.n).map fun k => Act.mk (fc + 12 + k) false 0
    (.tldRead o.tile (o.tidx + k) (lineWords o sh (o.tidx + k)) o.tcol (acc k) zero) none

def tstReads (fc : Nat) (o : LineOp) (sh : Shape) (acc : Nat → Access) (zero : Bool) : List Act :=
  (List.range o.n).map fun k => Act.mk (fc + 10 + k) false 0
    (.tstRead o.tile (o.tidx + k) (lineWords o sh (o.tidx + k)) o.tcol (acc k) zero) none

theorem exec_tld (i : Iss) (o : LineOp) (s : State) : exec (.tld i o) s = issue i s fun c s =>
    if (lineLimits o (latch s c o.tile o.shape)).1 < o.n then lathe01 0x0101 c.p c.k s
    else shapeAtEnd c (c.fc + o.n + 21) o.tile (latch s c o.tile o.shape)
      ((((present c.k c.p [(lineAcc ((s.pier c.p).seq.eff o.brow o.arb) o 0).rows] s).modPier c.p fun x =>
          x.plan (presentsOf c.fc o.n (lineAcc ((s.pier c.p).seq.eff o.brow o.arb) o))).modPier c.p fun x =>
          x.plan (tldReads c.fc o (latch s c o.tile o.shape) (lineAcc ((s.pier c.p).seq.eff o.brow o.arb) o)
            ((s.pier c.p).zeroed o.mem))).modPier c.p fun x =>
        x.plan [Act.mk (c.fc + o.n + 21) true 8 (.tldEnd o.tile) none]) := rfl

theorem exec_tst (i : Iss) (o : LineOp) (s : State) : exec (.tst i o) s = issue i s fun c s =>
    if (lineLimits o (latch s c o.tile o.shape)).1 < o.n then lathe01 0x0101 c.p c.k s
    else ((present c.k c.p [(lineAcc ((s.pier c.p).seq.eff o.brow o.arb) o 0).rows] s).modPier c.p fun x =>
          x.plan (presentsOf c.fc o.n (lineAcc ((s.pier c.p).seq.eff o.brow o.arb) o))).modPier c.p fun x =>
          x.plan (tstReads c.fc o (latch s c o.tile o.shape) (lineAcc ((s.pier c.p).seq.eff o.brow o.arb) o)
            ((s.pier c.p).zeroed o.mem)) := rfl

/-- In inline mode the shape takes its place at the end; in configured mode nothing does. -/
def shapeActs (s : State) (c : Ctx) (due tile : Nat) (sh : Shape) : List Act :=
  if (s.span c.k).configured then [] else [Act.mk due true 7 (.tileShape tile sh) none]

theorem plan_nil (x : Pier) : x.plan [] = x := by simp [Pier.plan]

theorem Presented.shapeAtEnd {i : Iss} {s t : State} {c : Ctx} {x : Pier} {rows : Nat × Nat} (hp : c.p = i.pier)
    (h : Presented i c rows s t x) (due tile : Nat) (sh : Shape) :
    Presented i c rows s (shapeAtEnd c due tile sh t) (x.plan (shapeActs s c due tile sh)) := by
  rw [Machine.shapeAtEnd, shapeActs, h.configured]
  split
  · rwa [plan_nil]
  · rw [sched_eq, hp]
    exact h.modPier _

section
variable {i : Iss} {s : State} {c : Ctx} (h : Issues i s c) (o : LineOp)
include h

/-- What a TLD whose lines fit schedules. -/
theorem exec_tld_fits (hfit : o.n ≤ (lineLimits o (latch s c o.tile o.shape)).1) :
    let acc := lineAcc ((s.pier i.pier).seq.eff o.brow o.arb) o
    ∃ t, exec (.tld i o) s = .next t ∧ Presented i c (acc 0).rows s t (((s.pier i.pier).plan (presentsOf c.fc o.n acc ++
      (tldReads c.fc o (latch s c o.tile o.shape) acc ((s.pier i.pier).zeroed o.mem) ++
        ([Act.mk (c.fc + o.n + 21) true 8 (.tldEnd o.tile) none] ++
          shapeActs s c (c.fc + o.n + 21) o.tile (latch s c o.tile o.shape))))).past i c) := by
  obtain ⟨hp, -⟩ := issues_ctx i s c h
  obtain ⟨p, k, st, fc, batch⟩ := c
  obtain rfl : p = i.pier := hp
  intro acc
  refine ⟨_, (exec_tld i o s).trans (issue_counted h _), ?_⟩
  dsimp only
  rw [if_neg (by exact Nat.not_lt.2 hfit)]
  simp only [← plan_plan]
  exact ((((present_counted h _).modPier _).modPier _).modPier _ |>.shapeAtEnd rfl _ _ _).past

/-- What a TST whose lines fit schedules. -/
theorem exec_tst_fits (hfit : o.n ≤ (lineLimits o (latch s c o.tile o.shape)).1) :
    let acc := lineAcc ((s.pier i.pier).seq.eff o.brow o.arb) o
    ∃ t, exec (.tst i o) s = .next t ∧ Presented i c (acc 0).rows s t (((s.pier i.pier).plan (presentsOf c.fc o.n acc ++
      tstReads c.fc o (latch s c o.tile o.shape) acc ((s.pier i.pier).zeroed o.mem))).past i c) := by
  obtain ⟨hp, -⟩ := issues_ctx i s c h
  obtain ⟨p, k, st, fc, batch⟩ := c
  obtain rfl : p = i.pier := hp
  intro acc
  refine ⟨_, (exec_tst i o s).trans (issue_counted h _), ?_⟩
  dsimp only
  rw [if_neg (by exact Nat.not_lt.2 hfit), ← plan_plan]
  exact (((present_counted h _).modPier _).modPier _).past

end

/-- Settles O14: the effects that the statement names are among those scheduled. -/
theorem tileLines : Obligations.TileLines := by
  intro i s c o h x sh acc hn hlines
  obtain ⟨t, ht, hload⟩ := exec_tld_fits h o hlines
  obtain ⟨u, hu, hstore⟩ := exec_tst_fits h o hlines
  refine ⟨⟨t, _, ht, hload, fun j hj => ?_, fun j hj => ?_, fun hc => ?_⟩, u, _, hu, hstore, fun j hj => ?_, fun j hj => ?_⟩
  · exact List.mem_append_right _ (List.mem_append_left _ (List.mem_map.2 ⟨j, List.mem_range.2 hj, rfl⟩))
  · exact List.mem_append_left _ (mem_presentsOf c.fc acc hj)
  · refine List.mem_append_right _ (List.mem_append_right _ (List.mem_append_right _ ?_))
    rw [shapeActs, if_neg (by simpa using hc)]
    exact .head _
  · exact List.mem_append_right _ (List.mem_map.2 ⟨j, List.mem_range.2 hj, rfl⟩)
  · exact List.mem_append_left _ (mem_presentsOf c.fc acc hj)

end Sys2Proof.Machine

/-! The lathe's computing instructions, and what an instruction of the lathe refuses at issue (R200, R216). -/
namespace Sys2Proof.Machine

/-! ### Shapes that do not fit (R200, R216) -/

theorem Recorded.of_counted {r : Rec} {s t : State} {p : Nat} (h : Recorded r (s.counted p) t) (g : Seq → Seq) :
    Recorded r s (t.modSeq p g) :=
  h.congr rfl rfl (dreg_bump2_issued s p _ (by decide)).symm (dreg_bump2_issued s p _ (by decide)).symm rfl rfl

theorem raise_spans (r : Rec) (s : State) : (raise r s).spans = s.spans := by rw [raise_frame]

theorem span_raise (r : Rec) (s : State) (k : Nat) : (raise r s).span k = s.span k := by simp only [State.span, raise_spans]

/-- The first stop of an fc stands. -/
theorem span_stopSpan {k : Nat} {s : State} (hk : (tfind s.spans k).isSome) (hs : (s.span k).stop = none) (st : Stop) :
    (stopSpan k st s).span k = { s.span k with stop := some st } := by
  rw [stopSpan, span_modSpan_same hk, hs]

/-- An instruction that meets a fault of class 0x01 at issue. -/
theorem issue_lathe01 {i : Iss} {s : State} {c : Ctx} (h : Issues i s c) (hstop : (s.span c.k).stop = none)
    {cmd : Instr} {eff : Ctx → State → State} (hexec : exec cmd s = issue i s eff)
    (heff : eff c (s.counted i.pier) = lathe01 0x0101 i.pier c.k (s.counted i.pier)) :
    ∃ t, exec cmd s = .next t ∧ Recorded { code := 0x0101, action := 3, unit := 1, pier := i.pier, span := c.k } s t ∧
      t.pier i.pier = (s.pier i.pier).past i c ∧ (t.span c.k).stop = some (.commit 0x0101 none) := by
  obtain ⟨-, -, -, hloaded, -⟩ := issues_ctx i s c h
  refine ⟨_, hexec.trans (issue_counted h eff), ?_⟩
  rw [heff]
  refine ⟨(lathe01_recorded _ _ _ _).of_counted _, ?_, ?_⟩
  · rw [modSeq_eq, pier_setPier_same, pier_lathe01]
    rfl
  · rw [span_modSeq, lathe01, span_stopSpan (by rwa [raise_spans]) (by rwa [span_raise])]
    rfl

theorem exec_cld (i : Iss) (o : CldOp) (s : State) : exec (.cld i o) s = execCld i o s := rfl

/-- The instruction of the matrix engine: matrix or element product, with or without accumulation. -/
def mmeInstr (matrix acc : Bool) (i : Iss) (o : MmeOp) : Instr :=
  if matrix then (if acc then .mmac i o else .mmul i o) else (if acc then .emac i o else .emul i o)

theorem exec_mme (matrix acc : Bool) (i : Iss) (o : MmeOp) (s : State) :
    exec (mmeInstr matrix acc i o) s = mme i matrix acc o s := by
  cases matrix <;> cases acc <;> rfl

/-- Settles O19: each tests its shapes first. -/
theorem shapeFaultsAtIssue : Obligations.ShapeFaultsAtIssue := by
  intro i s c h hstop
  obtain ⟨hp, -⟩ := issues_ctx i s c h
  obtain ⟨p, k, st, fc, batch⟩ := c
  obtain rfl : p = i.pier := hp
  intro x refused
  refine ⟨fun o ho => ⟨?_, ?_⟩, fun o ho => ?_, fun o ho => ⟨?_, ?_⟩, fun o ho => ⟨?_, ?_⟩⟩
  · exact issue_lathe01 h hstop (exec_tld i o s) (if_pos ho)
  · exact issue_lathe01 h hstop (exec_tst i o s) (if_pos ho)
  · exact issue_lathe01 h hstop (exec_cld i o s) (if_pos (.inl ho))
  · exact issue_lathe01 h hstop (exec_mme true false i o s) (if_pos (congrArg (!·) ho))
  · exact issue_lathe01 h hstop (exec_mme true true i o s) (if_pos (congrArg (!·) ho))
  · exact issue_lathe01 h hstop (exec_mme false false i o s) (if_pos (congrArg (!·) ho))
  · exact issue_lathe01 h hstop (exec_mme false true i o s) (if_pos (congrArg (!·) ho))

/-! ### CLD (Tables 8-1, 8-3, 8-4) -/

/-- Row `k` of a CLD as its tile takes it. -/
def cldRow (r : Ring) (o : CldOp) (sh : Shape) (px : Nat) (zero : Bool) (k : Nat) : List W36 :=
  (List.range sh.cols).map fun e => if zero then 0 else BitVec.ofNat 36 (constEntry r o.table px (64 * (o.crow + k) + e))

/-- The rows that a CLD writes, each at the end of its fc. -/
def cldActs (fc : Nat) (r : Ring) (o : CldOp) (sh : Shape) (px : Nat) (zero : Bool) : List Act :=
  ((List.range o.n).filter (o.trow + · < sh.rows)).map fun k =>
    Act.mk (fc + 4 + k) true 0 (.tileLine o.tile (o.trow + k) false (cldRow r o sh px zero k)) none

section
variable {i : Iss} {s : State} {c : Ctx}

/-- The shape of an inline operation, scheduled by an issue that changes its pier alone. -/
theorem PierStep.shapeAtEnd {t : State} {x : Pier} (hp : c.p = i.pier) (h : PierStep i s t x) (due tile : Nat) (sh : Shape) :
    PierStep i s (shapeAtEnd c due tile sh t) (x.plan (shapeActs s c due tile sh)) := by
  have hspan : t.span c.k = s.span c.k := by rw [State.span, h.2.2.1, ← State.span]
  rw [Machine.shapeAtEnd, shapeActs, hspan]
  split
  · rwa [plan_nil]
  · rw [sched_eq, hp]
    exact h.modPier _

/-- What a CLD on a sound pier schedules. -/
theorem exec_cld_fits (h : Issues i s c) (o : CldOp) (hx : (s.pier i.pier).storePar = [])
    (hn : o.n ≤ (latch s c o.tile o.shape).rows) (hrows : o.crow + o.n ≤ constRows c.batch.ring o.table)
    (hprime : o.table = 4 ∨ (s.pier i.pier).seq.eff o.x o.arx < c.batch.ring.count) :
    ∃ t, exec (.cld i o) s = .next t ∧ PierStep i s t (((s.pier i.pier).plan
      (cldActs c.fc c.batch.ring o (latch s c o.tile o.shape) ((s.pier i.pier).seq.eff o.x o.arx)
          ((s.pier i.pier).zeroed o.mem) ++
        shapeActs s c (c.fc + o.n + 3) o.tile (latch s c o.tile o.shape))).past i c) := by
  obtain ⟨hp, -⟩ := issues_ctx i s c h
  obtain ⟨p, k, st, fc, batch⟩ := c
  obtain rfl : p = i.pier := hp
  refine ⟨_, (exec_cld i o s).trans (issue_counted h _), ?_⟩
  dsimp only
  rw [if_neg fun hl => hl.elim (fun hl => absurd hn (Nat.not_le.2 hl)) fun hl => absurd hrows (Nat.not_le.2 hl),
    if_neg (by rintro ⟨ht, hl⟩; exact hprime.elim ht fun hlt => absurd hlt (Nat.not_lt.2 hl)),
    checkStore_sound (by exact hx), ← plan_plan]
  exact (((pierStep_counted i s).modPier fun x => x.plan (cldActs fc batch.ring o (latch s ⟨i.pier, k, st, fc, batch⟩ o.tile o.shape)
    ((s.pier i.pier).seq.eff o.x o.arx) ((s.pier i.pier).zeroed o.mem))).shapeAtEnd
      (c := ⟨i.pier, k, st, fc, batch⟩) rfl _ _ _).past ⟨i.pier, k, st, fc, batch⟩

end

/-- Settles O15: row `k` is among those scheduled. -/
theorem constantLoad : Obligations.ConstantLoad := by
  intro i s c o h x sh px hsound hn hrows hprime
  obtain ⟨-, -, hstore⟩ := hsound
  obtain ⟨t, ht, hstep⟩ := exec_cld_fits h o hstore hn hrows hprime
  refine ⟨t, _, ht, hstep, fun k hk hrow => ⟨cldRow c.batch.ring o sh px (x.zeroed o.mem) k, by simp [cldRow], ?_, fun e he => ?_⟩⟩
  · exact List.mem_append_left _ (List.mem_map.2 ⟨k, List.mem_filter.2 ⟨List.mem_range.2 hk, by simpa using hrow⟩, rfl⟩)
  · simp [cldRow, he]

/-! ### NTT and INTT (R203 to R206) -/

/-- A next state of the issue of `i` that charges span `k` and counts in register `f` of the pier, which becomes `x`. -/
def ChargedStep (i : Iss) (k : Nat) (charge : Charge) (f : Fld) (s t : State) (x : Pier) : Prop :=
  Issued i.pier s t ∧ spansBut k s t ∧ t.span k = { s.span k with charges := (s.span k).charges ++ [charge] } ∧
    t.reg f i.pier 0 = satAdd 32 (s.reg f i.pier 0) 1 ∧ t.pier i.pier = x

section
variable {i : Iss} {k : Nat} {charge : Charge} {f : Fld} {s t : State} {x : Pier}

theorem ChargedStep.modPier (h : ChargedStep i k charge f s t x) (g : Pier → Pier) :
    ChargedStep i k charge f s (t.modPier i.pier g) (g x) := by
  obtain ⟨hissued, hspans, hspan, hreg, hpier⟩ := h
  exact ⟨hissued.modPier g, hspans, hspan, hreg, by rw [modPier_eq, pier_setPier_same, hpier]⟩

theorem ChargedStep.past (h : ChargedStep i k charge f s t x) (c : Ctx) :
    ChargedStep i k charge f s (t.modSeq i.pier fun q => q.advance c.fc i.next) (x.past i c) := h.modPier _

/-- A charge at issue and a count of one in a 32-bit counter of the pier. -/
theorem chargedStep_counted (hloaded : (tfind s.spans k).isSome) (i : Iss) {rate : Nat} (hrate : rate ≠ 0) (last : Nat)
    (hw : f.w = 32) (hf : f.key i.pier 0 ∉ issuedKeys i.pier) :
    ChargedStep i k { pier := i.pier, phase := false, rate := rate, last := some last } f s
      ((chargeFor k i.pier rate last (s.counted i.pier)).bump f i.pier 0 1) (s.pier i.pier) := by
  have hreg : (s.counted i.pier).reg f i.pier 0 = s.reg f i.pier 0 := (regsBut_counted s i.pier).reg_eq hf
  rw [chargeFor, if_neg hrate, bump_eq, State.reg, modSpan_regs, ← State.reg, hreg]
  refine ⟨((issued_counted s i.pier).modSpan _ _).setReg _ hf, fun j hj => ?_, ?_, ?_, ?_⟩
  · rw [span_setReg, span_modSpan_ne hj, span_counted]
  · rw [span_setReg, span_modSpan_same (s := s.counted i.pier) hloaded, span_counted]
  · rw [reg_setReg_same, hw]
    exact Nat.mod_eq_of_lt (by simp only [satAdd]; omega)
  · rw [pier_setReg, pier_modSpan, pier_counted]

end

theorem exec_ntt (i : Iss) (o : NttOp) (s : State) : exec (.ntt i o) s = execNtt i o s := rfl
theorem exec_intt (i : Iss) (o : NttOp) (s : State) : exec (.intt i o) s = execIntt i o s := rfl

/-- The tiles that the transform reads are latched 64 by 64. -/
def nttFull (s : State) (c : Ctx) (o : NttOp) : Prop :=
  ∀ t, t < o.tiles → (latch s c (o.first + t) fullShape).rows = 64 ∧ (latch s c (o.first + t) fullShape).cols = 64

/-- The charge of a transform: 4 tokens a fc for its cycles. -/
def nttCharge (i : Iss) (c : Ctx) (o : NttOp) : Charge :=
  { pier := i.pier, phase := false, rate := 4, last := some (c.fc + o.cycles - 1) }

/-- The state in which a transform that is admitted has its effect. -/
def nttStart (i : Iss) (c : Ctx) (o : NttOp) (s : State) : State :=
  ((chargeFor c.k i.pier 4 (c.fc + o.cycles - 1) (s.counted i.pier)).bump laNttOps i.pier 0 1).modPier i.pier fun x =>
    { x with nttUntil := c.fc + o.cycles }

section
variable {i : Iss} {s : State} {c : Ctx} (h : Issues i s c) (o : NttOp)
include h

theorem nttIssue_fits (hx : (s.pier i.pier).storePar = []) (hfull : nttFull s c o)
    (hprime : (s.pier i.pier).seq.eff o.prime o.arp < c.batch.ring.count) (eff : Ctx → Nat → Bool → State → State) :
    nttIssue i o s eff = .next ((eff c ((s.pier i.pier).seq.eff o.prime o.arp) ((s.pier i.pier).zeroed o.mem)
      (nttStart i c o s)).modSeq i.pier fun q => q.advance c.fc i.next) := by
  obtain ⟨hp, -⟩ := issues_ctx i s c h
  obtain ⟨p, k, st, fc, batch⟩ := c
  obtain rfl : p = i.pier := hp
  rw [nttIssue, issue_counted h]
  dsimp only
  rw [if_neg ?_, if_neg (by exact Nat.not_le.2 hprime), checkStore_sound (by exact hx)]
  · rfl
  · simp only [Bool.not_eq_true', Bool.not_eq_false, List.all_eq_true, List.mem_range, Bool.and_eq_true, beq_iff_eq]
    exact hfull

theorem chargedStep_nttStart : ChargedStep i c.k (nttCharge i c o) laNttOps s (nttStart i c o s)
    { s.pier i.pier with nttUntil := c.fc + o.cycles } := by
  obtain ⟨-, -, -, hloaded, -⟩ := issues_ctx i s c h
  refine (chargedStep_counted hloaded i (by decide) _ rfl ?_).modPier _
  simp [issuedKeys, Fld.key, laNttOps, seqIssuedLo, seqIssuedHi] <;> omega

end

/-- Settles O17: after the charge and the count each schedules its writes, or its reads and its end. -/
theorem transforms : Obligations.Transforms := by
  intro i s c o h
  obtain ⟨hp, -⟩ := issues_ctx i s c h
  obtain ⟨p, k, st, fc, batch⟩ := c
  obtain rfl : p = i.pier := hp
  intro x px hsound hfull hprime words out
  obtain ⟨-, htile, hstore⟩ := hsound
  have hstart := chargedStep_nttStart h o
  have hpier := hstart.2.2.2.2
  have htile' : ((nttStart i ⟨i.pier, k, st, fc, batch⟩ o s).pier i.pier).tilePar = [] := by rw [hpier]; exact htile
  refine ⟨⟨_, (exec_ntt i o s).trans (nttIssue_fits h o hstore hfull hprime _), ?_⟩,
    _, (exec_intt i o s).trans (nttIssue_fits h o hstore hfull hprime _), ?_⟩
  · dsimp only
    rw [checkTile_sound htile', hpier, schedEach_eq]
    exact (hstart.modPier _).past ⟨i.pier, k, st, fc, batch⟩
  · dsimp only [actInttRead]
    rw [checkTile_sound htile', sched_eq]
    exact (((hstart.modPier fun x => { x with nttBuf := tput x.nttBuf o.first (x.tile o.first) }).modPier fun x =>
      x.plan _).modPier fun x => x.plan _).past ⟨i.pier, k, st, fc, batch⟩

/-! ### The matrix engine (R207 to R211) -/

/-- A next state of the issue of `i` that schedules `new` on its pier and leaves what the lathe's instructions read there. -/
def LatheStep (i : Iss) (s t : State) (new : List Act) (q : Seq) : Prop :=
  Issued i.pier s t ∧ (t.pier i.pier).acts = (s.pier i.pier).acts ++ new ∧ (t.pier i.pier).tiles = (s.pier i.pier).tiles ∧
    (t.pier i.pier).ftq = (s.pier i.pier).ftq ∧ (t.pier i.pier).bench = (s.pier i.pier).bench ∧ (t.pier i.pier).seq = q

theorem ocUse_frame (x : Pier) (t : Nat) : x.ocUse t = { x with oc := (x.ocUse t).oc } := by
  unfold Pier.ocUse
  split
  · rfl
  · split
    · rfl
    · split <;> rfl

section
variable {i : Iss} {s t : State} {new : List Act} {q : Seq}

theorem latheStep_counted (i : Iss) (s : State) : LatheStep i s (s.counted i.pier) [] (s.pier i.pier).seq :=
  ⟨issued_counted s i.pier, (List.append_nil _).symm, rfl, rfl, rfl, rfl⟩

theorem LatheStep.bump (h : LatheStep i s t new q) {f : Fld} (hf : f.key i.pier 0 ∉ issuedKeys i.pier) (n : Nat) :
    LatheStep i s (t.bump f i.pier 0 n) new q := by
  obtain ⟨hissued, hpier⟩ := h
  exact ⟨hissued.setReg _ hf, hpier⟩

theorem LatheStep.modSpan (h : LatheStep i s t new q) (k : Nat) (f : Span → Span) : LatheStep i s (t.modSpan k f) new q := by
  obtain ⟨hissued, hpier⟩ := h
  exact ⟨hissued.modSpan k f, by rwa [pier_modSpan]⟩

theorem LatheStep.chargeFor (h : LatheStep i s t new q) (k rate last : Nat) :
    LatheStep i s (chargeFor k i.pier rate last t) new q := by
  unfold Machine.chargeFor
  split
  · exact h
  · exact h.modSpan k _

theorem LatheStep.raiseHold (h : LatheStep i s t new q) (k : Nat) (src : HoldSrc) (waits : List Nat) (after : HoldThen) :
    LatheStep i s (raiseHold k i.pier src waits after t) new q := by
  rw [raiseHold_eq]
  exact ⟨((h.modSpan k _).1).setReg _ (holdsRaised_notMem_issuedKeys _), (h.modSpan k _).2⟩

/-- An update of the pier that leaves these fields. -/
theorem LatheStep.modPier (h : LatheStep i s t new q) (f : Pier → Pier)
    (hf : ∀ x : Pier, (f x).acts = x.acts ∧ (f x).tiles = x.tiles ∧ (f x).ftq = x.ftq ∧ (f x).bench = x.bench ∧ (f x).seq = x.seq) :
    LatheStep i s (t.modPier i.pier f) new q := by
  obtain ⟨hacts, htiles, hftq, hbench, hseq⟩ := hf (t.pier i.pier)
  obtain ⟨hissued, hpier⟩ := h
  refine ⟨hissued.modPier f, ?_⟩
  rw [modPier_eq, pier_setPier_same, hacts, htiles, hftq, hbench, hseq]
  exact hpier

theorem LatheStep.plan (h : LatheStep i s t new q) (as : List Act) :
    LatheStep i s (t.modPier i.pier fun x => x.plan as) (new ++ as) q := by
  obtain ⟨hissued, hacts, hrest⟩ := h
  refine ⟨hissued.modPier _, ?_, ?_⟩ <;> rw [modPier_eq, pier_setPier_same]
  · simp only [Pier.plan, hacts, List.append_assoc]
  · exact hrest

theorem LatheStep.modSeq (h : LatheStep i s t new q) (f : Seq → Seq) : LatheStep i s (t.modSeq i.pier f) new (f q) := by
  obtain ⟨hissued, hacts, htiles, hftq, hbench, hseq⟩ := h
  refine ⟨hissued.modSeq f, ?_⟩
  rw [modSeq_eq, pier_setPier_same, hseq]
  exact ⟨hacts, htiles, hftq, hbench, rfl⟩

end

theorem checkMme_sound {s : State} {p : Nat} (htile : (s.pier p).tilePar = []) (hstore : (s.pier p).storePar = [])
    (acc : Bool) (o : MmeOp) (a b c : Shape) : checkMme p acc o a b c s = s := by
  unfold checkMme
  dsimp only
  rw [checkTile_sound htile]
  split
  · rw [checkStore_sound hstore, checkStore_sound hstore]
  · rw [checkTile_sound htile, checkStore_sound hstore]

/-- What the engine's operation schedules at its end, in the fc `last`: its result to the queue, or to its tile. -/
def mmeEnd (x : Pier) (o : MmeOp) (sc : Shape) (words : List Nat) (last : Nat) : Act :=
  if o.qdest then .mk last true 5 (.ftqPush ⟨x.nextId, sc, (x.mvec sc.mv).getD [], x.seq.member o.mem, words, false⟩) none
  else .mk last true 0 (.tileBlock o.c sc.rows sc.cols words) none

/-- The result's words. -/
def mmeWords (x : Pier) (r : Ring) (matrix acc : Bool) (o : MmeOp) (sa sb sc : Shape) : List Nat :=
  if x.zeroed o.mem then List.replicate (sc.rows * sc.cols) 0
  else mmeResult matrix acc ((x.colPrimes r sc).take sc.cols) (x.matrix r o.a sa) (x.matrix r o.b sb) (x.matrix r o.c sc)

/-- The start of an operation of the engine over `a` fc of its array: its charge, its counts and its operand cache. -/
def mmeBegin (i : Iss) (c : Ctx) (o : MmeOp) (a : Nat) (s : State) : State :=
  let s1 := (chargeFor c.k i.pier 8 (c.fc + a - 1) s).bump laMmeActiveFc i.pier 0 1
  let s2 := if (s.pier i.pier).oc.any fun e => e.2 = o.b then s1.bump laOcHits i.pier 0 1 else s1
  s2.modPier i.pier fun x => { x.ocUse o.b with mmeUntil := c.fc + a + 12, mmeArray := c.fc + a, nextId := x.nextId + 1 }

/-- The schedule of its result, and of its entry in the finished-tile queue or of its tile's shape. -/
def mmeFinish (i : Iss) (c : Ctx) (o : MmeOp) (x : Pier) (sc : Shape) (words : List Nat) (a : Nat) (s : State) : State :=
  let s1 := s.modPier i.pier fun y => y.plan [mmeEnd x o sc words (c.fc + a + 11)]
  if o.qdest then
    if a = 1 then actFtqPresent c.k i.pier c.fc x.nextId s1 else sched i.pier (c.fc + a - 1) false 5 (.ftqPresent x.nextId) s1
  else shapeAtEnd c (c.fc + a + 11) o.c sc s1

section
variable {i : Iss} {s t : State} {c : Ctx} {new : List Act} {q : Seq}

theorem LatheStep.mmeBegin (h : LatheStep i s t new q) (o : MmeOp) (a : Nat) : LatheStep i s (mmeBegin i c o a t) new q := by
  have hactive : laMmeActiveFc.key i.pier 0 ∉ issuedKeys i.pier := by
    simp [issuedKeys, Fld.key, laMmeActiveFc, seqIssuedLo, seqIssuedHi] <;> omega
  have hhits : laOcHits.key i.pier 0 ∉ issuedKeys i.pier := by
    simp [issuedKeys, Fld.key, laOcHits, seqIssuedLo, seqIssuedHi] <;> omega
  unfold Machine.mmeBegin
  dsimp only
  refine LatheStep.modPier ?_ _ fun x => by rw [ocUse_frame]; exact ⟨rfl, rfl, rfl, rfl, rfl⟩
  split
  · exact ((h.chargeFor _ _ _).bump hactive 1).bump hhits 1
  · exact (h.chargeFor _ _ _).bump hactive 1

theorem LatheStep.mmeFinish (h : LatheStep i s t [] q) (hp : c.p = i.pier) (o : MmeOp) (x : Pier) (sc : Shape)
    (words : List Nat) (a : Nat) :
    ∃ more, LatheStep i s (mmeFinish i c o x sc words a t) (mmeEnd x o sc words (c.fc + a + 11) :: more) q := by
  have h1 := h.plan [mmeEnd x o sc words (c.fc + a + 11)]
  unfold Machine.mmeFinish
  dsimp only
  split
  · split
    · unfold actFtqPresent
      split
      · exact ⟨_, h1.raiseHold _ _ _ _⟩
      · exact ⟨_, h1⟩
    · rw [sched_eq]
      exact ⟨_, h1.plan _⟩
  · unfold shapeAtEnd
    split
    · exact ⟨_, h1⟩
    · rw [sched_eq, hp]
      exact ⟨_, h1.plan _⟩

end

/-- An operation of the engine on a sound pier whose shapes fit. -/
theorem mme_fits {i : Iss} {s : State} {c : Ctx} (h : Issues i s c) (matrix acc : Bool) (o : MmeOp)
    (hsound : (s.pier i.pier).sound)
    (hfit : mmeFits (s.pier i.pier) matrix (latch s c o.a o.shA) (latch s c o.b o.shB) (latch s c o.c o.shC) = true) :
    ∃ t more, mme i matrix acc o s = .next t ∧
      LatheStep i s t (mmeEnd (s.pier i.pier) o (latch s c o.c o.shC)
          (mmeWords (s.pier i.pier) c.batch.ring matrix acc o (latch s c o.a o.shA) (latch s c o.b o.shB) (latch s c o.c o.shC))
          (c.fc + mmeFc matrix (latch s c o.a o.shA) (latch s c o.c o.shC) + 11) :: more)
        ((s.pier i.pier).seq.advance c.fc i.next) := by
  obtain ⟨hp, -⟩ := issues_ctx i s c h
  obtain ⟨p, k, st, fc, batch⟩ := c
  obtain rfl : p = i.pier := hp
  obtain ⟨-, htile, hstore⟩ := hsound
  obtain ⟨more, hend⟩ := ((latheStep_counted i s).mmeBegin (c := ⟨i.pier, k, st, fc, batch⟩) o
    (mmeFc matrix (latch s ⟨i.pier, k, st, fc, batch⟩ o.a o.shA) (latch s ⟨i.pier, k, st, fc, batch⟩ o.c o.shC))).mmeFinish
      (c := ⟨i.pier, k, st, fc, batch⟩) rfl o (s.pier i.pier) (latch s ⟨i.pier, k, st, fc, batch⟩ o.c o.shC)
      (mmeWords (s.pier i.pier) batch.ring matrix acc o (latch s ⟨i.pier, k, st, fc, batch⟩ o.a o.shA)
        (latch s ⟨i.pier, k, st, fc, batch⟩ o.b o.shB) (latch s ⟨i.pier, k, st, fc, batch⟩ o.c o.shC))
      (mmeFc matrix (latch s ⟨i.pier, k, st, fc, batch⟩ o.a o.shA) (latch s ⟨i.pier, k, st, fc, batch⟩ o.c o.shC))
  refine ⟨_, more, issue_counted h _, LatheStep.modSeq ?_ _⟩
  dsimp only
  rw [if_neg (by rw [Bool.not_eq_true', Bool.not_eq_false]; exact hfit), checkMme_sound (by exact htile) (by exact hstore)]
  unfold mmeFinish at hend
  unfold mmeEnd at hend ⊢
  by_cases hq : o.qdest
  · simp only [if_pos hq] at hend ⊢
    exact hend
  · simp only [if_neg hq] at hend ⊢
    exact hend

/-- Settles O18: the operation's end is what it schedules first. -/
theorem matrixEngine : Obligations.MatrixEngine := by
  intro i s c o h x r sa sb sc matrix acc hsound hfit cmd words last
  obtain ⟨t, more, ht, hissued, hacts, htiles, hftq, hbench, hseq⟩ := mme_fits h matrix acc o hsound hfit
  refine ⟨t, _, (exec_mme matrix acc i o s).trans ht, hissued, hacts, htiles, hftq, hbench, hseq, fun hq => ?_, fun hq => ?_⟩
  · rw [mmeEnd, hq]
    exact .head _
  · rw [mmeEnd, hq]
    exact .head _

end Sys2Proof.Machine

/-! DSEND and HCHK: the deck's rows (R261) and the header checks (R269, R270, R57). -/
namespace Sys2Proof.Machine

/-! ### DSEND (R261) -/

/-- The later rows of a DSEND from row `row` of its bench, each presented 12 fc before its slot. -/
def dsendLater (fc : Nat) (o : DsendOp) (row : Nat) : List Act :=
  (List.range (o.n - 1)).map fun k => Act.mk (fc + flitsOf o.lanes * (k + 1)) false 0 (.present [(row + k + 1, 1)]) none

/-- Its entries into the send queue, each presented 12 fc before. -/
def dsendEntries (fc : Nat) (o : DsendOp) : List Act :=
  (List.range o.n).map fun k =>
    Act.mk (fc + 6 + flitsOf o.lanes * k) false 3 (.sendqPresent (fc + 18 + flitsOf o.lanes * k) (flitsOf o.lanes)) none

/-- The reads of its rows, sent as the rows from `drow` on of the other bench. -/
def dsendReads (fc : Nat) (o : DsendOp) (row drow : Nat) : List Act :=
  (List.range o.n).map fun k => Act.mk (fc + 12 + flitsOf o.lanes * k) false 3 (.dsendRead o (row + k) (drow + k)) none

theorem exec_dsend (i : Iss) (o : DsendOp) (s : State) : exec (.dsend i o) s = execDsend i o s := rfl

/-- Settles O22: every read and every entry is among those scheduled. -/
theorem deckSend : Obligations.DeckSend := by
  intro i s c o h
  obtain ⟨hp, -⟩ := issues_ctx i s c h
  obtain ⟨p, k, st, fc, batch⟩ := c
  obtain rfl : p = i.pier := hp
  intro x f row drow
  refine ⟨_, dsendLater fc o row ++ dsendEntries fc o ++ dsendReads fc o row drow, (exec_dsend i o s).trans (issue_counted h _), ?_, fun k hk => ⟨?_, ?_⟩⟩
  · dsimp only
    rw [schedEach_eq, ← Pier.plan, ← plan_plan, ← plan_plan]
    exact (((present_counted h (row, 1)).modPier fun x => (x.plan (dsendLater fc o row)).plan (dsendEntries fc o)).modPier fun x =>
      x.plan (dsendReads fc o row drow)).past
  · exact List.mem_append_right _ (List.mem_map.2 ⟨k, List.mem_range.2 hk, rfl⟩)
  · exact List.mem_append_left _ (List.mem_append_right _ (List.mem_map.2 ⟨k, List.mem_range.2 hk, rfl⟩))

/-! ### Fields of a word and of a header -/

theorem testBit_fld (x lo w j : Nat) : (fld x lo w).testBit j = (decide (j < w) && x.testBit (lo + j)) := by
  rw [fld, Nat.testBit_mod_two_pow, Nat.testBit_div_two_pow, Nat.add_comm]

theorem testBit_setFld (x lo w v j : Nat) :
    (setFld x lo w v).testBit j = if j < lo then x.testBit j else if j < lo + w then v.testBit (j - lo) else x.testBit j := by
  have hlow : 2 ^ lo * (v % 2 ^ w) + x % 2 ^ lo < 2 ^ (lo + w) := by
    have hv := Nat.mod_lt v (Nat.two_pow_pos w)
    have hx := Nat.mod_lt x (Nat.two_pow_pos lo)
    calc 2 ^ lo * (v % 2 ^ w) + x % 2 ^ lo < 2 ^ lo * (v % 2 ^ w + 1) := by rw [Nat.mul_succ]; omega
      _ ≤ 2 ^ lo * 2 ^ w := Nat.mul_le_mul_left _ hv
      _ = 2 ^ (lo + w) := (Nat.pow_add ..).symm
  have hsum : setFld x lo w v = 2 ^ (lo + w) * (x / 2 ^ (lo + w)) + (2 ^ lo * (v % 2 ^ w) + x % 2 ^ lo) := by
    rw [setFld, Nat.add_comm, Nat.add_comm (x % 2 ^ lo)]
  rw [hsum, Nat.testBit_two_pow_mul_add _ hlow, Nat.testBit_two_pow_mul_add _ (Nat.mod_lt x (Nat.two_pow_pos lo)),
    Nat.testBit_div_two_pow, Nat.testBit_mod_two_pow, Nat.testBit_mod_two_pow]
  by_cases h1 : j < lo
  · simp [h1, Nat.lt_add_right w h1]
  · by_cases h2 : j < lo + w
    · simp [h1, h2, show j - lo < w by omega]
    · simp [h1, h2, show j - (lo + w) + (lo + w) = j by omega]

theorem testBit_put {o n j : Nat} (h : Hdr) (v : Nat) (hj : j < 512) :
    (h.put o n v).toNat.testBit j = if j < 8 * o then h.toNat.testBit j
      else if j < 8 * o + 8 * n then v.testBit (j - 8 * o) else h.toNat.testBit j := by
  rw [Hdr.put, BitVec.testBit_toNat, BitVec.getLsbD_ofNat, testBit_setFld]
  rw [decide_eq_true hj, Bool.true_and]

theorem get_put_same (h : Hdr) {o n : Nat} (v : Nat) (ho : o + n ≤ 64) : (h.put o n v).get o n = v % 2 ^ (8 * n) := by
  refine Nat.eq_of_testBit_eq fun j => ?_
  rw [Hdr.get, testBit_fld, Nat.testBit_mod_two_pow]
  by_cases hj : j < 8 * n
  · rw [testBit_put h v (by omega), if_neg (by omega), if_pos (by omega), Nat.add_sub_cancel_left]
  · simp [hj]

theorem get_put_ne (h : Hdr) {o n a b : Nat} (v : Nat) (ha : a + b ≤ 64) (hd : a + b ≤ o ∨ o + n ≤ a) :
    (h.put o n v).get a b = h.get a b := by
  refine Nat.eq_of_testBit_eq fun j => ?_
  rw [Hdr.get, Hdr.get, testBit_fld, testBit_fld]
  by_cases hj : j < 8 * b
  · rw [testBit_put h v (by omega)]
    split
    · rfl
    · rw [if_neg (by omega)]
  · simp [hj]

/-! ### POISON, POISON_CODE and HEADER_CRC (R46, R57, R180) -/

theorem leBytes_take {m n : Nat} (x : Nat) (h : m ≤ n) : (leBytes n x).take m = leBytes m x := by
  induction n generalizing m x with
  | zero => rw [Nat.le_zero.1 h]; rfl
  | succ n ih =>
    cases m with
    | zero => rfl
    | succ m => rw [leBytes, leBytes, List.take_succ_cons, ih _ (by omega)]

theorem leBytes_congr {n x y : Nat} (h : ∀ j, j < 8 * n → x.testBit j = y.testBit j) : leBytes n x = leBytes n y := by
  induction n generalizing x y with
  | zero => rfl
  | succ n ih =>
    rw [leBytes, leBytes]
    refine congr (congrArg _ (BitVec.eq_of_getLsbD_eq fun j hj => ?_)) (ih fun j hj => ?_)
    · simp only [BitVec.getLsbD_ofNat, h j (by omega)]
    · rw [show 256 = 2 ^ 8 from rfl, Nat.testBit_div_two_pow, Nat.testBit_div_two_pow, h _ (by omega)]

/-- A field behind the first `m` bytes leaves them. -/
theorem hdrBytes_put_take (h : Hdr) {o n m : Nat} (v : Nat) (hm : m ≤ o) (ho : o ≤ 64) :
    (hdrBytes (h.put o n v)).take m = (hdrBytes h).take m := by
  rw [hdrBytes, hdrBytes, leBytes_take _ (by omega), leBytes_take _ (by omega)]
  refine leBytes_congr fun j hj => ?_
  rw [testBit_put h v (by omega), if_pos (by omega)]

theorem isShare_put (h : Hdr) {o n : Nat} (v : Nat) (ho : 4 ≤ o) : (h.put o n v).isShare = h.isShare := by
  rw [Hdr.isShare, Hdr.isShare, get_put_ne h v (by decide) (.inl ho)]

theorem crcBit_lt {c : Nat} (h : c < 2 ^ 32) : crcBit c < 2 ^ 32 := by
  unfold crcBit
  split
  · exact Nat.xor_lt_two_pow (by omega) (by decide)
  · omega

theorem crcByte_lt {c : Nat} (h : c < 2 ^ 32) (b : Byte) : crcByte c b < 2 ^ 32 := by
  have hb : c ^^^ b.toNat < 2 ^ 32 := Nat.xor_lt_two_pow h (Nat.lt_of_lt_of_le b.isLt (by decide))
  unfold crcByte
  iterate 8 refine crcBit_lt ?_
  exact hb

theorem crc32_lt (bs : List Byte) : crc32 bs < 2 ^ 32 := by
  have hfold : ∀ c, c < 2 ^ 32 → bs.foldl crcByte c < 2 ^ 32 := by
    induction bs with
    | nil => exact fun c h => h
    | cons b bs ih => exact fun c h => ih _ (crcByte_lt h b)
  exact Nat.xor_lt_two_pow (hfold _ (by decide)) (by decide)

theorem isShare_seal (h : Hdr) : h.seal.isShare = h.isShare := by
  unfold Hdr.seal
  split <;> exact isShare_put h _ (by decide)

theorem crcOk_seal (h : Hdr) : h.seal.crcOk = true := by
  rw [Hdr.crcOk, isShare_seal, Hdr.seal]
  by_cases hs : h.isShare
  · simp only [if_pos hs]
    rw [get_put_same h _ (by decide), hdrBytes_put_take h _ (Nat.le_refl _) (by decide), Nat.mod_eq_of_lt (crc32_lt _)]
    simp
  · simp only [if_neg hs]
    rw [get_put_same h _ (by decide), hdrBytes_put_take h _ (Nat.le_refl _) (by decide), Nat.mod_eq_of_lt (crc32_lt _)]
    simp

/-- A field of a share header ahead of its CRC, and one of any other header ahead of its CRC. -/
theorem get_seal (h : Hdr) {a b : Nat} (hab : if h.isShare then a + b ≤ 0x1C else a + b ≤ 0x3C) : h.seal.get a b = h.get a b := by
  unfold Hdr.seal
  split <;> rename_i hs
  · rw [if_pos hs] at hab
    exact get_put_ne h _ (by omega) (.inl hab)
  · rw [if_neg hs] at hab
    exact get_put_ne h _ (by omega) (.inl hab)

theorem isShare_poison (h : Hdr) (code : Nat) : (h.poison code).isShare = h.isShare := by
  rw [Hdr.poison, isShare_seal]
  split <;> rw [isShare_put _ _ (by decide), isShare_put _ _ (by decide)]

theorem crcOk_poison (h : Hdr) (code : Nat) : (h.poison code).crcOk = true := crcOk_seal _

theorem code_poison (h : Hdr) {code : Nat} (hc : code < 2 ^ 16) : (h.poison code).code = code := by
  rw [Hdr.code, isShare_poison, Hdr.poison]
  by_cases hs : h.isShare
  · simp only [if_pos hs]
    rw [get_seal _ (by rw [isShare_put _ _ (by decide), isShare_put _ _ (by decide), if_pos hs]; decide),
      get_put_same _ _ (by decide)]
    exact Nat.mod_eq_of_lt hc
  · simp only [if_neg hs]
    rw [get_seal _ (by rw [isShare_put _ _ (by decide), isShare_put _ _ (by decide), if_neg hs]; decide),
      get_put_same _ _ (by decide)]
    exact Nat.mod_eq_of_lt hc

theorem bit_zero_setFld (x : Nat) {m : Nat} (hm : 0 < m) : bit (setFld x 0 1 1 % 2 ^ m) 0 = true := by
  rw [bit, Nat.testBit_mod_two_pow, testBit_setFld]
  simp [hm]

theorem poisoned_poison (h : Hdr) (code : Nat) : (h.poison code).poisoned = true := by
  rw [Hdr.poisoned, isShare_poison, Hdr.poison]
  by_cases hs : h.isShare
  · simp only [if_pos hs]
    rw [get_seal _ (by rw [isShare_put _ _ (by decide), isShare_put _ _ (by decide), if_pos hs]; decide),
      get_put_ne _ _ (by decide) (by decide), get_put_same _ _ (by decide)]
    exact bit_zero_setFld _ (by decide)
  · simp only [if_neg hs, Hdr.flags]
    rw [get_seal _ (by rw [isShare_put _ _ (by decide), isShare_put _ _ (by decide), if_neg hs]; decide),
      get_put_ne _ _ (by decide) (by decide), get_put_same _ _ (by decide)]
    exact bit_zero_setFld _ (by decide)

theorem code_lt (h : Hdr) : h.code < 2 ^ 16 := by
  unfold Hdr.code
  split <;> exact Nat.mod_lt _ (by decide)

/-- A result that refuses has a header poisoned with its code. -/
def SealsRefusal (y : ChkRes) : Prop := y.code ≠ 0 → ∃ h : Hdr, y.hd = h.poison y.code ∧ y.code < 2 ^ 16

theorem sealsRefusal_refuse (x : ChkArg) (hs : List Hdr) (a : Hdr) (valid : Bool) {code : Nat} (hc : code < 2 ^ 16) :
    SealsRefusal (refuse x hs a valid code) := fun _ => ⟨_, rfl, hc⟩

/-- Poison that an operand carried in. -/
theorem sealsRefusal_consumed (x : ChkArg) (hs : List Hdr) (a : Hdr) (valid : Bool) (h : Hdr) :
    SealsRefusal { refuse x hs a valid h.code with consumed := true } := fun _ => ⟨_, rfl, code_lt h⟩

theorem sealsRefusal_passed (h : Hdr) (crossed : Bool) : SealsRefusal { hd := h, crossed := crossed } :=
  fun hc => absurd rfl hc

theorem sealsRefusal_combine (x : ChkArg) (hs : List Hdr) (a b : Hdr) : SealsRefusal (combine x hs a b) := by
  unfold combine
  dsimp only
  split
  · exact fun _ => ⟨_, rfl, code_lt _⟩
  · split
    · exact sealsRefusal_refuse _ _ _ _ (by decide)
    · split
      · exact sealsRefusal_refuse _ _ _ _ (by decide)
      · exact sealsRefusal_passed _ _

/-- One step of Table 2-7, and the steps behind it. -/
theorem SealsRefusal.step {p : Prop} [Decidable p] {y z : ChkRes} (hy : SealsRefusal y) (hz : SealsRefusal z) :
    SealsRefusal (if p then y else z) := by
  split
  · exact hy
  · exact hz

/-- Steps 1 to 10 of Table 2-7: each that fails refuses, and the last passes. -/
theorem sealsRefusal_ctCheck (x : ChkArg) (r : Ring) (a : Hdr) (b k : Option Hdr) : SealsRefusal (ctCheck x r a b k) := by
  unfold ctCheck
  refine (sealsRefusal_refuse _ _ _ _ (by decide)).step ((sealsRefusal_refuse _ _ _ _ (by decide)).step
    ((sealsRefusal_combine _ _ _ _).step ?_))
  cases (a :: b.toList).find? Hdr.poisoned with
  | some h => exact sealsRefusal_consumed _ _ _ _ h
  | none =>
    refine (sealsRefusal_passed _ _).step ((sealsRefusal_refuse _ _ _ _ (by decide)).step
      ((sealsRefusal_refuse _ _ _ _ (by decide)).step (.step (fun _ => ⟨_, rfl, show 0x0202 < 2 ^ 16 by decide⟩) ?_)))
    exact (sealsRefusal_refuse _ _ _ _ (by decide)).step ((sealsRefusal_refuse _ _ _ _ (by decide)).step
      ((sealsRefusal_refuse _ _ _ _ (by decide)).step ((sealsRefusal_refuse _ _ _ _ (by decide)).step
        ((sealsRefusal_refuse _ _ _ _ (by decide)).step (sealsRefusal_passed _ _)))))

/-- Steps 1 to 5 on share operands. -/
theorem sealsRefusal_shCheck (x : ChkArg) (r : Ring) (a : Hdr) (b : Option Hdr) : SealsRefusal (shCheck x r a b) := by
  unfold shCheck
  refine (sealsRefusal_refuse _ _ _ _ (by decide)).step ((sealsRefusal_refuse _ _ _ _ (by decide)).step ?_)
  cases (a :: b.toList).find? Hdr.poisoned with
  | some h => exact sealsRefusal_consumed _ _ _ _ h
  | none =>
    exact (sealsRefusal_refuse _ _ _ _ (by decide)).step ((sealsRefusal_refuse _ _ _ _ (by decide)).step
      ((sealsRefusal_refuse _ _ _ _ (by decide)).step ((sealsRefusal_refuse _ _ _ _ (by decide)).step
        ((sealsRefusal_passed _ _).step (sealsRefusal_passed _ _)))))

theorem sealsRefusal_hdrCheck (x : ChkArg) (r : Ring) (a : Hdr) (b k : Option Hdr) : SealsRefusal (hdrCheck x r a b k) := by
  unfold hdrCheck
  split
  · exact sealsRefusal_shCheck x r a b
  · exact sealsRefusal_ctCheck x r a b k

/-- Settles O26: whichever check refuses, its result is a poisoned header. -/
theorem poisonedResultsAreSealed : Obligations.PoisonedResultsAreSealed := by
  intro x r a b k y hy
  obtain ⟨h, hh, hc⟩ := sealsRefusal_hdrCheck x r a b k hy
  rw [hh]
  exact ⟨poisoned_poison h _, code_poison h hc, crcOk_poison h _⟩

/-! ### HCHK (R269, R270) -/

theorem exec_hchk (i : Iss) (o : HchkOp) (s : State) : exec (.hchk i o) s = execHchk i o s := rfl

/-- A poison vector with the bit of member `m` set. -/
def poisonBits (bits : List Nat) (m : Nat) : List Nat := if bits.contains m then bits else m :: bits

theorem mem_poisonBits (bits : List Nat) (m : Nat) : m ∈ poisonBits bits m := by
  unfold poisonBits
  split
  · rename_i h
    simpa using h
  · exact .head _

theorem poisonMember_eq (p m : Nat) (s : State) :
    poisonMember p m s = s.modPier p fun x => { x with poison := poisonBits x.poison m } := by
  unfold poisonMember poisonBits
  refine congrArg _ (funext fun x => ?_)
  split <;> rfl

/-- Of the piers a header check changes its own, and of that the poison vector. -/
theorem chkEffects_piers (c : Ctx) (n : Nat) (m : Member) (r : ChkRes) (s : State) : (chkEffects c n m r s).piers =
    if r.code ≠ 0 ∨ r.consumed then (s.modPier c.p fun x => { x with poison := poisonBits x.poison n }).piers else s.piers := by
  have hpoison : ∀ f, (poisonMember c.p n (modMember c.k n f s)).piers = (s.modPier c.p fun x => { x with poison := poisonBits x.poison n }).piers := by
    intro f
    rw [poisonMember_eq, modPier_eq, modPier_eq, modMember, pier_modSpan]
    simp [State.setPier]
  unfold chkEffects
  by_cases hbad : r.code ≠ 0 ∨ r.consumed
  · simp only [if_pos hbad]
    split
    · split
      · exact hpoison _
      · rw [raise_piers, modMember, modSpan_piers]
        exact hpoison _
    · rw [raise_piers]
      split <;> exact hpoison _
  · simp only [if_neg hbad]
    split
    · rw [raise_piers, modMember, modSpan_piers]
    · rfl

theorem pier_chkEffects (c : Ctx) (n : Nat) (m : Member) (r : ChkRes) (s : State) (q : Nat) : (chkEffects c n m r s).pier q =
    if r.code ≠ 0 ∨ r.consumed then (s.modPier c.p fun x => { x with poison := poisonBits x.poison n }).pier q else s.pier q := by
  rw [State.pier, chkEffects_piers]
  split <;> rfl

/-- The pier past an HCHK that wrote `v` to HD and left the poison vector `bits`. -/
def Pier.checked (x : Pier) (i : Iss) (c : Ctx) (hd : Nat) (v : Hdr) (bits : List Nat) : Pier :=
  { x with seq := ({ x.seq with h := tput x.seq.h hd v } : Seq).advance c.fc i.next, poison := bits }

/-- A header check whose result is written and has its effects. -/
theorem chkEffects_step {i : Iss} {c : Ctx} (s : State) (hp : c.p = i.pier) (hd n : Nat) (m : Member) (r : ChkRes) :
    let t := (chkEffects c n m r ((s.counted i.pier).modSeq i.pier fun q => { q with h := tput q.h hd r.hd })).modSeq i.pier
      fun q => q.advance c.fc i.next
    piersBut i.pier s t ∧ t.pier i.pier = (s.pier i.pier).checked i c hd r.hd
      (if r.code ≠ 0 ∨ r.consumed then poisonBits (s.pier i.pier).poison n else (s.pier i.pier).poison) := by
  refine ⟨fun q hq => ?_, ?_⟩
  · rw [modSeq_eq, pier_setPier_ne _ _ hq, pier_chkEffects, hp]
    split
    · exact (((issued_counted s i.pier).modSeq _).modPier _).piersBut q hq
    · exact ((issued_counted s i.pier).modSeq _).piersBut q hq
  · rw [modSeq_eq, pier_setPier_same, pier_chkEffects, hp]
    split
    · rw [modPier_eq, modSeq_eq, pier_setPier_same, pier_setPier_same]
      rfl
    · rw [modSeq_eq, pier_setPier_same]
      rfl

theorem oper_counted (s : State) (p : Nat) : (s.counted p).oper = s.oper := by
  rw [State.oper, State.counted, dreg_bump2_issued s p _ (by decide)]
  rfl

theorem policyOf_counted (s : State) (p : Nat) (m : Member) : (s.counted p).policyOf m = s.policyOf m := rfl

/-- The operands of an HCHK and its class's checks of them. -/
def hchkRes (q : Seq) (o : HchkOp) (r : Ring) (oper : Nat) (pol : Policy) : ChkRes :=
  let reg := fun (h : Nat) => if h = 15 then (0 : Hdr) else q.hreg h
  let two := o.cls = 0 ∨ o.cls = 3 ∨ o.cls = 8 ∨ o.cls = 9 ∨ o.cls = 10
  hdrCheck { cls := o.cls, levelArg := o.level, g := o.g, spt := o.spt, hoist := o.hoist, oper := oper
             noiseLimit := pol.noiseLimit, noiseAction := pol.noiseAction } r (reg o.ha)
    (if two then (if o.hb = 15 ∧ o.cls = 9 then none else some (reg o.hb)) else none)
    (if o.cls = 4 ∨ o.cls = 5 then some (reg o.hk) else none)

section
variable {i : Iss} {s : State} {c : Ctx} (h : Issues i s c) {o : HchkOp} (hcls : o.cls < 13)
include h hcls

/-- HCHK of a slot at or above M. -/
theorem exec_hchk_absent (hm : c.batch.members.length ≤ ((s.pier i.pier).seq.member o.mem).getD 0) :
    ∃ t, exec (.hchk i o) s = .next t ∧ piersBut i.pier s t ∧ t.mem = s.mem ∧ t.pier i.pier =
      (s.pier i.pier).checked i c o.hd 0 (poisonBits (s.pier i.pier).poison (((s.pier i.pier).seq.member o.mem).getD 0)) := by
  obtain ⟨hp, -⟩ := issues_ctx i s c h
  obtain ⟨p, k, st, fc, batch⟩ := c
  obtain rfl : p = i.pier := hp
  refine ⟨_, (exec_hchk i o s).trans (issue_counted h _), ?_⟩
  dsimp only
  rw [if_neg (by exact Nat.not_le.2 hcls), List.getElem?_eq_none (by exact hm)]
  rw [poisonMember_eq]
  refine ⟨(((issued_counted s i.pier).modSeq _).modPier _).modSeq _ |>.piersBut, rfl, ?_⟩
  rw [modSeq_eq, modPier_eq, modSeq_eq, pier_setPier_same, pier_setPier_same, pier_setPier_same]
  rfl

/-- HCHK of a member. -/
theorem exec_hchk_member {m : Member} (hm : c.batch.members[((s.pier i.pier).seq.member o.mem).getD 0]? = some m) :
    let r := hchkRes (s.pier i.pier).seq o c.batch.ring s.oper (s.policyOf m)
    ∃ t, exec (.hchk i o) s = .next t ∧ piersBut i.pier s t ∧ t.pier i.pier =
      (s.pier i.pier).checked i c o.hd r.hd (if r.code ≠ 0 ∨ r.consumed then
        poisonBits (s.pier i.pier).poison (((s.pier i.pier).seq.member o.mem).getD 0) else (s.pier i.pier).poison) := by
  obtain ⟨hp, -⟩ := issues_ctx i s c h
  obtain ⟨p, k, st, fc, batch⟩ := c
  obtain rfl : p = i.pier := hp
  refine ⟨_, (exec_hchk i o s).trans (issue_counted h _), ?_⟩
  dsimp only
  have hb : (if o.hb = 15 then (if o.cls = 9 then none else some 0) else some ((s.pier i.pier).seq.hreg o.hb)) =
      if o.hb = 15 ∧ o.cls = 9 then none else some (if o.hb = 15 then 0 else (s.pier i.pier).seq.hreg o.hb) := by
    by_cases h15 : o.hb = 15
    · simp only [h15, true_and, if_true]
    · rw [if_neg h15, if_neg fun hl => h15 hl.1, if_neg h15]
  rw [if_neg (by exact Nat.not_le.2 hcls), pier_counted, hm, hb]
  simp only [oper_counted, policyOf_counted]
  exact chkEffects_step s rfl o.hd _ m (hchkRes (s.pier i.pier).seq o batch.ring s.oper (s.policyOf m))

end

/-- Settles O25: a result without code and without consumed poison leaves the poison vector. -/
theorem headerCheck : Obligations.HeaderCheck := by
  intro i s c o h hcls x idx reg two b kh
  by_cases hm : c.batch.members.length ≤ idx
  · obtain ⟨t, ht, hpiers, hmem, hx⟩ := exec_hchk_absent h hcls hm
    refine ⟨t, { x.seq with h := tput x.seq.h o.hd 0 }, ht, hpiers, ?_⟩
    rw [hx]
    refine ⟨rfl, rfl, fun n hn => tget_tput_ne _ _ _ hn, rfl, rfl, fun _ => ⟨tget_tput_same _ _ _ _, mem_poisonBits _ _, hmem⟩,
      fun m hsome => ?_⟩
    rw [List.getElem?_eq_none hm] at hsome
    exact absurd hsome (by simp)
  · obtain ⟨m, hmem⟩ : ∃ m, c.batch.members[idx]? = some m := ⟨_, List.getElem?_eq_getElem (Nat.not_le.1 hm)⟩
    obtain ⟨t, ht, hpiers, hx⟩ := exec_hchk_member h hcls hmem
    refine ⟨t, { x.seq with h := tput x.seq.h o.hd (hchkRes x.seq o c.batch.ring s.oper (s.policyOf m)).hd }, ht, hpiers, ?_⟩
    rw [hx]
    refine ⟨rfl, rfl, fun n hn => tget_tput_ne _ _ _ hn, rfl, rfl, fun hle => absurd hle hm, fun m' hsome => ?_⟩
    obtain rfl : m = m' := Option.some.inj (hmem.symm.trans hsome)
    intro arg r
    refine ⟨tget_tput_same _ _ _ _, fun hcode => ?_, fun hcode hcons => ?_⟩
    · exact (if_pos (Or.inl hcode)).symm ▸ mem_poisonBits _ _
    · exact if_neg fun hbad => hbad.elim (fun hne => hne hcode) fun ht => absurd (hcons.symm.trans ht) (by decide)

end Sys2Proof.Machine

/-! SPIN and FSSE: passes of the spindle (R230 to R236) and evaluations of function secret sharing (R238, R239). -/
namespace Sys2Proof.Machine

/-! ### What the start of a pass keeps (R236) -/

/-- A next state of the issue of `i` that holds `ps` passes, has scheduled at least `as`, and has counted `n` passes. -/
def SpinStep (i : Iss) (s t : State) (ps : List Pass) (as : List Act) (n : Nat) : Prop :=
  Issued i.pier s t ∧ (t.pier i.pier).passes = ps ∧ (t.pier i.pier).seq = (s.pier i.pier).seq ∧
    (t.pier i.pier).tiles = (s.pier i.pier).tiles ∧ (t.pier i.pier).bench = (s.pier i.pier).bench ∧
    as ⊆ (t.pier i.pier).acts ∧ t.reg spPasses i.pier 0 = n

section
variable {i : Iss} {s t : State} {ps : List Pass} {as : List Act} {n : Nat}

theorem spinStep_counted (i : Iss) (s : State) :
    SpinStep i s (s.counted i.pier) (s.pier i.pier).passes [] (s.reg spPasses i.pier 0) :=
  ⟨issued_counted s i.pier, rfl, rfl, rfl, rfl, List.nil_subset _, (regsBut_counted s i.pier).reg_eq
    (by simp [issuedKeys, Fld.key, spPasses, seqIssuedLo, seqIssuedHi] <;> omega)⟩

theorem SpinStep.modSpan (h : SpinStep i s t ps as n) (k : Nat) (f : Span → Span) : SpinStep i s (t.modSpan k f) ps as n := by
  obtain ⟨hissued, hpier⟩ := h
  refine ⟨hissued.modSpan k f, ?_⟩
  rw [pier_modSpan, State.reg, modSpan_regs]
  exact hpier

theorem SpinStep.chargeFor (h : SpinStep i s t ps as n) (k p rate last : Nat) :
    SpinStep i s (chargeFor k p rate last t) ps as n := by
  unfold Machine.chargeFor
  split
  · exact h
  · exact h.modSpan k _

theorem SpinStep.raiseHold (h : SpinStep i s t ps as n) (k : Nat) (src : HoldSrc) (waits : List Nat) (after : HoldThen) :
    SpinStep i s (raiseHold k i.pier src waits after t) ps as n := by
  rw [raiseHold_eq]
  obtain ⟨hissued, hps, hseq, htiles, hbench, has, hn⟩ := h.modSpan k _
  exact ⟨hissued.setReg _ (holdsRaised_notMem_issuedKeys _), hps, hseq, htiles, hbench, has,
    (reg_setReg_ne _ _ (by simp [Fld.key, spPasses, spnHoldsRaised] <;> omega)).trans hn⟩

/-- An update of the pier that keeps these fields and drops nothing scheduled. -/
theorem SpinStep.modPier (h : SpinStep i s t ps as n) (f : Pier → Pier) (hf : ∀ x : Pier, (f x).passes = x.passes ∧
    (f x).seq = x.seq ∧ (f x).tiles = x.tiles ∧ (f x).bench = x.bench ∧ x.acts ⊆ (f x).acts) :
    SpinStep i s (t.modPier i.pier f) ps as n := by
  obtain ⟨hfp, hfs, hft, hfb, hfa⟩ := hf (t.pier i.pier)
  obtain ⟨hissued, hps, hseq, htiles, hbench, has, hn⟩ := h
  refine ⟨hissued.modPier f, ?_⟩
  rw [modPier_eq, pier_setPier_same]
  exact ⟨hfp.trans hps, hfs.trans hseq, hft.trans htiles, hfb.trans hbench, List.Subset.trans has hfa, hn⟩

theorem SpinStep.plan (h : SpinStep i s t ps as n) (bs : List Act) :
    SpinStep i s (t.modPier i.pier fun x => x.plan bs) ps (as ++ bs) n := by
  obtain ⟨hissued, hps, hseq, htiles, hbench, has, hn⟩ := h
  refine ⟨hissued.modPier _, ?_⟩
  rw [modPier_eq, pier_setPier_same]
  exact ⟨hps, hseq, htiles, hbench, List.append_subset.2 ⟨List.subset_append_of_subset_left _ has, List.subset_append_right _ _⟩, hn⟩

theorem SpinStep.mono {bs : List Act} (h : SpinStep i s t ps as n) (hb : bs ⊆ as) : SpinStep i s t ps bs n := by
  obtain ⟨hissued, hps, hseq, htiles, hbench, has, hn⟩ := h
  exact ⟨hissued, hps, hseq, htiles, hbench, List.Subset.trans hb has, hn⟩

theorem SpinStep.more (h : SpinStep i s t ps as n) (bs : List Act) : SpinStep i s (t.modPier i.pier fun x => x.plan bs) ps as n :=
  (h.plan bs).mono (List.subset_append_left _ _)

theorem SpinStep.present (h : SpinStep i s t ps as n) (k : Nat) (rows : List (Nat × Nat)) :
    SpinStep i s (present k i.pier rows t) ps as n := by
  unfold Machine.present
  dsimp only
  split
  · exact h
  · exact h.raiseHold _ _ _ _

theorem SpinStep.sendqPresent (h : SpinStep i s t ps as n) (k now enters flits : Nat) :
    SpinStep i s (actSendqPresent k i.pier now enters flits t) ps as n := by
  have hann := h.modPier (fun x => { x with announced := x.announced ++ [(enters, flits)] })
    fun _ => ⟨rfl, rfl, rfl, rfl, List.Subset.refl _⟩
  unfold actSendqPresent
  dsimp only
  split
  · exact hann.raiseHold _ _ _ _
  · exact hann

theorem SpinStep.shapeAtEnd (h : SpinStep i s t ps as n) {c : Ctx} (hp : c.p = i.pier) (due tile : Nat) (sh : Shape) :
    SpinStep i s (shapeAtEnd c due tile sh t) ps as n := by
  unfold Machine.shapeAtEnd
  split
  · exact h
  · rw [sched_eq, hp]
    exact h.more _

/-- A list of updates each of which keeps them. -/
theorem SpinStep.foldl {α : Type} {f : State → α → State} (hf : ∀ t a, SpinStep i s t ps as n → SpinStep i s (f t a) ps as n)
    (l : List α) (h : SpinStep i s t ps as n) : SpinStep i s (l.foldl f t) ps as n := by
  induction l generalizing t with
  | nil => exact h
  | cons a l ih => exact ih (hf t a h)

/-- A list of effects scheduled one by one. -/
theorem SpinStep.plans {α : Type} (act : α → Act) (l : List α) (h : SpinStep i s t ps as n) :
    SpinStep i s (l.foldl (fun s a => s.modPier i.pier fun x => x.plan [act a]) t) ps (as ++ l.map act) n := by
  induction l generalizing t as with
  | nil => simpa using h
  | cons a l ih =>
    refine (ih (h.plan [act a])).mono ?_
    simp

end

theorem schedPass_eq (p pass due : Nat) (atEnd : Bool) (slot : Nat) (op : ActOp) (s : State) :
    schedPass p pass due atEnd slot op s = s.modPier p fun x => x.plan [Act.mk due atEnd slot op (some pass)] := rfl

/-- The rows of a pass, each `interval` fc behind the one before. -/
def spinRows (a : Pass) (fc : Nat) : List Act :=
  (List.range a.shape.rows).map fun k => Act.mk (fc + 2 + (k + 1) * a.interval) false 0 (.spinRow a.id k) (some a.id)

/-- A pass more is in flight and counted. -/
theorem SpinStep.enter {i : Iss} {s t : State} {ps : List Pass} {as : List Act} {n : Nat} (h : SpinStep i s t ps as n)
    (a : Pass) (f : Pier → Nat) :
    SpinStep i s ((t.bump spPasses i.pier 0 1).modPier i.pier fun x =>
      { x with passes := x.passes ++ [a], passUntil := f x, nextId := x.nextId + 1 }) (ps ++ [a]) as (satAdd 32 n 1) := by
  obtain ⟨hissued, hps, hseq, htiles, hbench, has, hn⟩ := h
  have hkey : spPasses.key i.pier 0 ∉ issuedKeys i.pier := by
    simp [issuedKeys, Fld.key, spPasses, seqIssuedLo, seqIssuedHi] <;> omega
  rw [bump_eq, hn]
  refine ⟨(hissued.setReg _ hkey).modPier _, ?_⟩
  rw [modPier_eq, pier_setPier_same, pier_setReg, hps]
  refine ⟨rfl, hseq, htiles, hbench, has, (reg_setReg_same _ _ _ _ _).trans ?_⟩
  exact Nat.mod_eq_of_lt (by simp only [satAdd, spPasses]; omega)

/-- The start of a pass: it is in flight, counted, and its rows are scheduled. -/
theorem SpinStep.startPass {i : Iss} {s t : State} {ps : List Pass} {as : List Act} {n : Nat}
    (h : SpinStep i s t ps as n) {c : Ctx} (hp : c.p = i.pier) (a : Pass) (flits : Nat) :
    SpinStep i s (startPass c a flits t) (ps ++ [a]) (spinRows a c.fc) (satAdd 32 n 1) := by
  obtain ⟨p, k, st, fc, batch⟩ := c
  obtain rfl : p = i.pier := hp
  unfold Machine.startPass
  extract_lets r cyc s1 s4 s5 early s6 s7 dests
  have h4 : SpinStep i s s4 (ps ++ [a]) as (satAdd 32 n 1) := (h.chargeFor _ _ _ _).enter a _
  have h5 : SpinStep i s s5 (ps ++ [a]) (spinRows a fc) (satAdd 32 n 1) :=
    (h4.plans _ (List.range r)).mono (List.subset_append_right _ _)
  have hearly : ∀ t k, SpinStep i s t (ps ++ [a]) (spinRows a fc) (satAdd 32 n 1) →
      SpinStep i s (early k t) (ps ++ [a]) (spinRows a fc) (satAdd 32 n 1) := by
    intro t k ht
    simp only [early]
    split
    · split
      · exact ht.present _ _
      · exact ht.more _
    · split
      · split
        · exact ht.sendqPresent _ _ _ _
        · exact ht.more _
      · exact ht
  have h6 : SpinStep i s s6 (ps ++ [a]) (spinRows a fc) (satAdd 32 n 1) := h5.foldl hearly _
  have h7 : SpinStep i s s7 (ps ++ [a]) (spinRows a fc) (satAdd 32 n 1) := by
    simp only [s7]
    split
    · exact h6.more _
    · exact h6
  rw [sched_eq]
  exact (h7.foldl (fun t tile ht => ht.shapeAtEnd (c := ⟨i.pier, k, st, fc, batch⟩) rfl _ tile _) dests).more _

theorem exec_spin (i : Iss) (o : SpinOp) (s : State) : exec (.spin i o) s = execSpin i o s := rfl

/-- The program words of a SPIN. -/
def spinWords (x : Pier) (o : SpinOp) : List SpinWord := (List.range o.stages).map fun n => x.spinWord (o.entry + n)

/-- The pass that a SPIN on a tile latches at its issue in fc `fc`. -/
def spinPass (x : Pier) (o : SpinOp) (fc : Nat) : Pass :=
  let words := spinWords x o
  let sh := x.shape o.x
  let key := x.passKey o.keysel (x.seq.member o.mem) (x.seq.sel o.arctr)
  let ring64 := words.any fun w => w.ring64
  { id := x.nextId, words := words, shape := sh, mv := (x.mvec sh.mv).getD [], x := some o.x, ent := 0, rowsOf := []
    y := if o.y = 31 then none else some o.y, o0kind := o.o0kind, o0tile := o.o0tile, brow := x.seq.eff o.brow o.arb
    dstage := o.dstage, o1 := if o.o1 = 31 then none else some o.o1, brs := x.br, key := key.1, ctrHi := key.2
    stream := o.stream, base := x.seq.sel o.arbase, zero := x.suppressed (x.seq.member o.mem), ring64 := ring64
    interval := if words.any SpinWord.prg then ceilDiv sh.cols (if ring64 then 32 else 8) else 1
    delay := max ((words.map SpinWord.latency).foldl (· + ·) 0) 8, issue := fc }

/-- A SPIN on a tile that fits starts its pass. -/
theorem exec_spin_fits {i : Iss} {s : State} {c : Ctx} (h : Issues i s c) {o : SpinOp} (htile : o.x ≠ 16)
    (hfits : spinFits (s.pier i.pier) o ((s.pier i.pier).shape o.x) = true)
    (hmv : ((s.pier i.pier).mvec ((s.pier i.pier).shape o.x).mv).isSome = true)
    (hprime : (spinWords (s.pier i.pier) o).any (badPrime c.batch.ring.count) = false) :
    exec (.spin i o) s = .next ((startPass c (spinPass (s.pier i.pier) o c.fc) (flitsOf ((s.pier i.pier).shape o.x).cols)
      ((s.counted i.pier).modPier i.pier fun x => { x with
        ftq := x.ftq.map fun e => if some e.id = none then { e with taken := true } else e })).modSeq i.pier
          fun q => q.advance c.fc i.next) := by
  obtain ⟨hp, -⟩ := issues_ctx i s c h
  obtain ⟨p, k, st, fc, batch⟩ := c
  obtain rfl : p = i.pier := hp
  have hmv' := Option.isNone_eq_false_iff.2 hmv
  rw [exec_spin, execSpin, issue_counted h]
  dsimp only
  simp only [if_neg htile, pier_counted]
  rw [if_neg (by rintro ⟨hx, -⟩; exact htile hx), hfits, hmv', if_neg (by simp), if_neg (by rw [spinWords] at hprime; simp [hprime])]
  rfl

/-- Settles O20: the pass that starts is the one latched at issue. -/
theorem spindlePass : Obligations.SpindlePass := by
  intro i s c o h x sh words htile hfits hmv hprime
  obtain ⟨hp, -⟩ := issues_ctx i s c h
  have hstep := ((spinStep_counted i s).modPier (fun x => { x with
    ftq := x.ftq.map fun e => if some e.id = none then { e with taken := true } else e })
      fun _ => ⟨rfl, rfl, rfl, rfl, List.Subset.refl _⟩).startPass hp (spinPass x o c.fc) (flitsOf sh.cols)
  obtain ⟨hissued, hps, hseq, htiles, hbench, hacts, hn⟩ := hstep
  obtain ⟨mv, hv⟩ := Option.isSome_iff_exists.1 hmv
  refine ⟨_, spinPass x o c.fc, exec_spin_fits h htile hfits hmv hprime, hissued.modSeq _, ?_⟩
  rw [modSeq_eq, pier_setPier_same, hseq]
  refine ⟨hps, rfl, rfl, rfl, ?_, rfl, rfl, rfl, rfl, rfl, rfl, rfl, htiles, hbench, fun k hk => ?_, hn⟩
  · rw [spinPass, hv]
    rfl
  · exact hacts (List.mem_map.2 ⟨k, List.mem_range.2 hk, rfl⟩)

/-! ### FSSE (R238, R239) -/

/-- A next state of the issue of `i` that adds holds and charges to span `k` and leaves the pier `x`. -/
def AccessStep (i : Iss) (k : Nat) (s t : State) (hs : List Hold) (gs : List Charge) (x : Pier) : Prop :=
  Issued i.pier s t ∧ t.pier i.pier = x ∧ spansBut k s t ∧
    t.span k = { s.span k with holds := (s.span k).holds ++ hs, charges := (s.span k).charges ++ gs } ∧
    regsBut (spnHoldsRaised.key i.pier 0 :: issuedKeys i.pier) s t ∧ (tfind t.spans k).isSome

/-- The hold of an access over FILLING entries, if any. -/
def scoreboardHolds (s : State) (p : Nat) (es : List Nat) : List Hold :=
  if es = [] then [] else [{ src := .scoreboard, pier := p, waits := es, since := s.clk.fc }]

section
variable {i : Iss} {k : Nat} {s t : State} {hs : List Hold} {gs : List Charge} {x : Pier}

theorem accessStep_present (hk : (tfind s.spans k).isSome) (rows : List (Nat × Nat)) :
    AccessStep i k s (present k i.pier rows (s.counted i.pier))
      (scoreboardHolds s i.pier (rows.flatMap fun r => (s.pier i.pier).fillingOver r.1 r.2).eraseDups) [] (s.pier i.pier) := by
  simp only [present, pier_counted, List.isEmpty_iff, scoreboardHolds]
  split
  · refine ⟨issued_counted s i.pier, rfl, fun _ _ => rfl, ?_, ?_, hk⟩
    · simp
    · exact fun n hn d => regsBut_counted s i.pier n (fun hm => hn (.tail _ hm)) d
  · obtain ⟨hissued, hregs, -, hx, hspans, hspan⟩ := (pierStep_counted i s).raiseHold hk .scoreboard
      (rows.flatMap fun r => (s.pier i.pier).fillingOver r.1 r.2).eraseDups .nothing
    refine ⟨hissued, hx, hspans, ?_, hregs, ?_⟩
    · rw [hspan]
      simp
    · rw [raiseHold_eq]
      exact modSpan_isSome (s := s.counted i.pier) hk

theorem AccessStep.charge (h : AccessStep i k s t hs gs x) {rate : Nat} (hr : rate ≠ 0) (last : Nat) :
    AccessStep i k s (chargeFor k i.pier rate last t) hs
      (gs ++ [{ pier := i.pier, phase := false, rate := rate, last := some last }]) x := by
  obtain ⟨hissued, hx, hspans, hspan, hregs, hk⟩ := h
  rw [chargeFor, if_neg hr]
  refine ⟨hissued.modSpan k _, ?_, fun j hj => (span_modSpan_ne hj).trans (hspans j hj), ?_, ?_, modSpan_isSome hk⟩
  · rwa [pier_modSpan]
  · rw [span_modSpan_same hk, hspan, List.append_assoc]
  · intro n hn d
    rw [modSpan_regs]
    exact hregs n hn d

theorem AccessStep.modPier (h : AccessStep i k s t hs gs x) (f : Pier → Pier) :
    AccessStep i k s (t.modPier i.pier f) hs gs (f x) := by
  obtain ⟨hissued, hx, hrest⟩ := h
  exact ⟨hissued.modPier f, by rw [modPier_eq, pier_setPier_same, hx], hrest⟩

end

/-- The rows that an evaluation reads, one after another. -/
def fsseReadRows (rows : List (Nat × Nat)) : List Nat := (rows.take 2).flatMap fun r => (List.range r.2).map (r.1 + ·)

/-- Their reads in slot 2 from fc `fc` + 12 on. -/
def fsseReads (fc : Nat) (rows : List (Nat × Nat)) : List Act :=
  (List.range (fsseReadRows rows).length).map fun j => Act.mk (fc + 12 + j) false 2 (.fsseRead ((fsseReadRows rows).getD j 0)) none

theorem exec_fsse (i : Iss) (o : FsseOp) (s : State) : exec (.fsse i o) s = execFsse i o s := rfl

/-- Row `k` of the items is read `k` fc behind the first, one of the inputs behind the items. -/
theorem mem_fsseReads (fc : Nat) (a b c : Nat × Nat) {n k : Nat} (hn : n < 2) (hk : k < (([a, b, c] : List (Nat × Nat)).getD n (0, 0)).2) :
    ∃ j, Act.mk (fc + 12 + j) false 2 (.fsseRead ((([a, b, c] : List (Nat × Nat)).getD n (0, 0)).1 + k)) none ∈ fsseReads fc [a, b, c] ∧
      j = k + if n = 0 then 0 else a.2 := by
  have hrows : fsseReadRows [a, b, c] = (List.range a.2).map (a.1 + ·) ++ (List.range b.2).map (b.1 + ·) := by
    simp [fsseReadRows]
  have hat : ∀ j row, (fsseReadRows [a, b, c])[j]? = some row →
      Act.mk (fc + 12 + j) false 2 (.fsseRead row) none ∈ fsseReads fc [a, b, c] := by
    intro j row hj
    obtain ⟨hlt, -⟩ := List.getElem?_eq_some_iff.1 hj
    refine List.mem_map.2 ⟨j, List.mem_range.2 hlt, ?_⟩
    rw [List.getD_eq_getElem?_getD, hj]
    rfl
  refine ⟨_, hat _ _ ?_, rfl⟩
  rw [hrows]
  match n, hn with
  | 0, _ =>
    have hka : k < a.2 := hk
    rw [List.getElem?_append_left (by simpa using hka)]
    simp [hka]
  | 1, _ =>
    have hkb : k < b.2 := hk
    rw [List.getElem?_append_right (by simp)]
    simp [hkb]

theorem eq_two_pow_log2_or (n : Nat) : n = 2 ^ Nat.log2 n ∨ ∀ m, n ≠ 2 ^ m := by
  by_cases h : ∃ m, n = 2 ^ m
  · obtain ⟨m, rfl⟩ := h
    exact .inl (by rw [Nat.log2_two_pow])
  · exact .inr (not_exists.1 h)

/-- The evaluation of an FSSE with the material `m`, due in the fc of its first output row. -/
def fsseRunAct (q : Seq) (o : FsseOp) (m : MatEnt) (fc : Nat) (zero : Bool) : Act :=
  let w := m.pieces * (m.degree + 1)
  Act.mk (fc + fsseCycles o.g m.bits w (fssItemBytes m.bits w) - ceilDiv (o.g * w) 32) false 2
    (.fsseRun o (q.sel o.arb) (m.bits * 64 + if m.func = 0 then 0 else Nat.log2 m.pieces) w (fsseBlocks o.g m.bits w) zero) none

/-- Settles O21: its rows are presented, its reads and its run scheduled. -/
theorem fssEvaluation : Obligations.FssEvaluation := by
  intro i s c o h
  obtain ⟨hp, -, -, hloaded, -⟩ := issues_ctx i s c h
  obtain ⟨p, k, st, fc, batch⟩ := c
  obtain rfl : p = i.pier := hp
  intro x m w bytes cyc rows es hold
  have hstep := ((((accessStep_present (i := i) hloaded rows).charge (rate := 3) (by decide) (fc + cyc - 1)).modPier
    fun y => y.plan (fsseReads fc rows)).modPier fun y => { y with fssUntil := max y.fssUntil (fc + cyc), fssRows := [] }).modPier
    fun y => y.plan [fsseRunAct x.seq o m fc (x.zeroed o.mem)]
  obtain ⟨hissued, hx, hspans, hspan, hregs, -⟩ := hstep.modPier (Pier.past · i ⟨i.pier, k, st, fc, batch⟩)
  refine ⟨_, fsseReads fc rows ++ [fsseRunAct x.seq o m fc (x.zeroed o.mem)], if m.func = 0 then 0 else Nat.log2 m.pieces,
    (exec_fsse i o s).trans (issue_counted h _), hissued, ?_, fun n k hn hk => ?_,
    List.mem_append_right _ (.head _), fun hf => if_pos hf, fun hf => ?_, hspans, hspan, hregs⟩
  · rw [← List.append_assoc]
    exact hx
  · obtain ⟨j, hj, hjk⟩ := mem_fsseReads fc _ _ _ hn hk
    exact ⟨j, List.mem_append_left _ hj, hjk⟩
  · rw [if_neg hf]
    exact eq_two_pow_log2_or _

end Sys2Proof.Machine

/-! CHK and LAUNCH: transfers of a chuck and exchange sends (R163 to R167, R181, R259, R265). -/
namespace Sys2Proof.Machine

/-! ### Up to the issue of a transfer -/

/-- A state of the issue of `i` before its transfer starts: of span `k` at most charges differ, and the pier is `x`. -/
def ReadyStep (i : Iss) (k : Nat) (s t : State) (x : Pier) : Prop :=
  Issued i.pier s t ∧ (∃ gs, t.span k = { s.span k with charges := gs }) ∧ t.dreg llmCacheSteps = s.dreg llmCacheSteps ∧
    (tfind t.spans k).isSome ∧ t.pier i.pier = x

section
variable {i : Iss} {k : Nat} {s t : State} {x : Pier}

theorem readyStep_counted (hk : (tfind s.spans k).isSome) : ReadyStep i k s (s.counted i.pier) (s.pier i.pier) :=
  ⟨issued_counted s i.pier, ⟨_, rfl⟩, dreg_bump2_issued s i.pier _ (by decide), hk, rfl⟩

theorem ReadyStep.bump (h : ReadyStep i k s t x) {f : Fld} {p : Nat} (hf : f.key p 0 ∉ issuedKeys i.pier)
    (hc : f.key p 0 ≠ llmCacheSteps.key 0 0) (n : Nat) : ReadyStep i k s (t.bump f p 0 n) x := by
  obtain ⟨hissued, hspan, hcache, hk, hx⟩ := h
  exact ⟨hissued.setReg _ hf, hspan, (reg_setReg_ne _ _ (Ne.symm hc)).trans hcache, hk, hx⟩

theorem ReadyStep.modPier (h : ReadyStep i k s t x) (f : Pier → Pier) : ReadyStep i k s (t.modPier i.pier f) (f x) := by
  obtain ⟨hissued, hspan, hcache, hk, hx⟩ := h
  exact ⟨hissued.modPier f, hspan, hcache, hk, by rw [modPier_eq, pier_setPier_same, hx]⟩

theorem ReadyStep.openPhase (h : ReadyStep i k s t x) {c : Ctx} (hc : c.k = k) : ReadyStep i k s (openPhase c t) x := by
  unfold Machine.openPhase
  dsimp only
  split
  · exact h
  · split
    · exact h
    · obtain ⟨hissued, ⟨gs, hspan⟩, hcache, hk, hx⟩ := h
      subst hc
      refine ⟨hissued.modSpan _ _, ⟨_, (span_modSpan_same hk).trans (by rw [hspan])⟩, ?_, modSpan_isSome hk, ?_⟩
      · rw [State.dreg, State.reg, modSpan_regs]
        exact hcache
      · rwa [pier_modSpan]

/-- What the resolution of a transfer and the checks of its issue read. -/
theorem ReadyStep.reads (h : ReadyStep i k s t x) : t.clk = s.clk ∧ t.mem = s.mem ∧ t.keysets = s.keysets ∧
    t.images = s.images ∧ t.objs = s.objs ∧ t.windows = s.windows ∧ t.epochDraw = s.epochDraw ∧ t.sys = s.sys ∧
    (t.span k).batch = (s.span k).batch ∧ (t.span k).handle = (s.span k).handle := by
  obtain ⟨⟨-, -, hframe⟩, ⟨gs, hspan⟩, -⟩ := h
  rw [hspan, hframe]
  exact ⟨rfl, rfl, rfl, rfl, rfl, rfl, rfl, rfl, rfl, rfl⟩

theorem ReadyStep.resolveXfer (h : ReadyStep i k s t x) (y : Xfer) : resolveXfer t k y = resolveXfer s k y := by
  obtain ⟨hclk, hmem, hkeysets, himages, hobjs, -, -, -, hbatch, hhandle⟩ := h.reads
  have hemits : emits t = emits s := by
    funext y b
    simp only [emits, storedBlock, weightHdr, State.rd, hmem]
  simp only [Machine.resolveXfer, Machine.resolveKey, State.now, State.keyEnt, State.keyObj, State.objBase, State.imageOf,
    hemits, hclk, hkeysets, himages, hobjs, hbatch, hhandle]

theorem ReadyStep.issueFault (h : ReadyStep i k s t x) (y : Xfer) : issueFault t i.pier y = issueFault s i.pier y := by
  obtain ⟨-, hmem, -, -, -, hwin, hdraw, hsys, -⟩ := h.reads
  obtain ⟨-, -, hcache, -⟩ := h
  have hscratch : t.scratch = s.scratch := by simp only [State.scratch, hcache]
  have hremote : t.remoteLen = s.remoteLen := by
    have hw : t.win = s.win := by
      funext w
      rw [State.win, State.win, hwin, hdraw]
    have hc : t.channelOf = s.channelOf := by
      funext w
      rw [State.channelOf, State.channelOf, hsys]
    funext w
    rw [State.remoteLen, State.remoteLen, hw, hc]
  have hstored : storedBlock t = storedBlock s := by
    funext w b
    simp only [storedBlock, hmem]
  have hslice : sliceEnd t (weightHdr t y.d.farBase) = sliceEnd s (weightHdr s y.d.farBase) := by
    funext b
    simp only [sliceEnd, blocksBelow, weightHdr, State.rd, hmem, hstored]
  delta Machine.issueFault
  rw [hscratch, hremote, hslice]

end

/-! ### A transfer takes its place in its chuck -/

/-- The fields of a transfer that its issue gives it and its start keeps. -/
def SameIssue (y z : Xfer) : Prop := z.id = y.id ∧ z.didx = y.didx ∧ z.d = y.d ∧ z.start = y.start ∧ z.target = y.target

theorem sameIssue_resolveKey (s : State) (k : Nat) (y : Xfer) : SameIssue y (resolveKey s k y).1 := by
  unfold resolveKey
  dsimp only
  split <;> exact ⟨rfl, rfl, rfl, rfl, rfl⟩

theorem sameIssue_resolveXfer (s : State) (k : Nat) (y : Xfer) : SameIssue y (resolveXfer s k y).1 := by
  unfold resolveXfer
  dsimp only
  split
  · exact sameIssue_resolveKey s k _
  · exact ⟨rfl, rfl, rfl, rfl, rfl⟩

/-- The entry's transition changes the scoreboard alone. -/
theorem enterSb_frame (y : Xfer) (x : Pier) : (enterSb y x).1 = { x with sb := (enterSb y x).1.sb } := by
  unfold enterSb
  dsimp only
  split <;> split <;> rfl

section
variable {i : Iss} {k : Nat} {s t : State} {x : Pier}

/-- A transfer about to move stops or not: it is the same one, and the counter of page waits may differ. -/
theorem ReadyStep.tryMove (h : ReadyStep i k s t x) (y : Xfer) :
    ReadyStep i k s (tryMove i.pier y t).2 x ∧ SameIssue y (tryMove i.pier y t).1 := by
  unfold Machine.tryMove
  split
  · refine ⟨h.bump ?_ ?_ 1, rfl, rfl, rfl, rfl, rfl⟩
    · simp [issuedKeys, Fld.key, ckPageWaits, seqIssuedLo, seqIssuedHi] <;> omega
    · simp [Fld.key, ckPageWaits, llmCacheSteps]
      omega
  · exact ⟨h, rfl, rfl, rfl, rfl, rfl⟩

/-- The transfer is the chuck's last. -/
theorem ReadyStep.admitXfer (h : ReadyStep i k s t x) (j : Nat) (y : Xfer) :
    ∃ x' z, ReadyStep i k s (admitXfer i.pier j y t) x' ∧ x'.seq = x.seq ∧
      (x'.chuck j).xfers = (x.chuck j).xfers ++ [z] ∧ SameIssue y z := by
  have hx : t.pier i.pier = x := h.2.2.2.2
  unfold Machine.admitXfer
  extract_lets r x1 m
  have hy : SameIssue y x1 := by
    simp only [x1]
    split <;> exact ⟨rfl, rfl, rfl, rfl, rfl⟩
  have hr : r.1 = { x with sb := r.1.sb } := by
    simp only [r, hx]
    exact enterSb_frame y x
  have hset : ReadyStep i k s (t.setPier i.pier r.1) r.1 := h.modPier fun _ => r.1
  obtain ⟨hm, hz⟩ := hset.tryMove x1
  refine ⟨_, m.1, hm.modPier _, ?_, ?_, ?_⟩
  · rw [hr]
  · rw [hr]
    simp only [Pier.chuck, tget_tput_same]
  · obtain ⟨hid, hdidx, hd, hstart, htarget⟩ := hy
    obtain ⟨hid', hdidx', hd', hstart', htarget'⟩ := hz
    exact ⟨hid'.trans hid, hdidx'.trans hdidx, hd'.trans hd, hstart'.trans hstart, htarget'.trans htarget⟩

/-- A transfer whose checks pass is the chuck's last. -/
theorem ReadyStep.beginXfer (h : ReadyStep i k s t x) (j : Nat) (y : Xfer)
    (hf : Machine.issueFault s i.pier (Machine.resolveXfer s k y).1 = none) :
    ∃ x' z, ReadyStep i k s (beginXfer i.pier k j y t) x' ∧ x'.seq = x.seq ∧
      (x'.chuck j).xfers = (x.chuck j).xfers ++ [z] ∧ SameIssue y z := by
  unfold Machine.beginXfer
  dsimp only
  rw [h.resolveXfer, h.issueFault, hf]
  have hpin : ReadyStep i k s (if (Machine.resolveXfer s k y).2 then t.bump keyPinHits 0 0 1 else t) x := by
    split
    · refine h.bump ?_ ?_ 1
      · simp [issuedKeys, Fld.key, keyPinHits, seqIssuedLo, seqIssuedHi]
        omega
      · simp [Fld.key, keyPinHits, llmCacheSteps]
    · exact h
  obtain ⟨x', z, hstep, hseq, hx', hz⟩ := hpin.admitXfer j (Machine.resolveXfer s k y).1
  obtain ⟨hid, hdidx, hd, hstart, htarget⟩ := sameIssue_resolveXfer s k y
  obtain ⟨hid', hdidx', hd', hstart', htarget'⟩ := hz
  exact ⟨x', z, hstep, hseq, hx', hid'.trans hid, hdidx'.trans hdidx, hd'.trans hd, hstart'.trans hstart, htarget'.trans htarget⟩

/-- A transfer that fails a check of its issue stops its span. -/
theorem ReadyStep.beginXfer_fault (h : ReadyStep i k s t x) (j : Nat) (y : Xfer) {code m : Nat}
    (hf : Machine.issueFault s i.pier (Machine.resolveXfer s k y).1 = some (code, m)) (hstop : (s.span k).stop = none) :
    (Machine.beginXfer i.pier k j y t).pier i.pier = x ∧ ((Machine.beginXfer i.pier k j y t).span k).stop = some (.abort code) := by
  unfold Machine.beginXfer
  dsimp only
  rw [h.resolveXfer, h.issueFault, hf]
  obtain ⟨-, ⟨gs, hspan⟩, -, hk, hx⟩ := h
  have hstop' : (t.span k).stop = none := by rw [hspan]; exact hstop
  refine ⟨?_, ?_⟩
  · change (streamFault code i.pier k j _ m t).pier i.pier = x
    rw [streamFault, State.pier, stopSpan_piers, raise_piers, ← State.pier, hx]
  · change ((streamFault code i.pier k j _ m t).span k).stop = _
    rw [streamFault, span_stopSpan (by rwa [raise_spans]) (by rwa [span_raise])]

/-! ### CHK and LAUNCH of a timed transfer (R181, R259, R263, R265) -/

/-- The state in which the transfer of an issue takes its place: its id is used, its phase of transfers is open. -/
def xferReady (c : Ctx) (n startAdd : Nat) (target : Option Nat) (t : State) : State :=
  let u := t.modPier c.p fun y => { y with nextId := y.nextId + 1 }
  if (madeXfer (t.pier c.p) n startAdd target).d.farKind = 0 ∧ target.isNone then u else openPhase c u

theorem ReadyStep.xferReady (h : ReadyStep i k s t x) {c : Ctx} (hp : c.p = i.pier) (hk : c.k = k) (n startAdd : Nat)
    (target : Option Nat) : ReadyStep i k s (xferReady c n startAdd target t) { x with nextId := x.nextId + 1 } := by
  unfold Machine.xferReady
  dsimp only
  rw [hp]
  split
  · exact h.modPier _
  · exact (h.modPier fun y => { y with nextId := y.nextId + 1 }).openPhase hk

theorem issueXfer_eq (c : Ctx) (j n startAdd : Nat) (target : Option Nat) (t : State) : issueXfer c j n startAdd target t =
    if ((t.pier c.p).chuck j).xfers.length < 4 then
      beginXfer c.p c.k j (madeXfer (t.pier c.p) n startAdd target) (xferReady c n startAdd target t)
    else raiseHold c.k c.p .chuckIssue [j] .nothing ((xferReady c n startAdd target t).modChuck c.p j fun ch =>
      { ch with waiting := ch.waiting ++ [madeXfer (t.pier c.p) n startAdd target] }) := rfl

/-- An instruction that issues a transfer, and what its pier and its span then hold. -/
def IssuesXfer (i : Iss) (k j n startAdd : Nat) (target : Option Nat) (s t : State) : Prop :=
  let x := s.pier i.pier
  let y := madeXfer x n startAdd target
  (4 ≤ (x.chuck j).xfers.length → Issued i.pier s t ∧
    ((t.pier i.pier).chuck j).waiting = (x.chuck j).waiting ++ [y] ∧ ((t.pier i.pier).chuck j).xfers = (x.chuck j).xfers ∧
    (t.span k).holds = (s.span k).holds ++ [{ src := .chuckIssue, pier := i.pier, waits := [j], since := s.clk.fc }]) ∧
  ((x.chuck j).xfers.length < 4 → Machine.issueFault s i.pier (Machine.resolveXfer s k y).1 = none →
    ∃ z, Issued i.pier s t ∧ ((t.pier i.pier).chuck j).xfers = (x.chuck j).xfers ++ [z] ∧ SameIssue y z ∧
      (t.span k).holds = (s.span k).holds) ∧
  ∀ code m, (x.chuck j).xfers.length < 4 → Machine.issueFault s i.pier (Machine.resolveXfer s k y).1 = some (code, m) →
    (s.span k).stop = none → (t.pier i.pier).chuck j = x.chuck j ∧ (t.span k).stop = some (.abort code)

theorem ReadyStep.issueXfer (h : ReadyStep i k s t (s.pier i.pier)) {c : Ctx} (hp : c.p = i.pier) (hk : c.k = k)
    (j n startAdd : Nat) (target : Option Nat) (f : Seq → Seq) :
    IssuesXfer i k j n startAdd target s ((issueXfer c j n startAdd target t).modSeq i.pier f) := by
  have hx : t.pier i.pier = s.pier i.pier := h.2.2.2.2
  have hready := h.xferReady hp hk n startAdd target
  rw [issueXfer_eq, hp, hk, hx]
  refine ⟨fun hlen => ?_, fun hlen hf => ?_, fun code m hlen hf hstop => ?_⟩
  · rw [if_neg (Nat.not_lt.2 hlen)]
    have hwait : ReadyStep i k s ((Machine.xferReady c n startAdd target t).modChuck i.pier j fun ch =>
        { ch with waiting := ch.waiting ++ [madeXfer (s.pier i.pier) n startAdd target] }) _ :=
      hready.modPier fun x => { x with 
        chucks := tput x.chucks j { x.chuck j with waiting := (x.chuck j).waiting ++ [madeXfer (s.pier i.pier) n startAdd target] } }
    generalize (Machine.xferReady c n startAdd target t).modChuck i.pier j _ = u at hwait ⊢
    obtain ⟨hissued, ⟨gs, hspan⟩, -, hloaded, hu⟩ := hwait
    have hclk : u.clk = s.clk := by rw [hissued.2.2]
    refine ⟨?_, ?_, ?_, ?_⟩
    · rw [raiseHold_eq]
      exact ((hissued.modSpan _ _).setReg _ (holdsRaised_notMem_issuedKeys _)).modSeq f
    · rw [modSeq_eq, pier_setPier_same, raiseHold_eq, pier_setReg, pier_modSpan, hu]
      simp only [Pier.chuck, tget_tput_same]
    · rw [modSeq_eq, pier_setPier_same, raiseHold_eq, pier_setReg, pier_modSpan, hu]
      simp only [Pier.chuck, tget_tput_same]
    · rw [span_modSeq, raiseHold_eq, span_setReg, span_modSpan_same hloaded, hspan, hclk]
  · rw [if_pos hlen]
    obtain ⟨x', z, hstep, hseq, hxfers, hz⟩ := hready.beginXfer j _ hf
    obtain ⟨hissued, ⟨gs, hspan⟩, -, -, hx'⟩ := hstep
    refine ⟨z, hissued.modSeq f, ?_, hz, ?_⟩
    · rw [modSeq_eq, pier_setPier_same, hx']
      exact hxfers
    · rw [span_modSeq, hspan]
  · rw [if_pos hlen]
    obtain ⟨hx', hstop'⟩ := hready.beginXfer_fault j _ hf hstop
    refine ⟨?_, ?_⟩
    · rw [modSeq_eq, pier_setPier_same, hx']
      rfl
    · rwa [span_modSeq]

end

theorem exec_chk (i : Iss) (j n : Nat) (ar : Sel) (s : State) : exec (.chk i j n ar) s = execChk i j n ar s := rfl
theorem exec_launch (i : Iss) (o : LaunchOp) (s : State) : exec (.launch i o) s = execLaunch i o s := rfl

/-- The state in which a LAUNCH issues: a target that is past is counted. -/
def launchReady (i : Iss) (late : Bool) (s : State) : State :=
  if late then (s.counted i.pier).bump seqLateLaunches i.pier 0 1 else s.counted i.pier

theorem readyStep_launchReady {i : Iss} {k : Nat} {s : State} (hk : (tfind s.spans k).isSome) (late : Bool) :
    ReadyStep i k s (launchReady i late s) (s.pier i.pier) := by
  unfold launchReady
  split
  · refine (readyStep_counted hk).bump ?_ ?_ 1
    · simp [issuedKeys, Fld.key, seqLateLaunches, seqIssuedLo, seqIssuedHi] <;> omega
    · simp [Fld.key, seqLateLaunches, llmCacheSteps]
      omega
  · exact readyStep_counted hk

section
variable {i : Iss} {s : State} {c : Ctx} (h : Issues i s c)
include h

theorem exec_chk_issues (j n : Nat) (ar : Sel) :
    ∃ t, exec (.chk i j n ar) s = .next t ∧ IssuesXfer i c.k j n ((s.pier i.pier).seq.sel ar) none s t := by
  obtain ⟨hp, -, -, hloaded, -⟩ := issues_ctx i s c h
  refine ⟨_, (exec_chk i j n ar s).trans (issue_counted h _), ?_⟩
  have hstep := (readyStep_counted (i := i) hloaded).issueXfer hp rfl j n ((s.pier i.pier).seq.sel ar) none
    fun q => q.advance c.fc i.next
  rw [hp]
  exact hstep

theorem exec_launch_issues (o : TimeOp) (slot j n : Nat) (ar : Sel) :
    ∃ t, exec (.launch i ⟨o, 0, j, n, ar, slot⟩) s = .next t ∧
      IssuesXfer i c.k j n ((s.pier i.pier).seq.sel ar) (some (target c (s.pier i.pier).seq o)) s t := by
  obtain ⟨hp, -, -, hloaded, -⟩ := issues_ctx i s c h
  refine ⟨_, (exec_launch i _ s).trans (issue_counted h _), ?_⟩
  have hstep := (readyStep_launchReady (i := i) hloaded (decide (target c (s.pier i.pier).seq o ≤ s.now))).issueXfer hp rfl j n
    ((s.pier i.pier).seq.sel ar) (some (target c (s.pier i.pier).seq o)) fun q => q.advance c.fc i.next
  rw [hp]
  exact hstep

end

/-- Settles O23: both issue the transfer that they make. -/
theorem chuckIssue : Obligations.ChuckIssue := by
  intro i s c j n ar h x issued
  have hall : ∀ cmd target, (∃ t, exec cmd s = .next t ∧ IssuesXfer i c.k j n (x.seq.sel ar) target s t) → issued cmd target := by
    rintro cmd target ⟨t, ht, hfull, hadmit, hfault⟩
    refine ⟨fun hlen => ⟨t, ht, hfull hlen⟩, fun hlen hf => ?_, fun code m hlen hf hstop => ⟨t, ht, hfault code m hlen hf hstop⟩⟩
    obtain ⟨z, hissued, hxfers, ⟨hid, hdidx, hd, hstart, htarget⟩, hholds⟩ := hadmit hlen hf
    exact ⟨t, z, ht, hissued, hxfers, hid, hdidx, hd, hstart, htarget, hholds⟩
  exact ⟨hall _ _ (exec_chk_issues h j n ar), fun o slot => hall _ _ (exec_launch_issues h o slot j n ar)⟩

/-! ### LAUNCH of a timed exchange send (R265) -/

theorem openPhase_regs (c : Ctx) (s : State) : (openPhase c s).regs = s.regs := by
  unfold openPhase
  dsimp only
  split
  · rfl
  · split
    · rfl
    · exact modSpan_regs

/-- The state in which a send takes its place: a late one is counted, its id is used, its phase of transfers is open. -/
def sendReady (i : Iss) (c : Ctx) (late : Bool) (s : State) : State :=
  openPhase c ((launchReady i late s).modPier i.pier fun y => { y with nextId := y.nextId + 1 })

section
variable {i : Iss} {s : State} {c : Ctx} (h : Issues i s c)
include h

theorem readyStep_sendReady (late : Bool) : ReadyStep i c.k s (sendReady i c late s)
    { s.pier i.pier with nextId := (s.pier i.pier).nextId + 1 } := by
  obtain ⟨-, -, -, hloaded, -⟩ := issues_ctx i s c h
  exact ((readyStep_launchReady hloaded late).modPier fun y => { y with nextId := y.nextId + 1 }).openPhase rfl

theorem exec_launch_send (o : TimeOp) (slot ch d : Nat) (ar : Sel) :
    let x := s.pier i.pier
    let T := target c x.seq o
    let a : TimedAct := { id := x.nextId, target := T, sendSlot := slot }
    let u := sendReady i c (decide (T ≤ s.now)) s
    exec (.launch i ⟨o, 1, ch, d, ar, slot⟩) s = .next
      ((if decide (T ≤ s.now) then (u.modPier i.pier fun y => { y with timed := y.timed ++ [a] }).enqueue (.timedActionFire i.pier a.id)
        else if x.timed.length < 4 then u.modPier i.pier fun y => { y with timed := y.timed ++ [a] }
        else raiseHold c.k i.pier .launch [] (.launch a) u).modSeq i.pier fun q => q.advance c.fc i.next) := by
  obtain ⟨hp, -⟩ := issues_ctx i s c h
  intro x T a u
  rw [exec_launch, execLaunch, issue_counted h, hp]
  rfl

end

theorem pier_modSeq_of {u : State} {p : Nat} {y : Pier} (hu : u.pier p = y) (f : Seq → Seq) :
    (u.modSeq p f).pier p = { y with seq := f y.seq } := by
  rw [modSeq_eq, pier_setPier_same, hu]

theorem pier_modPier_of {u : State} {p : Nat} {y : Pier} (hu : u.pier p = y) (f : Pier → Pier) : (u.modPier p f).pier p = f y := by
  rw [modPier_eq, pier_setPier_same, hu]

theorem Issued.raiseHold {p : Nat} {s t : State} (h : Issued p s t) (k : Nat) (src : HoldSrc) (waits : List Nat) (after : HoldThen) :
    Issued p s (raiseHold k p src waits after t) := by
  rw [raiseHold_eq]
  exact (h.modSpan _ _).setReg _ (holdsRaised_notMem_issuedKeys _)

/-- Settles O24: past its target it is counted before anything else. -/
theorem timedExchangeSend : Obligations.TimedExchangeSend := by
  intro i s c o slot ch d ar h x T a
  refine ⟨_, exec_launch_send h o slot ch d ar, ?_⟩
  obtain ⟨hissued, ⟨gs, hspan⟩, -, hk, hu⟩ := readyStep_sendReady h (decide (T ≤ s.now))
  have hcount : decide (T ≤ s.now) = true → (sendReady i c (decide (T ≤ s.now)) s).reg seqLateLaunches i.pier 0 =
      satAdd 32 (s.reg seqLateLaunches i.pier 0) 1 := by
    intro hd
    have hreg : (s.counted i.pier).reg seqLateLaunches i.pier 0 = s.reg seqLateLaunches i.pier 0 :=
      (regsBut_counted s i.pier).reg_eq (by simp [issuedKeys, Fld.key, seqLateLaunches, seqIssuedLo, seqIssuedHi] <;> omega)
    rw [State.reg, sendReady, openPhase_regs, launchReady, if_pos hd, bump_eq, hreg]
    refine (reg_setReg_same _ _ _ _ _).trans (Nat.mod_eq_of_lt ?_)
    simp only [satAdd, seqLateLaunches]
    omega
  generalize sendReady i c (decide (T ≤ s.now)) s = u at hissued hspan hk hu hcount ⊢
  have hpending : u.pending = s.pending := by rw [hissued.2.2]
  have hmem : u.mem = s.mem := by rw [hissued.2.2]
  have htimed := pier_modPier_of hu fun y => { y with timed := y.timed ++ [a] }
  have hplaced := hissued.modPier fun y => { y with timed := y.timed ++ [a] }
  by_cases hlate : T ≤ s.now
  · rw [if_pos (decide_eq_true hlate)]
    have hx := pier_modSeq_of (u := (u.modPier i.pier fun y => { y with timed := y.timed ++ [a] }).enqueue
      (.timedActionFire i.pier a.id)) htimed fun q => q.advance c.fc i.next
    refine ⟨by rw [hx], fun q hq => (hplaced.modSeq fun q => q.advance c.fc i.next).piersBut q hq, hmem,
      fun _ => ⟨by rw [hx], ?_, hcount (decide_eq_true hlate)⟩, fun hn => absurd hlate (Nat.not_le.2 hn),
      fun hn => absurd hlate (Nat.not_le.2 hn)⟩
    exact congrArg (· ++ [Instr.timedActionFire i.pier a.id]) hpending
  · rw [if_neg (by simpa using hlate)]
    by_cases hroom : (s.pier i.pier).timed.length < 4
    · rw [if_pos hroom]
      have hx := pier_modSeq_of htimed fun q => q.advance c.fc i.next
      refine ⟨by rw [hx], (hplaced.modSeq _).piersBut, hmem, fun hl => absurd hl hlate, fun _ _ => ⟨by rw [hx], hpending, ?_⟩,
        fun _ hfull => absurd hroom (Nat.not_lt.2 hfull)⟩
      rw [span_modSeq, span_modPier, hspan]
    · have hsame : (raiseHold c.k i.pier .launch [] (.launch a) u).pier i.pier = u.pier i.pier := by
        rw [raiseHold_eq, pier_setReg, pier_modSpan]
      have hx := pier_modSeq_of (hsame.trans hu) fun q => q.advance c.fc i.next
      have hheld := (hissued.raiseHold c.k .launch [] (.launch a)).modSeq fun q => q.advance c.fc i.next
      rw [if_neg hroom]
      refine ⟨by rw [hx], hheld.piersBut, ?_, fun hl => absurd hl hlate, fun _ hr => absurd hr hroom,
        fun _ _ => ⟨by rw [hx], ?_, { src := .launch, pier := i.pier, waits := [], since := u.clk.fc, after := .launch a }, ?_, rfl, rfl, rfl⟩⟩
      · rw [hheld.2.2]
      · rw [hheld.2.2]
      · rw [span_modSeq, raiseHold_eq, span_setReg, span_modSpan_same hk, hspan]

end Sys2Proof.Machine

/-! The step, the reset memories, the JTAG port, instruction memory, and held spans. -/
namespace Sys2Proof.Machine

/-- Settles O1, by the two cases of the queue. -/
theorem stepRunsTheFrontCommand : Obligations.StepRunsTheFrontCommand :=
  ⟨fun c s rest h => by rw [step, h], fun s h => by rw [step, h]⟩

/-- Settles O3: every memory is empty at reset. -/
theorem resetMemoryIsZero : Obligations.ResetMemoryIsZero :=
  ⟨reset_memWf, fun _ => rfl, fun _ _ _ => rfl, fun _ _ _ _ => rfl⟩

/-! ### JTAG (R487) -/

section
variable {s : State} (h : s.pins.pwrGood = true) (data : List Bool)
include h

theorem exec_tap_idcode : exec (.tapInstruction 1 data) s = .next ({ s with pins := { s.pins with tapIr := 1, extest := false } }.send
    (.tdo (((List.range 32).map (fun i => bit idcode i) ++ data).take data.length))) := by
  change execTapInstruction 1 data s = _
  rw [execTapInstruction, if_neg (by simp [h])]
  rfl

theorem exec_tap_sample : exec (.tapInstruction 2 data) s =
    .next ({ s with pins := { s.pins with tapIr := 2, extest := false, boundary := data } }.send
      (.tdo ((s.pins.boundary ++ data).take data.length))) := by
  change execTapInstruction 2 data s = _
  rw [execTapInstruction, if_neg (by simp [h])]
  rfl

theorem exec_tap_extest (hr : s.pins.resetN = false) : exec (.tapInstruction 3 data) s =
    .next ({ s with pins := { s.pins with tapIr := 3, extest := true, boundary := data } }.send
      (.tdo ((s.pins.boundary ++ data).take data.length))) := by
  change execTapInstruction 3 data s = _
  rw [execTapInstruction, if_neg (by simp [h])]
  exact if_pos (c := 3 = 3 ∧ s.pins.resetN = false) ⟨rfl, hr⟩

theorem exec_tap_bypass {ir : Nat} (h1 : ir ≠ 1) (h2 : ir ≠ 2) (h3 : ¬ (ir = 3 ∧ s.pins.resetN = false)) :
    exec (.tapInstruction ir data) s = .next ({ s with pins := { s.pins with tapIr := 0, extest := false } }.send
      (.tdo ((false :: data).take data.length))) := by
  change execTapInstruction ir data s = _
  rw [execTapInstruction, if_neg (by simp [h])]
  dsimp only
  rw [if_neg h1, if_neg h2, if_neg h3]
  rfl

end

/-- Settles O40, by the four cases of the instruction. -/
theorem jtagPort : Obligations.JtagPort := by
  refine ⟨fun ir data s h => ?_, fun s => rfl⟩
  have hlen : ∀ l : List Bool, (l.take data.length).length ≤ data.length := fun l => List.length_take_le _ _
  by_cases h1 : ir = 1
  · subst h1
    exact ⟨_, _, exec_tap_idcode h data, rfl, rfl, hlen _, fun _ => ⟨rfl, rfl⟩, fun hi => absurd hi (by decide),
      fun hi => absurd hi (by decide), fun hi => absurd hi (by omega)⟩
  by_cases h2 : ir = 2
  · subst h2
    exact ⟨_, _, exec_tap_sample h data, rfl, rfl, hlen _, fun hi => absurd hi h1, fun _ => ⟨rfl, rfl⟩,
      fun hi => absurd hi (by decide), fun hi => absurd hi (by omega)⟩
  by_cases h3 : ir = 3 ∧ s.pins.resetN = false
  · obtain ⟨rfl, hr⟩ := h3
    exact ⟨_, _, exec_tap_extest h data hr, rfl, rfl, hlen _, fun hi => absurd hi h1, fun hi => absurd hi h2, fun _ _ => rfl,
      fun hi => absurd hi (by simp [hr])⟩
  · exact ⟨_, _, exec_tap_bypass h data h1 h2 h3, rfl, rfl, hlen _, fun hi => absurd hi h1, fun hi => absurd hi h2,
      fun hi hr => absurd ⟨hi, hr⟩ h3, fun _ => ⟨rfl, rfl⟩⟩

/-! ### Instruction memory (R274, R276) -/

section
variable {s : State} {p : Nat} (hp : p < 192) (hactive : s.pierState p = 1)
include hp hactive

theorem exec_swapArm (v : Nat) : exec (.swapArm p v) s = .next (s.modSeq p fun q => { q with armed := v % 2 == 1 }) := by
  change execSwapArm p v s = _
  rw [execSwapArm, if_neg (by omega), if_neg (by simp [hactive])]

/-- An IMEM_WRITE to the shadow bank, not armed for a swap (R274). -/
theorem exec_imemWrite_stored {staged : Option (Nat × Nat × Nat)} {data : Nat}
    (hbank : ¬ ((s.stageImem p staged data).reg seqImemBank p 0 = (s.pier p).seq.bank ∨ (s.pier p).seq.armed = true)) :
    let u := s.stageImem p staged data
    exec (.imemWrite p staged data) s = .next ((u.modPier p fun x => { x with
      imem := mputs x.imem (imemBase (u.reg seqImemBank p 0) (u.reg seqImemTarget p 0) + 16 * u.reg seqImemAddr p 0) (leBytes 16 data) }).setReg
        seqImemAddr p 0 (u.reg seqImemAddr p 0 + 1)) := by
  have hpier : (s.stageImem p staged data).pier p = s.pier p := by rw [stageImem_frame]; rfl
  rw [← hpier] at hbank
  change execImemWrite p staged data s = _
  rw [execImemWrite, if_neg (by omega), if_neg (by simp [hactive])]
  cases staged <;> exact if_neg hbank

end

/-- Registers of one field written one by one. -/
theorem reg_foldl_setReg {f : Fld} {p : Nat} (v : Nat → Nat) (hf : ∀ i j, i ≠ j → f.key p i ≠ f.key p j) (s : State) {n k : Nat}
    (hk : k < n) : ((List.range n).foldl (fun s k => s.setReg f p k (v k)) s).reg f p k = v k % 2 ^ f.w := by
  induction n with
  | zero => omega
  | succ n ih =>
    rw [List.range_succ, List.foldl_append, List.foldl_cons, List.foldl_nil]
    by_cases hn : k = n
    · rw [hn, reg_setReg_same]
    · rw [reg_setReg_ne _ _ (hf k n hn), ih (by omega)]

/-- Settles O46: the refusal's counterpart, on the same staged state. -/
theorem instructionMemory : Obligations.InstructionMemory := by
  intro p s hp hactive
  refine ⟨fun bank target addr data hbank htarget haddr hshadow harmed => ?_, fun v => ⟨_, exec_swapArm hp hactive v, ?_, rfl, ?_⟩⟩
  · have hstaged : (s.stageImem p (some (bank, target, addr)) data).reg seqImemBank p 0 = bank := by
      rw [stageImem_bank]
      exact Nat.mod_eq_of_lt hbank
    have haddr' : (s.stageImem p (some (bank, target, addr)) data).reg seqImemAddr p 0 = addr / 16 := by
      rw [stageImem_addr]
      change addr / 16 % 4096 = addr / 16
      omega
    have htarget' : (s.stageImem p (some (bank, target, addr)) data).reg seqImemTarget p 0 = target := by
      rw [State.stageImem, reg_setReg_ne _ _ (by simp [Fld.key, seqImemTarget, seqImemAddr]; omega), reg_setReg_same]
      exact Nat.mod_eq_of_lt htarget
    refine ⟨_, exec_imemWrite_stored hp hactive (by rw [hstaged, harmed]; simp [hshadow]), ?_⟩
    rw [hstaged, haddr', htarget']
    have hkeys := stageImem_regsBut s p (some (bank, target, addr)) data
    have hframe := stageImem_frame s p (some (bank, target, addr)) data
    have hdata : ∀ k, k < 4 → (s.stageImem p (some (bank, target, addr)) data).reg seqImemData p k = fld data (32 * k) 32 := by
      intro k hk
      have hset : (s.stageImemData p data).reg seqImemData p k = fld data (32 * k) 32 % 2 ^ 32 :=
        reg_foldl_setReg _ (fun i j hij => by simp [Fld.key, seqImemData]; omega) s hk
      rw [State.stageImem, reg_setReg_ne _ _ (by simp [Fld.key, seqImemData, seqImemAddr]; omega),
        reg_setReg_ne _ _ (by simp [Fld.key, seqImemData, seqImemTarget]; omega),
        reg_setReg_ne _ _ (by simp [Fld.key, seqImemData, seqImemBank]; omega), hset, fld, Nat.mod_mod]
    generalize s.stageImem p (some (bank, target, addr)) data = u at hkeys hframe hdata ⊢
    have hpiers : u.piers = s.piers := by rw [hframe]
    have hpier : ∀ q, u.pier q = s.pier q := fun q => by rw [State.pier, hpiers, ← State.pier]
    refine ⟨fun q hq => ?_, ?_, ?_, ?_, fun k hk => ?_, ?_⟩
    · rw [pier_setReg, modPier_eq, pier_setPier_ne _ _ hq, hpier]
    · rw [hframe]
      rfl
    · rw [pier_setReg, modPier_eq, pier_setPier_same, hpier]
    · exact reg_setReg_same _ _ _ _ _
    · rw [reg_setReg_ne _ _ (by simp [Fld.key, seqImemData, seqImemAddr]; omega)]
      exact hdata k hk
    · exact regsBut.setReg (t := u.modPier p _) hkeys _ (by simp [imemStagedKeys])
  · exact fun q hq => by rw [modSeq_eq, pier_setPier_ne _ _ hq]
  · rw [modSeq_eq, pier_setPier_same]

/-! ### Held and frozen spans, and token windows (R264, R266, R297) -/

theorem raise_regsBut {r : Rec} (h : r.action < 4) (s : State) : regsBut [rasFaultWritten.key 0 0] s (raise r s) := by
  unfold raise
  dsimp only
  rw [if_neg (by omega)]
  exact regsBut.setReg (t := s.wr _ _) (regsBut_refl _ s) _ (.head _)

section
variable {s : State} {k : Nat} (hk : k < 16)
include hk

theorem exec_spanFreeze (hrun : (s.span k).running = true) (hheld : (s.span k).heldBack = true) :
    exec (.spanFreeze k) s = .next (s.modSpan k fun sp => { sp with frozen := true }) := by
  change execSpanFreeze k s = _
  rw [execSpanFreeze, if_neg (by omega), if_pos ⟨hrun, hheld⟩]

theorem exec_spanThaw (hheld : (s.span k).heldBack = false) :
    exec (.spanThaw k) s = .next (s.modSpan k fun sp => { sp with frozen := false }) := by
  change execSpanThaw k s = _
  rw [execSpanThaw, if_neg (by omega), if_neg (by simp [hheld])]

theorem exec_tokenWindowEnd (hrun : (s.span k).running = true) (hfc : 64 ≤ (s.span k).winFc) :
    exec (.tokenWindowEnd k) s = .next (windowEnd k s) := by
  change execTokenWindowEnd k s = _
  rw [execTokenWindowEnd, if_neg (by omega), if_pos ⟨hrun, hfc⟩]

end

theorem tget_of_tfind_none {α : Type} (d : α) {m : List (Nat × α)} {k : Nat} (h : tfind m k = none) : tget d m k = d := by
  induction m with
  | nil => rfl
  | cons e m ih =>
    obtain ⟨j, v⟩ := e
    by_cases hj : k = j
    · simp [tfind, hj] at h
    · rw [tfind, if_neg hj] at h
      rw [tget, if_neg hj, ih h]

/-- A span that runs is loaded. -/
theorem loaded_of_running {s : State} {k : Nat} (h : (s.span k).running = true) : (tfind s.spans k).isSome := by
  cases hf : tfind s.spans k with
  | some _ => rfl
  | none =>
    rw [State.span, tget_of_tfind_none noSpan hf] at h
    exact absurd h (by decide)

/-- The peak of the piers' windows, raised to the window's sum. -/
def State.peaked (s : State) (sum : Nat) (ps : List Nat) : State :=
  ps.foldl (fun s p => s.setReg spnWindowPeak p 0 (max (s.reg spnWindowPeak p 0) sum)) s

section
variable {sum : Nat}

theorem peaked_frame (s : State) (ps : List Nat) : s.peaked sum ps = { s with regs := (s.peaked sum ps).regs } := by
  induction ps generalizing s with
  | nil => rfl
  | cons p ps ih =>
    change (s.setReg spnWindowPeak p 0 _).peaked sum ps = { s with regs := ((s.setReg spnWindowPeak p 0 _).peaked sum ps).regs }
    rw [ih]
    rfl

theorem reg_peaked_of_notMem (s : State) {ps : List Nat} {f : Fld} {q i : Nat} (h : ∀ p ∈ ps, f.key q i ≠ spnWindowPeak.key p 0) :
    (s.peaked sum ps).reg f q i = s.reg f q i := by
  induction ps generalizing s with
  | nil => rfl
  | cons p ps ih =>
    exact (ih _ fun x hx => h x (.tail _ hx)).trans (reg_setReg_ne _ _ (h p (.head _)))

theorem windowPeak_key_ne {p q : Nat} (h : q ≠ p) : spnWindowPeak.key q 0 ≠ spnWindowPeak.key p 0 := by
  simp [Fld.key, spnWindowPeak]
  omega

theorem reg_peaked (s : State) {ps : List Nat} {p : Nat} (hp : p ∈ ps) (hle : s.reg spnWindowPeak p 0 ≤ sum)
    (hlt : sum < 2 ^ spnWindowPeak.w) : (s.peaked sum ps).reg spnWindowPeak p 0 = sum := by
  induction ps generalizing s with
  | nil => exact absurd hp (List.not_mem_nil)
  | cons q ps ih =>
    change ((s.setReg spnWindowPeak q 0 (max (s.reg spnWindowPeak q 0) sum)).peaked sum ps).reg spnWindowPeak p 0 = sum
    have hq : (s.setReg spnWindowPeak q 0 (max (s.reg spnWindowPeak q 0) sum)).reg spnWindowPeak p 0 ≤ sum := by
      by_cases hqp : p = q
      · subst hqp
        exact Nat.le_of_eq (by rw [reg_setReg_same, Nat.max_eq_right hle, Nat.mod_eq_of_lt hlt])
      · rwa [reg_setReg_ne _ _ (windowPeak_key_ne hqp)]
    by_cases hmem : p ∈ ps
    · exact ih _ hmem hq
    · obtain rfl : p = q := (List.mem_cons.1 hp).resolve_right hmem
      have hne : ∀ x ∈ ps, spnWindowPeak.key p 0 ≠ spnWindowPeak.key x 0 := fun x hx =>
        windowPeak_key_ne (ne_of_mem_of_not_mem hx hmem).symm
      rw [reg_peaked_of_notMem _ hne, reg_setReg_same, Nat.max_eq_right hle, Nat.mod_eq_of_lt hlt]

end

/-- The window that follows in a span. -/
def Span.nextWindow (sp : Span) : Span := { sp with winFc := 0, winSum := 0, winIndex := sp.winIndex + 1, level := sp.nextLevel }

/-- The record of a window over its grant. -/
def windowRec (k : Nat) (sp : Span) : Rec :=
  { code := 0x0504, action := 3, unit := 0, span := k, detail := leBytes 4 sp.winIndex ++ leBytes 1 sp.level }

theorem windowEnd_eq (k : Nat) (s : State) : windowEnd k s =
    if (s.span k).winSum ≤ (s.span k).grants.getD (s.span k).level 0 then
      (s.peaked (s.span k).winSum (s.span k).piers).modSpan k Span.nextWindow
    else stopSpan k (.commit 0x0504 none) (raise (windowRec k (s.span k))
      ((s.peaked (s.span k).winSum (s.span k).piers).modSpan k Span.nextWindow)) := rfl

section
variable {s : State} {k : Nat} (hk : (tfind s.spans k).isSome)
include hk

/-- A window within its grant, or the part of a window's end before its record. -/
theorem window_next (sum : Nat) (ps : List Nat) (w : State) (hw : w = (s.peaked sum ps).modSpan k Span.nextWindow) :
    spansBut k s w ∧ w.piers = s.piers ∧ w.span k = (s.span k).nextWindow ∧ (tfind w.spans k).isSome ∧ w.mem = s.mem ∧
      w.clk = s.clk ∧ w.regs = (s.peaked sum ps).regs := by
  have hframe := peaked_frame (sum := sum) s ps
  have hspans : (s.peaked sum ps).spans = s.spans := by rw [hframe]
  have hk' : (tfind (s.peaked sum ps).spans k).isSome := by rwa [hspans]
  subst hw
  refine ⟨fun j hj => ?_, ?_, ?_, modSpan_isSome hk', ?_, ?_, modSpan_regs⟩
  · rw [span_modSpan_ne hj, State.span, hspans, ← State.span]
  · rw [modSpan_piers, hframe]
  · rw [span_modSpan_same hk', State.span, hspans, ← State.span]
  · rw [modSpan_mem, hframe]
  · rw [modSpan_clk, hframe]

end

theorem tokenWindow {s : State} {k : Nat} (hk : k < 16) (hrun : (s.span k).running = true) (hfc : 64 ≤ (s.span k).winFc) :
    let sp := s.span k
    ∃ t, exec (.tokenWindowEnd k) s = .next t ∧ spansBut k s t ∧ t.piers = s.piers ∧
      (sp.winSum ≤ sp.grants.getD sp.level 0 → t.span k = sp.nextWindow ∧ t.mem = s.mem) ∧
      (sp.grants.getD sp.level 0 < sp.winSum → sp.stop = none →
        t.span k = { sp.nextWindow with stop := some (.commit 0x0504 none) } ∧ Recorded (windowRec k sp) s t) ∧
      ∀ p ∈ sp.piers, s.reg spnWindowPeak p 0 ≤ sp.winSum → sp.winSum < 2 ^ spnWindowPeak.w →
        t.reg spnWindowPeak p 0 = sp.winSum := by
  have hloaded := loaded_of_running hrun
  obtain ⟨hspans, hpiers, hspan, hw, hmem, hclk, hregs⟩ := window_next hloaded (s.span k).winSum (s.span k).piers _ rfl
  refine ⟨_, exec_tokenWindowEnd hk hrun hfc, ?_⟩
  rw [windowEnd_eq]
  generalize (s.peaked (s.span k).winSum (s.span k).piers).modSpan k Span.nextWindow = w at hspans hpiers hspan hw hmem hclk hregs ⊢
  have hpeak : ∀ p ∈ (s.span k).piers, s.reg spnWindowPeak p 0 ≤ (s.span k).winSum → (s.span k).winSum < 2 ^ spnWindowPeak.w →
      w.reg spnWindowPeak p 0 = (s.span k).winSum := by
    intro p hp hle hlt
    rw [State.reg, hregs, ← State.reg]
    exact reg_peaked s hp hle hlt
  have hdev : ∀ f : Fld, f.pier = false → (∀ p, f.key 0 0 ≠ spnWindowPeak.key p 0) → w.dreg f = s.dreg f := by
    intro f _ hf
    rw [State.dreg, State.reg, hregs, ← State.reg]
    exact reg_peaked_of_notMem s fun p _ => hf p
  by_cases hgrant : (s.span k).winSum ≤ (s.span k).grants.getD (s.span k).level 0
  · rw [if_pos hgrant]
    exact ⟨hspans, hpiers, fun _ => ⟨hspan, hmem⟩, fun hover => absurd hgrant (Nat.not_le.2 hover), hpeak⟩
  · rw [if_neg hgrant]
    refine ⟨fun j hj => ?_, ?_, fun hle => absurd hle hgrant, fun _ hstop => ⟨?_, ?_⟩, fun p hp hle hlt => ?_⟩
    · rw [stopSpan, span_modSpan_ne hj, span_raise, hspans j hj]
    · rw [stopSpan_piers, raise_piers, hpiers]
    · rw [span_stopSpan (by rwa [raise_spans]) (by rw [span_raise, hspan]; exact hstop), span_raise, hspan]
    · refine (raise_spec (windowRec k (s.span k)) w).1.congr hmem.symm ?_ ?_ ?_ (stopSpan_mem _ _ _) (stopSpan_regs _ _ _)
      · rw [State.now, State.now, hclk]
      · exact (hdev _ rfl fun p => by simp [Fld.key, rasFaultWritten, spnWindowPeak]; omega).symm
      · exact (hdev _ rfl fun p => by simp [Fld.key, tbDeviceId, spnWindowPeak]; omega).symm
    · rw [State.reg, stopSpan_regs, ← State.reg, reg_raise_of_pier _ rfl]
      exact hpeak p hp hle hlt

/-- Settles O50. -/
theorem heldSpans : Obligations.HeldSpans := by
  refine ⟨fun k s hk => ⟨fun hrun hheld => ?_, fun hloaded hheld => ?_, fun hrun hfc => tokenWindow hk hrun hfc⟩, ?_⟩
  · have hloaded := loaded_of_running hrun
    exact ⟨_, exec_spanFreeze hk hrun hheld, modSpan_frame _ _ _, span_modSpan_same hloaded, fun j hj => span_modSpan_ne hj⟩
  · exact ⟨_, exec_spanThaw hk hheld, modSpan_frame _ _ _, span_modSpan_same hloaded, fun j hj => span_modSpan_ne hj⟩
  · intro p k st s hp hon
    have hexec : exec (.waittTarget p) s =
        .next (endHolds k (fun h => h.pier == p && h.src == .waitt && h.waits.all (· ≤ s.now)) s) := by
      change execWaittTarget p s = _
      rw [execWaittTarget, if_neg (by omega), hon]
    refine ⟨_, hexec, ?_, fun j hj => span_modSpan_ne hj, span_modSpan_same (spanOf_loaded _ p hon)⟩
    rw [endHolds, modSpan_frame]

end Sys2Proof.Machine

/-! Verbs (R379 to R381): the state in which an admitted verb runs, and how it ends; READ_REG, WRITE_REG and unknown verbs. -/
namespace Sys2Proof.Machine

/-! ### The state in which a verb runs -/

/-- An update of the entries with key `p` leaves every other. -/
theorem tfind_update_ne {α : Type} (m : List (Nat × α)) {p q : Nat} (f : α → α) (h : q ≠ p) :
    tfind (m.map fun e => if e.1 = p then (e.1, f e.2) else e) q = tfind m q := by
  induction m with
  | nil => rfl
  | cons e m ih =>
    obtain ⟨j, x⟩ := e
    by_cases hq : q = j
    · subst hq
      simp [tfind, h]
    · by_cases hj : j = p <;> simpa [tfind, hq, hj, h] using ih

theorem tfind_modSlot_ne (s : State) {p q : Nat} (f : Slot → Slot) (h : q ≠ p) : tfind (s.modSlot p f).slots q = tfind s.slots q :=
  tfind_update_ne s.slots f h

/-- A state in which the verb `v` of the admitted request `r` runs: `u` is `s` with the verb's effect so far outside registers
and slots, and of the registers the port's RX_PACKETS and `keys` may differ. -/
def VerbRuns (r : VerbReq) (v : Nat) (keys : List Nat) (sl : Slot) (s u t : State) : Prop :=
  sl.verb = none ∧ t = { u with regs := t.regs, slots := t.slots } ∧ regsBut (prtRxPackets.key 0 (sl.port r.standby) :: keys) s t ∧
    tfind t.slots r.slot = some { sl with ctrIn := r.ctr, lastMgmt := s.now, onStandby := r.standby, verb := some (v, r.tag) } ∧
    ∀ q, q ≠ r.slot → tfind t.slots q = tfind s.slots q

section
variable {r : VerbReq} {wide : Bool} {v : Nat} {keys : List Nat} {sl : Slot} {s u t : State}

theorem verbRuns_admitted (h : Admitted r wide s sl) (v : Nat) : VerbRuns r v [] sl s s (admitted r v sl s) := by
  obtain ⟨-, hfind, -, -, -, hnone, -⟩ := h
  refine ⟨hnone, rfl, ?_, ?_, fun q hq => ?_⟩
  · exact regsBut.setReg (t := s) (regsBut_refl _ s) _ (.head _)
  · rw [admitted, tfind_modSlot_same, bump_eq, setReg_slots, hfind]
    rfl
  · rw [admitted, tfind_modSlot_ne _ _ hq, bump_eq, setReg_slots]

theorem VerbRuns.setReg (h : VerbRuns r v keys sl s u t) {f : Fld} {p i : Nat} (x : Nat) (hk : f.key p i ∈ keys) :
    VerbRuns r v keys sl s u (t.setReg f p i x) := by
  obtain ⟨hnone, hframe, hregs, hslot, hslots⟩ := h
  exact ⟨hnone, by rw [hframe]; rfl, hregs.setReg x (.tail _ hk), hslot, hslots⟩

/-- More registers may differ. -/
theorem VerbRuns.mono (h : VerbRuns r v keys sl s u t) {keys' : List Nat} (hk : keys ⊆ keys') : VerbRuns r v keys' sl s u t := by
  obtain ⟨hnone, hframe, hregs, hslot, hslots⟩ := h
  refine ⟨hnone, hframe, fun n hn => hregs n fun hm => hn ?_, hslot, hslots⟩
  exact List.cons_subset_cons _ hk hm

/-- An update outside registers and slots. -/
theorem VerbRuns.update (h : VerbRuns r v keys sl s u t) {u' t' : State}
    (ht : t' = { u' with regs := t.regs, slots := t.slots }) : VerbRuns r v keys sl s u' t' := by
  obtain ⟨hnone, -, hregs, hslot, hslots⟩ := h
  subst ht
  exact ⟨hnone, rfl, hregs, hslot, hslots⟩

theorem VerbRuns.verb (h : VerbRuns r v keys sl s u t) : (tfind t.slots r.slot).bind (·.verb) = some (v, r.tag) := by
  rw [h.2.2.2.1]
  rfl

/-- The verb ends with its response. -/
theorem VerbRuns.done (h : VerbRuns r v keys sl s u t) (status : Nat) (detail : List Byte) :
    VerbDone r status detail keys sl s u (respond r.slot r.tag status detail t) := by
  have hlast := respond_lastOut h.verb status detail
  have hverb := h.verb
  obtain ⟨hnone, hframe, hregs, hslot, hslots⟩ := h
  have hsent : respond r.slot r.tag status detail t = (((((t.modSlot r.slot fun sl => { sl with verb := none }).bump prtTxPackets 0
      (sl.port r.standby) 1).modSlot r.slot fun sl => { sl with ctrOut := sl.ctrOut + 1 }).send (.verb r.slot r.tag status detail))) := by
    rw [respond, if_pos (by simp [hverb]), sendVerb]
    simp only [tfind_modSlot_same, hslot, Option.map_some, Option.getD_some]
    rfl
  refine ⟨?_, hlast, ?_, ?_, fun q hq => ?_⟩
  all_goals rw [hsent]
  · rw [hframe]
    rfl
  · refine regsBut.setReg (t := t.modSlot _ _) (fun n hn => hregs n fun hm => hn ?_) _ (.tail _ (.head _))
    exact List.mem_cons.2 ((List.mem_cons.1 hm).imp_right fun hm => .tail _ hm)
  · rw [send_slots, tfind_modSlot_same, bump_eq, setReg_slots, tfind_modSlot_same, hslot]
    simp only [Option.map_some, hnone]
  · rw [send_slots, tfind_modSlot_ne _ _ hq, bump_eq, setReg_slots, tfind_modSlot_ne _ _ hq, hslots q hq]

/-- The verb waits. -/
theorem VerbRuns.waits (h : VerbRuns r v [] sl s u t) (hout : u.out = s.out) : VerbWaits r v sl s u t := by
  obtain ⟨-, hframe, hregs, hslot, hslots⟩ := h
  refine ⟨?_, hregs, hslot, hslots⟩
  rw [← hout]
  exact hframe

end

/-! ### READ_REG (R380) -/

theorem readRegs_of_notMem {as : List Nat} (s : State) (h : tbNsLoAddr ∉ as) : readRegs as s = (as.map s.regWord, s) := by
  induction as with
  | nil => rfl
  | cons a as ih =>
    rw [readRegs_cons_ne _ (fun ha => h (ha ▸ .head _)), ih fun hm => h (.tail _ hm)]
    rfl

/-- Settles O27. -/
theorem readRegisters : Obligations.ReadRegisters := by
  intro r addrs s sl h hpos hmax hlatch
  refine ⟨_, exec_readReg_admitted h (List.ne_nil_of_length_pos hpos) hmax, ?_⟩
  rw [readRegs_of_notMem _ hlatch, List.flatMap_map]
  exact (verbRuns_admitted h 8).done 0 _

/-! ### WRITE_REG and unknown verbs (R381, R449) -/

/-- The staging fields of a window open, in a slot's own registers. -/
def stagingFields : List Fld := [prtWinBaseLo, prtWinBaseHi, prtWinLength, prtWinRkey]

/-- The address of field `f` in slot `p`'s registers. -/
def slotAddr (f : Fld) (p : Nat) : Nat := f.base + f.off + 64 * p

theorem fieldsAt_slotAddr : ∀ f ∈ stagingFields, ∀ p, p < 8 → fieldsAt (slotAddr f p) = [(f, 0, p)] := by decide +kernel

theorem staging_off : ∀ f ∈ stagingFields, f.base = 0x40000 ∧ 0x220 ≤ f.off ∧ f.off < 0x230 ∧ f.pier = false ∧ f.lo = 0 ∧ f.w = 32 ∧
    f.acc = .rw ∧ f.home = .stored ∧ f ≠ prtOverrun ∧ f.stride = 64 := by decide

section
variable {f : Fld} (hf : f ∈ stagingFields) {p : Nat} (hp : p < 8)
include hf hp

theorem slotReg_slotAddr : slotReg (slotAddr f p) = some (p, f.off - 0x200) := by
  obtain ⟨hbase, hlo, hhi, -⟩ := staging_off f hf
  simp only [slotReg, slotAddr, hbase]
  rw [if_pos (by omega)]
  exact congrArg some (Prod.ext (by simp only; omega) (by simp only; omega))

theorem slotAddr_bounds : 0x40220 ≤ slotAddr f p ∧ slotAddr f p < 0x40400 := by
  obtain ⟨hbase, hlo, hhi, -⟩ := staging_off f hf
  simp only [slotAddr, hbase]
  omega

theorem pierOfAddr_slotAddr : pierOfAddr (slotAddr f p) = none := by
  obtain ⟨-, hlt⟩ := slotAddr_bounds hf hp
  exact if_neg (by omega)

theorem writeCode_slotAddr (q w v : Nat) (s : State) : writeCode q w (slotAddr f p) v s = if p ≠ q then 0x040A else 0 := by
  obtain ⟨hbase, hlo, hhi, -⟩ := staging_off f hf
  rw [writeCode, pierOfAddr_slotAddr hf hp, slotReg_slotAddr hf hp]
  dsimp only
  rw [if_neg (c := f.off - 0x200 = 0x34 ∧ _) (by omega)]

theorem writeField_staging (v : Nat) (s : State) : writeField f p v s = s.setReg f 0 p (v % 2 ^ 32) := by
  obtain ⟨-, -, -, -, hfirst, hw, hacc, hhome, hover, -⟩ := staging_off f hf
  have hrange : ∀ x, rangeOk f x s = true := by
    simp only [stagingFields, List.mem_cons, List.not_mem_nil, or_false] at hf
    rcases hf with rfl | rfl | rfl | rfl <;> exact fun x => rfl
  unfold writeField
  rw [if_neg hover, if_neg (by rw [hacc]; decide), if_pos ⟨hacc, hhome, hrange _⟩, hfirst, hw, Nat.pow_zero, Nat.div_one]

theorem writePlain_slotAddr (v : Nat) (s : State) : writePlain (slotAddr f p) v s = s.setReg f 0 p (v % 2 ^ 32) := by
  obtain ⟨hlo, hhi⟩ := slotAddr_bounds hf hp
  obtain ⟨-, -, -, hpier, -⟩ := staging_off f hf
  rw [writePlain, if_neg (by omega), fieldsAt_slotAddr f hf p hp]
  simp only [List.foldl_cons, List.foldl_nil, hpier, Bool.false_eq_true, if_false]
  rw [if_neg (by omega), if_neg (by omega), if_neg (by omega), if_neg (by omega), writeField_staging hf hp]

theorem writeOne_slotAddr (tag : Nat) (remote : List Byte) (v : Nat) (s : State) :
    writeOne p tag remote (slotAddr f p) v s = .go (s.setReg f 0 p (v % 2 ^ 32)) := by
  obtain ⟨hlo, hhi⟩ := slotAddr_bounds hf hp
  obtain ⟨-, hoff, hoff', -⟩ := staging_off f hf
  have hcounters : ∀ f ∈ stagingFields, ∀ p, p < 8 → (tfind devCounters (slotAddr f p)).isSome = false := by decide +kernel
  rw [writeOne]
  dsimp only
  rw [slotReg_slotAddr hf hp, if_neg (by simp; omega)]
  iterate 9 rw [if_neg (by omega)]
  rw [pierOfAddr_slotAddr hf hp, if_neg (by simp [hcounters f hf p hp]), writePlain_slotAddr hf hp]

end

/-- An admitted WRITE_REG of two pairs, neither of them CACHE_STEPS. -/
theorem exec_writeReg_pair {r : VerbReq} {s : State} {sl : Slot} (h : Admitted r false s sl) (e g : Nat × Nat) (remote : List Byte)
    (he : e.1 ≠ 0x60000) (hg : g.1 ≠ 0x60000) :
    let u := admitted r 9 sl s
    let c := firstRefused r.slot (u.reg prtWinId 0 r.slot) [e, g] u
    exec (.writeReg r [e, g] remote) s = .next (
      if c = 0x0501 then respond r.slot r.tag c [] (raise { code := c, action := 0, unit := 1 } u)
      else if c ≠ 0 then respond r.slot r.tag c [] u
      else applyPairs r.slot r.tag remote [e, g] u) := by
  have hwide : ([e, g].any fun e => e.1 == 0x60000) = false := by simp [he, hg]
  change execWriteReg r [e, g] remote s = _
  rw [execWriteReg]
  dsimp only
  rw [hwide, if_neg (by decide), onVerb_admitted (h := h), if_neg (by simp)]

section
variable {r : VerbReq} {s : State} {sl : Slot} (h : Admitted r false s sl)
include h

/-- Two staging fields of the slot's own. -/
theorem exec_writeReg_staging {f g : Fld} (hf : f ∈ stagingFields) (hg : g ∈ stagingFields) (v w : Nat) :
    exec (.writeReg r [(slotAddr f r.slot, v), (slotAddr g r.slot, w)] []) s = .next (respond r.slot r.tag 0 []
      (((admitted r 9 sl s).setReg f 0 r.slot (v % 2 ^ 32)).setReg g 0 r.slot (w % 2 ^ 32))) := by
  have hp := h.1
  have hfb := slotAddr_bounds hf hp
  have hgb := slotAddr_bounds hg hp
  rw [exec_writeReg_pair h _ _ _ (by simp only; omega) (by simp only; omega)]
  have hc : ∀ u, firstRefused r.slot (u.reg prtWinId 0 r.slot) [(slotAddr f r.slot, v), (slotAddr g r.slot, w)] u = 0 := by
    intro u
    simp only [firstRefused, writeCode_slotAddr hf hp, writeCode_slotAddr hg hp]
    simp
  rw [hc, if_neg (by decide), if_neg (by decide)]
  simp only [applyPairs, writeOne_slotAddr hf hp, writeOne_slotAddr hg hp]

/-- A staging field of another slot among the pairs. -/
theorem exec_writeReg_foreign {f : Fld} (hf : f ∈ stagingFields) (v w : Nat) {q : Nat} (hq : q < 8) (hne : q ≠ r.slot) :
    exec (.writeReg r [(slotAddr f r.slot, v), (slotAddr f q, w)] []) s =
      .next (respond r.slot r.tag 0x040A [] (admitted r 9 sl s)) := by
  have hp := h.1
  have hfb := slotAddr_bounds hf hp
  have hgb := slotAddr_bounds hf hq
  rw [exec_writeReg_pair h _ _ _ (by simp only; omega) (by simp only; omega)]
  have hc : ∀ u, firstRefused r.slot (u.reg prtWinId 0 r.slot) [(slotAddr f r.slot, v), (slotAddr f q, w)] u = 0x040A := by
    intro u
    simp only [firstRefused, writeCode_slotAddr hf hp, writeCode_slotAddr hf hq]
    simp [hne]
  rw [hc, if_neg (by decide), if_pos (by decide)]

theorem exec_unknownVerb_admitted (v : Nat) :
    exec (.unknownVerb r v) s = .next (respond r.slot r.tag 0x0406 [] (admitted r v sl s)) := by
  change execUnknownVerb r v s = _
  rw [execUnknownVerb, onVerb_admitted (h := h)]

end

theorem key_staging {f : Fld} (hf : f ∈ stagingFields) (p : Nat) : f.key 0 p = (0x40000 + f.off + 64 * p) * 32 := by
  obtain ⟨hbase, -, -, hpier, hlo, -, -, -, -, hstride⟩ := staging_off f hf
  simp [Fld.key, hbase, hpier, hlo, hstride]

theorem key_staging_ne {f g : Fld} (hf : f ∈ stagingFields) (hg : g ∈ stagingFields) (hfg : f ≠ g) (p : Nat) :
    f.key 0 p ≠ g.key 0 p := by
  have hoff : ∀ f ∈ stagingFields, ∀ g ∈ stagingFields, f.off = g.off → f = g := by decide
  intro he
  rw [key_staging hf, key_staging hg] at he
  exact hfg (hoff f hf g hg (by omega))

/-- A response changes TX_PACKETS alone of the registers. -/
theorem reg_respond {f : Fld} {p i : Nat} (hk : ∀ k, f.key p i ≠ prtTxPackets.key 0 k) (q tag status : Nat) (detail : List Byte)
    (s : State) : (respond q tag status detail s).reg f p i = s.reg f p i := by
  unfold respond
  split
  · rw [sendVerb]
    exact reg_setReg_ne (s.modSlot _ _) _ (hk _)
  · rfl

theorem key_staging_tx {f : Fld} (hf : f ∈ stagingFields) {p : Nat} (hp : p < 8) (k : Nat) : f.key 0 p ≠ prtTxPackets.key 0 k := by
  obtain ⟨-, hlo, hhi, -⟩ := staging_off f hf
  rw [key_staging hf]
  simp [Fld.key, prtTxPackets]
  omega

/-- Settles O29. -/
theorem writeRegisters : Obligations.WriteRegisters := by
  intro r s sl h staging at_
  refine ⟨fun f hf g hg hfg v w => ?_, fun f hf v w q hq hne => ?_, fun v => ?_⟩
  · refine ⟨_, exec_writeReg_staging h hf hg v w, ?_, ?_, ?_⟩
    · exact ((((verbRuns_admitted h 9).mono (List.nil_subset _)).setReg _ (.head _)).setReg _ (.tail _ (.head _))).done 0 []
    · rw [reg_respond (key_staging_tx hf h.1), reg_setReg_ne _ _ (key_staging_ne hf hg hfg _), reg_setReg_same,
        (staging_off f hf).2.2.2.2.2.1, Nat.mod_mod]
    · rw [reg_respond (key_staging_tx hg h.1), reg_setReg_same, (staging_off g hg).2.2.2.2.2.1, Nat.mod_mod]
  · exact ⟨_, exec_writeReg_foreign h hf v w hq hne, (verbRuns_admitted h 9).done _ _⟩
  · exact ⟨_, exec_unknownVerb_admitted h v, (verbRuns_admitted h v).done _ _⟩

end Sys2Proof.Machine

/-! The verbs ATTEST, UPDATE_FW and SET_POLICY, and the events of a session (R227, R382, R383, R411 to R420). -/
namespace Sys2Proof.Machine

/-! ### What a response and an admission leave -/

theorem respond_frame (p tag status : Nat) (detail : List Byte) (s : State) : respond p tag status detail s =
    { s with regs := (respond p tag status detail s).regs, slots := (respond p tag status detail s).slots
             out := (respond p tag status detail s).out } := by
  unfold respond
  split <;> rfl

theorem dreg_admitted (r : VerbReq) (v : Nat) (sl : Slot) (s : State) {f : Fld} (hk : ∀ k, f.key 0 0 ≠ prtRxPackets.key 0 k) :
    (admitted r v sl s).dreg f = s.dreg f := reg_setReg_ne s _ (hk _)

theorem oper_admitted (r : VerbReq) (v : Nat) (sl : Slot) (s : State) : (admitted r v sl s).oper = s.oper := by
  rw [State.oper, dreg_admitted _ _ _ _ (by simp [Fld.key, tbOperVersion, prtRxPackets]; omega)]
  rfl

/-- A record does not depend on the admission. -/
theorem Recorded.of_admitted {rc : Rec} {s t : State} {r : VerbReq} {v : Nat} {sl : Slot}
    (h : Recorded rc (admitted r v sl s) t) : Recorded rc s t :=
  h.congr rfl rfl (dreg_admitted r v sl s (by simp [Fld.key, rasFaultWritten, prtRxPackets]; omega)).symm
    (dreg_admitted r v sl s (by simp [Fld.key, tbDeviceId, prtRxPackets]; omega)).symm rfl rfl

theorem respond_mem (p tag status : Nat) (detail : List Byte) (s : State) : (respond p tag status detail s).mem = s.mem := by
  rw [respond_frame]

theorem respond_ks (p tag status : Nat) (detail : List Byte) (s : State) : (respond p tag status detail s).ks = s.ks := by
  rw [respond_frame]

/-- A response does not touch the record before it. -/
theorem Recorded.respond {rc : Rec} {s t : State} (h : Recorded rc s t) (p tag status : Nat) (detail : List Byte) :
    Recorded rc s (respond p tag status detail t) := by
  obtain ⟨hmem, hcount⟩ := h
  refine ⟨(respond_mem p tag status detail t).trans hmem, ?_⟩
  rw [State.dreg, reg_respond (by simp [Fld.key, rasFaultWritten, prtTxPackets]; omega)]
  exact hcount

/-- A record while a verb runs. -/
theorem VerbRuns.raise {r : VerbReq} {v : Nat} {keys : List Nat} {sl : Slot} {s u t : State} (h : VerbRuns r v keys sl s u t)
    {rc : Rec} (hr : rc.action < 4) (hk : rasFaultWritten.key 0 0 ∈ keys) :
    VerbRuns r v keys sl s { u with mem := (raise rc t).mem } (raise rc t) := by
  obtain ⟨hnone, hframe, hregs, hslot, hslots⟩ := h
  have hrframe : Machine.raise rc t = { t with mem := (Machine.raise rc t).mem, regs := (Machine.raise rc t).regs } := raise_frame t rc
  have hsame : (Machine.raise rc t).slots = t.slots := by rw [hrframe]
  refine ⟨hnone, ?_, fun n hn d => ?_, by rw [hsame]; exact hslot, fun q hq => by rw [hsame]; exact hslots q hq⟩
  · rw [hsame, hrframe, hframe]
  · have hne : n ∉ [rasFaultWritten.key 0 0] := fun hm => hn (.tail _ (List.mem_singleton.1 hm ▸ hk))
    rw [raise_regsBut hr t n hne d, hregs n hn d]

section
variable {r : VerbReq} {wide : Bool} {s : State} {sl : Slot} (h : Admitted r wide s sl) (v : Nat)
include h

/-- A verb that ends with a fault of keystone, recorded. -/
theorem respondFault_admitted (code : Nat) :
    let t := respondFault r.slot r.tag code (admitted r v sl s)
    VerbDone r code [] [rasFaultWritten.key 0 0] sl s { s with mem := t.mem } t ∧
      Recorded { code := code, action := 0, unit := 6 } s t := by
  intro t
  have hruns := ((verbRuns_admitted h v).mono (keys' := [rasFaultWritten.key 0 0]) (List.nil_subset _)).raise
    (rc := { code := code, action := 0, unit := 6 }) (by decide : (0 : Nat) < 4) (.head _)
  have hmem : t.mem = (raise { code := code, action := 0, unit := 6 } (admitted r v sl s)).mem := respond_mem _ _ _ _ _
  rw [hmem]
  exact ⟨hruns.done code [], ((raise_spec _ _).1.of_admitted).respond _ _ _ _⟩

/-- A verb that answers at once. -/
theorem answerOnly_admitted (status : Nat) (detail : List Byte) :
    AnswerOnly r status detail sl s (respond r.slot r.tag status detail (admitted r v sl s)) :=
  (verbRuns_admitted h v).done status detail

end

/-! ### ATTEST (R415, R419, R420) -/

/-- The sessions that ATTEST names, of those bound by slot `p`. -/
def namedSessions (s : State) (p : Nat) (ids : List Nat) : List (Option Session) :=
  ids.map fun n => (tfind s.sessions n).bind fun x => if x.slot = p then some x else none

theorem namedSessions_eq {s : State} {p : Nat} {ids : List Nat} {xs : List Session}
    (hids : ids.map (fun n => tfind s.sessions n) = xs.map some) (hp : ∀ x ∈ xs, x.slot = p) :
    namedSessions s p ids = xs.map some := by
  have hbind : namedSessions s p ids = (ids.map fun n => tfind s.sessions n).map
      (·.bind fun x => if x.slot = p then some x else none) := by
    simp [namedSessions]
  rw [hbind, hids, List.map_map]
  exact List.map_congr_left fun x hx => if_pos (hp x hx)

theorem leBytes_length (n x : Nat) : (leBytes n x).length = n := by
  induction n generalizing x with
  | zero => rfl
  | succ n ih => rw [leBytes, List.length_cons, ih]

theorem fitBytes_length (n : Nat) (bs : List Byte) : (fitBytes n bs).length = n := by
  simp [fitBytes]

theorem slice_append (a b c : List Byte) : slice (a ++ (b ++ c)) a.length b.length = b := by
  rw [slice, List.drop_left, List.take_left]

/-- The fields of a report ahead of the nonce. -/
def reportHead (s : State) : List Byte :=
  let flags := (if s.isDegraded then 1 else 0) + 2 * s.dreg lieRandomise + (if s.ks.operatorHash.isEmpty then 0 else 4)
  leBytes 4 0x48544154 ++ verBytes s ++ leBytes 2 flags ++ leBytes 8 s.ks.serial ++
    leBytes 2 (s.dreg tbDeviceId + 2 ^ 15 * s.dreg tbIdValid) ++ leBytes 2 0 ++ leBytes 4 ((s.ks.run.map (·.svn)).getD 0) ++
    leBytes 4 s.ks.fwSvn ++ leBytes 4 s.ks.routineEpoch

/-- The fields of a report behind the nonce. -/
def reportTail (s : State) (xs : List Session) : List Byte :=
  fitBytes 32 s.ks.fwDigest ++ fitBytes 32 s.ks.romDigest ++ fitBytes 32 s.ks.operatorHash ++ leBytes 8 s.now ++
    leBytes 4 (s.dreg tbSysimgGen) ++ leBytes 2 s.imagesByHandle.length ++ leBytes 2 xs.length ++ leBytes 16 0 ++
    (s.imagesByHandle.flatMap fun im => leBytes 2 im.handle ++ leBytes 14 0 ++ fitBytes 32 im.digest) ++
    xs.flatMap fun x => leBytes 8 x.id ++ leBytes 8 x.keyTag ++ policyDigest x

theorem reportBody_eq (s : State) (nonce : List Byte) (xs : List Session) :
    reportBody s nonce xs = reportHead s ++ (fitBytes 32 nonce ++ reportTail s xs) := by
  unfold reportBody reportHead reportTail
  simp only [List.append_assoc]

theorem reportHead_length (s : State) : (reportHead s).length = 32 := by
  simp only [reportHead, verBytes, List.length_append, leBytes_length]

/-- The nonce stands at 0x20 of the report. -/
theorem slice_reportBody (s : State) (nonce : List Byte) (xs : List Session) :
    slice (reportBody s nonce xs) 0x20 32 = fitBytes 32 nonce := by
  have hslice := slice_append (reportHead s) (fitBytes 32 nonce) (reportTail s xs)
  rw [reportHead_length, fitBytes_length] at hslice
  rw [reportBody_eq, hslice]

section
variable {r : VerbReq} {s : State} {sl : Slot} (h : Admitted r false s sl) (nonce : List Byte) (ids : List Nat)
include h

theorem exec_attest_dead (hrng : s.ks.rngOk = false) :
    exec (.attest r nonce ids) s = .next (respondFault r.slot r.tag 0x0707 (admitted r 4 sl s)) := by
  have hrng' : (admitted r 4 sl s).ks.rngOk = false := hrng
  change execAttest r nonce ids s = _
  rw [execAttest, onVerb_admitted (h := h), if_pos (by simp [hrng'])]

theorem exec_attest_named {xs : List Session} (hrng : s.ks.rngOk = true) (hids : ids.map (fun n => tfind s.sessions n) = xs.map some)
    (hp : ∀ x ∈ xs, x.slot = r.slot) :
    let body := reportBody (admitted r 4 sl s) nonce xs
    exec (.attest r nonce ids) s = .next (respond r.slot r.tag 0 (body ++ Config.mldsaSign (sha3 body) ++ s.ks.cert)
      ((admitted r 4 sl s).bump ksnReportsSigned 0 0 1)) := by
  have hrng' : (admitted r 4 sl s).ks.rngOk = true := hrng
  have hnamed : namedSessions (admitted r 4 sl s) r.slot ids = xs.map some := namedSessions_eq hids hp
  change execAttest r nonce ids s = _
  rw [execAttest, onVerb_admitted (h := h), if_neg (by simp [hrng']), ← namedSessions, hnamed, if_neg (by simp)]
  have hall : (xs.map some).filterMap id = xs := by simp
  dsimp only
  rw [hall]
  rfl

end

/-- Settles O30. -/
theorem attestation : Obligations.Attestation := by
  intro r nonce ids s sl h
  refine ⟨fun xs hrng hids hp => ⟨_, exec_attest_named h nonce ids hrng hids hp, ?_, ?_, slice_reportBody _ _ _⟩,
    fun hrng => ⟨_, exec_attest_dead h nonce ids hrng, respondFault_admitted h 4 0x0707⟩⟩
  · exact (((verbRuns_admitted h 4).mono (List.nil_subset _)).setReg _ (.head _)).done _ _
  · have hcount : (admitted r 4 sl s).dreg ksnReportsSigned = s.dreg ksnReportsSigned :=
      dreg_admitted r 4 sl s (by simp [Fld.key, ksnReportsSigned, prtRxPackets]; omega)
    rw [State.dreg, reg_respond (by simp [Fld.key, ksnReportsSigned, prtTxPackets]; omega), bump_eq, reg_setReg_same, ← dreg_eq, hcount]
    exact Nat.mod_eq_of_lt (by simp only [satAdd, ksnReportsSigned]; omega)

/-! ### UPDATE_FW (R411 to R413) -/

section
variable {r : VerbReq} {src : WinRange} {bs : List Byte} {s : State} {sl : Slot} (h : Admitted r true s sl)
  (hbs : readRange (admitted r 5 sl s) r.slot src = some bs)
include h hbs

theorem exec_updateFw_bad (hbad : parseBundle s.ks bs = none ∨ ∃ x, parseBundle s.ks bs = some x ∧ x.svn < s.ks.fwSvn) :
    exec (.updateFw r src) s = .next (respondFault r.slot r.tag 0x0706 (admitted r 5 sl s)) := by
  have hks : (admitted r 5 sl s).ks = s.ks := rfl
  change execUpdateFw r src s = _
  rw [execUpdateFw, onVerb_admitted (h := h), hbs]
  dsimp only
  rw [hks]
  rcases hbad with hnone | ⟨x, hx, hold⟩
  · rw [hnone]
  · rw [hx]
    exact congrArg _ (if_pos hold)

theorem exec_updateFw_version {x : Bundle} (hx : parseBundle s.ks bs = some x) (hsvn : s.ks.fwSvn ≤ x.svn)
    (hver : x.fwVersion < s.oper ∨ s.oper + 1 < x.fwVersion) :
    exec (.updateFw r src) s = .next (respond r.slot r.tag 0x0801 [] (admitted r 5 sl s)) := by
  have hks : (admitted r 5 sl s).ks = s.ks := rfl
  change execUpdateFw r src s = _
  rw [execUpdateFw, onVerb_admitted (h := h), hbs]
  dsimp only
  rw [hks, hx]
  dsimp only
  rw [if_neg (Nat.not_lt.2 hsvn), oper_admitted, if_pos hver]

theorem exec_updateFw_good {x : Bundle} (hx : parseBundle s.ks bs = some x) (hsvn : s.ks.fwSvn ≤ x.svn)
    (hver : s.oper ≤ x.fwVersion) (hver' : x.fwVersion ≤ s.oper + 1) :
    exec (.updateFw r src) s = .next (respond r.slot r.tag 0 [] (writeBank x (admitted r 5 sl s))) := by
  have hks : (admitted r 5 sl s).ks = s.ks := rfl
  change execUpdateFw r src s = _
  rw [execUpdateFw, onVerb_admitted (h := h), hbs]
  dsimp only
  rw [hks, hx]
  dsimp only
  rw [if_neg (Nat.not_lt.2 hsvn), oper_admitted, if_neg (by omega)]

end

/-- Keystone with the bundle `x` in the bank `b`, which boots first. -/
def Keystone.staged (k : Keystone) (b : Nat) (x : Bundle) : Keystone :=
  { (if b = 0 then { k with bankA := some x } else { k with bankB := some x }) with bootFirst := some b }

theorem writeBank_eq (x : Bundle) (s : State) : writeBank x s =
    { s with ks := s.ks.staged (1 - s.ks.bootBank) x }.setDreg ksnBootNext (1 - s.ks.bootBank) := rfl

theorem bank_staged (k : Keystone) (b : Nat) (x : Bundle) : (k.staged b x).bank b = some x := by
  unfold Keystone.staged Keystone.bank
  split <;> simp_all

theorem staged_frame (k : Keystone) (b : Nat) (x : Bundle) :
    k.staged b x = { k with bankA := (k.staged b x).bankA, bankB := (k.staged b x).bankB, bootFirst := some b } := by
  unfold Keystone.staged
  split <;> rfl

theorem bank_staged_other (k : Keystone) {b : Nat} (hb : b ≤ 1) (x : Bundle) : (k.staged b x).bank (1 - b) = k.bank (1 - b) := by
  obtain rfl | rfl : b = 0 ∨ b = 1 := by omega
  · rfl
  · rfl

/-- A bundle written to the bank that did not boot. -/
theorem updated {r : VerbReq} {s : State} {sl : Slot} (h : Admitted r true s sl) (x : Bundle) :
    let b := 1 - s.ks.bootBank
    let t := respond r.slot r.tag 0 [] (writeBank x (admitted r 5 sl s))
    VerbDone r 0 [] [ksnBootNext.key 0 0] sl s { s with ks := t.ks } t ∧ t.ks = s.ks.staged b x ∧ t.dreg ksnBootNext = b % 2 := by
  intro b t
  have hks : t.ks = s.ks.staged b x := respond_ks _ _ _ _ _
  have hruns : VerbRuns r 5 [ksnBootNext.key 0 0] sl s { s with ks := s.ks.staged b x } (writeBank x (admitted r 5 sl s)) := by
    rw [writeBank_eq]
    exact (((verbRuns_admitted h 5).mono (List.nil_subset _)).update (u' := { s with ks := s.ks.staged b x }) rfl).setReg b (.head _)
  refine ⟨?_, hks, ?_⟩
  · rw [hks]
    exact hruns.done 0 []
  · rw [State.dreg, reg_respond (by simp [Fld.key, ksnBootNext, prtTxPackets]; omega), writeBank_eq, setDreg_eq, reg_setReg_same]
    rfl

/-- Settles O31, by what the bundle is. -/
theorem firmwareUpdate : Obligations.FirmwareUpdate := by
  intro r src bs s sl h hbs b
  have hb : b ≤ 1 := Nat.sub_le _ _
  by_cases hbad : parseBundle s.ks bs = none ∨ ∃ x, parseBundle s.ks bs = some x ∧ x.svn < s.ks.fwSvn
  · have hno : ∀ x, parseBundle s.ks bs = some x → ¬ s.ks.fwSvn ≤ x.svn := by
      rintro x hx
      rcases hbad with hnone | ⟨y, hy, hold⟩
      · rw [hnone] at hx
        exact absurd hx (by simp)
      · obtain rfl : x = y := Option.some.inj (hx.symm.trans hy)
        exact Nat.not_le.2 hold
    exact ⟨_, exec_updateFw_bad h hbs hbad, fun x hx hsvn => absurd hsvn (hno x hx), fun _ => respondFault_admitted h 5 0x0706,
      fun x hx hsvn => absurd hsvn (hno x hx)⟩
  · obtain ⟨x, hx⟩ : ∃ x, parseBundle s.ks bs = some x := Option.ne_none_iff_exists'.1 fun hn => hbad (.inl hn)
    have hsame : ∀ y, parseBundle s.ks bs = some y → y = x := fun y hy => Option.some.inj (hy.symm.trans hx)
    have hsvn : s.ks.fwSvn ≤ x.svn := Nat.not_lt.1 fun hlt => hbad (.inr ⟨x, hx, hlt⟩)
    by_cases hver : x.fwVersion < s.oper ∨ s.oper + 1 < x.fwVersion
    · refine ⟨_, exec_updateFw_version h hbs hx hsvn hver, fun y hy _ hlo hhi => ?_, fun hb' => absurd hb' hbad,
        fun _ _ _ _ => answerOnly_admitted h 5 _ _⟩
      rw [hsame y hy] at hlo hhi
      omega
    · obtain ⟨hdone, hks, hnext⟩ := updated h x
      refine ⟨_, exec_updateFw_good h hbs hx hsvn (by omega) (by omega), fun y hy _ _ _ => ?_, fun hb' => absurd hb' hbad,
        fun y hy _ hout => absurd (hsame y hy ▸ hout) hver⟩
      rw [hsame y hy]
      refine ⟨hdone, ?_, ?_, hnext, ?_, ?_⟩
      · rw [hks, bank_staged]
      · rw [hks]
        rfl
      · rw [hks]
        exact staged_frame _ _ _
      · rw [hks, bank_staged_other _ hb]

end Sys2Proof.Machine

/-! SET_POLICY, the events of a session and the key sets (R101 to R111, R227, R382, R383). -/
namespace Sys2Proof.Machine

/-! ### Tables -/

section
variable {α : Type}

/-- A find after an update of the entries with key `p`. -/
theorem tfind_update_same (m : List (Nat × α)) (p : Nat) (f : α → α) :
    tfind (m.map fun e => if e.1 = p then (e.1, f e.2) else e) p = (tfind m p).map f := by
  induction m with
  | nil => rfl
  | cons e m ih =>
    obtain ⟨j, x⟩ := e
    by_cases hp : p = j
    · subst hp
      simp [tfind]
    · have hj : j ≠ p := fun hj => hp hj.symm
      simpa [tfind, hp, hj] using ih

theorem tfind_tdel_same (m : List (Nat × α)) (k : Nat) : tfind (tdel m k) k = none := by
  induction m with
  | nil => rfl
  | cons e m ih =>
    obtain ⟨j, x⟩ := e
    by_cases hj : j = k
    · simpa [tdel, hj] using ih
    · have hk : k ≠ j := fun hk => hj hk.symm
      simpa [tdel, tfind, hj, hk] using ih

theorem tfind_tdel_ne (m : List (Nat × α)) {k j : Nat} (h : j ≠ k) : tfind (tdel m k) j = tfind m j := by
  induction m with
  | nil => rfl
  | cons e m ih =>
    obtain ⟨i, x⟩ := e
    by_cases hi : i = k
    · have hji : j ≠ i := hi ▸ h
      simpa [tdel, tfind, hi, h] using ih
    · by_cases hj : j = i
      · simp [tdel, tfind, hi, hj]
      · simpa [tdel, tfind, hi, hj] using ih

end

/-! ### The answer of a verb that waits -/

/-- Where the slot runs no verb with the tag, a response is nothing; where it does, the verb is gone from the slot. -/
theorem respond_verb (p tag status : Nat) (detail : List Byte) (s : State) {v : Nat}
    (h : (tfind s.slots p).bind (·.verb) = some (v, tag)) :
    ∀ sl, tfind (respond p tag status detail s).slots p = some sl → sl.verb = none := by
  intro sl hsl
  obtain ⟨sl0, hfind, hverb⟩ := Option.bind_eq_some_iff.1 h
  rw [respond, if_pos (by simp [h]), sendVerb] at hsl
  rw [send_slots, tfind_modSlot_same, bump_eq, setReg_slots, tfind_modSlot_same, hfind] at hsl
  obtain rfl := Option.some.inj hsl
  rfl

theorem answersWait_respond (w : WaitVerb) (status : Nat) (detail : List Byte) {s s' : State} (h : s'.slots = s.slots) :
    AnswersWait w status detail s (respond w.slot w.tag status detail s') := by
  intro sl v hfind hverb
  have hruns : (tfind s'.slots w.slot).bind (·.verb) = some (v, w.tag) := by rw [h, hfind]; exact hverb
  exact ⟨respond_lastOut hruns status detail, respond_verb _ _ _ _ _ hruns⟩

/-- A response leaves a slot lost, or not lost. -/
theorem respond_closing (p tag status : Nat) (detail : List Byte) (s : State) :
    (tfind (respond p tag status detail s).slots p).map (·.closing) = (tfind s.slots p).map (·.closing) := by
  unfold respond
  split
  · rw [sendVerb, send_slots, tfind_modSlot_same, bump_eq, setReg_slots, tfind_modSlot_same, Option.map_map, Option.map_map]
    rfl
  · rfl

/-! ### SET_POLICY (R382, R383) -/

/-- The session `se` after a policy is bound: the one there was with the policy, or a new one. -/
def boundSession (p se tag : Nat) (pol : Policy) (mask : Block) : Option Session → Session
  | some y => { y with policy := pol }
  | none => { id := se, slot := p, keyTag := tag, policy := pol, mask := mask }

section
variable (p se tag : Nat) (pol : Policy) (mask : Block) (s : State)

theorem bindSession_frame : bindSession p se tag pol mask s =
    { s with sessions := (bindSession p se tag pol mask s).sessions, boundHidden := false } := by
  unfold bindSession
  cases h : tfind s.sessions se <;> simp only [h] <;> rfl

theorem tfind_bindSession_same :
    tfind (bindSession p se tag pol mask s).sessions se = some (boundSession p se tag pol mask (tfind s.sessions se)) := by
  unfold bindSession
  cases h : tfind s.sessions se with
  | none => simp only [h, boundSession, tfind_tput_same]
  | some y =>
    simp only [h, boundSession]
    exact (tfind_update_same s.sessions se fun x => { x with policy := pol }).trans (by rw [h]; rfl)

theorem tfind_bindSession_ne {n : Nat} (hn : n ≠ se) : tfind (bindSession p se tag pol mask s).sessions n = tfind s.sessions n := by
  unfold bindSession
  cases h : tfind s.sessions se with
  | none => simp only [h, tfind_tput_ne _ _ hn]
  | some y =>
    simp only [h]
    exact tfind_update_ne s.sessions (fun x => { x with policy := pol }) hn

end

/-- A policy without key agreement and disclosure block: the fields of SET_POLICY over the old ones. -/
def plainPolicy (o : PolicyOp) (p : Policy) : Policy :=
  { p with
    noiseLimit := if o.hasNoise then o.noiseLimit else p.noiseLimit
    noiseAction := if o.hasNoise then o.noiseAction else p.noiseAction
    hasNoise := o.hasNoise || p.hasNoise
    roleH := o.roleH
    owner := o.owner.getD p.owner }

section
variable {r : VerbReq} {o : PolicyOp} {s : State} {sl : Slot}

theorem newPolicy_plain (hc : o.cRec = none) (hh : o.hRec = none) (hd : o.disclosure = none) (n : Nat) (p : Policy) :
    newPolicy o n p = .ok (plainPolicy o p, []) := by
  simp only [newPolicy, hc, hh, hd, bindPeer]
  rfl

/-- The key that a session masks with: its own, or a drawn one; only the draws differ. -/
theorem maskFor_frame (se : Nat) (s : State) : (maskFor se s).2 = { s with free := (maskFor se s).2.free } := by
  unfold maskFor
  cases tfind s.sessions se <;> rfl

theorem setPolicy_plain (p tag : Nat) (hclose : o.close = false) (hc : o.cRec = none) (hh : o.hRec = none) (hd : o.disclosure = none)
    (hrng : (tfind s.sessions o.session).isSome = true ∨ s.ks.rngOk = true) (hbuddy : s.hasBuddy = false) :
    let m := maskFor o.session { s with free := s.free + 2 }
    setPolicy p tag o s = respond p tag 0 [] (bindSession p o.session o.keysetTag
      (plainPolicy o (((tfind s.sessions o.session).map (·.policy)).getD {})) m.1 m.2) := by
  have hdraws : ((o.cRec.isSome || o.hRec.isSome || (tfind s.sessions o.session).isNone) && !s.ks.rngOk) = false := by
    rcases hrng with hold | hrng
    · simp [hc, hh, Option.isNone_eq_false_iff.2 hold]
    · simp [hrng]
  have hbuddy' : ¬ ({ s with free := s.free + 2 } : State).hasBuddy = true := fun hb => Bool.false_ne_true (hbuddy.symm.trans hb)
  intro m
  rw [setPolicy, if_neg (by simp [hclose]), if_neg (by simp [hdraws]), newPolicy_plain hc hh hd]
  simp only [hc, hh, Option.isSome_none, Bool.false_eq_true, if_false]
  exact if_neg hbuddy'

theorem setPolicy_close (p tag : Nat) (hclose : o.close = true) {y : Session} (hold : tfind s.sessions o.session = some y) :
    setPolicy p tag o s =
      closeSession o.session tag { s with waits := s.waits ++ [{ slot := p, tag := tag, verb := 6, key := o.session }] } := by
  rw [setPolicy, if_pos hclose, hold]

theorem exec_setPolicy_admitted (h : Admitted r false s sl) : exec (.setPolicy r o) s = .next
    (if policyRefused r.slot o (admitted r 6 sl s) then respond r.slot r.tag 0x0408 [] (admitted r 6 sl s)
      else setPolicy r.slot r.tag o (admitted r 6 sl s)) := by
  change execSetPolicy r o s = _
  rw [execSetPolicy, onVerb_admitted (h := h)]

/-- A session that closes accepts no more; its end waits for its accepted requests. -/
theorem closeSession_eq (se tag : Nat) (s : State) : closeSession se tag s =
    { s.modSession se fun x => { x with closing := some tag } with
      pending := s.pending ++ (if s.hasLive se then [] else [.sessionCloseDone se]) } := by
  have hlive : (s.modSession se fun x => { x with closing := some tag }).hasLive se = s.hasLive se := rfl
  unfold closeSession
  dsimp only
  rw [hlive]
  cases s.hasLive se
  · rfl
  · simp only [if_true, List.append_nil]
    rfl

end

section
variable {r : VerbReq} {o : PolicyOp} {s : State} {sl : Slot} (h : Admitted r false s sl) (hok : policyRefused r.slot o s = false)
include h hok

theorem setPolicy_binds (hclose : o.close = false) (hc : o.cRec = none) (hh : o.hRec = none) (hd : o.disclosure = none)
    (hrng : (tfind s.sessions o.session).isSome = true ∨ s.ks.rngOk = true) (hbuddy : s.hasBuddy = false) :
    ∃ (t : State) (mask : Block), exec (.setPolicy r o) s = .next t ∧
      VerbDone r 0 [] [] sl s { s with sessions := t.sessions, free := t.free, boundHidden := false } t ∧
      tfind t.sessions o.session = some (boundSession r.slot o.session o.keysetTag
        (plainPolicy o (((tfind s.sessions o.session).map (·.policy)).getD {})) mask (tfind s.sessions o.session)) ∧
      ∀ n, n ≠ o.session → tfind t.sessions n = tfind s.sessions n := by
  have hbuddy' : (admitted r 6 sl s).hasBuddy = false := by
    rw [State.hasBuddy, dreg_admitted _ _ _ _ (by simp [Fld.key, prtBuddyNone, prtRxPackets]; omega)]
    exact hbuddy
  have hrefused : ¬ policyRefused r.slot o (admitted r 6 sl s) = true := fun hr => Bool.false_ne_true (hok.symm.trans hr)
  have hexec := exec_setPolicy_admitted (o := o) h
  rw [if_neg hrefused, setPolicy_plain (s := admitted r 6 sl s) r.slot r.tag hclose hc hh hd hrng hbuddy'] at hexec
  let pol := plainPolicy o (((tfind s.sessions o.session).map (·.policy)).getD {})
  have hframe := maskFor_frame o.session { admitted r 6 sl s with free := (admitted r 6 sl s).free + 2 }
  generalize maskFor o.session { admitted r 6 sl s with free := (admitted r 6 sl s).free + 2 } = m at hexec hframe
  have hsessions : m.2.sessions = s.sessions := by rw [hframe]; rfl
  have hbound := bindSession_frame r.slot o.session o.keysetTag pol m.1 m.2
  have hruns : VerbRuns r 6 [] sl s { s with
      sessions := (bindSession r.slot o.session o.keysetTag pol m.1 m.2).sessions, free := m.2.free, boundHidden := false } (bindSession r.slot o.session o.keysetTag pol m.1 m.2) :=
    (verbRuns_admitted h 6).update (hbound.trans (by rw [hframe]; rfl))
  refine ⟨_, m.1, hexec, ?_, ?_, fun n hn => ?_⟩
  · have hfree : m.2.free = (respond r.slot r.tag 0 [] (bindSession r.slot o.session o.keysetTag pol m.1 m.2)).free := by
      rw [respond_frame, hbound]
    have hbinds : (bindSession r.slot o.session o.keysetTag pol m.1 m.2).sessions =
        (respond r.slot r.tag 0 [] (bindSession r.slot o.session o.keysetTag pol m.1 m.2)).sessions := by rw [respond_frame]
    have hdone := hruns.done 0 []
    rw [hfree, hbinds] at hdone
    exact hdone
  · rw [respond_frame, tfind_bindSession_same, hsessions]
    rfl
  · rw [respond_frame, tfind_bindSession_ne _ _ _ _ _ _ hn, hsessions]

theorem setPolicy_closes (hclose : o.close = true) {y : Session} (hold : tfind s.sessions o.session = some y) :
    ∃ t, exec (.setPolicy r o) s = .next t ∧
      VerbWaits r 6 sl s { s with sessions := t.sessions, waits := t.waits, pending := t.pending } t ∧
      tfind t.sessions o.session = some { y with closing := some r.tag } ∧
      t.waits = s.waits ++ [{ slot := r.slot, tag := r.tag, verb := 6, key := o.session }] ∧
      t.pending = s.pending ++ (if s.hasLive o.session then [] else [.sessionCloseDone o.session]) := by
  have hrefused : ¬ policyRefused r.slot o (admitted r 6 sl s) = true := fun hr => Bool.false_ne_true (hok.symm.trans hr)
  have hexec := exec_setPolicy_admitted (o := o) h
  rw [if_neg hrefused, setPolicy_close (s := admitted r 6 sl s) r.slot r.tag hclose hold, closeSession_eq] at hexec
  refine ⟨_, hexec, ((verbRuns_admitted h 6).update rfl).waits rfl, ?_, rfl, rfl⟩
  exact (tfind_update_same s.sessions o.session fun x => { x with closing := some r.tag }).trans (by rw [hold]; rfl)

end

/-- Settles O32: a policy without key agreement takes the fields that SET_POLICY names over the old ones. -/
theorem sessionPolicy : Obligations.SessionPolicy := by
  intro r o s sl h
  refine ⟨fun hr => ?_, fun hok hclose hc hh hd hrng hbuddy => ?_, fun y hok hclose hold => setPolicy_closes h hok hclose hold⟩
  · have hr' : policyRefused r.slot o (admitted r 6 sl s) = true := hr
    refine ⟨_, (exec_setPolicy_admitted h).trans ?_, answerOnly_admitted h 6 0x0408 []⟩
    rw [if_pos hr']
  · obtain ⟨t, mask, hexec, hdone, hfind, hothers⟩ := setPolicy_binds h hok hclose hc hh hd hrng hbuddy
    refine ⟨t, _, hexec, hdone, hfind, ?_⟩
    simp only [policyRefused, Bool.or_eq_false_iff] at hok
    obtain ⟨-, hown⟩ := hok
    cases hold : tfind s.sessions o.session with
    | none => exact ⟨rfl, rfl, hothers, rfl, nofun, fun _ => ⟨rfl, rfl, rfl, rfl⟩⟩
    | some y =>
      rw [hold] at hown
      simp only [Bool.or_eq_false_iff, bne_eq_false_iff_eq] at hown
      exact ⟨hown.1, hown.2, hothers, rfl, fun z hz => Option.some.inj hz ▸ rfl, nofun⟩

/-! ### Internal objects and sessions that go (R105, R347) -/

/-- Only the internal objects, their bytes and the next identifier differ. -/
def StoreOnly (s t : State) : Prop := t = { s with mem := t.mem, objs := t.objs, nextId := t.nextId }

theorem StoreOnly.trans {s t u : State} (h : StoreOnly s t) (h' : StoreOnly t u) : StoreOnly s u := by
  rw [StoreOnly, h', h]

theorem StoreOnly.slots {s t : State} (h : StoreOnly s t) : t.slots = s.slots := by rw [h]

/-- A reflexive, transitive relation that holds over each step of a fold holds over the fold. -/
theorem foldl_rel {α : Type} {R : State → State → Prop} (hrefl : ∀ s, R s s) (htrans : ∀ {s t u}, R s t → R t u → R s u)
    {f : State → α → State} (hf : ∀ s a, R s (f s a)) (l : List α) (s : State) : R s (l.foldl f s) := by
  induction l generalizing s with
  | nil => exact hrefl s
  | cons a l ih => exact htrans (hf s a) (ih (f s a))

theorem storeOnly_foldl {α : Type} (f : State → α → State) (hf : ∀ s a, StoreOnly s (f s a)) (l : List α) (s : State) :
    StoreOnly s (l.foldl f s) :=
  foldl_rel (R := StoreOnly) (fun _ => rfl) StoreOnly.trans hf l s

theorem storeOnly_zeroObj (o : GObj) (s : State) : StoreOnly s (zeroObj o s) :=
  storeOnly_foldl (fun s k => s.zeroMem (gddrBase k + o.base) (gddrBase k + o.base + 65536 * o.mib)) (fun _ _ => rfl) _ s

/-- Objects released. -/
theorem storeOnly_freeObjs (ids : List Nat) (s : State) : StoreOnly s (freeObjs ids s) := by
  have hzero : StoreOnly s ((s.objs.filter fun o => ids.contains o.id).foldl (fun s o => zeroObj o s) s) :=
    storeOnly_foldl (fun s o => zeroObj o s) (fun s o => storeOnly_zeroObj o s) _ s
  unfold freeObjs
  exact hzero.trans rfl

/-- The state in which the session `n` is gone. -/
theorem eraseSession_frame (n : Nat) (s : State) : eraseSession n s =
    { s with
      mem := (eraseSession n s).mem, objs := (eraseSession n s).objs, nextId := (eraseSession n s).nextId
      sessions := tdel s.sessions n
      requests := s.requests.filter fun r => r.session != n
      streams := s.streams.filter fun x => x.session != n
      tx := s.tx.filter fun f => f.session != n
      rx := s.rx.filter fun f => f.session != n
      rxDone := (eraseSession n s).rxDone, rxTimers := (eraseSession n s).rxTimers, sent := (eraseSession n s).sent } := by
  unfold eraseSession
  dsimp only
  rw [storeOnly_freeObjs]

/-- The state after the session `n` is gone and the verb that waits for it is answered. -/
def sessionGone (n : Nat) (s : State) : State :=
  match s.waits.find? (fun w => w.verb = 6 ∧ w.key = n) with
  | some w => respond w.slot w.tag 0 [] { eraseSession n s with waits := s.waits.erase w }
  | none => eraseSession n s

/-- A slot whose attachment is lost goes with its last session. -/
theorem exec_sessionCloseDone {n : Nat} {s : State} {x : Session} (hfind : tfind s.sessions n = some x)
    (hclosing : x.closing.isSome = true) (hlive : s.hasLive n = false) :
    ∃ t, exec (.sessionCloseDone n) s = .next t ∧ (t = sessionGone n s ∨ t = freeSlot x.slot (sessionGone n s)) ∧
      (((tfind (sessionGone n s).slots x.slot).map (·.closing)).getD false = false → t = sessionGone n s) := by
  have hwaits : (eraseSession n s).waits = s.waits := by rw [eraseSession_frame]
  refine ⟨_, ?_, (ite_eq_then_or_else ((((tfind (sessionGone n s).slots x.slot).map (·.closing)).getD false &&
    (sessionGone n s).sessions.all (fun e => e.2.slot != x.slot)) = true) _ _).symm, fun hopen => if_neg (by simp [hopen])⟩
  change execSessionCloseDone n s = _
  rw [execSessionCloseDone, hfind]
  dsimp only
  rw [if_neg (by simp [hlive, Option.isSome_iff_ne_none.1 hclosing]), hwaits]
  rfl

section
variable (n : Nat) (s : State)

/-- Of what a session's end changes, a verb's answer adds registers, slots, messages and waits. -/
theorem sessionGone_frame : sessionGone n s = { eraseSession n s with
    regs := (sessionGone n s).regs, slots := (sessionGone n s).slots, out := (sessionGone n s).out
    waits := (sessionGone n s).waits } := by
  unfold sessionGone
  split
  · rw [respond_frame]
  · rfl

/-- The tables of a state after the session's end, whether or not the slot is freed. -/
theorem sessionGone_tables {t : State} {x : Session} (ht : t = sessionGone n s ∨ t = freeSlot x.slot (sessionGone n s)) :
    t.sessions = tdel s.sessions n ∧ t.requests = s.requests.filter (fun q => q.session != n) ∧
      t.streams = s.streams.filter (fun q => q.session != n) ∧ t.tx = s.tx.filter (fun q => q.session != n) ∧
      t.rx = s.rx.filter (fun q => q.session != n) ∧ t.images = s.images ∧ t.keysets = s.keysets := by
  obtain rfl | rfl := ht
  all_goals
    try unfold freeSlot
    rw [sessionGone_frame, eraseSession_frame]
    exact ⟨rfl, rfl, rfl, rfl, rfl, rfl, rfl⟩

end

/-- Where the slot of the wait is not lost, the end of the session answers it. -/
theorem sessionGone_answers {n : Nat} {s : State} {w : WaitVerb} (hw : s.waits.find? (fun w => w.verb = 6 ∧ w.key = n) = some w)
    {sl : Slot} (hfind : tfind s.slots w.slot = some sl) (hopen : sl.closing = false) :
    AnswersWait w 0 [] s (sessionGone n s) ∧ ((tfind (sessionGone n s).slots w.slot).map (·.closing)).getD false = false := by
  have hgone : sessionGone n s = respond w.slot w.tag 0 [] { eraseSession n s with waits := s.waits.erase w } := by
    rw [sessionGone, hw]
  have hslots : ({ eraseSession n s with waits := s.waits.erase w } : State).slots = s.slots := by rw [eraseSession_frame]
  rw [hgone, respond_closing, hslots, hfind]
  exact ⟨answersWait_respond w 0 [] hslots, hopen⟩

theorem exec_mirroredSessionStateAck {n : Nat} {s : State} (h : s.takesPeer 0) {w : WaitVerb} {pol : Policy} {tag : Nat}
    {detail : List Byte} {mask : Block} (hw : s.waits.find? (fun w => w.verb = 6 ∧ w.key = n ∧ w.bind.isSome) = some w)
    (hbind : w.bind = some (pol, tag, detail, mask)) : exec (.mirroredSessionStateAck n) s =
      .next (respond w.slot w.tag 0 detail (bindSession w.slot n tag pol mask { s with waits := s.waits.erase w })) := by
  change execMirroredSessionStateAck n s = _
  rw [execMirroredSessionStateAck, onPeer_takes (h := h), hw]
  dsimp only
  rw [hbind]

/-- Settles O33: the session's end and the buddy's acknowledgement each answer the verb that waits. -/
theorem sessionEvents : Obligations.SessionEvents := by
  refine ⟨fun n s x hfind hclosing hlive => ?_, fun n s w pol tag detail mask h hw hbind => ?_⟩
  · obtain ⟨t, hexec, ht, hopen⟩ := exec_sessionCloseDone hfind hclosing hlive
    obtain ⟨hsessions, hrequests, hstreams, htx, hrx, himages, hkeysets⟩ := sessionGone_tables n s ht
    refine ⟨t, hexec, fun m hm => ?_, ?_, hrequests, hstreams, htx, hrx, himages, hkeysets, fun sl w hsl hclosed hw hslot => ?_⟩
    · rw [hsessions, tfind_tdel_ne _ hm]
    · rw [hsessions, tfind_tdel_same]
    · obtain ⟨hanswers, hkept⟩ := sessionGone_answers hw (hslot ▸ hsl) hclosed
      rw [hopen (hslot ▸ hkept)]
      exact hanswers
  · have hbound := bindSession_frame w.slot n tag pol mask { s with waits := s.waits.erase w }
    refine ⟨_, boundSession w.slot n tag pol mask (tfind s.sessions n), exec_mirroredSessionStateAck h hw hbind, ?_, ?_, fun hnone => ?_,
      fun m hm => ?_, ?_, ?_, ?_⟩
    · rw [respond_frame]
      exact tfind_bindSession_same w.slot n tag pol mask _
    · cases tfind s.sessions n <;> rfl
    · rw [hnone]
      exact ⟨rfl, rfl, rfl⟩
    · rw [respond_frame]
      exact tfind_bindSession_ne w.slot n tag pol mask _ hm
    · rw [respond_frame, hbound]
    · exact answersWait_respond w 0 detail (by rw [hbound])
    · rw [respond_frame, hbound]

/-! ### ERASE_KEYSET and its end (R105, R111) -/

section
variable {r : VerbReq} {tag mode : Nat} {s : State} {sl : Slot}

theorem exec_eraseKeyset_absent (h : Admitted r true s sl) (habsent : ∀ k ∈ s.keysets, k.tag ≠ tag) :
    exec (.eraseKeyset r tag mode) s = .next (respond r.slot r.tag 0 [] (admitted r 3 sl s)) := by
  have hnone : ¬ ((admitted r 3 sl s).keysets.any fun k => k.tag == tag) = true := by
    rw [List.any_eq_true]
    rintro ⟨k, hk, htag⟩
    exact habsent k hk (beq_iff_eq.1 htag)
  change execEraseKeyset r tag mode s = _
  rw [execEraseKeyset, onVerb_admitted (h := h), if_neg hnone]

/-- The set `tag` that is erased in mode `mode`: its end follows when it is quiet. -/
theorem startErase_eq (tag mode : Nat) (s : State) : startErase tag mode s =
    { s with
      keysets := s.keysets.map (fun k => if k.tag = tag then { k with erasing := some mode } else k)
      pending := s.pending ++ (if s.setQuiet tag then [.eraseKeysetDone tag] else []) } := by
  have hquiet : ({ s with keysets := s.keysets.map (fun k => if k.tag = tag then { k with erasing := some mode } else k) } : State).setQuiet
      tag = s.setQuiet tag := rfl
  unfold startErase
  dsimp only
  rw [hquiet]
  cases s.setQuiet tag
  · simp only [Bool.false_eq_true, if_false, List.append_nil]
  · rfl

theorem exec_eraseKeyset_present (h : Admitted r true s sl) (hpresent : ∃ k ∈ s.keysets, k.tag = tag) :
    exec (.eraseKeyset r tag mode) s = .next (startErase tag mode { admitted r 3 sl s with
      waits := s.waits ++ [{ slot := r.slot, tag := r.tag, verb := 3, key := tag }] }) := by
  obtain ⟨k, hk, htag⟩ := hpresent
  have hsome : ((admitted r 3 sl s).keysets.any fun k => k.tag == tag) = true := List.any_eq_true.2 ⟨k, hk, beq_iff_eq.2 htag⟩
  change execEraseKeyset r tag mode s = _
  rw [execEraseKeyset, onVerb_admitted (h := h), if_pos hsome]
  rfl

end

/-- The state after the set `tag` is zeroed. -/
theorem zeroKeyset_frame (tag : Nat) (s : State) : zeroKeyset tag s =
    { s with
      mem := (zeroKeyset tag s).mem, objs := (zeroKeyset tag s).objs, nextId := (zeroKeyset tag s).nextId
      keysets := s.keysets.filter fun k => k.tag != tag
      sessions := s.sessions.map fun e => if e.2.keyTag = tag then (e.1, { e.2 with classes := [] }) else e
      images := s.images.map fun e => (e.1, { e.2 with pins := [] })
      repairs := (zeroKeyset tag s).repairs } := by
  unfold zeroKeyset
  dsimp only
  rw [storeOnly_freeObjs]

/-- The state after the set `tag` is zeroed and the verb that waits for it answered. -/
def keysetGone (tag : Nat) (s : State) : State :=
  match s.waits.find? (fun w => w.verb = 3 ∧ w.key = tag) with
  | some w => respond w.slot w.tag 0 [] { zeroKeyset tag s with waits := s.waits.erase w }
  | none => zeroKeyset tag s

theorem exec_eraseKeysetDone {tag : Nat} {s : State} (herasing : ∃ k ∈ s.keysets, k.tag = tag ∧ k.erasing.isSome = true)
    (hquiet : s.setQuiet tag = true) : exec (.eraseKeysetDone tag) s = .next (keysetGone tag s) := by
  have hwaits : (zeroKeyset tag s).waits = s.waits := by rw [zeroKeyset_frame]
  obtain ⟨k, hk, htag, hmode⟩ := herasing
  have hsome : (s.keysets.any fun k => k.tag == tag && k.erasing.isSome) = true :=
    List.any_eq_true.2 ⟨k, hk, by simp [htag, hmode]⟩
  change execEraseKeysetDone tag s = _
  rw [execEraseKeysetDone, if_neg (by simp [hsome, hquiet])]
  dsimp only
  rw [hwaits, keysetGone]
  cases s.waits.find? (fun w => w.verb = 3 ∧ w.key = tag) <;> rfl

theorem keysetGone_frame (tag : Nat) (s : State) : keysetGone tag s =
    { zeroKeyset tag s with
      regs := (keysetGone tag s).regs, slots := (keysetGone tag s).slots, out := (keysetGone tag s).out
      waits := (keysetGone tag s).waits } := by
  unfold keysetGone
  split
  · rw [respond_frame]
  · rfl

theorem keysetGone_answers {tag : Nat} {s : State} {w : WaitVerb} (hw : s.waits.find? (fun w => w.verb = 3 ∧ w.key = tag) = some w) :
    AnswersWait w 0 [] s (keysetGone tag s) := by
  have hgone : keysetGone tag s = respond w.slot w.tag 0 [] { zeroKeyset tag s with waits := s.waits.erase w } := by
    rw [keysetGone, hw]
  rw [hgone]
  exact answersWait_respond w 0 [] (by rw [zeroKeyset_frame])

/-! ### INSTALL_KEYSET (R101, R102) -/

theorem storeOnly_wr (s : State) (a : Nat) (bs : List Byte) : StoreOnly s (s.wr a bs) := rfl

theorem storeOnly_push (s : State) (o : GObj) : StoreOnly s { s.fresh.2 with objs := s.fresh.2.objs ++ [o] } := rfl

/-- Bytes written one by one from an object's base on. -/
theorem storeOnly_writeBytes (b : Nat) (l : List (Byte × Nat)) (s : State) :
    StoreOnly s (l.foldl (fun s e => s.wr (objAddr b e.2) [e.1]) s) := by
  induction l generalizing s with
  | nil => rfl
  | cons e l ih => exact (storeOnly_wr s _ _).trans (ih _)

theorem storeOnly_allocObj (bs : List Byte) (s : State) : ∀ e ∈ allocObj bs s, StoreOnly s e.2 := by
  have h : allocObj = allocObj := rfl
  conv at h => rhs; delta allocObj
  rw [h]
  dsimp -zeta only
  cases s.objPlace bs.length with
  | none => simp
  | some b =>
    exact fun e he => Option.some.inj he ▸ ((storeOnly_push s _).trans (storeOnly_writeBytes _ _ _))

theorem storeOnly_allocSpace (n : Nat) (s : State) : ∀ e ∈ allocSpace n s, StoreOnly s e.2 := by
  have h : allocSpace = allocSpace := rfl
  conv at h => rhs; delta allocSpace
  rw [h]
  dsimp -zeta only
  cases s.objPlace n with
  | none => simp
  | some b =>
    exact fun e he => Option.some.inj he ▸ ((storeOnly_push s _).trans (storeOnly_zeroObj _ _))

/-- The step of STORE_KEYS: one kept object more. -/
def storeKey (acc : Option (List KeyObj × State)) (o : (Nat × Nat × Nat) × List Byte) : Option (List KeyObj × State) :=
  acc.bind fun a => (allocObj o.2 a.2).map fun r =>
    (a.1 ++ [({ kind := o.1.1, galois := o.1.2.1, boot := o.1.2.2, obj := r.1 } : KeyObj)], r.2)

/-- The key objects stored are those of the bundle, in its order. -/
theorem storeKey_foldl (l : List ((Nat × Nat × Nat) × List Byte)) {acc : Option (List KeyObj × State)} {a : List KeyObj × State}
    (h : l.foldl storeKey acc = some a) : ∃ a0, acc = some a0 ∧ StoreOnly a0.2 a.2 ∧
      a.1.map (fun o => (o.kind, o.galois, o.boot)) = a0.1.map (fun o => (o.kind, o.galois, o.boot)) ++ l.map (·.1) := by
  induction l generalizing acc with
  | nil => exact ⟨a, h, rfl, (List.append_nil _).symm⟩
  | cons o l ih =>
    obtain ⟨a1, hacc, hstore, hnames⟩ := ih h
    obtain ⟨a0, hacc0, hone⟩ := Option.bind_eq_some_iff.1 hacc
    obtain ⟨e, halloc, rfl⟩ := Option.map_eq_some_iff.1 hone
    refine ⟨a0, hacc0, (storeOnly_allocObj _ _ _ halloc).trans hstore, ?_⟩
    rw [hnames, List.map_append, List.append_assoc]
    rfl

theorem storeKeys_eq (x : NewSet) (s : State) : storeKeys x s = (x.kept.foldl storeKey (some ([], s))).bind fun a =>
    (allocSpace 655360 a.2).map fun r => (a.1, r.1, r.2) := rfl

/-- What STORE_KEYS stores, and what else differs. -/
theorem storeKeys_spec {x : NewSet} {s s1 : State} {objs : List KeyObj} {const : Nat} (h : storeKeys x s = some (objs, const, s1)) :
    StoreOnly s s1 ∧ objs.map (fun o => (o.kind, o.galois, o.boot)) = x.kept.map (·.1) := by
  rw [storeKeys_eq] at h
  obtain ⟨a, hkeys, hspace⟩ := Option.bind_eq_some_iff.1 h
  obtain ⟨e, halloc, heq⟩ := Option.map_eq_some_iff.1 hspace
  obtain ⟨rfl, hrest⟩ := Prod.mk.inj heq
  obtain ⟨rfl, rfl⟩ := Prod.mk.inj hrest
  obtain ⟨a0, hstart, hstore, hnames⟩ := storeKey_foldl _ hkeys
  obtain rfl := Option.some.inj hstart
  exact ⟨hstore.trans (storeOnly_allocSpace _ _ _ halloc), hnames⟩

section
variable {x : NewSet} {s s1 : State} {objs : List KeyObj} {const : Nat} (hroom : s.keysets.length < 64)
  (hstore : storeKeys x s = some (objs, const, s1)) (hcrc : ∀ o ∈ x.kept, getLe o.2 0x28 4 = crc32 (o.2.drop 64))
include hroom hstore hcrc

theorem keepKeyset_kept (p tag : Nat) (images : List Nat) : keepKeyset p tag x images true s =
    respond p tag 0 (leBytes 8 x.tag) { s1 with
      keysets := s1.keysets ++ [{ tag := x.tag, ring := x.ring, params := x.params, objs := objs, constObj := const, images := images }] } := by
  have hall : (x.kept.all fun o => getLe o.2 0x28 4 == crc32 (o.2.drop 64)) = true :=
    List.all_eq_true.2 fun o ho => beq_iff_eq.2 (hcrc o ho)
  rw [keepKeyset, if_neg (Nat.not_le.2 hroom), hstore]
  dsimp only
  rw [if_neg (by simp [hall]), if_neg (by simp)]

theorem keepKeyset_unread (p tag : Nat) (images : List Nat) : keepKeyset p tag x images false s =
    respond p tag 0x0603 [] (freeObjs (const :: objs.map (·.obj)) s1) := by
  have hall : (x.kept.all fun o => getLe o.2 0x28 4 == crc32 (o.2.drop 64)) = true :=
    List.all_eq_true.2 fun o ho => beq_iff_eq.2 (hcrc o ho)
  rw [keepKeyset, if_neg (Nat.not_le.2 hroom), hstore]
  dsimp only
  rw [if_neg (by simp [hall]), if_pos (by simp)]

end

/-- INSTALL_KEYSET after its checks. -/
def installChecked (r : VerbReq) (images : List Nat) (good : Bool) (c : Except Nat NewSet) (s : State) : State :=
  match c with
  | .error c => respond r.slot r.tag c [] s
  | .ok x => keepKeyset r.slot r.tag x images good s

section
variable {r : VerbReq} {src : WinRange} {images : List Nat} {good : Bool} {s : State} {sl : Slot} {bs : List Byte}
  (h : Admitted r true s sl) (hgddr : s.gddrOk = true) (hpos : 1 ≤ images.length) (hmax : images.length ≤ 8)
  (hims : ∀ h ∈ images, (tfind s.images h).isSome = true) (hbs : readRange (admitted r 2 sl s) r.slot src = some bs)
include h hgddr hpos hmax hims hbs

theorem exec_installKeyset_checked : exec (.installKeyset r src images good) s = .next (installChecked r images good
    (checkKeyset (admitted r 2 sl s) bs (images.filterMap fun h => tfind s.images h)) (admitted r 2 sl s)) := by
  have hnone : (images.any fun h => (tfind s.images h).isNone) = false :=
    List.any_eq_false.2 fun i hi => by simp [Option.isSome_iff_ne_none.1 (hims i hi)]
  have hgddr' : (admitted r 2 sl s).gddrOk = true := hgddr
  have hne : images ≠ [] := List.ne_nil_of_length_pos hpos
  have himages : (admitted r 2 sl s).images = s.images := rfl
  change execInstallKeyset r src images good s = _
  rw [execInstallKeyset, onVerb_admitted (h := h), if_neg (by simp [hgddr']), himages, if_neg (by simp [hne, hmax, hnone]), hbs]
  cases h : checkKeyset (admitted r 2 sl s) bs (images.filterMap fun h => tfind s.images h) <;> simp only [h, installChecked]

end

section
variable {r : VerbReq} {wide : Bool} {s u : State} {sl : Slot} (h : Admitted r wide s sl)
include h

/-- A verb that has changed only stored objects, and ends. -/
theorem storeOnly_done {v : Nat} (hu : StoreOnly (admitted r v sl s) u) (status : Nat) (detail : List Byte) :
    let t := respond r.slot r.tag status detail u
    VerbDone r status detail [] sl s { s with mem := t.mem, objs := t.objs, nextId := t.nextId } t := by
  have hdone := ((verbRuns_admitted h v).update (u' := { s with mem := u.mem, objs := u.objs, nextId := u.nextId }) (t' := u)
    (by rw [hu]; rfl)).done status detail
  intro t
  have hframe : t = { u with regs := t.regs, slots := t.slots, out := t.out } := respond_frame _ _ _ _ _
  have hmem : t.mem = u.mem := by rw [hframe]
  have hobjs : t.objs = u.objs := by rw [hframe]
  have hnext : t.nextId = u.nextId := by rw [hframe]
  rw [hmem, hobjs, hnext]
  exact hdone

/-- A verb that has changed only stored objects and adds a key set, and ends. -/
theorem storeOnly_keyset_done {v : Nat} (hu : StoreOnly (admitted r v sl s) u) (k : KeySet) (detail : List Byte) :
    let t := respond r.slot r.tag 0 detail { u with keysets := u.keysets ++ [k] }
    t.keysets = s.keysets ++ [k] ∧
      VerbDone r 0 detail [] sl s { s with keysets := t.keysets, mem := t.mem, objs := t.objs, nextId := t.nextId } t := by
  have hsets : u.keysets = s.keysets := by rw [hu]; rfl
  have hdone := ((verbRuns_admitted h v).update
    (u' := { s with keysets := u.keysets ++ [k], mem := u.mem, objs := u.objs, nextId := u.nextId })
    (t' := { u with keysets := u.keysets ++ [k] }) (by rw [hu]; rfl)).done 0 detail
  intro t
  have hframe : t = { { u with keysets := u.keysets ++ [k] } with regs := t.regs, slots := t.slots, out := t.out } := respond_frame _ _ _ _ _
  have hmem : t.mem = u.mem := by rw [hframe]
  have hobjs : t.objs = u.objs := by rw [hframe]
  have hnext : t.nextId = u.nextId := by rw [hframe]
  have hkeysets : t.keysets = u.keysets ++ [k] := by rw [hframe]
  rw [hmem, hobjs, hnext, hkeysets]
  exact ⟨by rw [hsets], hdone⟩

end

/-- Settles O34: the sets installed, erased and gone; a refused bundle leaves the sets as they were. -/
theorem keySets : Obligations.KeySets := by
  refine ⟨fun r tag mode s sl h => ⟨fun habsent => ?_, fun hpresent => ?_⟩, fun tag s herasing hquiet => ?_,
    ?_⟩
  · exact ⟨_, exec_eraseKeyset_absent h habsent, answerOnly_admitted h 3 0 []⟩
  · refine ⟨_, (exec_eraseKeyset_present h hpresent).trans (congrArg _ (startErase_eq tag mode _)), ?_, rfl, rfl, rfl⟩
    exact ((verbRuns_admitted h 3).update rfl).waits rfl
  · refine ⟨_, exec_eraseKeysetDone herasing hquiet, ?_, fun e he htag => ?_, fun e he => ?_, ?_, ?_, ?_, ?_,
      fun w hw => keysetGone_answers hw⟩
    all_goals rw [keysetGone_frame, zeroKeyset_frame] at *
    · obtain ⟨e0, -, rfl⟩ := List.mem_map.1 he
      by_cases h0 : e0.2.keyTag = tag
      · rw [if_pos h0]
      · rw [if_neg h0] at htag
        exact absurd htag h0
    · obtain ⟨e0, -, rfl⟩ := List.mem_map.1 he
      rfl
  · intro r src images good s sl bs h hgddr hpos hmax hims s1 hbs
    refine ⟨_, exec_installKeyset_checked h hgddr hpos hmax hims hbs, fun c hc => ?_, fun x hx hgood hroom hsome hcrc => ?_,
      fun x hx hgood hroom hsome hcrc => ?_⟩
    · rw [hc]
      exact answerOnly_admitted h 2 c []
    all_goals
      obtain ⟨⟨objs, const, u⟩, hstore⟩ := Option.isSome_iff_exists.1 hsome
      obtain ⟨honly, hnames⟩ := storeKeys_spec hstore
      rw [hx, hgood, installChecked]
    · rw [keepKeyset_kept (s := s1) hroom hstore hcrc]
      obtain ⟨hkeysets, hdone⟩ := storeOnly_keyset_done h honly
        { tag := x.tag, ring := x.ring, params := x.params, objs := objs, constObj := const, images := images } (leBytes 8 x.tag)
      exact ⟨_, hkeysets, rfl, rfl, rfl, rfl, hnames, hdone⟩
    · rw [keepKeyset_unread (s := s1) hroom hstore hcrc]
      exact storeOnly_done h (honly.trans (storeOnly_freeObjs _ _)) 0x0603 []

end Sys2Proof.Machine

/-! Counters, the boundary of the LLM's cache, and standby (R335, R355, R447, R457). -/
namespace Sys2Proof.Machine

/-! ### Registers cleared -/

theorem tget_filter_dropped {α : Type} (d : α) (m : List (Nat × α)) {p : Nat × α → Bool} {k : Nat} (h : ∀ v, p (k, v) = false) :
    tget d (m.filter p) k = d := by
  induction m with
  | nil => rfl
  | cons e m ih =>
    obtain ⟨j, v⟩ := e
    by_cases hj : k = j
    · subst hj
      rw [List.filter_cons_of_neg (by simp [h v]), ih]
    · by_cases hp : p (j, v) = true
      · rw [List.filter_cons_of_pos hp, tget, if_neg hj, ih]
      · rw [List.filter_cons_of_neg hp, ih]

theorem tget_filter_kept {α : Type} (d : α) (m : List (Nat × α)) {p : Nat × α → Bool} {k : Nat} (h : ∀ v, p (k, v) = true) :
    tget d (m.filter p) k = tget d m k := by
  induction m with
  | nil => rfl
  | cons e m ih =>
    obtain ⟨j, v⟩ := e
    by_cases hj : k = j
    · subst hj
      rw [List.filter_cons_of_pos (h v), tget, tget, if_pos rfl, if_pos rfl]
    · by_cases hp : p (j, v) = true
      · rw [List.filter_cons_of_pos hp, tget, tget, if_neg hj, if_neg hj, ih]
      · rw [List.filter_cons_of_neg hp, tget, if_neg hj, ih]

/-- A field outside the pier blocks owns the keys of its words. -/
theorem owns_key {f : Fld} (hpier : f.pier = false) (hlo : f.lo < 32) {i : Nat} (hi : i < f.count) : f.owns (f.key 0 i) = true := by
  have hmod : f.key 0 i % 32 = f.lo := by
    simp only [Fld.key]
    omega
  have hdiv : f.key 0 i / 32 = f.base + f.off + f.stride * i := by
    simp only [Fld.key, hpier]
    simp only [Bool.false_eq_true, if_false]
    omega
  have hoff : f.base + f.off + f.stride * i - (f.base + f.off) = f.stride * i := by omega
  by_cases hstride : f.stride = 0
  · simp [Fld.owns, hmod, hdiv, hpier, hstride]
  · simp [Fld.owns, hmod, hdiv, hpier, hstride, hoff, Nat.mul_div_cancel_left i (Nat.pos_of_ne_zero hstride), hi]

theorem reg_clearRegs {fs : List Fld} {f : Fld} (hf : f ∈ fs) (hpier : f.pier = false) (hlo : f.lo < 32) (hreset : f.reset = 0)
    {i : Nat} (hi : i < f.count) (s : State) : (s.clearRegs fs).reg f 0 i = 0 := by
  refine (tget_filter_dropped f.reset s.regs fun v => ?_).trans hreset
  simp only [Bool.not_eq_eq_eq_not, Bool.not_false]
  exact List.any_eq_true.2 ⟨f, hf, owns_key hpier hlo hi⟩

theorem regs_clearRegs_of_not_owned {fs : List Fld} {k : Nat} (hk : ∀ f ∈ fs, f.owns k = false) (s : State) (d : Nat) :
    tget d (s.clearRegs fs).regs k = tget d s.regs k := by
  refine tget_filter_kept d s.regs fun v => ?_
  simp only [Bool.not_eq_eq_eq_not, Bool.not_true]
  exact List.any_eq_false.2 fun f hf => by simp [hk f hf]

/-- A register that reads 0 still does after another is zeroed. -/
theorem reg_setReg_zero {f g : Fld} {p q i j : Nat} {s : State} (h : s.reg g q j = 0 ∨ g.key q j = f.key p i) :
    (s.setReg f p i 0).reg g q j = 0 := by
  by_cases hk : g.key q j = f.key p i
  · simp only [State.reg, State.setReg, hk, tget_tput_same, Nat.zero_mod]
  · rw [reg_setReg_ne _ _ hk, h.resolve_right hk]

/-- The words of the fields `fs` of pier `p` set to 0. -/
def State.zeroFields (s : State) (fs : List Fld) (p : Nat) : State := fs.foldl (fun s f => s.setReg f p 0 0) s

theorem reg_zeroFields_of_zero {fs : List Fld} {f : Fld} {p : Nat} {s : State} (h : s.reg f p 0 = 0) :
    (s.zeroFields fs p).reg f p 0 = 0 := by
  induction fs generalizing s with
  | nil => exact h
  | cons g fs ih => exact ih (reg_setReg_zero (.inl h))

theorem reg_zeroFields {fs : List Fld} {f : Fld} (hf : f ∈ fs) (p : Nat) (s : State) : (s.zeroFields fs p).reg f p 0 = 0 := by
  induction fs generalizing s with
  | nil => exact nomatch hf
  | cons g fs ih =>
    obtain rfl | hf := List.mem_cons.1 hf
    · exact reg_zeroFields_of_zero (s := s.setReg f p 0 0) (reg_setReg_zero (.inr rfl))
    · exact ih hf _

theorem zeroFields_regsBut (fs : List Fld) (p : Nat) (s : State) : regsBut (fs.map fun f => f.key p 0) s (s.zeroFields fs p) := by
  have hkeep : ∀ (gs : List Fld) (t : State), gs ⊆ fs → regsBut (fs.map fun f => f.key p 0) s t →
      regsBut (fs.map fun f => f.key p 0) s (t.zeroFields gs p) := by
    intro gs
    induction gs with
    | nil => exact fun t _ h => h
    | cons g gs ih =>
      intro t hsub h
      exact ih _ (List.subset_of_cons_subset hsub) (h.setReg 0 (List.mem_map.2 ⟨g, hsub (.head _), rfl⟩))
  exact hkeep fs s (List.Subset.refl _) (regsBut_refl _ s)

theorem zeroFields_frame (fs : List Fld) (p : Nat) (s : State) : s.zeroFields fs p = { s with regs := (s.zeroFields fs p).regs } := by
  induction fs generalizing s with
  | nil => rfl
  | cons g fs ih => exact ih _

/-! ### COUNTER_CLEAR (R355) -/

theorem devCounters_spec : ∀ e ∈ devCounters, pierOfAddr e.1 = none ∧ tget [] devCounters e.1 = e.2 ∧
    ∀ f ∈ e.2, f.pier = false ∧ f.lo < 32 ∧ f.reset = 0 := by decide

theorem pierCounters_spec : ∀ e ∈ pierCounters, e.1 < 0x10000 ∧ tget [] pierCounters e.1 = e.2 := by decide

theorem pierOfAddr_pier {q o : Nat} (hq : q < 192) (ho : o < 0x10000) : pierOfAddr (0x01000000 + 0x10000 * q + o) = some (q, o) := by
  have hpier : (0x01000000 + 0x10000 * q + o - 0x01000000) / 0x10000 = q := by omega
  have hoff : (0x01000000 + 0x10000 * q + o - 0x01000000) % 0x10000 = o := by omega
  rw [pierOfAddr, if_pos (by omega), hpier, hoff]

section
variable {p : Nat} {s : State}

theorem exec_counterClear_dev (hp : p < 9) {a : Nat} {fs : List Fld} (ha : (a, fs) ∈ devCounters) :
    exec (.counterClear p a) s = .next (s.clearRegs fs) := by
  obtain ⟨hpier, hfs, -⟩ := devCounters_spec _ ha
  change execCounterClear p a s = _
  rw [execCounterClear, if_neg (by omega), clearCounters, hpier]
  dsimp only
  rw [hfs]

theorem exec_counterClear_pier (hp : p < 9) {q o : Nat} {fs : List Fld} (hq : q < 192) (ho : (o, fs) ∈ pierCounters)
    (hactive : s.pierState q = 1) : exec (.counterClear p (0x01000000 + 0x10000 * q + o)) s =
      .next (if decide (p < 8) && o == seqClearOff then s else s.zeroFields fs q) := by
  obtain ⟨hlt, hfs⟩ := pierCounters_spec _ ho
  change execCounterClear p _ s = _
  rw [execCounterClear, if_neg (by omega), clearCounters, pierOfAddr_pier hq hlt]
  dsimp only
  rw [hfs, hactive]
  rfl

end

/-! ### CACHE_STEPS (R335) -/

section
variable {p v : Nat} {s : State} (hp : p < 8)
include hp

theorem exec_cacheSteps_loaded (h : s.images ≠ []) : exec (.cacheSteps p v) s = .next s := by
  change execCacheSteps p v s = _
  rw [execCacheSteps, if_neg (by omega), writeCacheSteps]
  dsimp only
  by_cases hn : v % 16 = 0 ∨ 10 < v % 16
  · rw [if_pos hn]
  · rw [if_neg hn, if_pos (.inl (by simpa using h))]

theorem exec_cacheSteps_taken (hpos : 1 ≤ v % 16) (hmax : v % 16 ≤ 10) (h : s.images = [])
    (habove : s.llmAbove ((384 - 32 * (v % 16)) * 2 ^ 20) = false) : exec (.cacheSteps p v) s =
      .next ({ s.zeroMem (llmBase + min ((384 - 32 * (v % 16)) * 2 ^ 20) s.scratch) (gddrBase 0) with llmCache := [] }.setDreg
        llmCacheSteps (v % 16)) := by
  change execCacheSteps p v s = _
  rw [execCacheSteps, if_neg (by omega), writeCacheSteps]
  dsimp only
  rw [if_neg (by omega), if_neg (by rw [habove]; simp [h])]

end

/-- Settles O44: a clear zeroes the counters of its block; the new boundary zeroes what it adds to the cache. -/
theorem countersAndCache : Obligations.CountersAndCache := by
  refine ⟨fun p s a fs hp ha => ?_, fun p q s o fs hp hq hactive ho => ⟨fun hmay => ?_, fun hpartner hseq => ?_⟩,
    fun p v s hp => ⟨exec_cacheSteps_loaded hp, fun hpos hmax h habove => ?_⟩⟩
  · obtain ⟨-, -, hfields⟩ := devCounters_spec _ ha
    refine ⟨_, exec_counterClear_dev hp ha, rfl, fun f hf i hi => ?_, fun k hk d => regs_clearRegs_of_not_owned hk s d⟩
    obtain ⟨hpier, hlo, hreset⟩ := hfields f hf
    exact reg_clearRegs hf hpier hlo hreset hi s
  · have htaken : (decide (p < 8) && o == seqClearOff) = false := by
      rcases hmay with rfl | hseq
      · rfl
      · simp [hseq]
    refine ⟨_, exec_counterClear_pier hp hq ho hactive, ?_⟩
    rw [htaken]
    exact ⟨zeroFields_frame fs q s, fun f hf => reg_zeroFields hf q s, zeroFields_regsBut fs q s⟩
  · rw [exec_counterClear_pier hp hq ho hactive]
    simp [hpartner, hseq]
  · refine ⟨_, exec_cacheSteps_taken hp hpos hmax h habove, rfl, ?_, (regsBut_refl _ s).setReg _ (.head _), fun a => ?_⟩
    · exact (tget_tput_same _ _ _ _).trans (Nat.mod_eq_of_lt (by simp only [llmCacheSteps]; omega))
    · exact mget_mzero s.mem _ _ a

/-! ### Standby (R447, R457) -/

/-- Slots and sessions end, and messages go; registers, key sets, power and time stay. -/
def Detached (s t : State) : Prop := t.keysets = s.keysets ∧ t.pwr = s.pwr ∧ t.clk = s.clk

theorem Detached.refl (s : State) : Detached s s := ⟨rfl, rfl, rfl⟩

theorem Detached.trans {s t u : State} (h : Detached s t) (h' : Detached t u) : Detached s u :=
  ⟨h'.1.trans h.1, h'.2.1.trans h.2.1, h'.2.2.trans h.2.2⟩

theorem detached_foldl {α : Type} {f : State → α → State} (hf : ∀ s a, Detached s (f s a)) (l : List α) (s : State) :
    Detached s (l.foldl f s) :=
  foldl_rel (R := Detached) .refl Detached.trans hf l s

theorem detached_writeCompletions (p : Nat) (s : State) : Detached s (writeCompletions p s) := by
  have hsend : ∀ (f : Completion × Nat → Out) (l : List (Completion × Nat)), Detached s (l.foldl (fun s e => s.send (f e)) s) :=
    fun f l => detached_foldl (f := fun s e => s.send (f e)) (fun s e => ⟨rfl, rfl, rfl⟩) l s
  unfold writeCompletions
  split
  · exact (hsend _ _).trans ⟨rfl, rfl, rfl⟩
  · split <;> exact ⟨rfl, rfl, rfl⟩
  · exact .refl s

theorem detached_closeSession (se tag : Nat) (s : State) : Detached s (closeSession se tag s) := by
  rw [closeSession_eq]
  exact ⟨rfl, rfl, rfl⟩

theorem detached_freeSlot (p : Nat) (s : State) : Detached s (freeSlot p s) := ⟨rfl, rfl, rfl⟩

theorem detached_eraseSession (se : Nat) (s : State) : Detached s (eraseSession se s) := by
  rw [eraseSession_frame]
  exact ⟨rfl, rfl, rfl⟩

theorem detached_loseSlot (p : Nat) (s : State) : Detached s (loseSlot p s) := by
  have himage : ∀ (s : State) (w : WaitVerb),
      Detached s (if w.verb = 1 then s.modImage w.key fun im => { im with replacing := false } else s) := by
    intro s w
    split <;> exact ⟨rfl, rfl, rfl⟩
  have hslot : ∀ u : State, Detached u (u.modSlot p fun sl => { sl with closing := true, verb := none }) := fun _ => ⟨rfl, rfl, rfl⟩
  have hwaits : ∀ ws : List WaitVerb, Detached s { s with waits := ws } := fun _ => ⟨rfl, rfl, rfl⟩
  have hclosed : ∀ (ws : List WaitVerb) (l : List WaitVerb) (mine : List Nat), Detached s (mine.foldl (fun s se => closeSession se 0 s)
      (writeCompletions p ((l.foldl (fun (s : State) (w : WaitVerb) => if w.verb = 1 then s.modImage w.key fun im => { im with replacing := false } else s)
        { s with waits := ws }).modSlot p fun sl => { sl with closing := true, verb := none }))) :=
    fun ws l mine => ((hwaits ws).trans (detached_foldl himage l _)).trans <| (hslot _).trans <|
      (detached_writeCompletions p _).trans (detached_foldl (fun s se => detached_closeSession se 0 s) mine _)
  unfold loseSlot
  dsimp only
  split
  · exact (hclosed _ _ _).trans (detached_freeSlot p _)
  · exact hclosed _ _ _

/-- Taking away, one by one, the entries under every key empties a table. -/
theorem tdel_all {α : Type} (m : List (Nat × α)) : (m.map (·.1)).foldl tdel m = [] := by
  have hgone : ∀ (ks : List Nat) (l : List (Nat × α)), (∀ e ∈ l, e.1 ∈ ks) → ks.foldl tdel l = [] := by
    intro ks
    induction ks with
    | nil => exact fun l h => List.eq_nil_iff_forall_not_mem.2 fun e he => nomatch h e he
    | cons k ks ih =>
      refine fun l h => ih _ fun e he => ?_
      obtain ⟨hmem, hne⟩ := List.mem_filter.1 he
      exact (List.mem_cons.1 (h e hmem)).resolve_left (bne_iff_ne.1 hne)
  exact hgone _ m fun e he => List.mem_map.2 ⟨e, he, rfl⟩

theorem eraseSessions_sessions (ks : List Nat) (s : State) :
    (ks.foldl (fun s se => eraseSession se s) s).sessions = ks.foldl tdel s.sessions := by
  induction ks generalizing s with
  | nil => rfl
  | cons k ks ih =>
    rw [List.foldl_cons, ih, eraseSession_frame]
    rfl

theorem freeSlots_tables (ks : List Nat) (s : State) : (ks.foldl (fun s p => freeSlot p s) s).slots = ks.foldl tdel s.slots ∧
    (ks.foldl (fun s p => freeSlot p s) s).sessions = s.sessions := by
  induction ks generalizing s with
  | nil => exact ⟨rfl, rfl⟩
  | cons k ks ih => exact ih _

/-- The state after every attachment and session has ended. -/
def State.detachedAll (s : State) : State :=
  let s1 := (s.slots.map (·.1)).foldl (fun s p => loseSlot p s) s
  let s2 := (s1.sessions.map (·.1)).foldl (fun s se => eraseSession se s) s1
  (s2.slots.map (·.1)).foldl (fun s p => freeSlot p s) s2

theorem detachedAll_spec (s : State) : Detached s s.detachedAll ∧ s.detachedAll.slots = [] ∧ s.detachedAll.sessions = [] := by
  unfold State.detachedAll
  dsimp only
  refine ⟨?_, ?_, ?_⟩
  · exact (detached_foldl (fun s p => detached_loseSlot p s) _ s).trans <|
      (detached_foldl (fun s se => detached_eraseSession se s) _ _).trans (detached_foldl (fun s p => detached_freeSlot p s) _ _)
  · rw [(freeSlots_tables _ _).1, tdel_all]
  · rw [(freeSlots_tables _ _).2, eraseSessions_sessions, tdel_all]

theorem exec_standbyEntry {s : State} (hreq : s.pwr.standbyReq ≠ 0) (hidle : s.working = false) (hawake : s.awake = true) :
    exec .standbyEntry s = .next { s.detachedAll with
      peers := s.detachedAll.peers.map fun e => (e.1, { e.2 with state := 2, upA := false, upB := false, downAt := s.detachedAll.now })
      pwr := { s.detachedAll.pwr with standbyReq := 0, gddrOff := s.detachedAll.pwr.standbyReq == 2, wakePending := false
                                      move := .entering .a4 (s.detachedAll.now + entryNs .a4) } } := by
  change execStandbyEntry s = _
  rw [execStandbyEntry, if_neg (by simp [hreq, hidle, hawake])]
  rfl

/-- WAKE_AT in force: the two words as one time, where it lies ahead. -/
theorem exec_wakeAtHi {p : Nat} (hp : p < 8) (v : Nat) (s : State) : exec (.wakeAtHi p v) s = .next
    { s.setDreg pwrWakeAtHi v with pwr := { s.pwr with
      wakeAt := if s.dreg pwrWakeAtLo + 2 ^ 32 * (v % 2 ^ 32) ≤ s.now then 0 else s.dreg pwrWakeAtLo + 2 ^ 32 * (v % 2 ^ 32) } } := by
  have hlo : (s.setDreg pwrWakeAtHi v).dreg pwrWakeAtLo = s.dreg pwrWakeAtLo :=
    reg_setReg_ne s v (by simp [Fld.key, pwrWakeAtHi, pwrWakeAtLo])
  have hhi : (s.setDreg pwrWakeAtHi v).dreg pwrWakeAtHi = v % 2 ^ 32 := reg_setReg_same s pwrWakeAtHi 0 0 v
  change execWakeAtHi p v s = _
  rw [execWakeAtHi, if_neg (by omega), writeWakeHi]
  dsimp only
  rw [hlo, hhi]
  rfl

/-- Settles O41: standby ends every attachment and session first. -/
theorem standby : Obligations.Standby := by
  refine ⟨fun p s hp => ⟨?_, ?_, fun v => ?_⟩, fun s hreq hidle hawake => ?_⟩
  · change execStandbyReqGddrKept p s = _
    rw [execStandbyReqGddrKept, if_neg (by omega)]
    rfl
  · change execStandbyReqGddrOff p s = _
    rw [execStandbyReqGddrOff, if_neg (by omega)]
    rfl
  · exact ⟨_, exec_wakeAtHi hp v s, rfl, reg_setReg_same s pwrWakeAtHi 0 0 v, (regsBut_refl _ s).setReg _ (.head _)⟩
  · obtain ⟨⟨hkeysets, hpwr, hclk⟩, hslots, hsessions⟩ := detachedAll_spec s
    have hnow : s.detachedAll.now = s.now := by rw [State.now, hclk, State.now]
    refine ⟨_, exec_standbyEntry hreq hidle hawake, hslots, hsessions, hkeysets, ?_, fun e he => ?_⟩
    · rw [hpwr, hnow]
      rfl
    · obtain ⟨e0, -, rfl⟩ := List.mem_map.1 he
      exact ⟨rfl, rfl, rfl⟩

end Sys2Proof.Machine

/-! Commits of requests, and the power states, clock and temperature of the device (R376, R436 to R446). -/
namespace Sys2Proof.Machine

/-! ### What commits change (R376) -/

/-- Only what a commit may change differs: requests and their buffers, slots, images' arrival entries, material, registers,
memory, messages and what is queued. -/
def CommitOnly (s t : State) : Prop := t =
  { s with
    requests := t.requests, regs := t.regs, slots := t.slots, images := t.images, sessions := t.sessions, objs := t.objs
    mem := t.mem, journal := t.journal, sent := t.sent, rx := t.rx, rxDone := t.rxDone, rxTimers := t.rxTimers, out := t.out
    pending := t.pending }

theorem CommitOnly.refl (s : State) : CommitOnly s s := rfl

theorem CommitOnly.trans {s t u : State} (h : CommitOnly s t) (h' : CommitOnly t u) : CommitOnly s u := by
  rw [CommitOnly, h', h]

theorem commitOnly_foldl {α : Type} {f : State → α → State} (hf : ∀ s a, CommitOnly s (f s a)) (l : List α) (s : State) :
    CommitOnly s (l.foldl f s) :=
  foldl_rel (R := CommitOnly) .refl CommitOnly.trans hf l s

/-- A choice between two states keeps what both keep. -/
theorem CommitOnly.ite {s t u : State} {c : Prop} [Decidable c] (ht : CommitOnly s t) (hu : CommitOnly s u) :
    CommitOnly s (if c then t else u) := by
  split
  · exact ht
  · exact hu

theorem commitOnly_send (s : State) (m : Out) : CommitOnly s (s.send m) := rfl

theorem commitOnly_enqueue (s : State) (c : Instr) : CommitOnly s (s.enqueue c) := rfl

theorem commitOnly_wr (s : State) (a : Nat) (bs : List Byte) : CommitOnly s (s.wr a bs) := rfl

theorem commitOnly_writeCompletions (p : Nat) (s : State) : CommitOnly s (writeCompletions p s) := by
  have hsend : ∀ (f : Completion × Nat → Out) (l : List (Completion × Nat)), CommitOnly s (l.foldl (fun s e => s.send (f e)) s) :=
    fun f l => commitOnly_foldl (f := fun s e => s.send (f e)) (fun s e => commitOnly_send s _) l s
  unfold writeCompletions
  split
  · exact (hsend _ _).trans rfl
  · exact .ite rfl rfl
  · exact .refl s

theorem commitOnly_complete (p : Nat) (x : Completion) (s : State) : CommitOnly s (complete p x s) :=
  CommitOnly.trans (t := s.modSlot p fun sl => { sl with due := sl.due ++ [x] }) rfl (commitOnly_writeCompletions p _)

/-- Only memory, sessions and stored objects differ. -/
def SpendOnly (s t : State) : Prop := t = { s with mem := t.mem, sessions := t.sessions, objs := t.objs }

theorem SpendOnly.trans {s t u : State} (h : SpendOnly s t) (h' : SpendOnly t u) : SpendOnly s u := by
  rw [SpendOnly, h', h]

theorem spendOnly_foldl {α : Type} {f : State → α → State} (hf : ∀ s a, SpendOnly s (f s a)) (l : List α) (s : State) :
    SpendOnly s (l.foldl f s) :=
  foldl_rel (R := SpendOnly) (fun _ => rfl) SpendOnly.trans hf l s

theorem spendOnly_wr (s : State) (a : Nat) (bs : List Byte) : SpendOnly s (s.wr a bs) := rfl

/-- Material items spent: zeroed, and their objects gone where none is left. -/
theorem spendOnly_spendItems (se : Nat) (e : MatEnt) (serials : List Nat) (s : State) : SpendOnly s (spendItems se e serials s) := by
  have hitem : ∀ (c : MatClass) (s : State) (n : Nat), SpendOnly s (match c.bundles.find? (fun b => b.first ≤ n ∧ n < b.first + b.count) with
      | some b => (List.range b.itemBytes).foldl
        (fun s' y => s'.wr (objAddr (s.objBase b.obj) ((n - b.first) * b.itemBytes + y)) [0]) s
      | none => s) := by
    intro c s n
    split
    · exact spendOnly_foldl (f := fun s' y => s'.wr _ [0]) (fun s y => spendOnly_wr s _ _) _ s
    · rfl
  unfold spendItems
  split
  · rfl
  · dsimp only
    split
    · rfl
    · next c _ => exact (spendOnly_foldl (hitem c) serials s).trans rfl

theorem commitOnly_spendItems (se : Nat) (e : MatEnt) (serials : List Nat) (s : State) : CommitOnly s (spendItems se e serials s) := by
  rw [CommitOnly, spendOnly_spendItems]

theorem commitOnly_spendRequest (r : Request) (s : State) : CommitOnly s (spendRequest r s) := by
  unfold spendRequest
  split
  · exact .refl s
  · next im _ =>
    refine commitOnly_foldl (fun s g => ?_) r.ranges s
    split
    · exact commitOnly_spendItems _ _ _ s
    · exact .refl s

theorem commitOnly_drainEvents (r : Request) (s : State) : CommitOnly s (drainEvents r s) := by
  unfold drainEvents
  dsimp only
  have h1 : ∀ (c : Prop) [Decidable c] (i : Instr) (t : State), CommitOnly t (if c then t.enqueue i else t) :=
    fun c _ i t => .ite (commitOnly_enqueue t i) (.refl t)
  exact (h1 _ _ s).trans ((h1 _ _ _).trans (h1 _ _ _))

theorem commitOnly_commitNow (r : Request) (s : State) : CommitOnly s (commitNow r s) := by
  unfold commitNow
  dsimp only
  refine CommitOnly.trans ?_ (commitOnly_drainEvents r _)
  refine CommitOnly.trans ?_ (commitOnly_foldl (fun s n => commitOnly_complete r.slot (r.completion n 2 _) s) r.repeats _)
  refine CommitOnly.trans ?_ (commitOnly_complete _ _ _)
  refine CommitOnly.trans ?_ (commitOnly_spendRequest r _)
  rfl

theorem commitOnly_advanceCommits (se n : Nat) (s : State) : CommitOnly s (advanceCommits se n s) := by
  induction n generalizing s with
  | zero => exact .refl s
  | succ n ih =>
    unfold advanceCommits
    extract_lets live low
    clear_value low
    cases low with
    | none => exact .refl s
    | some r =>
      have hjournal : CommitOnly s { s with journal := s.journal ++ [.commit se r.seq] } := rfl
      exact .ite (.ite (hjournal.trans rfl) (hjournal.trans ((commitOnly_commitNow r _).trans (ih _)))) (.refl s)

theorem commitOnly_outputDone (se q code : Nat) (s : State) : CommitOnly s (outputDone se q code s) := by
  unfold outputDone
  split
  · exact .refl s
  · refine .ite (CommitOnly.trans ?_ (commitOnly_advanceCommits se _ _)) (.refl s)
    rfl

theorem commitOnly_handOff (r : Request) (s : State) : CommitOnly s (handOff r s) := by
  refine CommitOnly.trans ?_ (commitOnly_drainEvents r _)
  rfl

theorem commitOnly_raise (r : Rec) (s : State) : CommitOnly s (raise r s) := by
  rw [CommitOnly, raise_frame]

/-! ### Every batch stopped (R439, R473) -/

/-- Power and pins stay, an empty bench stays empty, and a span that does not run still does not. -/
def Stays (s t : State) : Prop := t.pwr = s.pwr ∧ t.pins = s.pins ∧ (∀ q, (s.pier q).bench = [] → (t.pier q).bench = []) ∧
  ∀ k, (s.span k).running = false → (t.span k).running = false

theorem Stays.refl (s : State) : Stays s s := ⟨rfl, rfl, fun _ h => h, fun _ h => h⟩

theorem Stays.trans {s t u : State} (h : Stays s t) (h' : Stays t u) : Stays s u := by
  obtain ⟨hpwr, hpins, hbench, hspan⟩ := h
  obtain ⟨hpwr', hpins', hbench', hspan'⟩ := h'
  exact ⟨hpwr'.trans hpwr, hpins'.trans hpins, fun q hq => hbench' q (hbench q hq), fun k hk => hspan' k (hspan k hk)⟩

theorem stays_foldl {α : Type} {f : State → α → State} (hf : ∀ s a, Stays s (f s a)) (l : List α) (s : State) :
    Stays s (l.foldl f s) :=
  foldl_rel (R := Stays) .refl Stays.trans hf l s

theorem Stays.ite {s t u : State} {c : Prop} [Decidable c] (ht : Stays s t) (hu : Stays s u) : Stays s (if c then t else u) := by
  split
  · exact ht
  · exact hu

theorem CommitOnly.stays {s t : State} (h : CommitOnly s t) : Stays s t := by
  rw [h]
  exact .refl s

theorem stays_modPier {s : State} (p : Nat) {f : Pier → Pier} (hf : ∀ x, (f x).bench = x.bench) : Stays s (s.modPier p f) := by
  refine ⟨rfl, rfl, fun q hq => ?_, fun k hk => hk⟩
  by_cases h : q = p
  · subst h
    rw [State.modPier, pier_setPier_same, hf, hq]
  · rw [State.modPier, pier_setPier_ne s _ h, hq]

theorem stays_modSpan {s : State} (k : Nat) {f : Span → Span} (hf : ∀ x, x.running = false → (f x).running = false) :
    Stays s (s.modSpan k f) := by
  obtain hk | hk := Option.eq_none_or_eq_some (tfind s.spans k) |>.imp id (fun ⟨x, hx⟩ => Option.isSome_iff_exists.2 ⟨x, hx⟩)
  · rw [modSpan_unloaded s k f hk]
    exact .refl s
  · refine ⟨?_, ?_, ?_, fun j hj => ?_⟩
    · rw [modSpan_loaded s k f hk]
      rfl
    · rw [modSpan_loaded s k f hk]
      rfl
    · rw [modSpan_loaded s k f hk]
      exact fun q hq => hq
    · by_cases h : j = k
      · subst h
        rw [span_modSpan_same hk]
        exact hf _ hj
      · rw [span_modSpan_ne h]
        exact hj

/-- A pier whose batch is aborted. -/
def abortedPier (fault : Bool) (x : Pier) : Pier :=
  { x with
    seq := { x.seq with st := if fault then .fault else .idle, fetched := false }
    sb := [], chucks := [], acts := [], sendq := [], announced := [], inbound := [], timed := [], stores := []
    passes := [], ftq := [], nttBuf := [], seeds := [], fssRows := [], mmeArray := 0 }

theorem abortPiers_eq (k : Nat) (fault : Bool) (s : State) : abortPiers k fault s =
    (s.span k).piers.foldl (fun s p => s.modPier p (abortedPier fault))
      { s with links := s.links.filter fun f => !(s.span k).piers.contains f.pier } := rfl

theorem stays_abortPiers (k : Nat) (fault : Bool) (s : State) : Stays s (abortPiers k fault s) := by
  rw [abortPiers_eq]
  refine Stays.trans ?_ (stays_foldl (f := fun s p => s.modPier p (abortedPier fault)) (fun s p => stays_modPier p fun _ => rfl) _ _)
  exact .refl s

theorem stays_dropBatch (k : Nat) (s : State) : Stays s (dropBatch k s) := stays_modSpan k fun _ _ => rfl

/-- A batch that is dropped does not run. -/
theorem dropBatch_running (k : Nat) (s : State) : ((dropBatch k s).span k).running = false := by
  cases hk : tfind s.spans k with
  | none =>
    rw [dropBatch, modSpan_unloaded s k _ hk]
    exact congrArg Span.running (tget_of_tfind_none _ hk)
  | some x => rw [dropBatch, span_modSpan_same (Option.isSome_iff_exists.2 ⟨x, hk⟩)]

theorem mem_of_tfind {α : Type} {m : List (Nat × α)} {k : Nat} {x : α} (h : tfind m k = some x) : (k, x) ∈ m := by
  induction m with
  | nil => exact nomatch h
  | cons e m ih =>
    obtain ⟨j, y⟩ := e
    by_cases hk : k = j
    · subst hk
      rw [tfind, if_pos rfl] at h
      exact Option.some.inj h ▸ .head _
    · rw [tfind, if_neg hk] at h
      exact .tail _ (ih h)

/-- Every span's batch is dropped; `f` is what else happens to each. -/
theorem dropAll_running (f : Nat → State → State) (hf : ∀ k s, Stays (dropBatch k (abortPiers k true s)) (f k s)) (s : State) (k : Nat) :
    ((s.spans.foldl (fun s e => f e.1 s) s).span k).running = false := by
  have hstep : ∀ j (s : State), Stays s (f j s) := fun j s =>
    (stays_abortPiers j true s).trans ((stays_dropBatch j _).trans (hf j s))
  have hlisted : ∀ (l : List (Nat × Span)) (s : State), (∃ e ∈ l, e.1 = k) ∨ (s.span k).running = false →
      ((l.foldl (fun s e => f e.1 s) s).span k).running = false := by
    intro l
    induction l with
    | nil => exact fun s h => h.resolve_left (by simp)
    | cons e l ih =>
      intro s h
      refine ih _ ?_
      rcases h with ⟨e', he', hk⟩ | hrun
      · obtain rfl | he' := List.mem_cons.1 he'
        · exact .inr ((hf e'.1 s).2.2.2 k (hk ▸ dropBatch_running e'.1 _))
        · exact .inl ⟨e', he', hk⟩
      · exact .inr ((hstep e.1 s).2.2.2 k hrun)
  refine hlisted s.spans s ?_
  by_cases hk : (tfind s.spans k).isSome = true
  · obtain ⟨x, hx⟩ := Option.isSome_iff_exists.1 hk
    exact .inl ⟨(k, x), mem_of_tfind hx, rfl⟩
  · refine .inr (congrArg Span.running (tget_of_tfind_none _ (by simpa using hk)))

theorem stays_handAll (s : State) : Stays s (handAll s) := by
  have hdrop : ∀ (s : State) (e : Nat × Span),
      Stays s ((dropBatch e.1 (abortPiers e.1 true s)).modSpan e.1 fun sp => { sp with waiting := [], fixed := [] }) :=
    fun s e => (stays_abortPiers e.1 true s).trans ((stays_dropBatch e.1 _).trans (stays_modSpan e.1 fun _ h => h))
  unfold handAll
  dsimp only
  refine (stays_foldl hdrop s.spans s).trans (.ite (.trans ?_ (stays_foldl (fun s se => (commitOnly_raise _ s).stays) _ _)) ?_)
  · exact stays_foldl (fun s r => (commitOnly_handOff r s).stays) _ _
  · exact stays_foldl (fun s (r : Request) => (commitOnly_outputDone r.session r.seq 0x040B s).stays) _ _

theorem stays_checkDegraded (s : State) : Stays s (checkDegraded s) := by
  unfold checkDegraded
  refine .ite (.trans ?_ (stays_handAll _)) (.refl s)
  exact Stays.trans (t := { s with degraded := true }) (.refl s) (commitOnly_raise _ _).stays

theorem stays_reviseDegraded (s : State) : Stays s (reviseDegraded s) := by
  unfold reviseDegraded
  exact .ite (Stays.trans (t := { s with placementFailed := false }) (.refl s) (stays_checkDegraded _)) (.refl s)

/-- What a change of every entry of a table makes of a property of one. -/
theorem tget_map {α β : Type} (d : α) (m : List (Nat × α)) (f : α → α) (k : Nat) (g : α → β) (hd : g (f d) = g d) :
    g (tget d (m.map fun e => (e.1, f e.2)) k) = g (f (tget d m k)) := by
  induction m with
  | nil => exact hd.symm
  | cons e m ih =>
    obtain ⟨j, x⟩ := e
    by_cases hk : k = j
    · simp only [List.map_cons, tget, if_pos hk]
    · simp only [List.map_cons, tget, if_neg hk, ih]

/-- Every pier blanked. -/
theorem pier_blankPiers (s : State) (q : Nat) : (blankPiers s).pier q = blankPier (s.pier q) :=
  tget_map _ s.piers blankPier q id rfl

theorem running_blankPiers (s : State) (k : Nat) : ((blankPiers s).span k).running = (s.span k).running :=
  tget_map _ s.spans (fun x : Span => { x with shown := false, level := 0, nextLevel := 0 }) k Span.running rfl

theorem stays_blankPiers (s : State) : Stays s (blankPiers s) := by
  refine ⟨rfl, rfl, fun q _ => ?_, fun k hk => ?_⟩
  · rw [pier_blankPiers]
    rfl
  · rw [running_blankPiers]
    exact hk

/-! ### A trip (R439) -/

/-- The trip of a device that is not in A4. -/
def tripFrom (code : Nat) (s : State) : State :=
  let s1 : State := { s with pwr := { s.pwr with trip := true, state := .a0, move := .steady } }
  let s2 := s1.spans.foldl (fun s e => dropBatch e.1 (abortPiers e.1 true s)) s1
  let dark := (blankPiers s2).clearRegs pierFields
  handAll (raise { code := code, action := 5, unit := 0 } (zeroSlices dark))

theorem trip_eq (code : Nat) (s : State) : trip code s = tripFrom code (if s.pwr.state = .a4 then resumeA4 s else s) := rfl

/-- Every span's batch dropped. -/
def State.dropped (s : State) : State := s.spans.foldl (fun s e => dropBatch e.1 (abortPiers e.1 true s)) s

theorem stays_dropped (s : State) : Stays s s.dropped := by
  unfold State.dropped
  exact stays_foldl (fun s (e : Nat × Span) => (stays_abortPiers e.1 true s).trans (stays_dropBatch e.1 _)) _ _

theorem dropped_running (s : State) (k : Nat) : (s.dropped.span k).running = false :=
  dropAll_running (fun k s => dropBatch k (abortPiers k true s)) (fun _ _ => .refl _) s k

theorem stays_clearRegs (fs : List Fld) (s : State) : Stays s (s.clearRegs fs) := .refl s

theorem stays_zeroSlices (s : State) : Stays s (zeroSlices s) := .refl s

theorem tripFrom_eq (code : Nat) (s : State) : tripFrom code s = handAll (raise { code := code, action := 5, unit := 0 } (zeroSlices
    ((blankPiers { s with pwr := { s.pwr with trip := true, state := .a0, move := .steady } }.dropped).clearRegs pierFields))) := rfl

/-- A trip stops every span and empties every bench. -/
theorem tripFrom_spec (code : Nat) (s : State) :
    (tripFrom code s).pwr = { s.pwr with trip := true, state := .a0, move := .steady } ∧ (tripFrom code s).pins = s.pins ∧
      (∀ q, ((tripFrom code s).pier q).bench = []) ∧ ∀ k, ((tripFrom code s).span k).running = false := by
  let s1 : State := { s with pwr := { s.pwr with trip := true, state := .a0, move := .steady } }
  have hdark : Stays (blankPiers s1.dropped) (tripFrom code s) := by
    rw [tripFrom_eq]
    exact (stays_clearRegs _ _).trans ((stays_zeroSlices _).trans ((commitOnly_raise _ _).stays.trans (stays_handAll _)))
  obtain ⟨hpwr, hpins, hbench, hspan⟩ := hdark
  obtain ⟨hpwr0, hpins0, -⟩ := (stays_dropped s1).trans (stays_blankPiers _)
  refine ⟨hpwr.trans hpwr0, hpins.trans hpins0, fun q => hbench q ?_, fun k => hspan k ?_⟩
  · rw [pier_blankPiers]
    rfl
  · rw [running_blankPiers]
    exact dropped_running s1 k

section
variable (s : State)

theorem pins_foldl {α : Type} {f : State → α → State} (hf : ∀ s a, (f s a).pins = s.pins) (l : List α) (s : State) :
    (l.foldl f s).pins = s.pins :=
  foldl_rel (R := fun s t => t.pins = s.pins) (fun _ => rfl) (fun h h' => h'.trans h) hf l s

theorem pins_helloPeer (device net : Nat) : (helloPeer device net s).pins = s.pins := by
  unfold helloPeer
  dsimp only
  split <;> rfl

theorem pins_reopenPeers : (reopenPeers s).pins = s.pins := by
  unfold reopenPeers
  exact pins_foldl (f := fun s d => helloPeer d 1 (helloPeer d 0 s))
    (fun s d => (pins_helloPeer _ d 1).trans (pins_helloPeer s d 0)) _ s

theorem pins_ite {c : Prop} [Decidable c] {t u : State} (ht : t.pins = s.pins) (hu : u.pins = s.pins) :
    (if c then t else u).pins = s.pins := by
  split
  · exact ht
  · exact hu

theorem pins_wr (a : Nat) (bs : List Byte) : (s.wr a bs).pins = s.pins := rfl

theorem pins_blankStamps : (blankStamps s).pins = s.pins := by
  unfold blankStamps
  split
  · exact pins_foldl (f := fun s (c : Channel) => if c.stampAddr = 0 then s else s.wr c.stampAddr (List.replicate 128 0xFF))
      (fun s c => pins_ite s rfl (pins_wr s _ _)) _ s
  · rfl

theorem pins_addRepair (store addr pier : Nat) : (addRepair store addr pier s).pins = s.pins := rfl

theorem pins_storeLost (store pier id : Nat) : (storeLost store pier id s).pins = s.pins := by
  unfold storeLost
  rw [pins_addRepair, (commitOnly_raise _ s).stays.2.1]

theorem pins_restoreChecked (q p id : Nat) (ws : List (Nat × Nat × Nat × Nat × Nat)) : (restoreChecked q p id ws s).2.pins = s.pins := by
  have hslice : (restoreSlice q id s).pins = s.pins := by
    unfold restoreSlice
    split <;> rfl
  unfold restoreChecked
  dsimp only
  split
  · exact hslice
  · exact (pins_storeLost _ _ _ _).trans hslice

theorem pins_restoreSlices : (restoreSlices s).pins = s.pins := by
  unfold restoreSlices
  refine pins_foldl (fun s e => ?_) _ s
  exact pins_foldl (fun s b => pins_restoreChecked s _ _ _ _) _ s

/-- Only the piers differ. -/
def PiersOnly (s t : State) : Prop := t = { s with piers := t.piers }

theorem PiersOnly.trans {s t u : State} (h : PiersOnly s t) (h' : PiersOnly t u) : PiersOnly s u := by
  rw [PiersOnly, h', h]

theorem piersOnly_foldl {α : Type} {f : State → α → State} (hf : ∀ s a, PiersOnly s (f s a)) (l : List α) (s : State) :
    PiersOnly s (l.foldl f s) :=
  foldl_rel (R := PiersOnly) (fun _ => rfl) PiersOnly.trans hf l s

theorem piersOnly_modPier (p : Nat) (f : Pier → Pier) : PiersOnly s (s.modPier p f) := rfl

/-- The instruction memories written anew. -/
theorem piersOnly_rewriteAll : PiersOnly s (rewriteAll s) := by
  unfold rewriteAll
  refine piersOnly_foldl (fun s e => piersOnly_foldl (fun s q => ?_) _ s) _ s
  split
  · exact piersOnly_modPier s q.1 _
  · rfl

theorem pins_rewriteAll : (rewriteAll s).pins = s.pins := by rw [piersOnly_rewriteAll]

theorem pins_resumeA4 : (resumeA4 s).pins = s.pins := by
  have hspare : ∀ u : State, (startSpareTests u).pins = u.pins := fun _ => rfl
  have hllm : ∀ u : State, (restoreLlm u).pins = u.pins := fun _ => rfl
  unfold resumeA4
  dsimp only
  split
  · rw [hspare, (stays_reviseDegraded _).2.1, pins_reopenPeers, pins_blankStamps]
  · rw [hspare, pins_reopenPeers, (stays_reviseDegraded _).2.1]
    split
    · rw [pins_rewriteAll, pins_restoreSlices, hllm]
      rfl
    · rw [(commitOnly_raise _ _).stays.2.1, pins_rewriteAll, pins_restoreSlices, hllm]
      rfl

end

end Sys2Proof.Machine

/-! Clock, temperature, trips and the power states (R436 to R446). -/
namespace Sys2Proof.Machine

/-! ### PROCHOT, the throttle and FC_ACTIVE (R436 to R438) -/

/-- FC_ACTIVE that the settings ask for. -/
def wantedFc (s : State) (prochot throttle : Bool) : Nat :=
  max (s.dreg pwrFcSetting) (max (if prochot then s.dreg pwrProchotSetting else 0) (if throttle then 2 else 0))

theorem fcWanted_eq (s : State) : s.fcWanted = wantedFc s s.pwr.prochot s.pwr.throttle := rfl

/-- A change of FC_ACTIVE is queued where its cause has changed. -/
theorem clockCause_eq (s : State) : clockCause s =
    { s with pending := s.pending ++ if s.fcWanted ≠ s.pwr.fcActive then [Instr.fcActiveChange] else [] } := by
  unfold clockCause
  split
  · rfl
  · rw [List.append_nil]

theorem dreg_raise {f : Fld} {rc : Rec} (hr : rc.action < 4) (hk : f.key 0 0 ≠ rasFaultWritten.key 0 0) (s : State) :
    (raise rc s).dreg f = s.dreg f :=
  (raise_regsBut hr s).reg_eq (by simpa using hk)

theorem wantedFc_raise {rc : Rec} (hr : rc.action < 4) (s : State) : wantedFc (raise rc s) = wantedFc s := by
  funext prochot throttle
  rw [wantedFc, dreg_raise hr (by decide), dreg_raise hr (by decide), wantedFc]

theorem fcWanted_raise {rc : Rec} (hr : rc.action < 4) (s : State) : (raise rc s).fcWanted = s.fcWanted := by
  have hpwr : (raise rc s).pwr = s.pwr := by rw [raise_frame]
  rw [fcWanted_eq, wantedFc_raise hr, hpwr, ← fcWanted_eq]

/-- A record, and the change of FC_ACTIVE that its cause brings. -/
theorem clockCause_raise {rc : Rec} (hr : rc.action < 4) (s : State) : ∃ t, clockCause (raise rc s) = t ∧ Recorded rc s t ∧
    t = { s with
      mem := t.mem, regs := t.regs
      pending := s.pending ++ if s.fcWanted ≠ s.pwr.fcActive then [Instr.fcActiveChange] else [] } := by
  have hframe := raise_frame s rc
  have hwanted := fcWanted_raise hr s
  have hrec := (raise_spec rc s).1
  refine ⟨_, rfl, ?_⟩
  rw [clockCause_eq, hwanted]
  generalize raise rc s = u at hframe hrec ⊢
  refine ⟨hrec.congr rfl rfl rfl rfl rfl rfl, ?_⟩
  rw [hframe]

theorem exec_prochotOnset {s : State} (hlive : s.live = true) (hprochot : s.pwr.prochot = false) (h3 : s.pwr.state ≠ .a3)
    (h4 : s.pwr.state ≠ .a4) : exec .prochotOnset s = .next (clockCause (raise { code := 0x0901, action := 0, unit := 0 }
      { s with pwr := { s.pwr with prochot := true } })) := by
  change execProchotOnset s = _
  rw [execProchotOnset, if_neg (by simp [hlive, hprochot]), noteThrottle, if_neg (by simp [h3, h4])]

theorem exec_prochotEnd {s : State} (hprochot : s.pwr.prochot = true) :
    exec .prochotEnd s = .next (clockCause { s with pwr := { s.pwr with prochot := false } }) := by
  change execProchotEnd s = _
  rw [execProchotEnd, if_pos hprochot]

theorem exec_throttleEnd {s : State} {x : Nat} (hcool : s.pwr.coolAt = some x) (hthrottle : s.pwr.throttle = true)
    (hlong : x + 10000000 ≤ s.now) : exec .throttleEnd s = .next (clockCause { s with pwr := { s.pwr with throttle := false } }) := by
  change execThrottleEnd s = _
  rw [execThrottleEnd, hcool]
  dsimp only
  rw [if_pos ⟨hthrottle, hlong⟩]

/-! ### Temperature and trips (R438, R439) -/

/-- A device that has tripped: every bench empty, every span stopped, and the two pins low. -/
def Tripped (s t : State) : Prop :=
  t.pwr.trip = true ∧ t.pwr.state = .a0 ∧ (∀ q, (t.pier q).bench = []) ∧ (∀ k, (t.span k).running = false) ∧
    (s.live = true → t.faultLow = true ∧ t.thermLow = true)

theorem live_of_pins {s t : State} (h : t.pins = s.pins) : t.live = s.live := by
  rw [State.live, h, State.live]

theorem trip_tripped (code : Nat) {s u : State} (hpins : u.pins = s.pins) : Tripped s (trip code u) := by
  have hresumed : (if u.pwr.state = .a4 then resumeA4 u else u).pins = u.pins := pins_ite u (pins_resumeA4 u) rfl
  rw [trip_eq]
  obtain ⟨hpwr, hpins', hbench, hspan⟩ := tripFrom_spec code (if u.pwr.state = .a4 then resumeA4 u else u)
  have htrip : (tripFrom code (if u.pwr.state = .a4 then resumeA4 u else u)).pwr.trip = true := by rw [hpwr]
  refine ⟨htrip, by rw [hpwr], hbench, hspan, fun hlive => ?_⟩
  have hlive' : (tripFrom code (if u.pwr.state = .a4 then resumeA4 u else u)).live = true :=
    (live_of_pins (hpins'.trans (hresumed.trans hpins))).trans hlive
  simp [State.faultLow, State.thermLow, hlive', htrip]

theorem startResume_frame (s : State) : startResume s =
    { s with pwr := { s.pwr with move := (startResume s).pwr.move, wakePending := (startResume s).pwr.wakePending } } := by
  unfold startResume
  dsimp only
  split
  · rfl
  · rfl
  · rfl
  · rfl
  · rfl
  · split <;> rfl

/-- What the throttle and its record change: memory, FAULT_WRITTEN, power and what is queued. -/
def ThrottleOnly (s t : State) : Prop :=
  t = { s with mem := t.mem, regs := t.regs, pwr := t.pwr, pending := t.pending } ∧ regsBut [rasFaultWritten.key 0 0] s t ∧
    t.pwr.trip = s.pwr.trip

theorem ThrottleOnly.trans {s t u : State} (h : ThrottleOnly s t) (h' : ThrottleOnly t u) : ThrottleOnly s u := by
  obtain ⟨hframe, hregs, htrip⟩ := h
  obtain ⟨hframe', hregs', htrip'⟩ := h'
  refine ⟨by rw [hframe', hframe], fun k hk d => (hregs' k hk d).trans (hregs k hk d), htrip'.trans htrip⟩

theorem noteThrottle_only (s : State) : ThrottleOnly s (noteThrottle s) ∧ (noteThrottle s).pwr.throttle = s.pwr.throttle := by
  unfold noteThrottle
  split
  · exact ⟨⟨rfl, regsBut_refl _ s, rfl⟩, rfl⟩
  · exact ⟨⟨by rw [raise_frame], raise_regsBut (by decide) s, by rw [raise_frame]⟩, by rw [raise_frame]⟩

theorem clockCause_only (s : State) : ThrottleOnly s (clockCause s) ∧ (clockCause s).pwr = s.pwr := by
  rw [clockCause_eq]
  exact ⟨⟨rfl, regsBut_refl _ s, rfl⟩, rfl⟩

theorem startResume_only (s : State) : ThrottleOnly s (startResume s) ∧ (startResume s).pwr.throttle = s.pwr.throttle := by
  rw [startResume_frame]
  exact ⟨⟨rfl, regsBut_refl _ s, rfl⟩, rfl⟩

/-- The throttle comes into force from THROTTLE_C on. -/
theorem throttleAt_spec (t : Nat) (s : State) : ThrottleOnly s (throttleAt t s) ∧
    (throttleAt t s).pwr.throttle = (s.pwr.throttle || decide (s.dreg pwrThrottleC ≤ t)) := by
  unfold throttleAt
  by_cases h : s.pwr.throttle = true ∨ t < s.dreg pwrThrottleC
  · rw [if_pos h]
    refine ⟨⟨rfl, regsBut_refl _ s, rfl⟩, ?_⟩
    rcases h with h | h
    · rw [h, Bool.true_or]
    · rw [decide_eq_false (Nat.not_le.2 h), Bool.or_false]
  · have hset : ThrottleOnly s { s with pwr := { s.pwr with throttle := true } } := ⟨rfl, regsBut_refl _ s, rfl⟩
    obtain ⟨hnote, hnotePwr⟩ := noteThrottle_only { s with pwr := { s.pwr with throttle := true } }
    obtain ⟨hclock, hclockPwr⟩ := clockCause_only (noteThrottle { s with pwr := { s.pwr with throttle := true } })
    have hle : (s.pwr.throttle || decide (s.dreg pwrThrottleC ≤ t)) = true := by
      simp only [not_or, Nat.not_lt] at h
      simp [h.2]
    rw [if_neg h, hle]
    dsimp only
    split
    · exact ⟨hset.trans (hnote.trans hclock), by rw [hclockPwr, hnotePwr]⟩
    · obtain ⟨hstart, hstartPwr⟩ := startResume_only (clockCause (noteThrottle { s with pwr := { s.pwr with throttle := true } }))
      exact ⟨hset.trans (hnote.trans (hclock.trans hstart)), by rw [hstartPwr, hclockPwr, hnotePwr]⟩

/-- The state of a temperature update before the throttle and the trip. -/
def warmed (temp : Nat) (s : State) : State :=
  { s.setDreg pwrTempC (min temp 255) with
    pwr := { s.pwr with coolAt := if min temp 255 + 5 < s.dreg pwrThrottleC then some (s.pwr.coolAt.getD s.now) else none } }

theorem exec_tempUpdate {s : State} (hlive : s.live = true) (temp : Nat) : exec (.tempUpdate temp) s = .next
    (if 110 ≤ min temp 255 ∧ ¬ (warmed temp s).pwr.trip then trip 0x0902 (throttleAt (min temp 255) (warmed temp s))
      else throttleAt (min temp 255) (warmed temp s)) := by
  change execTempUpdate temp s = _
  rw [execTempUpdate, if_neg (by simp [hlive])]
  rfl

theorem dreg_throttleC_warmed (temp : Nat) (s : State) : (warmed temp s).dreg pwrThrottleC = s.dreg pwrThrottleC :=
  reg_setReg_ne s _ (by decide)

theorem exec_supplyFault {s : State} (hlive : s.live = true) (htrip : s.pwr.trip = false) :
    exec .supplyFault s = .next (trip 0x0903 s) := by
  change execSupplyFault s = _
  rw [execSupplyFault, if_neg (by simp [hlive, htrip])]

/-- Settles O43: the record of an onset leaves the settings, so FC_ACTIVE follows them; a trip empties every bench. -/
theorem clockAndTemperature : Obligations.ClockAndTemperature := by
  refine ⟨fun s hlive hprochot h3 h4 => ?_, fun s hprochot => ?_, fun s => rfl, fun s temp hlive => ?_,
    fun s x hcool hthrottle hlong => ?_, fun s hlive htrip => ⟨_, exec_supplyFault hlive htrip, trip_tripped 0x0903 rfl⟩⟩
  · obtain ⟨t, hclock, hrec, hframe⟩ := clockCause_raise (rc := { code := 0x0901, action := 0, unit := 0 }) (by decide)
      { s with pwr := { s.pwr with prochot := true } }
    exact ⟨t, (exec_prochotOnset hlive hprochot h3 h4).trans (congrArg _ hclock), hrec.congr rfl rfl rfl rfl rfl rfl, hframe⟩
  · rw [exec_prochotEnd hprochot, clockCause_eq]
    rfl
  · refine ⟨_, exec_tempUpdate hlive temp, fun hcool => ?_, fun hhot htrip => ?_⟩
    · obtain ⟨⟨hframe, hregs, htrip⟩, hthrottle⟩ := throttleAt_spec (min temp 255) (warmed temp s)
      have hstays : ¬ (110 ≤ min temp 255 ∧ ¬ (warmed temp s).pwr.trip = true) := by
        rintro ⟨hhot, hno⟩
        rcases hcool with hcool | htripped
        · omega
        · exact hno htripped
      rw [if_neg hstays]
      rw [dreg_throttleC_warmed] at hthrottle
      refine ⟨?_, htrip, ?_, fun h => ?_, fun h => ?_⟩
      · rw [State.dreg, hregs.reg_eq (by decide)]
        exact (tget_tput_same _ _ _ _).trans (Nat.mod_eq_of_lt (by simp only [pwrTempC]; omega))
      · rw [hframe]
        rfl
      · have hwas : (warmed temp s).pwr.throttle = false := h
        rw [hthrottle, hwas, Bool.false_or, decide_eq_true_iff]
      · have hwas : (warmed temp s).pwr.throttle = true := h
        rw [hthrottle, hwas, Bool.true_or]
    · have hgo : 110 ≤ min temp 255 ∧ ¬ (warmed temp s).pwr.trip = true := ⟨by omega, fun h => Bool.false_ne_true (htrip.symm.trans h)⟩
      rw [if_pos hgo]
      refine trip_tripped 0x0902 ?_
      rw [(throttleAt_spec _ _).1.1]
      rfl
  · rw [exec_throttleEnd hcool hthrottle hlong, clockCause_eq]
    rfl

end Sys2Proof.Machine

/-! The power states: decision, entry and resume (R441 to R446). -/
namespace Sys2Proof.Machine

/-! ### The decision (R442 to R444) -/

/-- The chosen state: the last of those that pass, or the one to begin with. -/
theorem foldl_choose {P : PState → Prop} {ok : PState → Bool} (hok : ∀ p, ok p = true → P p) (l : List PState) {b : PState} (hb : P b) :
    P (l.foldl (fun b p => if ok p then p else b) b) := by
  induction l generalizing b with
  | nil => exact hb
  | cons p l ih =>
    refine ih ?_
    dsimp only
    by_cases hp : ok p = true
    · rw [if_pos hp]
      exact hok p hp
    · rw [if_neg hp]
      exact hb

theorem choice_spec (s : State) : s.choice.depth ≤ s.dreg pwrDeepestAuto ∧ (s.choice = .a0 ∨ s.mayEnter s.choice = true) := by
  unfold State.choice
  refine foldl_choose (P := fun p => p.depth ≤ s.dreg pwrDeepestAuto ∧ (p = .a0 ∨ s.mayEnter p = true)) (fun p hp => ?_) _
    ⟨Nat.zero_le _, .inl rfl⟩
  simp only [Bool.and_eq_true, decide_eq_true_eq] at hp
  obtain ⟨⟨hdepth, hmay⟩, -⟩ := hp
  exact ⟨hdepth, .inr hmay⟩

/-- The decision, where the device dozes and is not between states. -/
def decided (s : State) : State :=
  if s.pwr.state.depth < s.choice.depth then
    { s with pwr := { s.pwr with gddrOff := false, move := .entering s.choice (s.now + entryNs s.choice) } }
  else if s.pwr.state = .a0 then s
  else { s with pwr := { s.pwr with move := s.resumeAt } }

theorem exec_pstateDecision {s : State} (hdozes : s.dozes = true) (hmove : s.pwr.move = .steady ∨ ∃ x, s.pwr.move = .scheduled x) :
    exec .pstateDecision s = .next (decided s) := by
  change execPstateDecision s = _
  unfold execPstateDecision
  dsimp only
  rw [if_neg (by simp [hdozes])]
  rcases hmove with hmove | ⟨x, hmove⟩
  · rw [hmove]
    rfl
  · rw [hmove]
    rfl

theorem decided_spec (s : State) : decided s = { s with pwr := (decided s).pwr } ∧ (decided s).pwr.state = s.pwr.state ∧
    (s.pwr.state.depth < s.choice.depth → (decided s).pwr.move = .entering s.choice (s.now + entryNs s.choice)) ∧
    (s.choice.depth ≤ s.pwr.state.depth → s.pwr.state ≠ .a0 → (decided s).pwr.move = s.resumeAt) := by
  unfold decided
  by_cases hdeeper : s.pwr.state.depth < s.choice.depth
  · rw [if_pos hdeeper]
    exact ⟨rfl, rfl, fun _ => rfl, fun hle => absurd hdeeper (Nat.not_lt.2 hle)⟩
  · rw [if_neg hdeeper]
    by_cases hawake : s.pwr.state = .a0
    · rw [if_pos hawake]
      exact ⟨rfl, rfl, fun h => absurd h hdeeper, fun _ h => absurd hawake h⟩
    · rw [if_neg hawake]
      exact ⟨rfl, rfl, fun h => absurd h hdeeper, fun _ _ => rfl⟩

/-! ### The entry of a state (R445, Table 17-7) -/

/-- The device as the state `p` leaves it. -/
def enterState (p : PState) (s : State) : State := if p = .a3 then enterA3 s else if p = .a4 then enterA4 s else s

/-- The power that follows an entry: a wake that came in between begins the resume. -/
theorem exec_pstateEntered {s : State} {p : PState} {done : Nat} (hmove : s.pwr.move = .entering p done) (hdue : done ≤ s.now) :
    ∃ t, exec .pstateEntered s = .next t ∧ t.pwr.state = p ∧
      t = { (enterState p s).bump (entries_ p) 0 0 1 with pwr := t.pwr } := by
  let s2 : State := { (enterState p s).bump (entries_ p) 0 0 1 with
    pwr := { ((enterState p s).bump (entries_ p) 0 0 1).pwr with state := p, move := .steady, wakePending := false } }
  have hexec : exec .pstateEntered s = if s.pwr.wakePending then .next (startResume s2)
      else .next { s2 with pwr := { s2.pwr with move := s2.resumeAt } } := by
    change execPstateEntered s = _
    rw [execPstateEntered, hmove]
    dsimp only
    rw [if_neg (Nat.not_lt.2 hdue)]
    rfl
  have hs2 : s2 = { (enterState p s).bump (entries_ p) 0 0 1 with pwr := s2.pwr } := rfl
  have hstate : s2.pwr.state = p := rfl
  clear_value s2
  rw [hexec]
  split
  · have hresume := startResume_frame s2
    generalize startResume s2 = t at hresume ⊢
    refine ⟨t, rfl, ?_, ?_⟩
    · rw [hresume]
      exact hstate
    · rw [hresume, hs2]
  · refine ⟨_, rfl, hstate, ?_⟩
    rw [hs2]

theorem resetRegs_keeps {e : Nat} {f : Fld}
    (hf : ∀ g ∈ (devFields ++ pierFields).filter (fun g => !bit g.kept e), g.owns (f.key 0 0) = false) (s : State) :
    (s.resetRegs e).dreg f = s.dreg f :=
  regs_clearRegs_of_not_owned hf { s with pwr := { s.pwr with fcActive := 0, prochot := false, throttle := false } } f.reset

theorem a3Entries_kept : ∀ g ∈ (devFields ++ pierFields).filter (fun g => !bit g.kept 6), g.owns (pwrA3Entries.key 0 0) = false := by
  decide +kernel

theorem a4Entries_kept : ∀ g ∈ (devFields ++ pierFields).filter (fun g => !bit g.kept 7), g.owns (pwrA4Entries.key 0 0) = false := by
  decide +kernel

section
variable (s : State)

theorem dreg_enterA3 : (enterA3 s).dreg pwrA3Entries = s.dreg pwrA3Entries := by
  have htime : ∀ u : State, (timeAlone u).dreg pwrA3Entries = u.dreg pwrA3Entries := by
    intro u
    unfold timeAlone
    split
    · exact reg_setReg_ne { u with servo := { u.servo with small := 0 } } 2 (by decide)
    · rfl
  exact (htime _).trans (resetRegs_keeps a3Entries_kept s)

/-- Entering A3 leaves memory and slots, and empties benches and instruction memories. -/
theorem enterA3_spec : (enterA3 s).mem = s.mem ∧ (enterA3 s).slots = s.slots ∧
    ∀ q, ((enterA3 s).pier q).bench = [] ∧ ((enterA3 s).pier q).imem = [] := by
  have htime : ∀ u : State, (timeAlone u).mem = u.mem ∧ (timeAlone u).slots = u.slots := by
    intro u
    unfold timeAlone
    split <;> exact ⟨rfl, rfl⟩
  refine ⟨(htime _).1, (htime _).2, fun q => ?_⟩
  have hpier : (enterA3 s).pier q = blankPier ((timeAlone (s.resetRegs 6)).pier q) := pier_blankPiers _ q
  rw [hpier]
  exact ⟨rfl, rfl⟩

/-- The links lost: every attachment and session ends, benches are empty, and the entries of A4 stay counted. -/
theorem loseLinks_spec : (loseLinks s).slots = [] ∧ (loseLinks s).sessions = [] ∧ (∀ q, ((loseLinks s).pier q).bench = []) ∧
    (loseLinks s).dreg pwrA4Entries = s.dreg pwrA4Entries := by
  let ids := s.sessions.flatMap fun e => e.2.classes.flatMap fun c => c.bundles.map (·.obj)
  refine ⟨rfl, rfl, fun q => ?_, ?_⟩
  · have hpier : (loseLinks s).pier q = blankPier (((freeObjs ids s).resetRegs 7).pier q) := pier_blankPiers _ q
    rw [hpier]
    rfl
  · have hregs : (loseLinks s).dreg pwrA4Entries = ((freeObjs ids s).resetRegs 7).dreg pwrA4Entries := rfl
    rw [hregs, resetRegs_keeps a4Entries_kept, storeOnly_freeObjs]
    rfl

/-- The state whose links are lost on the way to an A4 that keeps memory. -/
def State.saved (s : State) : State :=
  saveLlm ((((s.ks.run.map (·.bytes)).getD []).zipIdx).foldl (fun s e => s.wr (objAddr gddrLimit e.2) [e.1])
    { s with ks := { s.ks with saved := s.ks.run } })

theorem enterA4_eq : enterA4 s = if s.pwr.gddrOff then loseMemory (loseLinks s) else zeroSlices (loseLinks s.saved) := rfl

theorem saved_regs : s.saved.regs = s.regs := by
  have hwrites : ∀ (l : List (Byte × Nat)) (u : State), (l.foldl (fun s e => s.wr (objAddr gddrLimit e.2) [e.1]) u).regs = u.regs := by
    intro l
    induction l with
    | nil => exact fun u => rfl
    | cons e l ih => exact fun u => ih _
  exact hwrites _ _

theorem enterA4_spec : (enterA4 s).slots = [] ∧ (enterA4 s).sessions = [] ∧ (∀ q, ((enterA4 s).pier q).bench = []) ∧
    (enterA4 s).dreg pwrA4Entries = s.dreg pwrA4Entries ∧ (s.pwr.gddrOff = true → (enterA4 s).mem = []) := by
  rw [enterA4_eq]
  split
  · obtain ⟨hslots, hsessions, -, hregs⟩ := loseLinks_spec s
    exact ⟨hslots, hsessions, fun _ => rfl, hregs, fun _ => rfl⟩
  · next hoff =>
    obtain ⟨hslots, hsessions, hbench, hregs⟩ := loseLinks_spec s.saved
    refine ⟨hslots, hsessions, hbench, hregs.trans ?_, fun h => absurd h hoff⟩
    rw [State.dreg, State.reg, saved_regs]
    rfl

end

theorem dreg_enterState {p : PState} (hp : p ≠ .a0) (s : State) : (enterState p s).dreg (entries_ p) = s.dreg (entries_ p) := by
  cases p with
  | a0 => exact absurd rfl hp
  | a1 => rfl
  | a2 => rfl
  | a3 => exact dreg_enterA3 s
  | a4 =>
    obtain ⟨-, -, -, hregs, -⟩ := enterA4_spec s
    exact hregs

theorem entries_width (p : PState) : (entries_ p).w = 32 := by cases p <;> rfl

/-! ### The resume (R446) -/

theorem exec_resumeStart {s : State} {x : Nat} (hmove : s.pwr.move = .scheduled x) (hdue : x ≤ s.now) :
    exec .resumeStart s = .next { s with pwr := { s.pwr with move := .resuming (s.now + resumeNs s.pwr.state s.pwr.gddrOff) } } := by
  change execResumeStart s = _
  rw [execResumeStart, hmove]
  dsimp only
  rw [if_pos hdue, startResume, hmove]

theorem startResume_asleep {s : State} (hstate : s.pwr.state ≠ .a0) (hmove : s.pwr.move = .steady ∨ ∃ x, s.pwr.move = .scheduled x) :
    startResume s = { s with pwr := { s.pwr with move := .resuming (s.now + resumeNs s.pwr.state s.pwr.gddrOff) } } := by
  rcases hmove with hmove | ⟨x, hmove⟩
  · rw [startResume, hmove]
    exact if_neg hstate
  · rw [startResume, hmove]

theorem exec_wake {s : State} {source : Nat} (hlive : s.live = true) (htrip : s.pwr.trip = false) (hsource : 8 ≤ source)
    (hat : source = 8 → s.pwr.wakeAt ≠ 0) (hports : source ≠ 8 → s.portsOff = false) : exec (.wake source) s = .next (startResume s) := by
  change execWake source s = _
  unfold execWake
  dsimp only
  rw [if_neg (Nat.not_lt.2 hsource)]
  by_cases h8 : source = 8
  · rw [if_pos h8, if_pos (by simp [hat h8, hlive, htrip])]
  · rw [if_neg h8, if_pos (by simp [hports h8, hlive, htrip])]

/-- Only a batch that is fixed differs: its requests and its span. -/
def FixOnly (s t : State) : Prop := t = { s with nextSerial := t.nextSerial, requests := t.requests, spans := t.spans }

theorem FixOnly.trans {s t u : State} (h : FixOnly s t) (h' : FixOnly t u) : FixOnly s u := by
  rw [FixOnly, h', h]

theorem fixOnly_foldl {α : Type} {f : State → α → State} (hf : ∀ s a, FixOnly s (f s a)) (l : List α) (s : State) :
    FixOnly s (l.foldl f s) :=
  foldl_rel (R := FixOnly) (fun _ => rfl) FixOnly.trans hf l s

theorem fixOnly_modSpan (k : Nat) (f : Span → Span) (s : State) : FixOnly s (s.modSpan k f) := by
  rw [FixOnly, modSpan_frame _ _ _]

theorem fixOnly_fixBatch (k : Nat) (ws : List (Nat × Nat × Nat)) (at_ : Nat) (s : State) : FixOnly s (fixBatch k ws at_ s) := by
  unfold fixBatch
  dsimp only
  refine FixOnly.trans ?_ (fixOnly_modSpan k _ _)
  refine FixOnly.trans ?_ (fixOnly_foldl (fun s (w : Nat × Nat × Nat) => ?_) ws _)
  · rfl
  · rfl

theorem fixOnly_trySchedule (k : Nat) (s : State) : FixOnly s (trySchedule k s) := by
  unfold trySchedule
  dsimp only
  split
  · exact fixOnly_fixBatch k _ _ s
  · rfl

/-- Back in A0, before FC_ACTIVE follows its cause. -/
def reached (s : State) : State :=
  let s1 := { s with
    pwr := { s.pwr with state := .a0, move := .steady, wakePending := false, lateRecords := 0 }
    pending := s.pending ++ s.wakeBuf.map (·.2.2), wakeBuf := [], pausing := [] }
  let s2 := (List.range s.pwr.lateRecords).foldl (fun s _ => raise { code := 0x0901, action := 0, unit := 0 } s) s1
  (s2.spans.map (·.1)).foldl (fun s k => trySchedule k s) s2

theorem reachA0_eq (s : State) : reachA0 s = clockCause (reached s) := rfl

theorem raises_frame (n : Nat) (rc : Rec) (s : State) : (List.range n).foldl (fun s _ => raise rc s) s =
    { s with mem := ((List.range n).foldl (fun s _ => raise rc s) s).mem, regs := ((List.range n).foldl (fun s _ => raise rc s) s).regs } :=
  foldl_rel (R := fun s t => t = { s with mem := t.mem, regs := t.regs }) (fun _ => rfl) (fun h h' => by rw [h', h])
    (fun s _ => raise_frame s rc) _ s

theorem reached_spec (s : State) : (reached s).pwr.state = .a0 ∧ (reached s).pwr.move = .steady ∧ (reached s).wakeBuf = [] ∧
    (reached s).pending = s.pending ++ s.wakeBuf.map (·.2.2) := by
  unfold reached
  dsimp only
  have hraises := raises_frame s.pwr.lateRecords { code := 0x0901, action := 0, unit := 0 } { s with
    pwr := { s.pwr with state := .a0, move := .steady, wakePending := false, lateRecords := 0 }
    pending := s.pending ++ s.wakeBuf.map (·.2.2), wakeBuf := [], pausing := [] }
  generalize (List.range s.pwr.lateRecords).foldl _ _ = s2 at hraises ⊢
  have hfix := fixOnly_foldl (fun s k => fixOnly_trySchedule k s) (s2.spans.map (·.1)) s2
  generalize (s2.spans.map (·.1)).foldl _ _ = s3 at hfix ⊢
  rw [hfix, hraises]
  exact ⟨rfl, rfl, rfl, rfl⟩

/-- What a resume brings back before A0 is reached. -/
def resumed (s : State) : State :=
  if s.pwr.state = .a4 then resumeA4 s else if s.pwr.state = .a3 then rewriteAll (retrained s) else s

theorem exec_resumeDone {s : State} {done : Nat} (hmove : s.pwr.move = .resuming done) (hdue : done ≤ s.now) :
    exec .resumeDone s = .next (reachA0 (resumed s)) := by
  change execResumeDone s = _
  rw [execResumeDone, hmove]
  dsimp only
  rw [if_neg (Nat.not_lt.2 hdue), resumed]
  split
  · rfl
  · split <;> rfl

/-- Settles O42: an entry counts its state and clears what Table 17-7 names; a resume queues what frames brought. -/
theorem powerStates : Obligations.PowerStates := by
  refine ⟨fun s hdozes hmove => ?_, fun s p done hmove hdue hp => ?_, fun s x hmove hdue => exec_resumeStart hmove hdue,
    fun s source hlive htrip hsource hat hports hstate hmove => ?_, fun s done hmove hdue => ?_⟩
  · obtain ⟨hdepth, hmay⟩ := choice_spec s
    obtain ⟨hframe, hstate, hdeeper, hshallower⟩ := decided_spec s
    exact ⟨hdepth, hmay, _, exec_pstateDecision hdozes hmove, hframe, hstate, hdeeper, hshallower⟩
  · obtain ⟨t, hexec, hstate, hframe⟩ := exec_pstateEntered hmove hdue
    refine ⟨t, hexec, hstate, ?_, fun h12 => ?_, fun h3 => ?_, fun h4 => ?_⟩
    · rw [hframe]
      refine (reg_setReg_same (enterState p s) (entries_ p) 0 0 _).trans ?_
      rw [← State.dreg, dreg_enterState hp, entries_width]
      exact Nat.mod_eq_of_lt (by simp only [satAdd]; omega)
    all_goals rw [hframe]
    · rcases h12 with rfl | rfl <;> exact ⟨rfl, rfl, rfl, rfl⟩
    · subst h3
      exact enterA3_spec s
    · subst h4
      obtain ⟨hslots, hsessions, hbench, -, hmem⟩ := enterA4_spec s
      exact ⟨hslots, hsessions, hbench, hmem⟩
  · rw [exec_wake hlive htrip hsource hat hports, startResume_asleep hstate hmove]
  · obtain ⟨hstate, hsteady, hbuf, hpending⟩ := reached_spec (resumed s)
    refine ⟨_, exec_resumeDone hmove hdue, ?_⟩
    rw [reachA0_eq, clockCause_eq]
    refine ⟨hstate, hsteady, hbuf, fun h4 => ?_⟩
    have hkept : (resumed s).pending = s.pending ∧ (resumed s).wakeBuf = s.wakeBuf := by
      rw [resumed, if_neg h4]
      split
      · rw [piersOnly_rewriteAll]
        exact ⟨rfl, rfl⟩
      · exact ⟨rfl, rfl⟩
    obtain ⟨hpend, hwake⟩ := hkept
    rw [hpend, hwake] at hpending
    dsimp only
    rw [hpending]
    rfl

end Sys2Proof.Machine

/-! Frames of a port and its link (R356, R357, R360). -/
namespace Sys2Proof.Machine

/-! ### Counters -/

theorem satAdd_lt (w a n : Nat) : satAdd w a n < 2 ^ w := by
  have hpos : 0 < 2 ^ w := Nat.two_pow_pos w
  simp only [satAdd]
  omega

/-- A counter counts on and stops at its width. -/
theorem reg_bump_same (s : State) (f : Fld) (p i n : Nat) : (s.bump f p i n).reg f p i = satAdd f.w (s.reg f p i) n := by
  rw [bump_eq, reg_setReg_same, Nat.mod_eq_of_lt (satAdd_lt _ _ _)]

theorem reg_bump_ne (s : State) {f g : Fld} {p q i j : Nat} (n : Nat) (h : g.key q j ≠ f.key p i) :
    (s.bump f p i n).reg g q j = s.reg g q j := reg_setReg_ne s _ h

/-! ### Frames that a port answers or drops -/

section
variable {k : Nat} {s : State}

/-- The next state of a frame on port `k` that is counted and dropped. -/
def FrameDropped (k : Nat) (s t : State) : Prop :=
  t = { s with regs := t.regs } ∧ t.reg prtDrops 0 k = satAdd prtDrops.w (s.reg prtDrops 0 k) 1

theorem frameDropped_taken (k : Nat) (s : State) : FrameDropped k s ((s.bump prtRxPackets 0 k 1).bump prtDrops 0 k 1) :=
  ⟨rfl, by rw [reg_bump_same, reg_bump_ne s 1 (by simp [Fld.key, prtDrops, prtRxPackets] <;> omega)]⟩

theorem sendOn_taken (k : Nat) (m : Out) (s : State) :
    let t := (s.bump prtRxPackets 0 k 1).sendOn k m
    t = { s with regs := t.regs, out := s.out ++ [m] } ∧ regsBut [prtRxPackets.key 0 k, prtTxPackets.key 0 k] s t ∧
      t.reg prtTxPackets 0 k = satAdd prtTxPackets.w (s.reg prtTxPackets 0 k) 1 := by
  refine ⟨rfl, ?_, ?_⟩
  · exact ((regsBut_refl _ s).setReg _ (.head _)).setReg (t := s.bump prtRxPackets 0 k 1) _ (.tail _ (.head _))
  · refine (reg_bump_same (s.bump prtRxPackets 0 k 1) prtTxPackets 0 k 1).trans ?_
    rw [reg_bump_ne s 1 (by simp [Fld.key, prtTxPackets, prtRxPackets] <;> omega)]

/-- The port's own addresses do not depend on the packets it has counted. -/
theorem portV4_bump (j : Nat) : (s.bump prtRxPackets 0 k 1).portV4 j = s.portV4 j := by
  rw [State.portV4, reg_bump_ne s 1 (by simp [Fld.key, prtIpv4, prtRxPackets]; omega), State.portV4]

theorem portV6_bump (j : Nat) : (s.bump prtRxPackets 0 k 1).portV6 j = s.portV6 j := by
  rw [State.portV6, reg_bump_ne s 1 (by simp [Fld.key, prtIpv6w0, prtRxPackets]; omega),
    reg_bump_ne s 1 (by simp [Fld.key, prtIpv6w1, prtRxPackets]; omega),
    reg_bump_ne s 1 (by simp [Fld.key, prtIpv6w2, prtRxPackets]; omega),
    reg_bump_ne s 1 (by simp [Fld.key, prtIpv6w3, prtRxPackets]; omega), State.portV6]

end

section
variable (o : NetOp) {s : State} (h : s.takes o.port)
include h

theorem exec_arp_taken : exec (.arp o) s = .next (if o.target = s.portV4 o.port then
    (s.bump prtRxPackets 0 o.port 1).sendOn o.port (.arpReply o.port o.sender (s.portMac o.port))
      else (s.bump prtRxPackets 0 o.port 1).bump prtDrops 0 o.port 1) := by
  change execArp o s = _
  rw [execArp, onPort_takes (h := h), portV4_bump]
  rfl

theorem exec_neighborDiscovery_taken : exec (.neighborDiscovery o) s = .next (if o.target = s.portV6 o.port then
    (s.bump prtRxPackets 0 o.port 1).sendOn o.port (.ndReply o.port o.sender (s.portMac o.port))
      else (s.bump prtRxPackets 0 o.port 1).bump prtDrops 0 o.port 1) := by
  change execNeighborDiscovery o s = _
  rw [execNeighborDiscovery, onPort_takes (h := h), portV6_bump]
  rfl

theorem exec_echoRequest_taken : exec (.echoRequest o) s = .next (if o.target = s.portV4 o.port ∨ o.target = s.portV6 o.port then
    (s.bump prtRxPackets 0 o.port 1).sendOn o.port (.echoReply o.port o.sender o.payload)
      else (s.bump prtRxPackets 0 o.port 1).bump prtDrops 0 o.port 1) := by
  change execEchoRequest o s = _
  rw [execEchoRequest, onPort_takes (h := h), portV4_bump, portV6_bump]

end

/-! ### The link of a port -/

/-- LINK_UP and SPEED_ACTIVE of port `k` set. -/
def State.setLink (s : State) (k up speed : Nat) : State := (s.setReg prtLinkUp 0 k up).setReg prtSpeedActive 0 k speed

theorem setLink_spec (s : State) (k up speed : Nat) :
    s.setLink k up speed = { s with regs := (s.setLink k up speed).regs } ∧ (s.setLink k up speed).reg prtLinkUp 0 k = up % 2 ∧
      (s.setLink k up speed).reg prtSpeedActive 0 k = speed % 2 ^ prtSpeedActive.w ∧
      regsBut [prtLinkUp.key 0 k, prtSpeedActive.key 0 k] s (s.setLink k up speed) := by
  refine ⟨rfl, ?_, reg_setReg_same _ _ _ _ _, ?_⟩
  · refine (reg_setReg_ne (s.setReg prtLinkUp 0 k up) speed ?_).trans (reg_setReg_same s _ _ _ _)
    simp [Fld.key, prtLinkUp, prtSpeedActive]
  · exact ((regsBut_refl _ s).setReg _ (.head _)).setReg (t := s.setReg prtLinkUp 0 k up) _ (.tail _ (.head _))

section
variable {k : Nat} {s : State} (hk : k < 8)
include hk

theorem exec_linkDown_eq : exec (.linkDown k) s = .next (s.setLink k 0 0) := by
  change execLinkDown k s = _
  rw [execLinkDown, if_neg (by omega)]
  rfl

theorem exec_linkUp_eq (hmac : s.macOn k = true) : exec (.linkUp k) s = .next (s.setLink k 1 (s.reg prtSpeed 0 k)) := by
  change execLinkUp k s = _
  rw [execLinkUp, if_neg (by omega), if_neg (by simp [hmac])]
  rfl

theorem exec_unsupportedFrame_eq (hmac : s.macOn k = true) (bad : Bool) : exec (.unsupportedFrame k bad) s =
    .next (if bad then (s.bump prtDrops 0 k 1).bump prtFcsErrors 0 k 1 else s.bump prtDrops 0 k 1) := by
  change execUnsupportedFrame k bad s = _
  rw [execUnsupportedFrame, if_neg (by omega), if_neg (by simp [hmac])]

theorem exec_pfcFrame_eq (hmac : s.macOn k = true) (pause : Bool) : exec (.pfcFrame k pause) s =
    if s.reg prtPfcEnable 0 k = 0 then .next (s.bump prtDrops 0 k 1)
    else .next { s with paused := if pause then k :: s.paused.filter (· != k) else s.paused.filter (· != k) } := by
  change execPfcFrame k pause s = _
  rw [execPfcFrame, if_neg (by omega), if_neg (by simp [hmac])]

/-- A port without power or boot does nothing. -/
theorem exec_macOff (hmac : s.macOn k = false) : ∀ cmd ∈ [Instr.linkUp k, .unsupportedFrame k true, .pfcFrame k true],
    exec cmd s = .next s := by
  have hon : (!s.macOn k) = true := by simp [hmac]
  intro cmd hcmd
  simp only [List.mem_cons, List.not_mem_nil, or_false] at hcmd
  obtain rfl | rfl | rfl := hcmd
  · change execLinkUp k s = _
    rw [execLinkUp, if_neg (by omega), if_pos hon]
  · change execUnsupportedFrame k true s = _
    rw [execUnsupportedFrame, if_neg (by omega), if_pos hon]
  · change execPfcFrame k true s = _
    rw [execPfcFrame, if_neg (by omega), if_pos hon]

end

theorem frameDropped_bump (k : Nat) (s : State) : FrameDropped k s (s.bump prtDrops 0 k 1) := ⟨rfl, reg_bump_same s _ _ _ _⟩

/-- A frame outside the subset is dropped; with a bad FCS that is counted too. -/
theorem unsupported_counts (k : Nat) (bad : Bool) (s : State) :
    let t := if bad then (s.bump prtDrops 0 k 1).bump prtFcsErrors 0 k 1 else s.bump prtDrops 0 k 1
    FrameDropped k s t ∧
      t.reg prtFcsErrors 0 k = if bad then satAdd prtFcsErrors.w (s.reg prtFcsErrors 0 k) 1 else s.reg prtFcsErrors 0 k := by
  have hne : prtFcsErrors.key 0 k ≠ prtDrops.key 0 k := by simp [Fld.key, prtFcsErrors, prtDrops] <;> omega
  cases bad with
  | false => exact ⟨frameDropped_bump k s, reg_bump_ne s 1 hne⟩
  | true =>
    refine ⟨⟨rfl, ?_⟩, ?_⟩
    · exact (reg_bump_ne (s.bump prtDrops 0 k 1) 1 hne.symm).trans (reg_bump_same s _ _ _ _)
    · refine (reg_bump_same (s.bump prtDrops 0 k 1) _ _ _ _).trans ?_
      rw [reg_bump_ne s 1 hne]
      rfl

theorem mem_paused (k j : Nat) (pause : Bool) (l : List Nat) :
    j ∈ (if pause then k :: l.filter (· != k) else l.filter (· != k)) ↔ if j = k then pause = true else j ∈ l := by
  by_cases hj : j = k
  · cases pause <;> simp [hj]
  · cases pause <;> simp [hj]

/-- Settles O58: a frame for the port's own address is answered, another one dropped and counted. -/
theorem portFrames : Obligations.PortFrames := by
  refine ⟨fun o s h => ⟨fun hv4 => ?_, fun hv4 => ?_, fun hv6 => ?_, fun hv6 => ?_, fun hown => ?_, fun hv4 hv6 => ?_⟩,
    fun k s hk => ⟨?_, fun hmac => ⟨?_, fun bad => ?_, fun pause => ?_⟩, exec_macOff hk⟩⟩
  · refine ⟨_, (exec_arp_taken o h).trans ?_, sendOn_taken o.port _ s⟩
    rw [if_pos hv4]
  · refine ⟨_, (exec_arp_taken o h).trans ?_, frameDropped_taken o.port s⟩
    rw [if_neg hv4]
  · refine ⟨_, (exec_neighborDiscovery_taken o h).trans ?_, sendOn_taken o.port _ s⟩
    rw [if_pos hv6]
  · refine ⟨_, (exec_neighborDiscovery_taken o h).trans ?_, frameDropped_taken o.port s⟩
    rw [if_neg hv6]
  · refine ⟨_, (exec_echoRequest_taken o h).trans ?_, sendOn_taken o.port _ s⟩
    rw [if_pos hown]
  · refine ⟨_, (exec_echoRequest_taken o h).trans ?_, frameDropped_taken o.port s⟩
    rw [if_neg (not_or.2 ⟨hv4, hv6⟩)]
  · exact ⟨_, exec_linkDown_eq hk, setLink_spec s k 0 0⟩
  · exact ⟨_, exec_linkUp_eq hk hmac, setLink_spec s k 1 _⟩
  · obtain ⟨hdropped, hfcs⟩ := unsupported_counts k bad s
    exact ⟨_, exec_unsupportedFrame_eq hk hmac bad, hdropped, hfcs⟩
  · have hexec := exec_pfcFrame_eq hk hmac pause
    by_cases hoff : s.reg prtPfcEnable 0 k = 0
    · rw [if_pos hoff] at hexec
      exact ⟨_, hexec, fun _ => frameDropped_bump k s, fun hon => absurd hoff hon⟩
    · rw [if_neg hoff] at hexec
      refine ⟨_, hexec, fun h0 => absurd h0 hoff, fun _ => ⟨rfl, ?_, fun j hj => ?_⟩⟩
      · exact (mem_paused k k pause s.paused).trans (by rw [if_pos rfl])
      · exact (mem_paused k j pause s.paused).trans (by rw [if_neg hj])

end Sys2Proof.Machine

/-! RDMA of a partner, congestion and retries (R358, R360 to R366). -/
namespace Sys2Proof.Machine

/-! ### A queue pair changed -/

/-- A find by key after a change of the entries with the key. -/
theorem find?_update {α : Type} (key : α → Nat) (l : List α) (n : Nat) (f : α → α) (hf : ∀ x, key (f x) = key x) :
    (l.map fun x => if key x = n then f x else x).find? (fun x => key x = n) = (l.find? fun x => key x = n).map f := by
  induction l with
  | nil => rfl
  | cons x l ih =>
    by_cases hx : key x = n
    · rw [List.map_cons, if_pos hx, List.find?_cons_of_pos (by simp [hf, hx]), List.find?_cons_of_pos (by simp [hx])]
      rfl
    · rw [List.map_cons, if_neg hx, List.find?_cons_of_neg (by simp [hx]), List.find?_cons_of_neg (by simp [hx]), ih]

theorem find?_modQp (l : List Qp) (n : Nat) (f : Qp → Qp) (hf : ∀ x, (f x).qpn = x.qpn) :
    (l.map fun x => if x.qpn = n then f x else x).find? (fun x => x.qpn = n) = (l.find? fun x => x.qpn = n).map f :=
  find?_update Qp.qpn l n f hf

/-! ### A message on the PSN that is due (R360, R364) -/

/-- The state in which a message on the due PSN of queue pair `q` runs: the packet and the PSN are counted, the slot is on the set of `q`. -/
def rdmaNext (o : RdmaOp) (q : Qp) (s : State) : State :=
  ((s.bump prtRxPackets 0 o.port 1).modQp q.qpn fun x => { x with rxPsn := (x.rxPsn + 1) % 2 ^ 24 }).modSlot q.slot
    fun sl => { sl with onStandby := q.standby }

/-- What a message on the due PSN of queue pair `q` of slot contents `sl` leaves; `ring` is what the partner has written of the
slot's ring. -/
def RdmaTaken (o : RdmaOp) (q : Qp) (sl : Slot) (s t : State) (ring : List Nat) : Prop :=
  t = { s with regs := t.regs, qps := t.qps, slots := t.slots, out := t.out, mem := t.mem, windows := t.windows } ∧
    t.qps.find? (fun x => x.qpn = o.qpn) = some { q with rxPsn := (q.rxPsn + 1) % 2 ^ 24 } ∧
    tfind t.slots q.slot = some { sl with onStandby := q.standby, written := ring } ∧
    ∀ p, p ≠ q.slot → tfind t.slots p = tfind s.slots p

section
variable {o : RdmaOp} {q : Qp} {sl : Slot} {s : State} (htakes : s.takes o.port)
  (hq : s.qps.find? (fun q => q.qpn = o.qpn) = some q) (hkind : q.kind = 2) (hsl : tfind s.slots q.slot = some sl)
  (hport : sl.port q.standby = o.port)

theorem rdmaTaken_next (hq : s.qps.find? (fun q => q.qpn = o.qpn) = some q) (hsl : tfind s.slots q.slot = some sl) :
    RdmaTaken o q sl s (rdmaNext o q s) sl.written := by
  have hqpn : q.qpn = o.qpn := by simpa using List.find?_some hq
  refine ⟨rfl, ?_, ?_, fun p hp => ?_⟩
  · have hfind := find?_modQp s.qps o.qpn (fun x => { x with rxPsn := (x.rxPsn + 1) % 2 ^ 24 }) (fun _ => rfl)
    rw [hq, ← hqpn] at hfind
    rw [← hqpn]
    exact hfind
  · exact (tfind_update_same s.slots q.slot fun sl => { sl with onStandby := q.standby }).trans (by rw [hsl]; rfl)
  · exact tfind_update_ne s.slots (fun sl => { sl with onStandby := q.standby }) hp

theorem RdmaTaken.update {t u : State} {ring : List Nat} (h : RdmaTaken o q sl s t ring)
    (hu : u = { t with regs := u.regs, out := u.out, mem := u.mem, windows := u.windows }) : RdmaTaken o q sl s u ring := by
  obtain ⟨hframe, hqps, hslot, hslots⟩ := h
  refine ⟨by rw [hu, hframe], ?_, ?_, fun p hp => ?_⟩
  · rw [hu]; exact hqps
  · rw [hu]; exact hslot
  · rw [hu]; exact hslots p hp

theorem RdmaTaken.sendOn {t : State} {ring : List Nat} (h : RdmaTaken o q sl s t ring) (k : Nat) (m : Out) :
    RdmaTaken o q sl s (t.sendOn k m) ring := by
  obtain ⟨hframe, hqps, hslot, hslots⟩ := h
  refine ⟨?_, hqps, hslot, hslots⟩
  rw [hframe]
  rfl

/-- The ring slots that a write reaches. -/
theorem markRing_spec (w off n p : Nat) {u : State} {x : Slot} (hx : tfind u.slots p = some x) :
    markRing w off n p u = { u with slots := (markRing w off n p u).slots } ∧
      (∀ j, j ≠ p → tfind (markRing w off n p u).slots j = tfind u.slots j) ∧
      ∃ ring, tfind (markRing w off n p u).slots p = some { x with written := ring } ∧
        ∀ i, i ∈ ring ↔ i ∈ x.written ∨ (w = 2 * p ∧ n ≠ 0 ∧ off / 64 ≤ i ∧ 64 * i < off + n) := by
  unfold markRing
  by_cases h : w ≠ 2 * p ∨ n = 0
  · rw [if_pos h]
    refine ⟨rfl, fun _ _ => rfl, x.written, hx, fun i => ⟨.inl, fun hi => hi.resolve_right fun ⟨hw, hn, _⟩ => ?_⟩⟩
    exact h.elim (· hw) hn
  · rw [if_neg h]
    obtain ⟨hw, hn⟩ := not_or.1 h
    dsimp only
    refine ⟨rfl, fun j hj => tfind_modSlot_ne u _ hj, _, (tfind_modSlot_same u p _).trans (by rw [hx]; rfl), fun i => ?_⟩
    simp only [List.mem_append, List.mem_filter, List.mem_map, List.mem_range, List.contains_eq_mem, Bool.not_eq_eq_eq_not, Bool.not_true,
      decide_eq_false_iff_not]
    by_cases hwritten : i ∈ x.written
    · simp [hwritten]
    · simp only [hwritten, false_or, not_false_eq_true, and_true]
      refine ⟨fun ⟨a, ha, hi⟩ => ⟨Classical.not_not.1 hw, hn, by omega, by omega⟩, fun ⟨_, _, hlo, hhi⟩ => ⟨i - off / 64, by omega, by omega⟩⟩

/-- What a message on the due PSN does, by the window that it reaches, where `run` is its effect there. -/
def rdmaReached (o : RdmaOp) (q : Qp) (write : Bool) (n : Nat) (run : Nat → Window → State → State) (s : State) :
    Option (Nat × Window) → State
  | none => staleMessage o (rdmaNext o q s)
  | some (w, e) => if rdmaAllowed w e q.slot o write n then run w e (rdmaNext o q s)
      else (rdmaNext o q s).sendOn o.port (.rdmaNak o.qpn o.psn)

theorem rdma_due {write : Bool} {n : Nat} {run : Nat → Window → State → State} (hq : s.qps.find? (fun q => q.qpn = o.qpn) = some q)
    (hkind : q.kind = 2) (hsl : tfind s.slots q.slot = some sl) (hport : sl.port q.standby = o.port) (hok : q.failed = false)
    (hpsn : o.psn = q.rxPsn) : rdma o write n (s.bump prtRxPackets 0 o.port 1) run =
      rdmaReached o q write n run s (s.rdmaWindow o.rkey) := by
  have hq' : (s.bump prtRxPackets 0 o.port 1).qps.find? (fun q => q.qpn = o.qpn) = some q := hq
  have hsl' : tfind (s.bump prtRxPackets 0 o.port 1).slots q.slot = some sl := hsl
  have hhere : ¬ (q.kind ≠ 2 ∨ (((tfind (s.bump prtRxPackets 0 o.port 1).slots q.slot).map fun sl => sl.port q.standby).getD 8) ≠ o.port) := by
    rw [hsl']
    simp [hkind, hport]
  rw [rdma, hq']
  dsimp only
  have hwin : (rdmaNext o q s).rdmaWindow o.rkey = s.rdmaWindow o.rkey := rfl
  rw [if_neg hhere, if_neg (by simp [hok, hpsn]), ← rdmaNext, hwin]
  cases s.rdmaWindow o.rkey <;> rfl

/-- A message on a failed queue pair, or with another PSN, gets a NAK. -/
theorem rdma_nak {write : Bool} {n : Nat} {run : Nat → Window → State → State} (hq : s.qps.find? (fun q => q.qpn = o.qpn) = some q)
    (hkind : q.kind = 2) (hsl : tfind s.slots q.slot = some sl) (hport : sl.port q.standby = o.port)
    (hno : q.failed = true ∨ o.psn ≠ q.rxPsn) : rdma o write n (s.bump prtRxPackets 0 o.port 1) run =
      (s.bump prtRxPackets 0 o.port 1).sendOn o.port (.rdmaNak o.qpn o.psn) := by
  have hq' : (s.bump prtRxPackets 0 o.port 1).qps.find? (fun q => q.qpn = o.qpn) = some q := hq
  have hsl' : tfind (s.bump prtRxPackets 0 o.port 1).slots q.slot = some sl := hsl
  have hhere : ¬ (q.kind ≠ 2 ∨ (((tfind (s.bump prtRxPackets 0 o.port 1).slots q.slot).map fun sl => sl.port q.standby).getD 8) ≠ o.port) := by
    rw [hsl']
    simp [hkind, hport]
  rw [rdma, hq']
  dsimp only
  rw [if_neg hhere, if_pos hno]

theorem exec_rdmaWrite_taken (htakes : s.takes o.port) : exec (.rdmaWrite o) s = .next (rdma o true o.data.length
    (s.bump prtRxPackets 0 o.port 1) fun w e s =>
      (markRing w o.offset o.data.length e.owner (s.wr (e.base + o.offset) o.data)).sendOn o.port (.rdmaAck o.qpn o.psn)) := by
  change execRdmaWrite o s = _
  rw [execRdmaWrite, onPort_takes (h := htakes)]

theorem exec_rdmaRead_taken (htakes : s.takes o.port) : exec (.rdmaRead o) s = .next (rdma o false o.length
    (s.bump prtRxPackets 0 o.port 1) fun _ e s => s.sendOn o.port (.rdmaData o.qpn o.psn (s.rd (e.base + o.offset) o.length))) := by
  change execRdmaRead o s = _
  rw [execRdmaRead, onPort_takes (h := htakes)]

/-- Both messages end in one state where their window is stale. -/
theorem exec_rdma_stale (htakes : s.takes o.port) (hq : s.qps.find? (fun q => q.qpn = o.qpn) = some q)
    (hkind : q.kind = 2) (hsl : tfind s.slots q.slot = some sl) (hport : sl.port q.standby = o.port) (hok : q.failed = false)
    (hpsn : o.psn = q.rxPsn) (hwin : s.rdmaWindow o.rkey = none) :
    ∀ cmd ∈ [Instr.rdmaWrite o, .rdmaRead o], exec cmd s = .next (staleMessage o (rdmaNext o q s)) := by
  intro cmd hcmd
  simp only [List.mem_cons, List.not_mem_nil, or_false] at hcmd
  obtain rfl | rfl := hcmd
  · rw [exec_rdmaWrite_taken htakes, rdma_due hq hkind hsl hport hok hpsn, hwin, rdmaReached]
  · rw [exec_rdmaRead_taken htakes, rdma_due hq hkind hsl hport hok hpsn, hwin, rdmaReached]

/-- Both messages end in one state where their queue pair does not take them. -/
theorem exec_rdma_nak (htakes : s.takes o.port) (hq : s.qps.find? (fun q => q.qpn = o.qpn) = some q)
    (hkind : q.kind = 2) (hsl : tfind s.slots q.slot = some sl) (hport : sl.port q.standby = o.port)
    (hno : q.failed = true ∨ o.psn ≠ q.rxPsn) : ∀ cmd ∈ [Instr.rdmaWrite o, .rdmaRead o],
      exec cmd s = .next ((s.bump prtRxPackets 0 o.port 1).sendOn o.port (.rdmaNak o.qpn o.psn)) := by
  intro cmd hcmd
  simp only [List.mem_cons, List.not_mem_nil, or_false] at hcmd
  obtain rfl | rfl := hcmd
  · rw [exec_rdmaWrite_taken htakes, rdma_nak hq hkind hsl hport hno]
  · rw [exec_rdmaRead_taken htakes, rdma_nak hq hkind hsl hport hno]

/-- The window of a stale key is noted, and recorded where it was not. -/
def staleNoted (w : Nat) (s : State) : State :=
  if (s.win w).noted then s else raise { code := 0x0401, action := 0, unit := 5 } (s.setWin w { s.win w with noted := true })

theorem staleMessage_eq (o : RdmaOp) (s : State) : staleMessage o s =
    (staleNoted (fld o.rkey 0 10) (s.bump prtStaleWrites 0 0 1)).sendOn o.port (.rdmaNak o.qpn o.psn) := rfl

theorem staleNoted_spec (w : Nat) (s : State) :
    staleNoted w s = { s with regs := (staleNoted w s).regs, mem := (staleNoted w s).mem, windows := (staleNoted w s).windows } ∧
      ((staleNoted w s).win w).noted = true ∧ regsBut [rasFaultWritten.key 0 0] s (staleNoted w s) ∧
      ((s.win w).noted = false → Recorded { code := 0x0401, action := 0, unit := 5 } s (staleNoted w s)) ∧
      ((s.win w).noted = true → (staleNoted w s).mem = s.mem) := by
  unfold staleNoted
  by_cases hnoted : (s.win w).noted = true
  · rw [if_pos hnoted]
    exact ⟨rfl, hnoted, regsBut_refl _ s, fun h => absurd (hnoted.symm.trans h) (by decide), fun _ => rfl⟩
  · rw [if_neg hnoted]
    have hframe := raise_frame (s.setWin w { s.win w with noted := true }) { code := 0x0401, action := 0, unit := 5 }
    have hrec := (raise_spec { code := 0x0401, action := 0, unit := 5 } (s.setWin w { s.win w with noted := true })).1
    have hregs := raise_regsBut (r := { code := 0x0401, action := 0, unit := 5 }) (by decide) (s.setWin w { s.win w with noted := true })
    generalize raise { code := 0x0401, action := 0, unit := 5 } (s.setWin w { s.win w with noted := true }) = t at hframe hrec hregs ⊢
    have hwin : t.win w = { s.win w with noted := true } := by
      rw [hframe]
      exact tget_tput_same _ _ _ _
    refine ⟨by rw [hframe]; rfl, by rw [hwin], hregs, fun _ => hrec.congr rfl rfl rfl rfl rfl rfl, fun h => absurd h hnoted⟩

end

theorem dreg_sendOn {f : Fld} {k : Nat} (hk : f.key 0 0 ≠ prtTxPackets.key 0 k) (m : Out) (s : State) : (s.sendOn k m).dreg f = s.dreg f :=
  reg_bump_ne s 1 hk

theorem Recorded.sendOn {rc : Rec} {s t : State} (h : Recorded rc s t) (k : Nat) (m : Out) : Recorded rc s (t.sendOn k m) := by
  obtain ⟨hmem, hcount⟩ := h
  exact ⟨hmem, (dreg_sendOn (by simp [Fld.key, rasFaultWritten, prtTxPackets]; omega) m t).trans hcount⟩

theorem dreg_rdmaNext {f : Fld} {o : RdmaOp} (hk : f.key 0 0 ≠ prtRxPackets.key 0 o.port) (q : Qp) (s : State) :
    (rdmaNext o q s).dreg f = s.dreg f := reg_bump_ne s 1 hk

section
variable {o : RdmaOp} {q : Qp} {sl : Slot} {s : State}

/-- A stale message is counted, recorded once for its window, and gets a NAK. -/
theorem staleMessage_spec (hq : s.qps.find? (fun q => q.qpn = o.qpn) = some q) (hsl : tfind s.slots q.slot = some sl) :
    let t := staleMessage o (rdmaNext o q s)
    RdmaTaken o q sl s t sl.written ∧ t.out = s.out ++ [.rdmaNak o.qpn o.psn] ∧
      t.dreg prtStaleWrites = satAdd prtStaleWrites.w (s.dreg prtStaleWrites) 1 ∧ (t.win (fld o.rkey 0 10)).noted = true ∧
      ((s.win (fld o.rkey 0 10)).noted = false → Recorded { code := 0x0401, action := 0, unit := 5 } s t) ∧
      ((s.win (fld o.rkey 0 10)).noted = true → t.mem = s.mem) := by
  intro t
  have ht : t = (staleNoted (fld o.rkey 0 10) ((rdmaNext o q s).bump prtStaleWrites 0 0 1)).sendOn o.port (.rdmaNak o.qpn o.psn) :=
    staleMessage_eq o _
  obtain ⟨hframe, hnoted, hregs, hrec, hmem⟩ := staleNoted_spec (fld o.rkey 0 10) ((rdmaNext o q s).bump prtStaleWrites 0 0 1)
  clear_value t
  have hbase : RdmaTaken o q sl s ((rdmaNext o q s).bump prtStaleWrites 0 0 1) sl.written := (rdmaTaken_next hq hsl).update rfl
  generalize staleNoted (fld o.rkey 0 10) ((rdmaNext o q s).bump prtStaleWrites 0 0 1) = u at ht hframe hnoted hregs hrec hmem
  have hout : u.out = s.out := by rw [hframe]; rfl
  have htaken : RdmaTaken o q sl s u sl.written := hbase.update (by rw [hframe])
  subst ht
  refine ⟨htaken.sendOn _ _, congrArg (· ++ [Out.rdmaNak o.qpn o.psn]) hout, ?_, hnoted, fun h => ?_, fun h => hmem h⟩
  · rw [dreg_sendOn (by simp [Fld.key, prtStaleWrites, prtTxPackets]; omega), State.dreg, hregs.reg_eq (by decide), reg_bump_same,
      ← State.dreg, dreg_rdmaNext (by simp [Fld.key, prtStaleWrites, prtRxPackets]; omega)]
  · refine Recorded.sendOn (s := s) (t := u) ?_ _ _
    refine (hrec h).congr rfl rfl ?_ ?_ rfl rfl
    · exact ((reg_bump_ne (rdmaNext o q s) 1 (by decide)).trans
        (dreg_rdmaNext (by simp [Fld.key, rasFaultWritten, prtRxPackets]; omega) q s)).symm
    · exact ((reg_bump_ne (rdmaNext o q s) 1 (by decide)).trans
        (dreg_rdmaNext (by simp [Fld.key, tbDeviceId, prtRxPackets]; omega) q s)).symm

/-- The ring slots that a write reaches are marked; nothing else differs. -/
theorem RdmaTaken.markRing {v : State} (h : RdmaTaken o q sl s v sl.written) (w off n : Nat) :
    ∃ ring, RdmaTaken o q sl s (Machine.markRing w off n q.slot v) ring ∧
      (∀ i, i ∈ ring ↔ i ∈ sl.written ∨ (w = 2 * q.slot ∧ n ≠ 0 ∧ off / 64 ≤ i ∧ 64 * i < off + n)) ∧
      (Machine.markRing w off n q.slot v).out = v.out ∧ (Machine.markRing w off n q.slot v).mem = v.mem ∧
      (Machine.markRing w off n q.slot v).windows = v.windows := by
  obtain ⟨hframe, hqps, hslot, hslots⟩ := h
  obtain ⟨hmark, hothers, ring, hring, hmem⟩ := markRing_spec w off n q.slot hslot
  refine ⟨ring, ⟨?_, ?_, hring, fun p hp => (hothers p hp).trans (hslots p hp)⟩, hmem, ?_, ?_, ?_⟩
  · rw [hmark, hframe]
  all_goals rw [hmark]
  exact hqps

/-- A write that reaches its window. -/
theorem rdmaWrite_spec (hq : s.qps.find? (fun q => q.qpn = o.qpn) = some q) (hsl : tfind s.slots q.slot = some sl) (w a : Nat) :
    let t := (markRing w o.offset o.data.length q.slot ((rdmaNext o q s).wr a o.data)).sendOn o.port (.rdmaAck o.qpn o.psn)
    ∃ ring, RdmaTaken o q sl s t ring ∧
      (∀ n, n ∈ ring ↔ n ∈ sl.written ∨ (w = 2 * q.slot ∧ o.data ≠ [] ∧ o.offset / 64 ≤ n ∧ 64 * n < o.offset + o.data.length)) ∧
      t.out = s.out ++ [.rdmaAck o.qpn o.psn] ∧ t.mem = mputs s.mem a o.data ∧ t.windows = s.windows := by
  have hbase : RdmaTaken o q sl s ((rdmaNext o q s).wr a o.data) sl.written := (rdmaTaken_next hq hsl).update rfl
  obtain ⟨ring, htaken, hring, hout, hmem, hwindows⟩ := hbase.markRing w o.offset o.data.length
  refine ⟨ring, htaken.sendOn _ _, fun n => (hring n).trans ?_, congrArg (· ++ [Out.rdmaAck o.qpn o.psn]) hout, hmem, hwindows⟩
  rw [Ne, List.length_eq_zero_iff]

end

/-! ### Congestion and retries (R358) -/

section
variable {port n : Nat} {s : State} (htakes : s.takes port)
include htakes

theorem exec_cnp_known (h : ∃ q ∈ s.qps, q.qpn = n) : exec (.cnp port n) s = .next
    (((s.bump prtRxPackets 0 port 1).modQp n fun q => { q with rate := q.rateAt s.now / 2, cnpAt := s.now }).bump
      prtCnpReceived 0 port 1) := by
  obtain ⟨q, hq, hn⟩ := h
  have hany : ((s.bump prtRxPackets 0 port 1).qps.any fun q => q.qpn == n) = true := List.any_eq_true.2 ⟨q, hq, beq_iff_eq.2 hn⟩
  change execCnp port n s = _
  rw [execCnp, onPort_takes (h := htakes), if_pos hany]
  rfl

theorem exec_cnp_unknown (h : ∀ q ∈ s.qps, q.qpn ≠ n) :
    exec (.cnp port n) s = .next ((s.bump prtRxPackets 0 port 1).bump prtDrops 0 port 1) := by
  have hany : ¬ ((s.bump prtRxPackets 0 port 1).qps.any fun q => q.qpn == n) = true := by
    rw [List.any_eq_true]
    rintro ⟨q, hq, hn⟩
    exact h q hq (beq_iff_eq.1 hn)
  change execCnp port n s = _
  rw [execCnp, onPort_takes (h := htakes), if_neg hany]

end

/-- Commands queued one by one. -/
theorem foldl_enqueue {α : Type} (f : α → Instr) (l : List α) (s : State) :
    l.foldl (fun s e => s.enqueue (f e)) s = { s with pending := s.pending ++ l.map f } := by
  induction l generalizing s with
  | nil =>
    simp only [List.foldl_nil, List.map_nil, List.append_nil]
  | cons e l ih =>
    rw [List.foldl_cons, ih, enqueue_pending, List.append_assoc]
    rfl

section
variable {qpn psn : Nat} {s : State} {q : Qp} (hq : s.qps.find? (fun q => q.qpn = qpn) = some q) (hok : q.failed = false)
include hq hok

/-- The retries that a packet has used. -/
theorem exec_roceRetransmit_eq : let used := ((q.unacked.find? fun u => u.1 = psn).map (·.2.1)).getD 0
    exec (.roceRetransmit qpn psn) s = if used < 7 then .next ((s.modQp qpn fun x => { x with
        unacked := x.unacked.filter (fun u => u.1 != psn) ++ [(psn, used + 1, s.now)] }).sendOn
          (((tfind s.slots q.slot).map fun sl => sl.port q.standby).getD 0) (.roce qpn psn))
      else .next { s.modQp qpn fun x => { x with unacked := [], failed := true } with
        pending := s.pending ++ if q.kind = 2 then (s.remoteChucks q.slot).map fun e => .streamRemoteError e.1 e.2 else [] } := by
  intro used
  change execRoceRetransmit qpn psn s = _
  rw [execRoceRetransmit, hq]
  dsimp only
  rw [if_neg (by simp [hok])]
  by_cases hused : used < 7
  · rw [if_pos hused, if_pos hused]
  · rw [if_neg hused, if_neg hused]
    by_cases hkind : q.kind = 2
    · rw [if_pos hkind, if_pos hkind, foldl_enqueue]
      rfl
    · rw [if_neg hkind, if_neg hkind, List.append_nil]
      rfl

end

/-- Settles O57: a message takes effect only on the due PSN and in a window that its slot owns under the key's epoch. -/
theorem partnerRdma : Obligations.PartnerRdma := by
  refine ⟨fun o q sl s htakes hq hkind hsl hport => ⟨fun hok hpsn => ⟨fun w e hwin howner => ⟨fun hfits hdir => ?_, fun hfits hdir => ?_,
    fun hbad => ?_⟩, fun hwin cmd hcmd => ?_⟩, fun hno cmd hcmd => ?_⟩, fun port n s htakes => ⟨fun hknown => ?_, fun hunknown => ?_⟩,
    fun qpn psn s q hq hok => ?_⟩
  · have hallowed : rdmaAllowed w e q.slot o true o.data.length = true := by
      by_cases hw : w < 16
      · simp [rdmaAllowed, howner, hfits, hdir hw]
      · simp [rdmaAllowed, howner, hfits, hw]
    obtain ⟨ring, htaken, hring, hout, hmem, hwindows⟩ := rdmaWrite_spec hq hsl w (e.base + o.offset)
    refine ⟨_, ring, ?_, htaken, hring, hout, hmem, hwindows⟩
    rw [exec_rdmaWrite_taken htakes, rdma_due hq hkind hsl hport hok hpsn, hwin, rdmaReached]
    rw [if_pos hallowed, howner]
  · have hallowed : rdmaAllowed w e q.slot o false o.length = true := by
      by_cases hw : w < 16
      · simp [rdmaAllowed, howner, hfits, hdir hw]
      · simp [rdmaAllowed, howner, hfits, hw]
    refine ⟨_, ?_, (rdmaTaken_next hq hsl).update (u := (rdmaNext o q s).sendOn o.port
      (.rdmaData o.qpn o.psn (s.rd (e.base + o.offset) o.length))) rfl, rfl, rfl, rfl⟩
    rw [exec_rdmaRead_taken htakes, rdma_due hq hkind hsl hport hok hpsn, hwin, rdmaReached]
    rw [if_pos hallowed]
    rfl
  · have hrefused : ¬ rdmaAllowed w e q.slot o true o.data.length = true := by
      rcases hbad with hlong | ⟨hw, hodd⟩
      · simp [rdmaAllowed, Nat.not_le.2 hlong]
      · simp [rdmaAllowed, hw, hodd]
    refine ⟨_, ?_, (rdmaTaken_next hq hsl).update (u := (rdmaNext o q s).sendOn o.port (.rdmaNak o.qpn o.psn)) rfl, rfl, rfl⟩
    rw [exec_rdmaWrite_taken htakes, rdma_due hq hkind hsl hport hok hpsn, hwin, rdmaReached]
    rw [if_neg hrefused]
  · exact ⟨_, exec_rdma_stale htakes hq hkind hsl hport hok hpsn hwin cmd hcmd, staleMessage_spec hq hsl⟩
  · exact ⟨_, exec_rdma_nak htakes hq hkind hsl hport hno cmd hcmd, rfl, rfl⟩
  · refine ⟨_, exec_cnp_known htakes hknown, rfl, rfl, ?_⟩
    refine (reg_bump_same ((s.bump prtRxPackets 0 port 1).modQp n _) _ _ _ _).trans (congrArg (satAdd _ · 1) ?_)
    exact reg_bump_ne s 1 (by simp [Fld.key, prtCnpReceived, prtRxPackets] <;> omega)
  · exact ⟨_, exec_cnp_unknown htakes hunknown, frameDropped_taken port s⟩
  · have hexec := exec_roceRetransmit_eq (psn := psn) hq hok
    by_cases hused : ((q.unacked.find? fun u => u.1 = psn).map (·.2.1)).getD 0 < 7
    · dsimp only at hexec
      rw [if_pos hused] at hexec
      refine ⟨_, hexec, rfl, rfl, fun _ => ⟨rfl, rfl, ?_⟩, fun h => absurd hused (Nat.not_lt.2 h)⟩
      exact (find?_modQp s.qps qpn (fun x => { x with
        unacked := x.unacked.filter (fun u => u.1 != psn) ++ [(psn, _, s.now)] }) fun _ => rfl).trans (by rw [hq]; rfl)
    · dsimp only at hexec
      rw [if_neg hused] at hexec
      refine ⟨_, hexec, rfl, rfl, fun h => absurd h hused, fun _ => ⟨rfl, ?_, rfl⟩⟩
      exact (find?_modQp s.qps qpn (fun x => { x with unacked := [], failed := true }) fun _ => rfl).trans (by rw [hq]; rfl)

end Sys2Proof.Machine

/-! The end of an attachment and the events of peers (R399, R403, R404, R423, R466). -/
namespace Sys2Proof.Machine

/-! ### A slot lost (R423) -/

/-- What a lost slot changes before its tables are freed. -/
def LoseOnly (s t : State) : Prop := t =
  { s with
    waits := t.waits, images := t.images, slots := t.slots, out := t.out, sessions := t.sessions, pending := t.pending }

theorem LoseOnly.trans {s t u : State} (h : LoseOnly s t) (h' : LoseOnly t u) : LoseOnly s u := by
  rw [LoseOnly, h', h]

theorem loseOnly_foldl {α : Type} {f : State → α → State} (hf : ∀ s a, LoseOnly s (f s a)) (l : List α) (s : State) :
    LoseOnly s (l.foldl f s) :=
  foldl_rel (R := LoseOnly) (fun _ => rfl) LoseOnly.trans hf l s

/-- Messages sent one by one change nothing else. -/
theorem foldl_send {α : Type} (f : α → Out) (l : List α) (s : State) :
    l.foldl (fun s e => s.send (f e)) s = { s with out := s.out ++ l.map f } := by
  induction l generalizing s with
  | nil =>
    simp only [List.foldl_nil, List.map_nil, List.append_nil]
  | cons e l ih =>
    rw [List.foldl_cons, ih, send_out, List.append_assoc]
    rfl

/-- Written completions change their slot and what is sent; they leave whether the slot is lost, and its verb. -/
theorem writeCompletions_spec (p : Nat) (s : State) : LoseOnly s (writeCompletions p s) ∧
    (writeCompletions p s).sessions = s.sessions ∧ (∀ q, q ≠ p → tfind (writeCompletions p s).slots q = tfind s.slots q) ∧
    ∀ sl, tfind s.slots p = some sl → ∃ x, tfind (writeCompletions p s).slots p = some x ∧ x.closing = sl.closing ∧ x.verb = sl.verb := by
  unfold writeCompletions
  cases hsl : tfind s.slots p with
  | none => exact ⟨rfl, rfl, fun _ _ => rfl, nofun⟩
  | some sl0 =>
    cases (if s.cutOff then none else s.compWindow p) with
    | none =>
      dsimp only
      split
      · refine ⟨rfl, rfl, fun q hq => tfind_modSlot_ne s _ hq, fun sl h => ⟨{ sl with due := [] }, ?_, rfl, rfl⟩⟩
        rw [tfind_modSlot_same, hsl, h]
        rfl
      · exact ⟨rfl, rfl, fun _ _ => rfl, fun sl h => ⟨sl, hsl.trans h, rfl, rfl⟩⟩
    | some w =>
      dsimp only
      rw [foldl_send]
      refine ⟨rfl, rfl, fun q hq => tfind_modSlot_ne _ _ hq, fun sl h =>
        ⟨{ sl with completed := sl.completed + sl.due.length, due := [] }, ?_, rfl, rfl⟩⟩
      rw [tfind_modSlot_same, hsl, h]
      rfl

/-- Slot `p` lost, before its sessions close: its waits end, it holds no verb, its completions are written. -/
def slotLost (p : Nat) (s : State) : State :=
  let gone := s.waits.filter fun w => w.slot == p && (w.bind.isSome || w.verb == 1 || w.verb == 7 || w.verb == 9)
  let s0 := gone.foldl (fun s w => if w.verb = 1 then s.modImage w.key fun im => { im with replacing := false } else s)
    { s with waits := s.waits.filter fun w => !gone.contains w }
  writeCompletions p (s0.modSlot p fun sl => { sl with closing := true, verb := none })

/-- Sessions of slot `p`. -/
def State.sessionsOf (s : State) (p : Nat) : List Nat := (s.sessions.filter fun e => e.2.slot = p).map (·.1)

/-- Sessions that close one by one. -/
def closeSessions (ids : List Nat) (s : State) : State := ids.foldl (fun s se => closeSession se 0 s) s

theorem loseSlot_eq (p : Nat) (s : State) : loseSlot p s =
    if (s.sessionsOf p).isEmpty then freeSlot p (closeSessions (s.sessionsOf p) (slotLost p s))
    else closeSessions (s.sessionsOf p) (slotLost p s) := rfl

theorem slotLost_spec (p : Nat) (s : State) : LoseOnly s (slotLost p s) ∧ (slotLost p s).sessions = s.sessions ∧
    (∀ q, q ≠ p → tfind (slotLost p s).slots q = tfind s.slots q) ∧
    ∀ sl, tfind s.slots p = some sl → ∃ x, tfind (slotLost p s).slots p = some x ∧ x.closing = true ∧ x.verb = none := by
  unfold slotLost
  dsimp only
  have himages : ∀ (l : List WaitVerb) (u : State), l.foldl (fun (s : State) (w : WaitVerb) =>
      if w.verb = 1 then s.modImage w.key fun im => { im with replacing := false } else s) u =
        { u with images := (l.foldl (fun (s : State) (w : WaitVerb) =>
          if w.verb = 1 then s.modImage w.key fun im => { im with replacing := false } else s) u).images } :=
    fun l u => foldl_rel (R := fun s t => t = { s with images := t.images }) (fun _ => rfl) (fun h h' => by rw [h', h])
      (fun s w => by split <;> rfl) l u
  generalize s.waits.filter (fun w => w.slot == p && (w.bind.isSome || w.verb == 1 || w.verb == 7 || w.verb == 9)) = gone
  have hs0 := himages gone { s with waits := s.waits.filter fun w => !gone.contains w }
  generalize gone.foldl _ _ = s0 at hs0 ⊢
  have hslots : s0.slots = s.slots := by rw [hs0]
  have hbase : LoseOnly s (s0.modSlot p fun sl => { sl with closing := true, verb := none }) := by
    rw [LoseOnly, State.modSlot, hs0]
  have hsessions : (s0.modSlot p fun sl => { sl with closing := true, verb := none }).sessions = s.sessions := by
    rw [State.modSlot, hs0]
  obtain ⟨honly, hsess, hothers, hsame⟩ := writeCompletions_spec p (s0.modSlot p fun sl => { sl with closing := true, verb := none })
  refine ⟨hbase.trans honly, hsess.trans hsessions, fun q hq => ?_, fun sl hsl => ?_⟩
  · rw [hothers q hq, tfind_modSlot_ne _ _ hq, hslots]
  · obtain ⟨x, hx, hclosing, hverb⟩ := hsame _ ((tfind_modSlot_same s0 p _).trans (by rw [hslots, hsl]; rfl))
    exact ⟨x, hx, hclosing, hverb⟩

/-- Closing sessions leaves every slot, and every session that closes is closing. -/
theorem closeSessions_spec (ids : List Nat) (s : State) : LoseOnly s (closeSessions ids s) ∧ (closeSessions ids s).slots = s.slots ∧
    ∀ e ∈ (closeSessions ids s).sessions, ∃ e0 ∈ s.sessions, e0.1 = e.1 ∧ e0.2.slot = e.2.slot ∧
      (e.1 ∈ ids ∨ e0.2.closing.isSome = true → e.2.closing.isSome = true) := by
  induction ids generalizing s with
  | nil => exact ⟨rfl, rfl, fun e he => ⟨e, he, rfl, rfl, fun h => h.resolve_left (by simp)⟩⟩
  | cons se ids ih =>
    have hclose := closeSession_eq se 0 s
    obtain ⟨honly, hslots, hsess⟩ := ih (closeSession se 0 s)
    have hone : LoseOnly s (closeSession se 0 s) := by rw [LoseOnly, hclose]; rfl
    refine ⟨hone.trans honly, hslots.trans (by rw [hclose]; rfl), fun e he => ?_⟩
    obtain ⟨e1, he1, hkey, hslot, hclosing⟩ := hsess e he
    rw [hclose] at he1
    obtain ⟨e0, he0, hmap⟩ := List.mem_map.1 he1
    by_cases hk : e0.1 = se
    · rw [if_pos hk] at hmap
      subst hmap
      exact ⟨e0, he0, hkey, hslot, fun _ => hclosing (.inr rfl)⟩
    · rw [if_neg hk] at hmap
      subst hmap
      refine ⟨e0, he0, hkey, hslot, fun h => hclosing ?_⟩
      rcases h with hmem | hwas
      · exact .inl ((List.mem_cons.1 hmem).resolve_left fun hse => hk (hkey.trans hse))
      · exact .inr hwas

/-- What a table answers is its default or one of its entries. -/
theorem tget_cases {α : Type} (d : α) (m : List (Nat × α)) (k : Nat) : tget d m k = d ∨ (k, tget d m k) ∈ m := by
  cases hk : tfind m k with
  | none => exact .inl (tget_of_tfind_none d hk)
  | some x => exact .inr (tfind_some_tget d m k hk ▸ mem_of_tfind hk)

/-- A freed slot owns no window that is open or drains. -/
theorem freeSlot_windows (p : Nat) (s : State) (w : Nat) (h : ((freeSlot p s).win w).owner = p) :
    ((freeSlot p s).win w).st ≠ .opened ∧ ((freeSlot p s).win w).st ≠ .draining := by
  rcases tget_cases { epoch := 1 + Config.draw (s.epochDraw + w) % 0x7FFF } (freeSlot p s).windows w with hdef | hmem
  · have hfree : ((freeSlot p s).win w).st = .free := congrArg Window.st hdef
    simp [hfree]
  · obtain ⟨e, -, he⟩ := List.mem_map.1 hmem
    by_cases hmine : (decide (e.2.owner = p) && (e.2.st == .opened || e.2.st == .draining)) = true
    · rw [if_pos hmine] at he
      have hwin : (freeSlot p s).win w = closedWindow e.2 := (congrArg Prod.snd he).symm
      rw [hwin, closedWindow]
      split <;> simp
    · rw [if_neg hmine] at he
      have hwin : (freeSlot p s).win w = e.2 := (congrArg Prod.snd he).symm
      rw [hwin] at h ⊢
      simp only [h, decide_true, Bool.true_and, Bool.or_eq_true, beq_iff_eq, not_or] at hmine
      exact hmine

/-- What the end of slot `p`'s attachment leaves. -/
def SlotEnds (p : Nat) (s t : State) : Prop := t.mem = s.mem ∧ t.piers = s.piers ∧ t.spans = s.spans ∧
  (∀ q, q ≠ p → tfind t.slots q = tfind s.slots q) ∧
  ((∀ e ∈ s.sessions, e.2.slot ≠ p) → tfind t.slots p = none ∧ t.qps = s.qps.filter (fun q => q.slot != p) ∧
    ∀ w, (t.win w).owner = p → (t.win w).st ≠ .opened ∧ (t.win w).st ≠ .draining) ∧
  ((s.sessions.map (·.1)).Nodup → (∃ e ∈ s.sessions, e.2.slot = p) →
    (∃ sl, tfind t.slots p = some sl ∧ sl.closing = true ∧ sl.verb = none) ∧
    ∀ e ∈ t.sessions, e.2.slot = p → e.2.closing.isSome = true)

theorem sessionsOf_isEmpty {s : State} {p : Nat} : (s.sessionsOf p).isEmpty = true ↔ ∀ e ∈ s.sessions, e.2.slot ≠ p := by
  simp [State.sessionsOf]

theorem loseSlot_ends (p : Nat) {s : State} {sl : Slot} (hsl : tfind s.slots p = some sl) : SlotEnds p s (loseSlot p s) := by
  obtain ⟨hlost, hsess, hothers, hsame⟩ := slotLost_spec p s
  obtain ⟨hclose, hslots, hclosed⟩ := closeSessions_spec (s.sessionsOf p) (slotLost p s)
  have honly := hlost.trans hclose
  rw [loseSlot_eq]
  generalize closeSessions (s.sessionsOf p) (slotLost p s) = u at hclose hslots hclosed honly ⊢
  by_cases hnone : (s.sessionsOf p).isEmpty = true
  · rw [if_pos hnone]
    refine ⟨?_, ?_, ?_, fun q hq => ?_, fun _ => ⟨tfind_tdel_same _ _, ?_, freeSlot_windows p u⟩, fun _ ⟨e, he, hp⟩ => ?_⟩
    · exact (by rw [honly] : u.mem = s.mem)
    · exact (by rw [honly] : u.piers = s.piers)
    · exact (by rw [honly] : u.spans = s.spans)
    · exact (tfind_tdel_ne u.slots hq).trans (by rw [hslots, hothers q hq])
    · exact congrArg (List.filter _) (by rw [honly] : u.qps = s.qps)
    · exact absurd hp (sessionsOf_isEmpty.1 hnone e he)
  · rw [if_neg hnone]
    refine ⟨?_, ?_, ?_, fun q hq => by rw [hslots, hothers q hq], fun hno => absurd (sessionsOf_isEmpty.2 hno) hnone, fun _ _ => ⟨?_, ?_⟩⟩
    · rw [honly]
    · rw [honly]
    · rw [honly]
    · obtain ⟨x, hx, hclosing, hverb⟩ := hsame sl hsl
      exact ⟨x, hslots ▸ hx, hclosing, hverb⟩
    · intro e he hp
      obtain ⟨e0, he0, hkey, hslot, hdone⟩ := hclosed e he
      rw [hsess] at he0
      refine hdone (.inl (List.mem_map.2 ⟨e0, List.mem_filter.2 ⟨he0, ?_⟩, hkey⟩))
      simp [hslot, hp]

section
variable {p : Nat} {s : State} {sl : Slot} (hp : p < 8) (hsl : tfind s.slots p = some sl)
include hp hsl

theorem exec_detach_taken {ctr : Nat} {ok : Bool} (htakes : s.takes (sl.port sl.onStandby)) : exec (.detach p ctr ok) s = .next
    (if !ok ∨ ctr ≤ sl.ctrIn ∨ sl.closing then s.bump prtRxPackets 0 (sl.port sl.onStandby) 1
      else loseSlot p (s.bump prtRxPackets 0 (sl.port sl.onStandby) 1)) := by
  change execDetach p ctr ok s = _
  rw [execDetach, if_neg (by omega), hsl]
  dsimp only
  rw [onPort_takes (h := htakes)]

theorem exec_attachmentLoss_eq (hopen : sl.closing = false) : exec (.attachmentLoss p) s =
    if s.now < sl.lastMgmt + 1000000 * s.dreg ksnAttachLossMs then .next s else .next (loseSlot p s) := by
  change execAttachmentLoss p s = _
  rw [execAttachmentLoss, if_neg (by omega), hsl]
  dsimp only
  simp only [hopen, Bool.false_eq_true, false_or]

end

/-! ### Peers (R399, R403) -/

theorem modPeer_peers (s : State) (d : Nat) (f : Peer → Peer) :
    (s.modPeer d f).peers = s.peers.map fun e => if e.1 = d then (e.1, f e.2) else e := by
  refine List.map_congr_left fun e _ => ?_
  by_cases he : e.1 = d
  · rw [if_pos he, if_pos he, he]
  · rw [if_neg he, if_neg he]

theorem tfind_modPeer_same (s : State) (d : Nat) (f : Peer → Peer) : tfind (s.modPeer d f).peers d = (tfind s.peers d).map f := by
  rw [modPeer_peers, tfind_update_same]

theorem tfind_modPeer_ne (s : State) {d e : Nat} (f : Peer → Peer) (h : e ≠ d) : tfind (s.modPeer d f).peers e = tfind s.peers e := by
  rw [modPeer_peers, tfind_update_ne _ _ h]

/-- A peer whose connections have failed, recorded. -/
def peerFailed (d : Nat) (s : State) : State :=
  raise { code := 0x0805, action := 0, unit := 5, detail := leBytes 2 d }
    (s.modPeer d fun p => { p with state := 2, upA := false, upB := false, downAt := s.now })

theorem exec_peerDown_eq {d : Nat} {s : State} {p : Peer} (hp : tfind s.peers d = some p) : exec (.peerDown d) s =
    if p.state = 2 then .next s
    else .next (if (peerFailed d s).isBuddy d then (peerFailed d s).setDreg prtBuddyState 2 else peerFailed d s) := by
  change execPeerDown d s = _
  rw [execPeerDown, hp]
  rfl

theorem isBuddy_raise {rc : Rec} (hr : rc.action < 4) (s : State) (d : Nat) : (raise rc s).isBuddy d = s.isBuddy d := by
  rw [State.isBuddy, State.hasBuddy, dreg_raise hr (by decide), dreg_raise hr (by decide), State.isBuddy, State.hasBuddy]

/-- A register set after a record leaves the record. -/
theorem Recorded.setDreg {rc : Rec} {s t : State} (h : Recorded rc s t) {f : Fld} (v : Nat) (hk : rasFaultWritten.key 0 0 ≠ f.key 0 0) :
    Recorded rc s (t.setDreg f v) := by
  obtain ⟨hmem, hcount⟩ := h
  exact ⟨hmem, (reg_setReg_ne t v hk).trans hcount⟩

theorem peerFailed_spec {d : Nat} {s : State} {p : Peer} (hp : tfind s.peers d = some p) :
    tfind (peerFailed d s).peers d = some { p with state := 2, upA := false, upB := false, downAt := s.now } ∧
      (∀ e, e ≠ d → tfind (peerFailed d s).peers e = tfind s.peers e) ∧
      Recorded { code := 0x0805, action := 0, unit := 5, detail := leBytes 2 d } s (peerFailed d s) ∧
      (peerFailed d s).isBuddy d = s.isBuddy d := by
  have hframe := raise_frame (s.modPeer d fun p => { p with state := 2, upA := false, upB := false, downAt := s.now })
    { code := 0x0805, action := 0, unit := 5, detail := leBytes 2 d }
  have hpeers : (peerFailed d s).peers = (s.modPeer d fun p => { p with state := 2, upA := false, upB := false, downAt := s.now }).peers := by
    rw [peerFailed, hframe]
  rw [hpeers]
  refine ⟨by rw [tfind_modPeer_same, hp]; rfl, fun e he => tfind_modPeer_ne s _ he, ?_, isBuddy_raise (by decide : (0 : Nat) < 4) _ d⟩
  exact (raise_spec _ _).1.congr rfl rfl rfl rfl rfl rfl

theorem exec_peerConnectionReopen_eq {d n : Nat} (hn : n < 2) {s : State} {p : Peer} (hp : tfind s.peers d = some p) :
    exec (.peerConnectionReopen d n) s =
      .next (if s.dreg tbDeviceId < d ∧ !(if n = 0 then p.upA else p.upB) then helloPeer d n s else s) := by
  change execPeerConnectionReopen d n s = _
  rw [execPeerConnectionReopen, if_neg (by omega), hp]

/-- The bytes of a HELLO to a peer. -/
def helloBytes (s : State) : List Byte :=
  attachMsg s 1 (leBytes 32 s.draw.2.draw.1 ++ leBytes 4 0 ++ leBytes 32 (x25519 s.draw.1 9) ++ Config.kemPub s.free ++ s.ks.cert)

/-- The handshake that a HELLO to a peer opens: it has no keys yet. -/
def helloHandshake (d n : Nat) (s : State) : Handshake :=
  { id := s.nextId, port := 4 * n, partnerKey := [], claim := false, operatorKey := [], transcript := helloBytes s, keys := []
    device := some d, net := n, draw := s.free }

theorem helloPeer_spec (d n : Nat) {s : State} (hrng : s.ks.rngOk = true) :
    (helloPeer d n s).ks = { s.ks with handshakes := s.ks.handshakes ++ [helloHandshake d n s] } ∧
      (helloPeer d n s).out = s.out ++ [.handshake (4 * n) 1 (helloBytes s)] ∧ (helloPeer d n s).peers = s.peers ∧
      (helloPeer d n s).regs = s.regs ∧ (helloPeer d n s).mem = s.mem := by
  unfold helloPeer
  dsimp only
  rw [if_neg (by simp [hrng])]
  exact ⟨rfl, rfl, rfl, rfl, rfl⟩

theorem helloPeer_dead (d n : Nat) {s : State} (hrng : s.ks.rngOk = false) : helloPeer d n s = s := by
  unfold helloPeer
  dsimp only
  rw [if_pos (by simp [hrng])]

/-! ### Stamps and stripes (R404, R466) -/

/-- A channel changed is found as changed. -/
theorem channelOf_modChannel {s : State} {ch : Nat} {c : Channel} (hc : s.channelOf (1024 + ch) = some c) (f : Channel → Channel)
    (hf : ∀ x, (f x).id = x.id) : (s.modChannel ch f).channelOf (1024 + ch) = some (f c) := by
  have hid : 1024 + ch - 1024 = ch := by omega
  rw [State.channelOf, if_neg (by omega), hid] at hc ⊢
  cases hsys : s.sys with
  | none =>
    rw [hsys] at hc
    exact nomatch hc
  | some i =>
    rw [hsys] at hc
    rw [State.modChannel, hsys]
    exact (find?_update Channel.id i.channels ch f hf).trans (by rw [show i.channels.find? (fun c => c.id = ch) = some c from hc]; rfl)

section
variable {ch k b : Nat} {s : State} {c : Channel} (hc : s.channelOf (1024 + ch) = some c) (hpeer : s.takesPeer (s.channelNet c)) (hk : k < c.k)
include hc hpeer hk

theorem exec_releasedPlaced_eq : exec (.releasedPlaced ch k b) s = .next
    (if s.isSource c then s.wr (c.stampAddr + 8 * k) (leBytes 8 b) else s) := by
  change execReleasedPlaced ch k b s = _
  rw [execReleasedPlaced, hc]
  dsimp only
  rw [onPeer_takes (h := hpeer)]
  simp only [hk, and_true]

theorem exec_arrivedPlaced_eq : exec (.arrivedPlaced ch k b) s = .next (if s.isSource c then s
    else if !c.feed then s.wr (c.stampAddr + 8 * k) (leBytes 8 b)
    else if (s.feedSpan ch).isNone then feedUnbound c k b (s.wr (c.stampAddr + 8 * k) (leBytes 8 b))
    else
      let u := (s.wr (c.stampAddr + 8 * k) (leBytes 8 b)).modChannel ch fun c => { c with feeds := c.feeds ++ [(k, b, s.now)] }
      if u.pwr.state = .a1 ∨ u.pwr.state = .a2 then startResume u else u) := by
  change execArrivedPlaced ch k b s = _
  rw [execArrivedPlaced, hc]
  dsimp only
  rw [onPeer_takes (h := hpeer)]
  simp only [Nat.not_le.2 hk, or_false]
  rfl

end

/-- A stamp for a feed that has no span is refused and recorded. -/
theorem feedUnbound_spec (c : Channel) (k b : Nat) (s : State) : (feedUnbound c k b s).out = s.out ++ [.stamp c.id k b false] ∧
    (feedUnbound c k b s).sys = s.sys ∧ Recorded { code := 0x0806, action := 0, unit := 8 } s (feedUnbound c k b s) := by
  have hrec := (raise_spec { code := 0x0806, action := 0, unit := 8 } (s.send (.stamp c.id k b false))).1
  unfold feedUnbound
  refine ⟨?_, ?_, hrec.congr rfl rfl rfl rfl rfl rfl⟩
  · rw [raise_frame]
    rfl
  · rw [raise_frame]
    rfl

theorem exec_buddyStripeFetch_eq {device store index stripe : Nat} {s : State} {o : GObj} (hpeer : s.takesPeer 0)
    (ho : (s.objs.filter fun o => ((s.storeOf o.id).map (·.1)) == some store)[index]? = some o) :
    exec (.buddyStripeFetch device store index stripe) s =
      .next (s.send (.stripe device (objRd s o.id (stripe * 2 ^ 20) (min (2 ^ 20) (o.bytes - stripe * 2 ^ 20))))) := by
  change execBuddyStripeFetch device store index stripe s = _
  rw [execBuddyStripeFetch, onPeer_takes (h := hpeer), ho]

/-- Settles O56: a slot that holds no session goes at once; one that holds some closes with them. -/
theorem attachmentsAndPeers : Obligations.AttachmentsAndPeers := by
  refine ⟨fun p ctr s sl hp hsl hopen => ⟨fun htakes hctr => ?_, fun ok htakes hbad => ?_, fun hlong => ?_, fun hshort => ?_⟩,
    fun d n s p hp => ⟨fun hdown => ?_, fun hup => ?_, fun hn => ⟨fun hlower hdown hrng => ?_, fun hno => ?_⟩⟩,
    fun ch k b s c hc hpeer hk => ⟨fun hsource => ⟨?_, ?_⟩, fun hsource => ⟨?_, fun hfeed => ?_, fun hfeed hspan => ?_, fun hfeed hspan => ?_⟩⟩,
    fun device store index stripe s o hpeer ho => exec_buddyStripeFetch_eq hpeer ho⟩
  · refine ⟨_, (exec_detach_taken hp hsl htakes).trans ?_, loseSlot_ends p (s := s.bump prtRxPackets 0 (sl.port sl.onStandby) 1) hsl⟩
    rw [if_neg (by simp [hopen, hctr])]
  · refine ⟨s.bump prtRxPackets 0 (sl.port sl.onStandby) 1, (exec_detach_taken hp hsl htakes).trans ?_, rfl⟩
    rw [if_pos (hbad.imp (by simp) .inl)]
  · rw [exec_attachmentLoss_eq hp hsl hopen, if_neg (Nat.not_lt.2 hlong)]
    exact ⟨_, rfl, loseSlot_ends p hsl⟩
  · rw [exec_attachmentLoss_eq hp hsl hopen, if_pos hshort]
  · rw [exec_peerDown_eq hp, if_pos hdown]
  · obtain ⟨hsame, hothers, hrec, hbuddy⟩ := peerFailed_spec hp
    rw [exec_peerDown_eq hp, if_neg hup]
    refine ⟨_, rfl, ?_⟩
    rw [hbuddy]
    by_cases hb : s.isBuddy d = true
    · rw [if_pos hb]
      exact ⟨hsame, hothers, hrec.setDreg 2 (by decide), fun _ => reg_setReg_same _ _ _ _ _⟩
    · rw [if_neg hb]
      exact ⟨hsame, hothers, hrec, fun h => absurd h hb⟩
  · have hdown' : (if n = 0 then p.upA else p.upB) = false := hdown
    obtain ⟨hks, hsent⟩ := helloPeer_spec d n hrng
    refine ⟨_, helloHandshake d n s, helloBytes s, ?_, hks, rfl, rfl, rfl, rfl, hsent⟩
    rw [exec_peerConnectionReopen_eq hn hp, if_pos ⟨hlower, by rw [hdown']; rfl⟩]
  · rw [exec_peerConnectionReopen_eq hn hp]
    by_cases hgo : s.dreg tbDeviceId < d ∧ (!(if n = 0 then p.upA else p.upB)) = true
    · obtain ⟨hlower, hdown⟩ := hgo
      have hrng : s.ks.rngOk = false := by
        rcases hno with hhigher | hup | hrng
        · omega
        · have hup' : (if n = 0 then p.upA else p.upB) = true := hup
          rw [hup'] at hdown
          exact absurd hdown (by decide)
        · exact hrng
      rw [if_pos ⟨hlower, hdown⟩, helloPeer_dead d n hrng]
    · rw [if_neg hgo]
  · rw [exec_releasedPlaced_eq hc hpeer hk, if_pos hsource]
    rfl
  · rw [exec_arrivedPlaced_eq hc hpeer hk, if_pos hsource]
  · rw [exec_releasedPlaced_eq hc hpeer hk, if_neg (by simp [hsource])]
  · rw [exec_arrivedPlaced_eq hc hpeer hk, if_neg (by simp [hsource]), if_pos (by simp [hfeed])]
    rfl
  · rw [exec_arrivedPlaced_eq hc hpeer hk, if_neg (by simp [hsource]), if_neg (by simp [hfeed]),
      if_neg (by simp [Option.isSome_iff_ne_none.1 hspan])]
    have hc' : (s.wr (c.stampAddr + 8 * k) (leBytes 8 b)).channelOf (1024 + ch) = some c := hc
    have hchannel := channelOf_modChannel hc' (fun c => { c with feeds := c.feeds ++ [(k, b, s.now)] }) fun _ => rfl
    dsimp only
    generalize hu : (s.wr (c.stampAddr + 8 * k) (leBytes 8 b)).modChannel ch _ = u at hchannel ⊢
    have hmem : u.mem = mputs s.mem (c.stampAddr + 8 * k) (leBytes 8 b) := hu ▸ rfl
    have hout : u.out = s.out := hu ▸ rfl
    by_cases hasleep : u.pwr.state = .a1 ∨ u.pwr.state = .a2
    · rw [if_pos hasleep]
      have hframe := startResume_frame u
      generalize startResume u = t at hframe ⊢
      refine ⟨t, rfl, by rw [hframe]; exact hmem, ?_, by rw [hframe]; exact hout⟩
      rw [hframe]
      exact hchannel
    · rw [if_neg hasleep]
      exact ⟨u, rfl, hmem, hchannel, hout⟩
  · rw [exec_arrivedPlaced_eq hc hpeer hk, if_neg (by simp [hsource]), if_neg (by simp [hfeed]), if_pos (by simp [hspan])]
    exact ⟨_, rfl, feedUnbound_spec c k b _⟩

end Sys2Proof.Machine

/-! What the exchange engine's sends and receives change (R307, R319 to R328). -/
namespace Sys2Proof.Machine

/-! ### The steps of a send or a receive -/

/-- The registers that a send or a receive may change. -/
def exchangeKeys : List Nat :=
  [xchMsgsSentLo.key 0 0, xchMsgsSentHi.key 0 0, xchPoisonNotices.key 0 0, rasFaultWritten.key 0 0]

/-- What sends and receives change: what is sent, done and queued only grows, and a new fragment has a new identifier. -/
structure Exchanges (s t : State) : Prop where
  frame : t = { s with
    regs := t.regs, mem := t.mem, spans := t.spans, requests := t.requests, sessions := t.sessions, objs := t.objs, tx := t.tx
    streams := t.streams, sent := t.sent, rxDone := t.rxDone, rxTimers := t.rxTimers, journal := t.journal, out := t.out
    nextId := t.nextId }
  regs : regsBut exchangeKeys s t
  sent : s.sent ⊆ t.sent
  done : s.rxDone ⊆ t.rxDone
  out : s.out ⊆ t.out
  ids : s.nextId ≤ t.nextId
  tx : ∃ new, t.tx = s.tx ++ new ∧ ∀ f ∈ new, s.nextId ≤ f.id
  requests : ∀ a b, (s.request a b).isSome = true → (t.request a b).isSome = true

/-- A step that changes memory, spans, sessions, objects, streams, timers and the journal alone. -/
theorem Exchanges.quiet {s t : State} (h : t = { s with
    mem := t.mem, spans := t.spans, sessions := t.sessions, objs := t.objs, streams := t.streams, rxTimers := t.rxTimers
    journal := t.journal }) : Exchanges s t where
  frame := by rw [h]
  regs := by rw [h]; exact regsBut_refl _ _
  sent := by rw [h]; exact List.Subset.refl _
  done := by rw [h]; exact List.Subset.refl _
  out := by rw [h]; exact List.Subset.refl _
  ids := Nat.le_of_eq (by rw [h])
  tx := ⟨[], by rw [h, List.append_nil], nofun⟩
  requests := by rw [h]; exact fun _ _ hr => hr

theorem Exchanges.refl (s : State) : Exchanges s s := .quiet rfl

theorem Exchanges.trans {s t u : State} (h : Exchanges s t) (h' : Exchanges t u) : Exchanges s u where
  frame := by rw [h'.frame, h.frame]
  regs := fun k hk d => (h'.regs k hk d).trans (h.regs k hk d)
  sent := List.Subset.trans h.sent h'.sent
  done := List.Subset.trans h.done h'.done
  out := List.Subset.trans h.out h'.out
  ids := Nat.le_trans h.ids h'.ids
  tx := by
    obtain ⟨n1, ht, h1⟩ := h.tx
    obtain ⟨n2, hu, h2⟩ := h'.tx
    refine ⟨n1 ++ n2, by rw [hu, ht, List.append_assoc], fun f hf => ?_⟩
    rcases List.mem_append.1 hf with hf | hf
    · exact h1 f hf
    · exact Nat.le_trans h.ids (h2 f hf)
  requests := fun a b hr => h'.requests a b (h.requests a b hr)

theorem exchanges_foldl {α : Type} {f : State → α → State} (hf : ∀ s a, Exchanges s (f s a)) (l : List α) (s : State) :
    Exchanges s (l.foldl f s) :=
  foldl_rel (R := Exchanges) .refl Exchanges.trans hf l s

section
variable (s : State)

theorem exchanges_sent (l : List (Nat × Nat × Nat)) : Exchanges s { s with sent := s.sent ++ l } where
  frame := rfl
  regs := regsBut_refl _ _
  sent := List.subset_append_left _ _
  done := List.Subset.refl _
  out := List.Subset.refl _
  ids := Nat.le_refl _
  tx := ⟨[], (List.append_nil _).symm, nofun⟩
  requests := fun _ _ hr => hr

theorem exchanges_recvDone (se rq step code fcs : Nat) : Exchanges s (recvDone se rq step code fcs s) where
  frame := rfl
  regs := regsBut_refl _ _
  sent := List.Subset.refl _
  done := List.subset_append_left _ _
  out := List.Subset.refl _
  ids := Nat.le_refl _
  tx := ⟨[], (List.append_nil _).symm, nofun⟩
  requests := fun _ _ hr => hr

theorem exchanges_send (m : Out) : Exchanges s (s.send m) where
  frame := rfl
  regs := regsBut_refl _ _
  sent := List.Subset.refl _
  done := List.Subset.refl _
  out := List.subset_append_left _ _
  ids := Nat.le_refl _
  tx := ⟨[], (List.append_nil _).symm, nofun⟩
  requests := fun _ _ hr => hr

theorem exchanges_setReg {f : Fld} {p i : Nat} (v : Nat) (hk : f.key p i ∈ exchangeKeys) : Exchanges s (s.setReg f p i v) where
  frame := rfl
  regs := (regsBut_refl _ s).setReg v hk
  sent := List.Subset.refl _
  done := List.Subset.refl _
  out := List.Subset.refl _
  ids := Nat.le_refl _
  tx := ⟨[], (List.append_nil _).symm, nofun⟩
  requests := fun _ _ hr => hr

theorem exchanges_wr (a : Nat) (bs : List Byte) : Exchanges s (s.wr a bs) := .quiet rfl

theorem exchanges_modSpan (k : Nat) (f : Span → Span) : Exchanges s (s.modSpan k f) := .quiet (by rw [modSpan_frame _ _ _])

theorem exchanges_raise {rc : Rec} (h : rc.action < 4) : Exchanges s (raise rc s) := by
  have hframe := raise_frame s rc
  have hregs := raise_regsBut h s
  generalize raise rc s = t at hframe hregs ⊢
  refine ⟨?_, fun k hk d => hregs k (fun hm => hk ?_) d, ?_, ?_, ?_, Nat.le_of_eq (by rw [hframe]), ⟨[], ?_, nofun⟩, ?_⟩
  · rw [hframe]
  · rw [List.mem_singleton.1 hm]
    exact .tail _ (.tail _ (.tail _ (.head _)))
  all_goals rw [hframe]
  · exact List.Subset.refl _
  · exact List.Subset.refl _
  · exact List.Subset.refl _
  · exact (List.append_nil _).symm
  · exact fun _ _ hr => hr

/-- A request changed without its key. -/
theorem exchanges_modRequest (se rq : Nat) {f : Request → Request} (hf : ∀ r, (f r).session = r.session ∧ (f r).seq = r.seq) :
    Exchanges s (s.modRequest se rq f) where
  frame := rfl
  regs := regsBut_refl _ _
  sent := List.Subset.refl _
  done := List.Subset.refl _
  out := List.Subset.refl _
  ids := Nat.le_refl _
  tx := ⟨[], (List.append_nil _).symm, nofun⟩
  requests := fun a b hr => by
    obtain ⟨r, hfind⟩ := Option.isSome_iff_exists.1 hr
    have hmem := List.mem_of_find?_eq_some hfind
    have hkey : r.session = a ∧ r.seq = b := by simpa using List.find?_some hfind
    refine List.find?_isSome.2 ⟨if r.session = se ∧ r.seq = rq then f r else r, List.mem_map.2 ⟨r, hmem, rfl⟩, ?_⟩
    split
    · simpa [(hf r).1, (hf r).2] using hkey
    · simpa using hkey

theorem exchanges_ite {c : Prop} [Decidable c] {t u : State} (ht : Exchanges s t) (hu : Exchanges s u) :
    Exchanges s (if c then t else u) := by
  split
  · exact ht
  · exact hu

/-! ### Messages (R319, R322) -/

theorem exchanges_transmit (f : TxFrag) : Exchanges s (transmit f s).2 := by
  have hstream : Exchanges s (s.putStream { s.stream f.session f.peer with nextSeq := (s.stream f.session f.peer).nextSeq + 1 }) :=
    .quiet rfl
  have hbump : ∀ u : State, Exchanges u (u.bump2 xchMsgsSentLo xchMsgsSentHi 0 0 1) := fun u =>
    (exchanges_setReg u _ (.head _)).trans (exchanges_setReg _ _ (.tail _ (.head _)))
  exact (hstream.trans (hbump _)).trans (exchanges_send _ _)

/-- A fragment sent under a new identifier. -/
theorem exchanges_newFragment (f : TxFrag) (hf : f.id = s.nextId) :
    Exchanges s { (transmit f s.fresh.2).2 with tx := (transmit f s.fresh.2).2.tx ++ [(transmit f s.fresh.2).1] } := by
  have hnext : ∀ g : TxFrag, Exchanges s.fresh.2 (transmit g s.fresh.2).2 := fun g => exchanges_transmit _ g
  obtain ⟨hframe, hregs, hsent, hdone, hout, hids, ⟨new, htx, hnew⟩, hrequests⟩ := hnext f
  have hid : (transmit f s.fresh.2).1.id = f.id := rfl
  generalize (transmit f s.fresh.2).2 = t at *
  generalize (transmit f s.fresh.2).1 = g at *
  refine ⟨?_, hregs, hsent, hdone, hout, Nat.le_trans (Nat.le_succ _) hids, ⟨new ++ [g], ?_, fun x hx => ?_⟩, hrequests⟩
  · rw [hframe]
    rfl
  · exact (congrArg (· ++ [g]) htx).trans (List.append_assoc _ _ _)
  · rcases List.mem_append.1 hx with hx | hx
    · exact Nat.le_trans (Nat.le_succ _) (hnew x hx)
    · exact Nat.le_of_eq (by rw [List.mem_singleton.1 hx, hid, hf])

theorem exchanges_sendMessage (se rq step type peer serial timeoutMs : Nat) (bs : List Byte) :
    Exchanges s (sendMessage se rq step type peer serial timeoutMs bs s) :=
  exchanges_foldl (fun u e => exchanges_newFragment u _ rfl) _ s

theorem exchanges_sendNotice (se rq : Nat) (t : HxpSlot) (code : Nat) : Exchanges s (sendNotice se rq t code s) :=
  (exchanges_sendMessage s se rq t.step 6 t.peer (2 ^ 64 - 1) (s.slotTimeout t) (leBytes 2 code)).trans
    (exchanges_setReg _ _ (.tail _ (.tail _ (.head _))))

/-! ### Receives (R328, R329) -/

theorem exchanges_putMember (sh : Shard) (m : Nat) (h : Hdr) (stride : Nat) (data : List Byte) :
    Exchanges s (putMember sh m h stride data s) :=
  (exchanges_wr s _ _).trans (exchanges_wr _ _ _)

theorem exchanges_modMember (k m : Nat) (f : Member → Member) : Exchanges s (modMember k m f s) := exchanges_modSpan s k _

theorem exchanges_deliverPoison (k m : Nat) (im : Image) (h : HxpSlot) (se rq code : Nat) :
    Exchanges s (deliverPoison k m im h se rq code s) := by
  unfold deliverPoison
  dsimp only
  refine Exchanges.trans ?_ (exchanges_recvDone _ se rq h.step code 0)
  refine Exchanges.trans ?_ (exchanges_modMember _ k m _)
  split
  · exact exchanges_putMember s _ _ _ _ _
  · exact .refl s

theorem exchanges_spendItems (se : Nat) (e : MatEnt) (serials : List Nat) : Exchanges s (spendItems se e serials s) :=
  .quiet (by rw [spendOnly_spendItems])

theorem exchanges_spendStep (im : Image) (r : Request) (h : HxpSlot) : Exchanges s (spendStep im r h s) := by
  unfold spendStep
  split
  · exact exchanges_spendItems s _ _ _
  · exact .refl s

theorem exchanges_recvRecord (k m : Nat) (r : Request) (x : RecvRes) : Exchanges s (recvRecord k m r x s) := by
  unfold recvRecord
  dsimp only
  refine exchanges_ite s (exchanges_ite s (.refl s) ?_) (exchanges_ite s (exchanges_raise s (by decide : (1 : Nat) < 4)) (.refl s))
  exact (exchanges_modMember s k m _).trans (exchanges_raise _ (by decide : (1 : Nat) < 4))

theorem exchanges_startTimer (se rq : Nat) (h : HxpSlot) (from_ : Nat) : Exchanges s (startTimer se rq h from_ s) := by
  unfold startTimer
  exact exchanges_ite s (.refl s) (.quiet rfl)

theorem exchanges_sendFires (im : Image) (r : Request) (t : HxpSlot) : Exchanges s (sendFires im r t s) := by
  unfold sendFires
  dsimp only
  split
  · exact (exchanges_sent s _).trans (exchanges_startTimer _ _ _ _ _)
  · exact exchanges_sent s _

theorem exchanges_journalOpening (im : Image) (r : Request) (t : HxpSlot) (bs : List Byte) :
    Exchanges s (journalOpening im r t bs s) := by
  have hjournal : ∀ j, Exchanges s { s with journal := s.journal ++ [j] } := fun _ => .quiet rfl
  unfold journalOpening
  dsimp only
  refine exchanges_ite s (.refl s) (Exchanges.trans ?_ (exchanges_spendStep _ im r t))
  exact (hjournal _).trans (exchanges_ite _ (exchanges_send _ _) (.refl _))

/-- What a receive slot that forwards sends on: the notice of a refused result, or the result. -/
def recvForwarded (im : Image) (h : HxpSlot) (r : Request) (x : RecvRes) (s : State) : State :=
  let t := (im.hxp.find? fun t => !t.recv && t.step == h.step + 1).getD
    { h with recv := false, op := 0, type := 3, peer := 2, step := h.step + 1, journal := false, material := 0xFF }
  let s4 := sendFires im r t s
  if x.code ≠ 0 ∨ x.consumed then sendNotice r.session r.seq t x.code s4
  else
    let bs := outPayload s4 r t ((hdrBytes x.hd).take 32 ++ x.data)
    sendMessage r.session r.seq t.step 3 2 (serialOf im r t) (s4.slotTimeout t) bs (journalOpening im r t bs s4)

/-- A request of which a member has been opened to `v`. -/
def openedRequest (im : Image) (sh : Shard) (m : Nat) (x : RecvRes) (v : Nat × Option (Nat × Bool)) (q : Request) : Request :=
  { q with discCount := if v.2.isNone then v.1 else q.discCount
           discAt := if v.2.isNone then (sh.data + m * x.bytes - llmBase - im.llmBase) / 8 else q.discAt
           exits := v.2.toList ++ q.exits }

/-- A receive whose payload is complete and that the policy permits: its result stands in memory and is done. -/
def recvStored (k m : Nat) (im : Image) (h : HxpSlot) (r : Request) (sh : Shard) (x : RecvRes) (disc : Bool)
    (v : Nat × Option (Nat × Bool)) (s : State) : State :=
  let s1 := recvRecord k m r x (putMember sh m x.hd x.bytes x.data s)
  let s2 := if disc then s1.modRequest r.session r.seq (openedRequest im sh m x v) else s1
  let s3 := recvDone r.session r.seq h.step x.code (ceilDiv h.outElems 64) s2
  if h.op = 1 ∧ h.forward then recvForwarded im h r x s3 else s3

theorem exchanges_recvForwarded (im : Image) (h : HxpSlot) (r : Request) (x : RecvRes) : Exchanges s (recvForwarded im h r x s) := by
  unfold recvForwarded
  refine (exchanges_sendFires s im r _).trans (exchanges_ite _ (exchanges_sendNotice _ _ _ _ _) ?_)
  exact (exchanges_journalOpening _ im r _ _).trans (exchanges_sendMessage _ _ _ _ _ _ _ _ _)

theorem exchanges_recvStored (k m : Nat) (im : Image) (h : HxpSlot) (r : Request) (sh : Shard) (x : RecvRes) (disc : Bool)
    (v : Nat × Option (Nat × Bool)) : Exchanges s (recvStored k m im h r sh x disc v s) := by
  have h1 : Exchanges s (recvRecord k m r x (putMember sh m x.hd x.bytes x.data s)) :=
    (exchanges_putMember s _ _ _ _ _).trans (exchanges_recvRecord _ _ _ _ _)
  unfold recvStored
  dsimp only
  generalize recvRecord k m r x (putMember sh m x.hd x.bytes x.data s) = s1 at h1 ⊢
  have h2 : Exchanges s1 (if disc then s1.modRequest r.session r.seq (openedRequest im sh m x v) else s1) :=
    exchanges_ite s1 (exchanges_modRequest s1 r.session r.seq fun _ => ⟨rfl, rfl⟩) (.refl s1)
  generalize (if disc then s1.modRequest r.session r.seq (openedRequest im sh m x v) else s1) = s2 at h2 ⊢
  have h3 := h1.trans (h2.trans (exchanges_recvDone s2 r.session r.seq h.step x.code (ceilDiv h.outElems 64)))
  exact exchanges_ite s (h3.trans (exchanges_recvForwarded _ im h r x)) h3

theorem exchanges_tryRecv (k m : Nat) (im : Image) (h : HxpSlot) (r : Request) : Exchanges s (tryRecv k m im h r s) := by
  have hpoison : ∀ (code : Nat) (rc : Rec), rc.action < 4 → Exchanges s (raise rc (deliverPoison k m im h r.session r.seq code s)) :=
    fun code rc hrc => (exchanges_deliverPoison s k m im h r.session r.seq code).trans (exchanges_raise _ hrc)
  unfold tryRecv
  dsimp only
  refine exchanges_ite s (.refl s) (exchanges_ite s (exchanges_deliverPoison s _ _ _ _ _ _ _) ?_)
  refine exchanges_ite s ((hpoison 0x020A _ (by decide : (1 : Nat) < 4)).trans (exchanges_spendStep _ _ _ _)) ?_
  refine exchanges_ite s (exchanges_deliverPoison s _ _ _ _ _ _ _) (exchanges_ite s (.refl s) ?_)
  split
  · split
    · exact hpoison 0x0405 _ (by decide : (1 : Nat) < 4)
    · exact exchanges_recvStored s k m im h r _ _ _ _
  · exact .refl s

/-- Every receive of a request looked at again. -/
theorem exchanges_tryRecvs (se rq : Nat) : Exchanges s (tryRecvs se rq s) := by
  unfold tryRecvs
  split
  · next k m r _ _ =>
    split
    · next im _ => exact exchanges_foldl (fun s h => exchanges_tryRecv s k m im h r) _ s
    · exact .refl s
  · exact .refl s

/-! ### Sends (R307, R324 to R327) -/

theorem exchanges_poisonOwn (m : Nat) (im : Image) (t : HxpSlot) (code : Nat) : Exchanges s (poisonOwn m im t code s) := by
  unfold poisonOwn
  split
  · split
    · exact exchanges_ite s (.refl s) (exchanges_putMember s _ _ _ _ _)
    · exact .refl s
  · exact .refl s

theorem exchanges_sendPayload (im : Image) (r : Request) (t : HxpSlot) (payload : List Byte) :
    Exchanges s (sendPayload im r t payload s) := by
  unfold sendPayload
  exact (exchanges_journalOpening s im r t _).trans (exchanges_sendMessage _ _ _ _ _ _ _ _ _)

/-- What a send slot sends for a member after it has fired. -/
def sendFired (k m : Nat) (im : Image) (t : HxpSlot) (r : Request) (x : Sending) (s : State) : State :=
  match x.notice with
  | some code =>
    let s3 := if x.poisoned then poisonOwn m im t code s
      else raise { code := code, action := 1, unit := 7, span := k, session := r.session, request := r.seq }
        (modMember k m (fun x => if x.code = 0 then { x with code := code } else x) s)
    let s4 := sendNotice r.session r.seq t code s3
    if x.denied then (match im.answering t with
      | some h => deliverPoison k m im h r.session r.seq 0x0405 s4
      | none => s4) else s4
  | none => sendPayload im r t x.payload s

theorem sendMember_eq {k m : Nat} {im : Image} {t : HxpSlot} {r : Request} {sh : Shard} (hsh : im.shardOf t.tensor = some sh) :
    sendMember k m im t r s = sendFired k m im t r (memberMessage k m im t sh r s) (sendFires im r t s) := by
  rw [sendMember, hsh]
  rfl

theorem exchanges_sendFired (k m : Nat) (im : Image) (t : HxpSlot) (r : Request) (x : Sending) :
    Exchanges s (sendFired k m im t r x s) := by
  have hrecord : ∀ (code : Nat) (f : Member → Member), Exchanges s (raise
      { code := code, action := 1, unit := 7, span := k, session := r.session, request := r.seq } (modMember k m f s)) :=
    fun code f => (exchanges_modMember s k m f).trans (exchanges_raise _ (by decide : (1 : Nat) < 4))
  unfold sendFired
  split
  · next code _ =>
    dsimp only
    have hnotice := (exchanges_ite s (c := x.poisoned = true) (exchanges_poisonOwn s m im t code)
      (hrecord code fun x => if x.code = 0 then { x with code := code } else x)).trans (exchanges_sendNotice _ r.session r.seq t code)
    refine exchanges_ite s ?_ hnotice
    split
    · exact hnotice.trans (exchanges_deliverPoison _ k m im _ r.session r.seq 0x0405)
    · exact hnotice
  · exact exchanges_sendPayload s _ _ _ _

theorem exchanges_sendMember (k m : Nat) (im : Image) (t : HxpSlot) (r : Request) : Exchanges s (sendMember k m im t r s) := by
  cases hsh : im.shardOf t.tensor with
  | none =>
    rw [sendMember, hsh]
    exact .refl s
  | some sh =>
    rw [sendMember_eq s hsh]
    exact (exchanges_sendFires s im r t).trans (exchanges_sendFired _ _ _ _ _ _ _)

/-- A send slot that has fired for a member is noted. -/
theorem sent_sendMember {k m : Nat} {im : Image} {t : HxpSlot} {r : Request} (hsh : (im.shardOf t.tensor).isSome = true) :
    (r.session, r.seq, t.step) ∈ (sendMember k m im t r s).sent := by
  obtain ⟨sh, hsh⟩ := Option.isSome_iff_exists.1 hsh
  have hfired : (r.session, r.seq, t.step) ∈ (sendFires im r t s).sent := by
    have hmem : (r.session, r.seq, t.step) ∈ ({ s with sent := s.sent ++ [(r.session, r.seq, t.step)] } : State).sent :=
      List.mem_append_right _ (.head _)
    unfold sendFires
    dsimp only
    split
    · exact (exchanges_startTimer _ _ _ _ _).sent hmem
    · exact hmem
  rw [sendMember_eq s hsh]
  exact (exchanges_sendFired _ _ _ _ _ _ _).sent hfired

end

end Sys2Proof.Machine

/-! Timed actions, deck rows, replayed flits and overflows (R32, R212, R265, R293, R296). -/
namespace Sys2Proof.Machine

/-! ### A span that an error halts -/

section
variable {rc : Rec} {k : Nat} {s : State} (hk : (tfind s.spans k).isSome = true) (hstop : (s.span k).stop = none) (st : Stop)

/-- The record of an error, and the stop of its span. -/
def halted (rc : Rec) (k : Nat) (st : Stop) (s : State) : State := stopSpan k st (raise rc s)

theorem halted_frame : halted rc k st s =
    { s with mem := (halted rc k st s).mem, regs := (halted rc k st s).regs, spans := (halted rc k st s).spans } := by
  rw [halted, stopSpan_frame, raise_frame]

theorem halted_piers : (halted rc k st s).piers = s.piers := by rw [halted_frame]

theorem halted_recorded : Recorded rc s (halted rc k st s) :=
  (raise_spec rc s).1.congr rfl rfl rfl rfl (stopSpan_mem _ _ _) (stopSpan_regs _ _ _)

theorem halted_regsBut (h : rc.action < 4) : regsBut [rasFaultWritten.key 0 0] s (halted rc k st s) := fun n hn d => by
  rw [halted, stopSpan_regs]
  exact raise_regsBut h s n hn d

theorem halted_spansBut : spansBut k s (halted rc k st s) := fun j hj => by
  rw [halted, stopSpan, span_modSpan_ne hj, span_raise]

include hk hstop

theorem halted_span : (halted rc k st s).span k = { s.span k with stop := some st } := by
  rw [halted, span_stopSpan (by rwa [raise_spans]) (by rwa [span_raise]), span_raise]

end

/-! ### A timed send that fires (R265, R327) -/

/-- What a send slot does for each member in turn. -/
def fireMember (k : Nat) (im : Image) (t : HxpSlot) (s : State) (e : Member × Nat) : State :=
  match s.request e.1.session e.1.seq with
  | some r => tryRecvs r.session r.seq (sendMember k e.2 im t r s)
  | none => s

theorem fireSlot_eq {k slot : Nat} {s : State} {im : Image} {b : Batch} {t : HxpSlot} (him : s.imageOf k = some im)
    (hb : (s.span k).batch = some b) (ht : im.hxp.find? (fun t => t.slot = slot ∧ ¬ t.recv) = some t) :
    fireSlot k slot s = b.members.zipIdx.foldl (fireMember k im t) s := by
  unfold fireSlot
  rw [him, hb]
  dsimp only
  rw [ht]
  rfl

theorem exchanges_fireMember (k : Nat) (im : Image) (t : HxpSlot) (s : State) (e : Member × Nat) :
    Exchanges s (fireMember k im t s e) := by
  unfold fireMember
  split
  · exact (exchanges_sendMember s _ _ _ _ _).trans (exchanges_tryRecvs _ _ _)
  · exact .refl s

theorem sent_fireMember {k : Nat} {im : Image} {t : HxpSlot} (hsh : (im.shardOf t.tensor).isSome = true) {s : State} {e : Member × Nat}
    (hr : (s.request e.1.session e.1.seq).isSome = true) : (e.1.session, e.1.seq, t.step) ∈ (fireMember k im t s e).sent := by
  obtain ⟨r, hfind⟩ := Option.isSome_iff_exists.1 hr
  have hkey : r.session = e.1.session ∧ r.seq = e.1.seq := by simpa using List.find?_some hfind
  rw [fireMember, hfind, ← hkey.1, ← hkey.2]
  exact (exchanges_tryRecvs _ _ _).sent (sent_sendMember s hsh)

/-- After a slot has fired for its members, every one of them that has a request is noted as sent. -/
theorem sent_fireMembers {k : Nat} {im : Image} {t : HxpSlot} (hsh : (im.shardOf t.tensor).isSome = true) (l : List (Member × Nat))
    (s : State) : ∀ e ∈ l, (s.request e.1.session e.1.seq).isSome = true →
      (e.1.session, e.1.seq, t.step) ∈ (l.foldl (fireMember k im t) s).sent := by
  induction l generalizing s with
  | nil => exact nofun
  | cons e0 l ih =>
    intro e he hr
    obtain rfl | he := List.mem_cons.1 he
    · exact (exchanges_foldl (exchanges_fireMember k im t) l _).sent (sent_fireMember hsh hr)
    · exact ih _ e he ((exchanges_fireMember k im t s e0).requests _ _ hr)

section
variable {p k st : Nat} {s : State} (hp : p < 192) (hspan : s.spanOf p = some (k, st))
include hp hspan

theorem exec_timedActionFire_send {a : TimedAct} (ha : (s.pier p).timed.find? (fun x => x.id = a.id) = some a) (hdue : a.target ≤ s.now)
    (hholds : ∀ y ∈ (s.span k).holds, y.pier = p → y.src ≠ .launch) : exec (.timedActionFire p a.id) s =
      .next (fireSlot k a.sendSlot (s.modPier p fun x => { x with timed := x.timed.filter fun b => b.id != a.id })) := by
  have hnone : ((s.modPier p fun x => { x with timed := x.timed.filter fun b => b.id != a.id }).span k).holds.find?
      (fun h => h.pier == p && h.src == .launch) = none := by
    refine List.find?_eq_none.2 fun y hy => ?_
    simp only [Bool.and_eq_true, beq_iff_eq, not_and]
    exact hholds y hy
  change execTimedActionFire p a.id s = _
  rw [execTimedActionFire, if_neg (by omega), hspan]
  dsimp only
  rw [ha]
  dsimp only
  rw [if_neg (Nat.not_lt.2 hdue), hnone]

end

/-! ### A timed transfer that moves (R265) -/

/-- The one transfer of a pier that `hit` picks, with its chuck. -/
theorem findSome?_chucks {x : Pier} {j : Nat} {y : Xfer} {hit : Xfer → Bool} (hj : j < 3) (hy : y ∈ (x.chuck j).xfers) (hhit : hit y = true)
    (honly : ∀ i, i < 3 → ∀ z ∈ (x.chuck i).xfers, hit z = true → i = j ∧ z = y) :
    [0, 1, 2].findSome? (fun i => ((x.chuck i).xfers.find? hit).map fun z => (i, z)) = some (j, y) := by
  have hfind : ∀ i, i < 3 → (((x.chuck i).xfers.find? hit).map fun z => (i, z)) = if i = j then some (j, y) else none := by
    intro i hi
    cases h : (x.chuck i).xfers.find? hit with
    | none =>
      have hne : i ≠ j := fun hij => List.find?_eq_none.1 h y (hij ▸ hy) hhit
      rw [if_neg hne]
      rfl
    | some z =>
      obtain ⟨rfl, rfl⟩ := honly i hi z (List.mem_of_find?_eq_some h) (List.find?_some h)
      rw [if_pos rfl]
      rfl
  simp only [List.findSome?_cons, List.findSome?_nil, hfind 0 (by omega), hfind 1 (by omega), hfind 2 (by omega)]
  obtain rfl | rfl | rfl : j = 0 ∨ j = 1 ∨ j = 2 := by omega
  · rfl
  · rfl
  · rfl

section
variable {p k st : Nat} {s : State} (hp : p < 192) (hspan : s.spanOf p = some (k, st))
include hp hspan

theorem exec_timedActionFire_move {j t0 : Nat} {x : Xfer} (hno : ∀ a ∈ (s.pier p).timed, a.id ≠ x.id) (hj : j < 3)
    (hx : x ∈ ((s.pier p).chuck j).xfers) (honly : ∀ i, i < 3 → ∀ y ∈ ((s.pier p).chuck i).xfers, y.id = x.id → i = j ∧ y = x)
    (hphase : x.phase = .timed t0) (hdue : t0 ≤ s.now) (hnear : x.d.farKind ≠ 3) :
    exec (.timedActionFire p x.id) s = .next (s.setXfer p j { x with phase := .moving }) := by
  have hnone : (s.pier p).timed.find? (fun a => a.id = x.id) = none :=
    List.find?_eq_none.2 fun a ha => by simpa using hno a ha
  have hok : accessOk s p { x with phase := .moving } = true := if_pos hnear
  change execTimedActionFire p x.id s = _
  rw [execTimedActionFire, if_neg (by omega), hspan]
  dsimp only
  rw [hnone]
  dsimp only
  rw [findSome?_chucks hj hx (by simp [hphase, hdue]) fun i hi y hy hhit =>
    honly i hi y hy (by simpa using (Bool.and_eq_true_iff.1 hhit).1)]
  dsimp only
  rw [tryMove, if_neg (by simp [hok])]

/-! ### Rows of the deck, replayed flits and overflows (R32, R212, R293, R296) -/

theorem exec_deckRowArrival_eq {row : Nat} {r : InRow} (hr : (s.pier p).inbound.find? (fun r => r.id = row) = some r)
    (hdue : r.arrives ≤ (s.span k).relFc) : exec (.deckRowArrival p row) s =
      .next (sched p (r.arrives + 6) true 3 (.benchStore { col := false, row := r.drow, lane := 0 } r.words)
        ((s.modPier p fun x => { x with inbound := x.inbound.filter fun y => y.id != row }).bump2 spnFlitsReceivedLo
          spnFlitsReceivedHi p 0 (flitsOf r.lanes))) := by
  change execDeckRowArrival p row s = _
  rw [execDeckRowArrival, if_neg (by omega), hspan, hr]
  dsimp only
  rw [if_neg (Nat.not_lt.2 hdue)]

end

section
variable {link channel replays : Nat} {spans : List Nat} {s : State} (hlink : link < 3)
include hlink

/-- A flit of `channel` at `link` replayed once more: the count alone. -/
theorem exec_flitReplay_counted (h : replays < 2 ∨ (s.flits.any fun f => f.1 == link && f.2.1 == channel) = true) :
    exec (.flitReplay link channel replays spans) s = .next (s.bump rasLinkReplays 0 link 1) := by
  change execFlitReplay link channel replays spans s = _
  rw [execFlitReplay, if_neg (by omega)]
  dsimp only
  rw [if_pos h]

/-- The hold of a flit that has been replayed twice. -/
def flitHold (link channel : Nat) (s : State) : Hold := { src := .link, pier := 255, waits := [link, channel], since := s.clk.fc }

/-- Every span of `spans` holds `h`. -/
def holdSpans (h : Hold) (spans : List Nat) (s : State) : State :=
  spans.foldl (fun s k => s.modSpan k fun sp => { sp with holds := sp.holds ++ [h] }) s

/-- The state in which a flit that has been replayed twice holds its spans, before its record. -/
def flitHeld (link channel replays : Nat) (spans : List Nat) (s : State) : State :=
  let s2 := holdSpans (flitHold link channel s) spans (s.bump rasLinkReplays 0 link 1)
  { s2 with flits := s2.flits ++ [(link, channel, replays, spans)] }.bump rasLinkHolds 0 0 spans.length

theorem exec_flitReplay_held (hreplays : 2 ≤ replays) (hnew : (s.flits.any fun f => f.1 == link && f.2.1 == channel) = false) :
    exec (.flitReplay link channel replays spans) s = .next (raise
      { code := 0x0608, action := 0, unit := 4, detail := leBytes 1 link ++ leBytes 1 channel ++ leBytes 2 replays }
      (flitHeld link channel replays spans s)) := by
  change execFlitReplay link channel replays spans s = _
  rw [execFlitReplay, if_neg (by omega)]
  dsimp only
  rw [if_neg (by simp [hnew, Nat.not_lt.2 hreplays])]
  rfl

theorem exec_flitDelivered_eq (h : s.flits.find? (fun f => f.1 = link ∧ f.2.1 = channel) = some (link, channel, replays, spans)) :
    exec (.flitDelivered link channel) s = .next
      (spans.foldl (fun s k => endHolds k (fun h => h.src == .link && h.waits == [link, channel]) s)
        { s with flits := s.flits.filter fun g => !(g.1 == link && g.2.1 == channel) }) := by
  change execFlitDelivered link channel s = _
  rw [execFlitDelivered, if_neg (by omega), h]

end

theorem holdSpans_frame (h : Hold) (spans : List Nat) (s : State) : holdSpans h spans s = { s with spans := (holdSpans h spans s).spans } :=
  foldl_rel (R := fun s t => t = { s with spans := t.spans }) (fun _ => rfl) (fun h h' => by rw [h', h])
    (fun s k => modSpan_frame _ _ _) spans s

/-- Each named span holds once more. -/
theorem holdSpans_span (h : Hold) {spans : List Nat} (hnodup : spans.Nodup) (s : State)
    (hloaded : ∀ k ∈ spans, (tfind s.spans k).isSome = true) (k : Nat) : (holdSpans h spans s).span k =
      { s.span k with holds := (s.span k).holds ++ (if k ∈ spans then [h] else []) } := by
  induction spans generalizing s with
  | nil => simp [holdSpans]
  | cons j spans ih =>
    obtain ⟨hj, hnodup⟩ := List.nodup_cons.1 hnodup
    refine (ih hnodup (s.modSpan j fun sp => { sp with holds := sp.holds ++ [h] }) fun i hi =>
      modSpan_isSome (hloaded i (.tail _ hi))).trans ?_
    by_cases hk : k = j
    · subst hk
      rw [span_modSpan_same (hloaded k (.head _)), if_neg hj, if_pos (.head _), List.append_nil]
    · rw [span_modSpan_ne hk]
      simp [hk]

/-- The holds that `q` picks end in every span of a list; the other spans stay. -/
theorem endHolds_foldl (q : Hold → Bool) (spans : List Nat) (s : State) (k : Nat) :
    (k ∈ spans → ((spans.foldl (fun s k => endHolds k q s) s).span k).holds = (s.span k).holds.filter fun h => !q h) ∧
      (k ∉ spans → (spans.foldl (fun s k => endHolds k q s) s).span k = s.span k) := by
  have hone : ∀ (s : State) (j : Nat), ((endHolds j q s).span j).holds = (s.span j).holds.filter fun h => !q h := by
    intro s j
    cases hj : tfind s.spans j with
    | none =>
      have hempty : (s.span j).holds = [] := congrArg Span.holds (tget_of_tfind_none noSpan hj)
      rw [endHolds, modSpan_unloaded _ _ _ hj, hempty]
      rfl
    | some sp => rw [endHolds, span_modSpan_same (by rw [hj]; rfl)]
  induction spans generalizing s with
  | nil => exact ⟨nofun, fun _ => rfl⟩
  | cons j spans ih =>
    obtain ⟨hin, hout⟩ := ih (endHolds j q s)
    by_cases hk : k = j
    · subst hk
      refine ⟨fun _ => ?_, fun h => absurd (.head _) h⟩
      by_cases hmem : k ∈ spans
      · rw [List.foldl_cons, hin hmem, hone, List.filter_filter]
        simp
      · rw [List.foldl_cons, hout hmem, hone]
    · have hsame : (endHolds j q s).span k = s.span k := span_modSpan_ne hk
      refine ⟨fun h => ?_, fun h => ?_⟩
      · rw [List.foldl_cons, hin ((List.mem_cons.1 h).resolve_left hk), hsame]
      · rw [List.foldl_cons, hout fun hm => h (.tail _ hm), hsame]

theorem flitHeld_frame (link channel replays : Nat) (spans : List Nat) (s : State) : flitHeld link channel replays spans s =
    { s with regs := (flitHeld link channel replays spans s).regs, spans := (flitHeld link channel replays spans s).spans
             flits := s.flits ++ [(link, channel, replays, spans)] } := by
  unfold flitHeld
  dsimp only
  rw [holdSpans_frame]
  rfl

theorem flitHeld_regsBut (link channel replays : Nat) (spans : List Nat) (s : State) :
    regsBut [rasLinkHolds.key 0 0] (s.bump rasLinkReplays 0 link 1) (flitHeld link channel replays spans s) := by
  unfold flitHeld
  dsimp only
  rw [holdSpans_frame]
  exact (regsBut_refl _ (s.bump rasLinkReplays 0 link 1)).setReg _ (.head _)

/-- A flit that has been replayed twice holds its spans, and is recorded. -/
theorem flitHeld_spec {link : Nat} (hlink : link < 3) (channel replays : Nat) {spans : List Nat} (hnodup : spans.Nodup) (s : State)
    (hloaded : ∀ k ∈ spans, (tfind s.spans k).isSome = true) {rc : Rec} (hrc : rc.action < 4) :
    let t := raise rc (flitHeld link channel replays spans s)
    t.reg rasLinkReplays 0 link = satAdd rasLinkReplays.w (s.reg rasLinkReplays 0 link) 1 ∧ t.piers = s.piers ∧
      t.flits = s.flits ++ [(link, channel, replays, spans)] ∧ Recorded rc s t ∧
      ∀ k, t.span k = { s.span k with holds := (s.span k).holds ++ (if k ∈ spans then [flitHold link channel s] else []) } := by
  have hframe := flitHeld_frame link channel replays spans s
  have hregs := flitHeld_regsBut link channel replays spans s
  have hspan : ∀ k, (flitHeld link channel replays spans s).span k =
      { s.span k with holds := (s.span k).holds ++ (if k ∈ spans then [flitHold link channel s] else []) } :=
    holdSpans_span (flitHold link channel s) hnodup (s.bump rasLinkReplays 0 link 1) hloaded
  generalize flitHeld link channel replays spans s = u at hframe hregs hspan ⊢
  have hdreg : ∀ f : Fld, f.key 0 0 ≠ rasLinkHolds.key 0 0 → f.key 0 0 ≠ rasLinkReplays.key 0 link → u.dreg f = s.dreg f :=
    fun f h1 h2 => (hregs.reg_eq (by simpa using h1)).trans (reg_bump_ne s 1 h2)
  refine ⟨?_, by rw [raise_piers, hframe], by rw [raise_frame, hframe], ?_, fun k => by rw [span_raise, hspan k]⟩
  · rw [(raise_regsBut hrc u).reg_eq (by simp [Fld.key, rasLinkReplays, rasFaultWritten]; omega),
      hregs.reg_eq (by simp [Fld.key, rasLinkReplays, rasLinkHolds]; omega), reg_bump_same]
  · refine (raise_spec rc u).1.congr (by rw [hframe]) ?_ ?_ ?_ rfl rfl
    · rw [State.now, State.now, hframe]
    · exact (hdreg _ (by decide) (by simp [Fld.key, rasFaultWritten, rasLinkReplays]; omega)).symm
    · exact (hdreg _ (by decide) (by simp [Fld.key, tbDeviceId, rasLinkReplays]; omega)).symm

/-- The end of holds of one span leaves records as they come. -/
theorem halted_ended {k : Nat} {s u : State} (hk : (tfind s.spans k).isSome = true) (hstop : (s.span k).stop = none)
    (hu : u = { s with piers := u.piers }) (q : Hold → Bool) (rc : Rec) (st : Stop) :
    let t := halted rc k st (endHolds k q u)
    (t.span k).stop = some st ∧ (∀ h ∈ (t.span k).holds, ¬ q h = true) ∧ t.piers = u.piers ∧ Recorded rc s t := by
  have hspans : ∀ j, u.span j = s.span j := fun j => by rw [State.span, hu]; rfl
  have hk' : (tfind u.spans k).isSome = true := by rw [hu]; exact hk
  have hend : (endHolds k q u).span k = { s.span k with holds := (s.span k).holds.filter fun h => !q h } := by
    rw [endHolds, span_modSpan_same hk', hspans]
  have hloaded : (tfind (endHolds k q u).spans k).isSome = true := modSpan_isSome hk'
  have hstopped := halted_span hloaded (by rw [hend]; exact hstop) (rc := rc) st
  have hframe : endHolds k q u = { u with spans := (endHolds k q u).spans } := modSpan_frame _ _ _
  refine ⟨by rw [hstopped], fun h hh => ?_, ?_, ?_⟩
  · rw [hstopped, hend] at hh
    simpa using (List.mem_filter.1 hh).2
  · rw [halted_piers, hframe]
  · refine (halted_recorded st).congr ?_ ?_ ?_ ?_ rfl rfl
    all_goals rw [hframe, hu]
    · rfl
    · rfl
    · rfl

section
variable {p k st : Nat} {s : State} (hp : p < 192) (hspan : s.spanOf p = some (k, st))
include hp hspan

theorem exec_ftqOverflow_halts (hfrozen : (s.span k).frozen = true) (hheld : ∃ h ∈ (s.span k).holds, h.pier = p ∧ h.src = .ftq)
    (hroom : (s.pier p).ftq.length < 8 ∨ ∀ e ∈ (s.pier p).ftq, e.taken = false) :
    ∃ u : State, u = { s with piers := u.piers } ∧ exec (.ftqOverflow p) s = .next
      (halted { code := 0x0104, action := 3, unit := 1, pier := p, span := k } k (.commit 0x0104 (some p))
        (endHolds k (fun h => h.pier == p && h.src == .ftq) u)) := by
  obtain ⟨h, hh, hhp, hsrc⟩ := hheld
  have hany : ((s.span k).holds.any fun h => h.pier == p && h.src == .ftq) = true := List.any_eq_true.2 ⟨h, hh, by simp [hhp, hsrc]⟩
  have hgo : (decide ((s.pier p).ftq.length < 8) || (s.pier p).ftq.all fun e => !e.taken) = true := by
    rcases hroom with hlt | hall
    · simp [hlt]
    · simp only [Bool.or_eq_true, decide_eq_true_eq, List.all_eq_true]
      exact .inr fun e he => by simp [hall e he]
  have hlathe : ∀ u, lathe01 0x0104 p k u =
      halted { code := 0x0104, action := 3, unit := 1, pier := p, span := k } k (.commit 0x0104 (some p)) u := fun u => rfl
  change ∃ u : State, _ ∧ execFtqOverflow p s = _
  rw [execFtqOverflow, if_neg (by omega), hspan]
  dsimp only
  rw [if_neg (by simp [hfrozen, hany, hgo])]
  split
  · next a ha =>
    split
    · have hop := List.find?_some ha
      refine ⟨doAct k p a (s.modPier p fun x => { x with acts := x.acts.erase a }), ?_, congrArg _ (hlathe _)⟩
      unfold doAct
      split at hop
      · next e he =>
        rw [he]
        rfl
      · exact absurd hop (by decide)
    · exact ⟨s, rfl, congrArg _ (hlathe _)⟩
  · exact ⟨s, rfl, congrArg _ (hlathe _)⟩

theorem exec_sendqOverflow_halts (hheld : ∃ h ∈ (s.span k).holds, h.pier = p ∧ h.src = .sendq) (hroom : (s.pier p).sendq.length < 16) :
    exec (.sendqOverflow p) s = .next (halted { code := 0x0505, action := 3, unit := 1, pier := p, span := k } k
      (.commit 0x0505 (some p)) (endHolds k (fun h => h.pier == p && h.src == .sendq) s)) := by
  obtain ⟨h, hh, hhp, hsrc⟩ := hheld
  have hany : ((s.span k).holds.any fun h => h.pier == p && h.src == .sendq) = true := List.any_eq_true.2 ⟨h, hh, by simp [hhp, hsrc]⟩
  change execSendqOverflow p s = _
  rw [execSendqOverflow, if_neg (by omega), hspan]
  dsimp only
  rw [if_pos ⟨hany, hroom⟩]
  rfl

end

/-- Settles O52: a due send fires for every member; a flit replayed twice holds its spans until it is delivered. -/
theorem timedActionsAndDeck : Obligations.TimedActionsAndDeck := by
  refine ⟨fun p k st s a im b h hp hspan ha hdue hholds him hb hslot hsh => ?_,
    fun p k st j t0 s x hp hspan hno hj hx honly hphase hdue hnear => ?_, fun p k st row s r hp hspan hr hdue => ?_,
    fun link channel replays spans s hlink hnodup hloaded => ?_, fun link channel replays spans s hlink hflit => ?_,
    fun p k st s hp hspan hstop => ⟨fun hfrozen hheld hroom => ?_, fun hheld hroom => ?_⟩⟩
  · refine ⟨_, exec_timedActionFire_send hp hspan ha hdue hholds, ?_⟩
    have hfire := fireSlot_eq (s := s.modPier p fun x => { x with timed := x.timed.filter fun b => b.id != a.id }) him hb hslot
    rw [hfire]
    refine ⟨?_, fun m hm hr => ?_⟩
    · have hpier := (exchanges_foldl (exchanges_fireMember k im h) b.members.zipIdx
        (s.modPier p fun x => { x with timed := x.timed.filter fun b => b.id != a.id })).frame
      rw [State.pier, hpier]
      exact congrArg Pier.timed (pier_setPier_same s p _)
    · obtain ⟨i, hi, hget⟩ := List.mem_iff_getElem.1 hm
      refine sent_fireMembers hsh b.members.zipIdx _ (m, i) ?_ hr
      exact List.mem_zipIdx_iff_getElem?.2 (by rw [List.getElem?_eq_getElem hi, hget])
  · refine ⟨_, exec_timedActionFire_move hp hspan hno hj hx honly hphase hdue hnear, fun q hq => pier_setPier_ne s _ hq, rfl, ?_⟩
    rw [State.setXfer, State.modChuck, State.modPier, pier_setPier_same, Pier.chuck, tget_tput_same]
  · refine ⟨_, exec_deckRowArrival_eq hp hspan hr hdue, fun q hq => ?_, rfl, ?_⟩
    · exact (pier_setPier_ne _ _ hq).trans (pier_setPier_ne s _ hq)
    · refine (pier_setPier_same _ _ _).trans ?_
      rw [show State.pier ((s.modPier p fun x => { x with inbound := x.inbound.filter fun y => y.id != row }).bump2 spnFlitsReceivedLo
        spnFlitsReceivedHi p 0 (flitsOf r.lanes)) p = _ from pier_setPier_same s p _]
  · by_cases hcounted : replays < 2 ∨ (s.flits.any fun f => f.1 == link && f.2.1 == channel) = true
    · refine ⟨_, exec_flitReplay_counted hlink hcounted, reg_bump_same s _ _ _ _, rfl, fun _ => rfl, fun h2 hnew => ?_⟩
      rcases hcounted with hlt | hknown
      · omega
      · exact absurd (hknown.symm.trans hnew) (by decide)
    · obtain ⟨hlt, hnew⟩ := not_or.1 hcounted
      obtain ⟨hreg, hpiers, hflits, hrec, hspans⟩ := flitHeld_spec hlink channel replays hnodup s hloaded
        (rc := { code := 0x0608, action := 0, unit := 4, detail := leBytes 1 link ++ leBytes 1 channel ++ leBytes 2 replays })
        (by decide : (0 : Nat) < 4)
      exact ⟨_, exec_flitReplay_held hlink (Nat.le_of_not_lt hlt) (Bool.eq_false_iff.2 hnew), hreg, hpiers,
        fun h => absurd h hcounted, fun _ _ => ⟨hflits, hrec, hspans⟩⟩
  · have hframe : ∀ u : State, spans.foldl (fun s k => endHolds k (fun h => h.src == .link && h.waits == [link, channel]) s) u =
        { u with spans := (spans.foldl (fun s k => endHolds k (fun h => h.src == .link && h.waits == [link, channel]) s) u).spans } :=
      fun u => foldl_rel (R := fun s t => t = { s with spans := t.spans }) (fun _ => rfl) (fun h h' => by rw [h', h])
        (fun s k => modSpan_frame _ _ _) spans u
    have hholds := endHolds_foldl (fun h => h.src == .link && h.waits == [link, channel]) spans
      { s with flits := s.flits.filter fun g => !(g.1 == link && g.2.1 == channel) }
    refine ⟨_, exec_flitDelivered_eq hlink hflit, ?_, ?_, ?_, fun k hk => (hholds k).1 hk, fun k hk => (hholds k).2 hk⟩
    all_goals rw [hframe]
  · obtain ⟨u, hu, hexec⟩ := exec_ftqOverflow_halts hp hspan hfrozen hheld hroom
    obtain ⟨hstopped, hended, -, hrec⟩ := halted_ended (spanOf_loaded s p hspan) hstop hu (fun h => h.pier == p && h.src == .ftq)
      { code := 0x0104, action := 3, unit := 1, pier := p, span := k } (.commit 0x0104 (some p))
    exact ⟨_, hexec, hstopped, fun h hh hpier => hended h hh (by simp [hpier.1, hpier.2]), hrec⟩
  · obtain ⟨hstopped, hended, hpiers, hrec⟩ := halted_ended (u := s) (spanOf_loaded s p hspan) hstop rfl
      (fun h => h.pier == p && h.src == .sendq) { code := 0x0505, action := 3, unit := 1, pier := p, span := k } (.commit 0x0505 (some p))
    exact ⟨_, exec_sendqOverflow_halts hp hspan hheld hroom, hstopped, hpiers,
      fun h hh hpier => hended h hh (by simp [hpier.1, hpier.2]), hrec⟩

end Sys2Proof.Machine

/-! # Messages of the exchange engine: arrival, acknowledgement, retransmission and timeouts (O60) -/

namespace Sys2Proof.Machine

/-! ### A message at its port -/

/-- The messages that carry an object (Table 12-6, types 2 to 5). -/
def objectMessages (m : HxpMsg) : List Instr := [.decryptShare m, .maskedInput m, .openMsg m, .returnCt m]

/-- The state after a port has counted a message's packet. -/
def packetCounted (m : HxpMsg) (s : State) : State := s.bump prtRxPackets 0 m.port 1

theorem exec_object {m : HxpMsg} {s : State} (htakes : s.takes m.port) :
    ∀ cmd ∈ objectMessages m, exec cmd s = .next (receive m (packetCounted m s)) := by
  have hport : ∀ c, onPort m.port (hxpBytes m) c s (receive m) = .next (receive m (packetCounted m s)) := fun c =>
    onPort_takes _ _ c s _ htakes
  intro cmd hcmd
  simp only [objectMessages, List.mem_cons, List.not_mem_nil, or_false] at hcmd
  rcases hcmd with rfl | rfl | rfl | rfl
  · exact hport (.decryptShare m)
  · exact hport (.maskedInput m)
  · exact hport (.openMsg m)
  · exact hport (.returnCt m)

theorem exec_ack {m : HxpMsg} {s : State} (htakes : s.takes m.port) :
    exec (.ack m) s = .next (receiveAck m (packetCounted m s)) :=
  onPort_takes _ _ (.ack m) s _ htakes

theorem exec_poisonNotice {m : HxpMsg} {s : State} (htakes : s.takes m.port) :
    exec (.poisonNotice m) s = .next (receiveNotice m (packetCounted m s)) :=
  onPort_takes _ _ (.poisonNotice m) s _ htakes

theorem exec_hxpInvalidType {m : HxpMsg} {s : State} (htakes : s.takes m.port) :
    exec (.hxpInvalidType m) s = .next ((packetCounted m s).bump xchAuthDrops 0 0 1) :=
  onPort_takes _ _ (.hxpInvalidType m) s (fun s => s.bump xchAuthDrops 0 0 1) htakes

theorem authentic_packetCounted (m : HxpMsg) (s : State) : authentic (packetCounted m s) m = authentic s m := by
  have hreg : (packetCounted m s).dreg tbOperVersion = s.dreg tbOperVersion :=
    reg_bump_ne s 1 (by simp [Fld.key, prtRxPackets, tbOperVersion]; omega)
  have hoper : (packetCounted m s).oper = s.oper := by
    rw [State.oper, hreg]
    rfl
  rw [authentic, hoper]
  rfl

/-- A message that is not authentic is dropped and counted, whatever it carries (R319). -/
theorem exec_unauthentic {m : HxpMsg} {s : State} (htakes : s.takes m.port) (hauth : authentic s m = false) :
    ∀ cmd ∈ objectMessages m ++ [.ack m, .poisonNotice m], exec cmd s = .next ((packetCounted m s).bump xchAuthDrops 0 0 1) := by
  have hdrop : (!authentic (packetCounted m s) m) = true := by
    rw [authentic_packetCounted, hauth]
    rfl
  intro cmd hcmd
  simp only [List.mem_append, List.mem_cons, List.not_mem_nil, or_false] at hcmd
  rcases hcmd with hobj | rfl | rfl
  · rw [exec_object htakes cmd hobj, receive, if_pos hdrop]
  · rw [exec_ack htakes, receiveAck, if_pos hdrop]
  · rw [exec_poisonNotice htakes, receiveNotice, if_pos hdrop]

theorem noteSeq_replay {m : HxpMsg} {s : State} (hepoch : m.epoch = (s.stream m.session m.src).rxEpoch)
    (hseen : m.seq ∈ (s.stream m.session m.src).seen) : noteSeq m s = none := by
  rw [noteSeq]
  dsimp only
  rw [if_neg (Nat.not_lt.2 (Nat.le_of_eq hepoch)), if_pos (.inr (.inl (by simpa using hseen)))]

theorem noteSeq_fresh {m : HxpMsg} {s : State} (hepoch : m.epoch = (s.stream m.session m.src).rxEpoch)
    (hseen : m.seq ∉ (s.stream m.session m.src).seen) (hwindow : (s.stream m.session m.src).highest ≤ m.seq + 1024) :
    ∃ x, noteSeq m s = some (s.putStream x) := by
  rw [noteSeq]
  dsimp only
  rw [if_neg (Nat.not_lt.2 (Nat.le_of_eq hepoch)), if_neg]
  · exact ⟨_, rfl⟩
  · rintro (h | h | h)
    · omega
    · exact hseen (by simpa using h)
    · omega

/-- A replay has no effect but the packet's count (R320, R322). -/
theorem exec_replay {m : HxpMsg} {s : State} (htakes : s.takes m.port) (hauth : authentic s m = true)
    (hepoch : m.epoch = (s.stream m.session m.src).rxEpoch) (hseen : m.seq ∈ (s.stream m.session m.src).seen) :
    ∀ cmd ∈ objectMessages m ++ [.ack m, .poisonNotice m], exec cmd s = .next (packetCounted m s) := by
  have hkept : ¬ (!authentic (packetCounted m s) m) = true := by
    rw [authentic_packetCounted, hauth]
    decide
  have hnone : noteSeq m (packetCounted m s) = none := noteSeq_replay hepoch hseen
  intro cmd hcmd
  simp only [List.mem_append, List.mem_cons, List.not_mem_nil, or_false] at hcmd
  rcases hcmd with hobj | rfl | rfl
  · rw [exec_object htakes cmd hobj, receive, if_neg hkept, hnone]
  · rw [exec_ack htakes, receiveAck, if_neg hkept, hnone]
  · rw [exec_poisonNotice htakes, receiveNotice, if_neg hkept, hnone]

/-! ### The count of received messages -/

/-- The messages received (XCH_MSGS_RECEIVED). -/
def receivedCount (s : State) : Nat := s.dreg xchMsgsReceivedLo + 2 ^ 32 * s.dreg xchMsgsReceivedHi

/-- A message counted as received. -/
def messageCounted (s : State) : State := s.bump2 xchMsgsReceivedLo xchMsgsReceivedHi 0 0 1

theorem receivedCount_messageCounted (s : State) : receivedCount (messageCounted s) = min (receivedCount s + 1) (2 ^ 64 - 1) := by
  have hne : xchMsgsReceivedLo.key 0 0 ≠ xchMsgsReceivedHi.key 0 0 := by decide
  have hw : xchMsgsReceivedLo.w = 32 ∧ xchMsgsReceivedHi.w = 32 := ⟨rfl, rfl⟩
  simp only [receivedCount, messageCounted, State.bump2, State.dreg, reg_setReg_same]
  rw [reg_setReg_ne _ _ hne, reg_setReg_same, hw.1, hw.2, satAdd]
  omega

/-! ### A message that is received -/

/-- A message of a stream, noted there with what it acknowledges, before it is counted. -/
def noted (m : HxpMsg) (x : Stream) (s : State) : State := ackFrags m.session m.src m.ack 0 ((packetCounted m s).putStream x)

/-- The state in which a received fragment is stored. -/
def arrived (m : HxpMsg) (x : Stream) (s : State) : State := messageCounted (noted m x s)

theorem arrived_regs (m : HxpMsg) (x : Stream) (s : State) :
    regsBut [prtRxPackets.key 0 m.port, xchMsgsReceivedLo.key 0 0, xchMsgsReceivedHi.key 0 0] s (arrived m x s) :=
  have hpacket : regsBut _ s (packetCounted m s) := (regsBut_refl _ s).setReg _ (.head _)
  have hnoted : regsBut _ s (noted m x s) := hpacket
  (hnoted.setReg _ (.tail _ (.head _))).setReg _ (.tail _ (.tail _ (.head _)))

theorem receivedCount_arrived (m : HxpMsg) (x : Stream) (s : State) :
    receivedCount (arrived m x s) = min (receivedCount s + 1) (2 ^ 64 - 1) := by
  have hreg : ∀ f : Fld, f.key 0 0 ≠ prtRxPackets.key 0 m.port → (noted m x s).dreg f = s.dreg f := fun f hf => reg_bump_ne s 1 hf
  have hnoted : receivedCount (noted m x s) = receivedCount s := by
    rw [receivedCount, hreg _ (by simp [Fld.key, prtRxPackets, xchMsgsReceivedLo]; omega),
      hreg _ (by simp [Fld.key, prtRxPackets, xchMsgsReceivedHi]; omega)]
    rfl
  rw [arrived, receivedCount_messageCounted, hnoted]

/-- A stored notice's effect on its member: the receive slot's object is poisoned with the notice's code (R324). -/
def noticeDelivered (m : HxpMsg) (s : State) : State :=
  match s.recvSlot m, s.memberOf m.session m.request with
  | some (_, im, h), some (k, i) =>
    if s.isDone m.session m.request m.step then s
    else deliverPoison k i im h m.session m.request (leNat (m.payload.take 2)) s
  | _, _ => s

section
variable {m : HxpMsg} {s : State} (hauth : authentic s m = true) (hepoch : m.epoch = (s.stream m.session m.src).rxEpoch)
  (hseen : m.seq ∉ (s.stream m.session m.src).seen) (hwindow : (s.stream m.session m.src).highest ≤ m.seq + 1024)
include hauth hepoch hseen hwindow

theorem noteSeq_packetCounted : ¬ (!authentic (packetCounted m s) m) = true ∧
    ∃ x, noteSeq m (packetCounted m s) = some ((packetCounted m s).putStream x) := by
  refine ⟨by rw [authentic_packetCounted, hauth]; decide, ?_⟩
  exact noteSeq_fresh (s := packetCounted m s) hepoch hseen hwindow

theorem receiveAck_fresh : ∃ x, receiveAck m (packetCounted m s) =
    ackFrags m.session m.src (getLe m.payload 0 8) (getLe m.payload 8 8) (arrived m x s) := by
  obtain ⟨hkept, x, hx⟩ := noteSeq_packetCounted hauth hepoch hseen hwindow
  refine ⟨x, ?_⟩
  rw [receiveAck, if_neg hkept, hx]
  rfl

variable {r : Request} (hr : s.request m.session m.request = some r) (hlive : r.live = true)
include hr hlive

theorem receive_fresh : ∃ x, receive m (packetCounted m s) =
    tryRecvs m.session m.request (storeFrag false m (arrived m x s)) := by
  obtain ⟨hkept, x, hx⟩ := noteSeq_packetCounted hauth hepoch hseen hwindow
  refine ⟨x, ?_⟩
  have hr' : (noted m x s).request m.session m.request = some r := hr
  rw [receive, if_neg hkept, hx]
  change (match (noted m x s).request m.session m.request with | none => _ | some r => _) = _
  rw [hr']
  dsimp only
  rw [if_neg (by simp [hlive])]
  rfl

theorem receiveNotice_fresh : ∃ x, receiveNotice m (packetCounted m s) = noticeDelivered m (storeFrag true m (arrived m x s)) := by
  obtain ⟨hkept, x, hx⟩ := noteSeq_packetCounted hauth hepoch hseen hwindow
  refine ⟨x, ?_⟩
  have hr' : (noted m x s).request m.session m.request = some r := hr
  rw [receiveNotice, if_neg hkept, hx]
  change (match (noted m x s).request m.session m.request with | none => _ | some r => _) = _
  rw [hr']
  dsimp only
  rw [if_neg (by simp [hlive])]
  rfl

end

/-! ### A fragment by its identity (R320) -/

/-- A message's fragment as it is kept. -/
def fragmentOf (m : HxpMsg) (notice : Bool) : RxFrag :=
  { session := m.session, request := m.request, step := m.step, src := m.src, frag := m.fragIndex
    count := m.fragCount, payload := m.payload, serial := m.serial, notice := notice }

/-- A kept fragment with a message's identity. -/
def sameFragment (m : HxpMsg) (f : RxFrag) : Bool :=
  decide (f.session = m.session ∧ f.request = m.request ∧ f.step = m.step ∧ f.src = m.src ∧ f.frag = m.fragIndex)

/-- A fragment with the mark of a conflict. -/
def conflictMarked (m : HxpMsg) (s : State) : State :=
  { s with rx := s.rx.map fun f => if sameFragment m f then { f with conflict := true } else f }

section
variable {m : HxpMsg} {s : State}

theorem exchanges_answerAgain (m : HxpMsg) (s : State) : Exchanges s (answerAgain m s) := by
  unfold answerAgain
  split
  · split
    · dsimp only
      refine exchanges_ite s (.refl s) ?_
      split
      · split
        · exact exchanges_sendNotice s _ _ _ _
        · exact exchanges_sendPayload s _ _ _ _
      · exact .refl s
    · exact .refl s
  · exact .refl s

theorem putArrival_frame (m : HxpMsg) (s : State) : putArrival m s = { s with mem := (putArrival m s).mem } := by
  unfold putArrival
  split
  · dsimp only
    generalize (if m.fragIndex + 1 = m.fragCount then _ else _) = off
    split
    · rfl
    · rfl
  · rfl

theorem putArrival_whole {r : Request} {im : Image} {h : HxpSlot} (hslot : s.recvSlot m = some (r, im, h))
    (hfirst : m.fragIndex = 0) (hcount : m.fragCount = 1) (hlen : m.payload.length = h.bytes) :
    (putArrival m s).mem = mputs s.mem (im.arrivalAt r h) m.payload := by
  rw [putArrival, hslot]
  dsimp only
  rw [if_pos (show m.fragIndex + 1 = m.fragCount by omega), if_pos (by omega), show im.arrivalAt r h + (h.bytes - m.payload.length) = im.arrivalAt r h by omega]
  rfl

/-- A fragment that is new: kept, and acknowledged. -/
theorem storeFrag_new (notice : Bool) (hnew : s.rx.find? (sameFragment m) = none) : storeFrag notice m s =
    sendAck m.session m.src (if notice then { s with rx := s.rx ++ [fragmentOf m notice] }
      else putArrival m { s with rx := s.rx ++ [fragmentOf m notice] }) := by
  have hnew' : s.rx.find? (fun f => decide (f.session = m.session ∧ f.request = m.request ∧ f.step = m.step ∧ f.src = m.src ∧
    f.frag = m.fragIndex)) = none := hnew
  rw [storeFrag]
  dsimp only
  rw [hnew']
  rfl

/-- A second copy: counted, acknowledged, and answered again. -/
theorem storeFrag_duplicate (notice : Bool) {f : RxFrag} (hf : s.rx.find? (sameFragment m) = some f) (hpayload : f.payload = m.payload) :
    Exchanges (s.bump xchDuplicates 0 0 1) (storeFrag notice m s) := by
  have hf' : s.rx.find? (fun f => decide (f.session = m.session ∧ f.request = m.request ∧ f.step = m.step ∧ f.src = m.src ∧
    f.frag = m.fragIndex)) = some f := hf
  rw [storeFrag]
  dsimp only
  rw [hf']
  dsimp only
  rw [if_pos hpayload]
  exact (exchanges_send _ _).trans (exchanges_answerAgain _ _)

/-- A conflict's effect on the member that a batch runs: its receive delivers poison, unless it is done. -/
def conflictDelivered (m : HxpMsg) (s : State) : State :=
  match s.memberOf m.session m.request with
  | some (k, i) =>
    (match (s.imageOf k).bind fun im => (im.hxp.find? fun h => h.recv && h.step == m.step && h.peer == m.src).map fun h => (im, h) with
      | some (im, h) => if s.isDone m.session m.request m.step then s else deliverPoison k i im h m.session m.request 0x0404 s
      | none => s)
  | none => s

theorem exchanges_conflictDelivered (m : HxpMsg) (s : State) : Exchanges s (conflictDelivered m s) := by
  unfold conflictDelivered
  split
  · split
    · exact exchanges_ite s (.refl s) (exchanges_deliverPoison _ _ _ _ _ _ _ _)
    · exact .refl s
  · exact .refl s

/-- A copy that differs: the conflict is kept with the fragment, recorded and counted. -/
theorem storeFrag_conflict (notice : Bool) {f : RxFrag} (hf : s.rx.find? (sameFragment m) = some f) (hpayload : f.payload ≠ m.payload) :
    Exchanges ((conflictMarked m s).bump xchConflicts 0 0 1) (storeFrag notice m s) := by
  have hf' : s.rx.find? (fun f => decide (f.session = m.session ∧ f.request = m.request ∧ f.step = m.step ∧ f.src = m.src ∧
    f.frag = m.fragIndex)) = some f := hf
  rw [storeFrag]
  dsimp only
  rw [hf']
  dsimp only
  rw [if_neg hpayload]
  exact (exchanges_raise ((conflictMarked m s).bump xchConflicts 0 0 1)
    (rc := { code := 0x0404, action := 1, unit := 7, session := m.session, request := m.request })
    (by decide : (1 : Nat) < 4)).trans (exchanges_conflictDelivered m _)

/-- A fragment that is new, as it is kept. -/
theorem storeFrag_new_spec (notice : Bool) (hnew : s.rx.find? (sameFragment m) = none) :
    storeFrag notice m s = { s with rx := s.rx ++ [fragmentOf m notice], mem := (storeFrag notice m s).mem, out := (storeFrag notice m s).out } ∧
      ∃ base bits, Out.hxpAck m.session m.src base bits ∈ (storeFrag notice m s).out := by
  rw [storeFrag_new notice hnew]
  refine ⟨?_, _, _, List.mem_append_right _ (.head _)⟩
  cases notice
  · have hput := putArrival_frame m { s with rx := s.rx ++ [fragmentOf m false] }
    rw [if_neg (by decide)]
    generalize putArrival m { s with rx := s.rx ++ [fragmentOf m false] } = u at hput ⊢
    rw [hput]
    rfl
  · rfl

/-- However a fragment is taken, what was sent before and the count of messages stay. -/
theorem storeFrag_base (notice : Bool) : ∃ u : State, Exchanges u (storeFrag notice m s) ∧ u.tx = s.tx ∧ u.nextId = s.nextId ∧
    receivedCount u = receivedCount s := by
  have hcount : ∀ (v : State) (f : Fld), xchMsgsReceivedLo.key 0 0 ≠ f.key 0 0 → xchMsgsReceivedHi.key 0 0 ≠ f.key 0 0 →
      receivedCount (v.bump f 0 0 1) = receivedCount v := fun v f hlo hhi => by
    rw [receivedCount, State.dreg, State.dreg, reg_bump_ne v 1 hlo, reg_bump_ne v 1 hhi]
    rfl
  cases hf : s.rx.find? (sameFragment m) with
  | none =>
    have hframe := (storeFrag_new_spec notice hf).1
    refine ⟨_, .refl _, ?_, ?_, ?_⟩
    · rw [hframe]
    · rw [hframe]
    · rw [hframe]
      rfl
  | some f =>
    by_cases hpayload : f.payload = m.payload
    · exact ⟨_, storeFrag_duplicate notice hf hpayload, rfl, rfl, hcount _ _ (by decide) (by decide)⟩
    · exact ⟨_, storeFrag_conflict notice hf hpayload, rfl, rfl, hcount _ _ (by decide) (by decide)⟩

end

theorem Exchanges.receivedCount_eq {s t : State} (h : Exchanges s t) : receivedCount t = receivedCount s := by
  have hlo : t.dreg xchMsgsReceivedLo = s.dreg xchMsgsReceivedLo := h.regs _ (by decide) _
  have hhi : t.dreg xchMsgsReceivedHi = s.dreg xchMsgsReceivedHi := h.regs _ (by decide) _
  rw [receivedCount, receivedCount, hlo, hhi]

theorem tryRecvs_waiting {s : State} {se rq : Nat} (hmember : s.memberOf se rq = none) : tryRecvs se rq s = s := by
  rw [tryRecvs, hmember]

/-- The part of a request's fragment that waits for it: what is stored for a request that no batch runs (R328). -/
theorem tryRecvs_storeFrag_waiting {m : HxpMsg} {s : State} (notice : Bool) (hmember : s.memberOf m.session m.request = none)
    (hnew : s.rx.find? (sameFragment m) = none) :
    tryRecvs m.session m.request (storeFrag notice m s) = storeFrag notice m s := by
  refine tryRecvs_waiting ?_
  rw [(storeFrag_new_spec notice hnew).1]
  exact hmember

/-- The payload of a request that no batch runs lands in its arrival entry. -/
theorem storeFrag_arrival {m : HxpMsg} {s : State} (hnew : s.rx.find? (sameFragment m) = none) {r : Request} {im : Image} {h : HxpSlot}
    (hslot : s.recvSlot m = some (r, im, h)) (hfirst : m.fragIndex = 0) (hcount : m.fragCount = 1)
    (hlen : m.payload.length = h.bytes) : (storeFrag false m s).mem = mputs s.mem (im.arrivalAt r h) m.payload := by
  rw [storeFrag_new false hnew]
  exact putArrival_whole (s := { s with rx := s.rx ++ [fragmentOf m false] }) hslot hfirst hcount hlen

/-- Acknowledged fragments are sent no more. -/
theorem mem_ackFrags {se q base bits : Nat} {s : State} {f : TxFrag} : f ∈ (ackFrags se q base bits s).tx ↔
    f ∈ s.tx ∧ ¬ (f.session = se ∧ f.peer = q ∧ (f.seq < base ∨ (f.seq < base + 64 ∧ bit bits (f.seq - base) = true))) := by
  have hfilter := List.mem_filter (p := fun f : TxFrag => !(f.session == se && f.peer == q &&
    (decide (f.seq < base) || (decide (f.seq < base + 64) && bit bits (f.seq - base))))) (as := s.tx) (x := f)
  refine hfilter.trans (and_congr_right fun _ => ?_)
  rw [Bool.not_eq_true', ← Bool.not_eq_true]
  simp only [Bool.and_eq_true, Bool.or_eq_true, beq_iff_eq, decide_eq_true_eq, and_assoc]

/-- What a message's ACK field acknowledges. -/
theorem mem_arrived_tx {m : HxpMsg} {x : Stream} {s : State} {f : TxFrag} : f ∈ (arrived m x s).tx ↔
    f ∈ s.tx ∧ ¬ (f.session = m.session ∧ f.peer = m.src ∧ f.seq < m.ack) := by
  have hzero : ∀ n, bit 0 n = false := fun n => by simp [bit]
  refine (mem_ackFrags (s := (packetCounted m s).putStream x)).trans (and_congr_right fun _ => ?_)
  simp only [hzero, Bool.false_eq_true, and_false, or_false]

/-! ### What each message does -/

section
variable {m : HxpMsg} {s : State} (hauth : authentic s m = true) (hepoch : m.epoch = (s.stream m.session m.src).rxEpoch)
  (hseen : m.seq ∉ (s.stream m.session m.src).seen) (hwindow : (s.stream m.session m.src).highest ≤ m.seq + 1024)
include hauth hepoch hseen hwindow

theorem receiveAck_spec : ∃ t, receiveAck m (packetCounted m s) = t ∧ receivedCount t = min (receivedCount s + 1) (2 ^ 64 - 1) ∧
    t.rx = s.rx ∧ t.mem = s.mem ∧ t.out = s.out ∧ ∀ f, f ∈ t.tx ↔ f ∈ s.tx ∧
      ¬ (f.session = m.session ∧ f.peer = m.src ∧ (f.seq < m.ack ∨ f.seq < getLe m.payload 0 8 ∨
        (f.seq < getLe m.payload 0 8 + 64 ∧ bit (getLe m.payload 8 8) (f.seq - getLe m.payload 0 8) = true))) := by
  obtain ⟨x, hx⟩ := receiveAck_fresh hauth hepoch hseen hwindow
  refine ⟨_, hx, receivedCount_arrived m x s, rfl, rfl, rfl, fun f => ?_⟩
  rw [mem_ackFrags, mem_arrived_tx]
  constructor
  · rintro ⟨⟨hf, hack⟩, hbits⟩
    refine ⟨hf, fun ⟨hse, hpeer, hwhich⟩ => ?_⟩
    rcases hwhich with hlt | hrest
    · exact hack ⟨hse, hpeer, hlt⟩
    · exact hbits ⟨hse, hpeer, hrest⟩
  · rintro ⟨hf, hno⟩
    exact ⟨⟨hf, fun ⟨hse, hpeer, hlt⟩ => hno ⟨hse, hpeer, .inl hlt⟩⟩, fun ⟨hse, hpeer, hrest⟩ => hno ⟨hse, hpeer, .inr hrest⟩⟩

variable {r : Request} (hr : s.request m.session m.request = some r) (hlive : r.live = true)
include hr hlive

theorem receive_spec (hport : m.port < 8) : ∃ t, receive m (packetCounted m s) = t ∧ receivedCount t = min (receivedCount s + 1) (2 ^ 64 - 1) ∧
    (∀ f ∈ t.tx, f.id < s.nextId → f.session = m.session → f.peer = m.src → m.ack ≤ f.seq) ∧
    (s.rx.find? (sameFragment m) = none → t.rx = s.rx ++ [fragmentOf m false] ∧
      ∃ base bits, Out.hxpAck m.session m.src base bits ∈ t.out) ∧
    (∀ im h, s.recvSlot m = some (r, im, h) → s.memberOf m.session m.request = none → s.rx.find? (sameFragment m) = none →
      m.fragIndex = 0 → m.fragCount = 1 → m.payload.length = h.bytes → t.mem = mputs s.mem (im.arrivalAt r h) m.payload) ∧
    ∀ f, s.rx.find? (sameFragment m) = some f →
      (f.payload = m.payload → t.rx = s.rx ∧ t.dreg xchDuplicates = satAdd xchDuplicates.w (s.dreg xchDuplicates) 1 ∧
        t.dreg xchConflicts = s.dreg xchConflicts) ∧
      (f.payload ≠ m.payload → t.rx = (conflictMarked m s).rx ∧
        t.dreg xchConflicts = satAdd xchConflicts.w (s.dreg xchConflicts) 1 ∧ t.dreg xchDuplicates = s.dreg xchDuplicates) := by
  obtain ⟨x, hx⟩ := receive_fresh hauth hepoch hseen hwindow hr hlive
  have htry := exchanges_tryRecvs (storeFrag false m (arrived m x s)) m.session m.request
  have hreg : ∀ f : Fld, f ∈ [xchDuplicates, xchConflicts] → (arrived m x s).dreg f = s.dreg f := fun f hf => by
    refine (arrived_regs m x s).reg_eq ?_
    simp only [List.mem_cons, List.not_mem_nil, or_false] at hf
    rcases hf with rfl | rfl
    · simp [Fld.key, prtRxPackets, xchDuplicates, xchMsgsReceivedLo, xchMsgsReceivedHi]; omega
    · simp [Fld.key, prtRxPackets, xchConflicts, xchMsgsReceivedLo, xchMsgsReceivedHi]; omega
  refine ⟨_, hx, ?_, ?_, fun hnew => ?_, fun im h hslot hmember hnew hfirst hcount hlen => ?_, fun f hf => ⟨fun hpayload => ?_, fun hpayload => ?_⟩⟩
  · obtain ⟨u, hu, -, -, hcount⟩ := storeFrag_base (m := m) (s := arrived m x s) false
    rw [(hu.trans htry).receivedCount_eq, hcount, receivedCount_arrived]
  · obtain ⟨u, hu, htx, hid, -⟩ := storeFrag_base (m := m) (s := arrived m x s) false
    obtain ⟨new, hnew, hids⟩ := (hu.trans htry).tx
    intro f hf hold hse hpeer
    rw [hnew, htx, List.mem_append] at hf
    rcases hf with hf | hf
    · exact Nat.le_of_not_lt fun hlt => (mem_arrived_tx.1 hf).2 ⟨hse, hpeer, hlt⟩
    · have hge := hids f hf
      rw [hid] at hge
      exact absurd hold (Nat.not_lt.2 hge)
  · obtain ⟨hframe, base, bits, hack⟩ := storeFrag_new_spec (m := m) (s := arrived m x s) false hnew
    refine ⟨?_, base, bits, htry.out hack⟩
    rw [htry.frame]
    exact congrArg State.rx hframe
  · rw [tryRecvs_storeFrag_waiting (s := arrived m x s) false hmember hnew]
    exact storeFrag_arrival (s := arrived m x s) hnew hslot hfirst hcount hlen
  · have hdup := (storeFrag_duplicate (s := arrived m x s) false hf hpayload).trans htry
    refine ⟨by rw [hdup.frame]; rfl, ?_, ?_⟩
    · refine (hdup.regs _ (by decide) _).trans ((reg_bump_same (arrived m x s) xchDuplicates 0 0 1).trans ?_)
      exact congrArg (satAdd _ · 1) (hreg _ (by simp))
    · exact (hdup.regs _ (by decide) _).trans ((reg_bump_ne (arrived m x s) 1 (by decide)).trans (hreg _ (by simp)))
  · have hconf := (storeFrag_conflict (s := arrived m x s) false hf hpayload).trans htry
    refine ⟨by rw [hconf.frame]; rfl, ?_, ?_⟩
    · refine (hconf.regs _ (by decide) _).trans ((reg_bump_same (conflictMarked m (arrived m x s)) xchConflicts 0 0 1).trans ?_)
      exact congrArg (satAdd _ · 1) (hreg _ (by simp))
    · exact (hconf.regs _ (by decide) _).trans ((reg_bump_ne (conflictMarked m (arrived m x s)) 1 (by decide)).trans (hreg _ (by simp)))

/-- A notice for a request that no batch runs is kept with its fragments. -/
theorem receiveNotice_waiting (hmember : s.memberOf m.session m.request = none) (hnew : s.rx.find? (sameFragment m) = none) :
    ∃ t, receiveNotice m (packetCounted m s) = t ∧ t.rx = s.rx ++ [fragmentOf m true] ∧ t.mem = s.mem ∧ t.spans = s.spans := by
  obtain ⟨x, hx⟩ := receiveNotice_fresh hauth hepoch hseen hwindow hr hlive
  have hmember' : (storeFrag true m (arrived m x s)).memberOf m.session m.request = none := by
    rw [(storeFrag_new_spec (s := arrived m x s) true hnew).1]
    exact hmember
  have hstored : noticeDelivered m (storeFrag true m (arrived m x s)) = storeFrag true m (arrived m x s) := by
    rw [noticeDelivered, hmember']
    cases (storeFrag true m (arrived m x s)).recvSlot m <;> rfl
  refine ⟨_, hx.trans hstored, ?_⟩
  rw [storeFrag_new (s := arrived m x s) true hnew, if_pos rfl]
  exact ⟨rfl, rfl, rfl⟩

/-- A notice for a running request delivers poison with the notice's code (R324). -/
theorem receiveNotice_running {k i : Nat} {im : Image} {h : HxpSlot} (hmember : s.memberOf m.session m.request = some (k, i))
    (him : tfind s.images r.handle = some im)
    (hslot : im.hxp.find? (fun h => h.recv && h.step == m.step && h.peer == m.src) = some h)
    (hdone : s.isDone m.session m.request m.step = false) (hnew : s.rx.find? (sameFragment m) = none) :
    ∃ t, receiveNotice m (packetCounted m s) = t ∧
      (∃ d ∈ t.rxDone, d.session = m.session ∧ d.request = m.request ∧ d.step = m.step ∧ d.code = leNat (m.payload.take 2)) ∧
      t.piers = s.piers := by
  obtain ⟨x, hx⟩ := receiveNotice_fresh hauth hepoch hseen hwindow hr hlive
  have hstep : h.step = m.step := by
    have hsame := List.find?_some hslot
    simp only [Bool.and_eq_true, beq_iff_eq] at hsame
    exact hsame.1.2
  have hrecv : s.recvSlot m = some (r, im, h) := by
    rw [State.recvSlot, hr, Option.bind_some, him, Option.bind_some, hslot]
    rfl
  have hframe := (storeFrag_new_spec (s := arrived m x s) true hnew).1
  generalize storeFrag true m (arrived m x s) = u at hx hframe
  have hrecv' : u.recvSlot m = some (r, im, h) := by rw [hframe]; exact hrecv
  have hmember' : u.memberOf m.session m.request = some (k, i) := by rw [hframe]; exact hmember
  have hdone' : u.isDone m.session m.request m.step = false := by rw [hframe]; exact hdone
  have hstored : noticeDelivered m u = deliverPoison k i im h m.session m.request (leNat (m.payload.take 2)) u := by
    rw [noticeDelivered, hrecv', hmember']
    dsimp only
    rw [if_neg (by simp [hdone'])]
  refine ⟨_, hx.trans hstored, ⟨_, List.mem_append_right _ (.head _), rfl, rfl, hstep, rfl⟩, ?_⟩
  rw [(exchanges_deliverPoison u k i im h m.session m.request _).frame, hframe]
  rfl

end

/-! ### Retransmission and timeouts (R321) -/

/-- A fragment as it is sent again. -/
def sentAgain (f : TxFrag) (s : State) : TxFrag :=
  { f with
    rtoUs := min (2 * f.rtoUs) (s.dreg xchRtoMaxUs), seq := (s.stream f.session f.peer).nextSeq
    due := s.now + 1000 * min (2 * f.rtoUs) (s.dreg xchRtoMaxUs) }

theorem exec_hxpRetransmit_early {s : State} {f : TxFrag} (hf : s.tx.find? (fun g => g.id = f.id) = some f) (hdue : s.now < f.due) :
    exec (.hxpRetransmit f.id) s = .next s := by
  change execHxpRetransmit f.id s = _
  rw [execHxpRetransmit, hf]
  dsimp only
  rw [if_pos hdue]

theorem exec_hxpRetransmit_late {s : State} {f : TxFrag} (hf : s.tx.find? (fun g => g.id = f.id) = some f) (hdue : f.due ≤ s.now)
    (hdeadline : f.deadline ≤ s.now) : exec (.hxpRetransmit f.id) s = .next { s with tx := s.tx.filter fun g => g.id != f.id } := by
  change execHxpRetransmit f.id s = _
  rw [execHxpRetransmit, hf]
  dsimp only
  rw [if_neg (Nat.not_lt.2 hdue), if_pos hdeadline]

/-- The state in which a fragment has been sent again. -/
def resent (f : TxFrag) (s : State) : State :=
  { (transmit { f with rtoUs := min (2 * f.rtoUs) (s.dreg xchRtoMaxUs) } (s.bump xchRetransmits 0 0 1)).2 with
    tx := s.tx.map fun g => if g.id = f.id then sentAgain f s else g }

theorem exec_hxpRetransmit_again {s : State} {f : TxFrag} (hf : s.tx.find? (fun g => g.id = f.id) = some f) (hdue : f.due ≤ s.now)
    (hdeadline : s.now < f.deadline) : exec (.hxpRetransmit f.id) s = .next (resent f s) := by
  change execHxpRetransmit f.id s = _
  rw [execHxpRetransmit, hf]
  dsimp only
  rw [if_neg (Nat.not_lt.2 hdue), if_neg (Nat.not_le.2 hdeadline)]
  rfl

theorem resent_retransmits (f : TxFrag) (s : State) :
    (resent f s).dreg xchRetransmits = satAdd xchRetransmits.w (s.dreg xchRetransmits) 1 :=
  ((exchanges_transmit (s.bump xchRetransmits 0 0 1) { f with rtoUs := min (2 * f.rtoUs) (s.dreg xchRtoMaxUs) }).regs _
    (by decide) _).trans (reg_bump_same s xchRetransmits 0 0 1)

/-- A receive's timers but the one whose time has come. -/
def timersBut (se rq step : Nat) (s : State) : List RxTimer :=
  s.rxTimers.filter fun v => !(v.session == se && v.request == rq && v.step == step)

/-- The record of a receive that has not come. -/
def timeoutRecord (se rq : Nat) : Rec := { code := 0x0403, action := 1, unit := 7, session := se, request := rq }

/-- A receive that has not come, counted and recorded, before its member is looked at. -/
def timedOut (se rq step : Nat) (s : State) : State :=
  { raise (timeoutRecord se rq) (s.bump xchTimeouts 0 0 1) with rxTimers := timersBut se rq step s }

/-- The receive slot and image of a timeout's member. -/
def timeoutSlot (k step : Nat) (s : State) : Option (Image × HxpSlot) :=
  (s.imageOf k).bind fun im => (im.hxp.find? fun h => h.recv && h.step == step).map fun h => (im, h)

/-- A timeout's effect on its member. -/
def timeoutDelivered (se rq step : Nat) (s : State) : State :=
  match s.memberOf se rq with
  | some (k, i) =>
    (match timeoutSlot k step s with
      | some (im, h) => deliverPoison k i im h se rq 0x0403 s
      | none => s)
  | none => s

/-- What the delivery of a receive changes: memory, spans, what is done, and the receive's own timer. -/
structure Delivered (se rq step : Nat) (s t : State) : Prop where
  frame : t = { s with mem := t.mem, spans := t.spans, rxDone := t.rxDone, rxTimers := t.rxTimers }
  timers : t.rxTimers = timersBut se rq step s

theorem putMember_frame (sh : Shard) (m : Nat) (hd : Hdr) (stride : Nat) (data : List Byte) (s : State) :
    putMember sh m hd stride data s = { s with mem := (putMember sh m hd stride data s).mem } := by
  have hwrites : ∀ (a b : Nat) (bs cs : List Byte), (s.wr a bs).wr b cs = { s with mem := ((s.wr a bs).wr b cs).mem } :=
    fun _ _ _ _ => rfl
  exact hwrites _ _ _ _

theorem delivered_deliverPoison (k m : Nat) (im : Image) (h : HxpSlot) (se rq code : Nat) (s : State) :
    Delivered se rq h.step s (deliverPoison k m im h se rq code s) := by
  have hdone : ∀ (u : State) (f : Member → Member), u = { s with mem := u.mem } →
      Delivered se rq h.step s (recvDone se rq h.step code 0 (modMember k m f u)) := fun u f hu => by
    have hspan : modMember k m f u = { u with spans := (modMember k m f u).spans } := modSpan_frame _ _ _
    generalize modMember k m f u = v at hspan ⊢
    constructor
    · rw [hspan, hu]
      rfl
    · rw [hspan, hu]
      rfl
  unfold deliverPoison
  dsimp only
  cases im.shardOf h.tensor with
  | none => exact hdone s _ rfl
  | some sh => exact hdone _ _ (putMember_frame sh m (poisonObj s sh se h code) h.outBytes (List.replicate h.outBytes 0) s)

theorem delivered_timeout (se rq step : Nat) {s : State} (htimers : timersBut se rq step s = s.rxTimers) :
    Delivered se rq step s (timeoutDelivered se rq step s) := by
  have hself : Delivered se rq step s s := ⟨rfl, htimers.symm⟩
  unfold timeoutDelivered
  split
  · next k i _ =>
    split
    · next im h hslot =>
      obtain ⟨im', -, hslot'⟩ := Option.bind_eq_some_iff.1 hslot
      obtain ⟨h', hfind, heq⟩ := Option.map_eq_some_iff.1 hslot'
      have hsame := List.find?_some hfind
      simp only [Bool.and_eq_true, beq_iff_eq] at hsame
      have hstep : h.step = step := (congrArg HxpSlot.step (Prod.mk.inj heq).2).symm.trans hsame.2
      exact hstep ▸ delivered_deliverPoison k i im h se rq 0x0403 s
    · exact hself
  · exact hself

theorem timedOut_frame (se rq step : Nat) (s : State) : timedOut se rq step s = { s with
    mem := (timedOut se rq step s).mem, regs := (timedOut se rq step s).regs, rxTimers := timersBut se rq step s } := by
  have hraise := raise_frame (s.bump xchTimeouts 0 0 1) (timeoutRecord se rq)
  rw [timedOut]
  generalize raise (timeoutRecord se rq) (s.bump xchTimeouts 0 0 1) = v at hraise ⊢
  rw [hraise]
  rfl

theorem timedOut_recorded (se rq step : Nat) (s : State) : Recorded (timeoutRecord se rq) s (timedOut se rq step s) := by
  have hrec := (raise_spec (timeoutRecord se rq) (s.bump xchTimeouts 0 0 1)).1
  rw [timedOut]
  generalize raise (timeoutRecord se rq) (s.bump xchTimeouts 0 0 1) = v at hrec ⊢
  exact hrec.congr rfl rfl (reg_bump_ne s 1 (by decide)).symm (reg_bump_ne s 1 (by decide)).symm rfl rfl

theorem timedOut_timeouts (se rq step : Nat) (s : State) :
    (timedOut se rq step s).dreg xchTimeouts = satAdd xchTimeouts.w (s.dreg xchTimeouts) 1 := by
  have hreg := dreg_raise (f := xchTimeouts) (rc := timeoutRecord se rq) (by decide : (1 : Nat) < 4) (by decide) (s.bump xchTimeouts 0 0 1)
  rw [timedOut]
  generalize raise (timeoutRecord se rq) (s.bump xchTimeouts 0 0 1) = v at hreg ⊢
  exact hreg.trans (reg_bump_same s xchTimeouts 0 0 1)

theorem timersBut_timedOut (se rq step : Nat) (s : State) :
    timersBut se rq step (timedOut se rq step s) = (timedOut se rq step s).rxTimers :=
  List.filter_eq_self.2 fun _ hv => (List.mem_filter.1 hv).2

section
variable {se rq step : Nat} {s : State} {u : RxTimer}
  (hu : s.rxTimers.find? (fun t => t.session = se ∧ t.request = rq ∧ t.step = step) = some u)
include hu

theorem exec_hxpTimeout_early (hdue : s.now < u.due) : exec (.hxpTimeout se rq step) s = .next s := by
  change execHxpTimeout se rq step s = _
  rw [execHxpTimeout, hu]
  dsimp only
  rw [if_pos hdue]

theorem exec_hxpTimeout_due (hdue : u.due ≤ s.now) :
    exec (.hxpTimeout se rq step) s = .next (timeoutDelivered se rq step (timedOut se rq step s)) := by
  have htimers : { raise (timeoutRecord se rq) (s.bump xchTimeouts 0 0 1) with
      rxTimers := (raise (timeoutRecord se rq) (s.bump xchTimeouts 0 0 1)).rxTimers.filter
        fun u => !(u.session == se && u.request == rq && u.step == step) } = timedOut se rq step s := by
    have hraise := raise_frame (s.bump xchTimeouts 0 0 1) (timeoutRecord se rq)
    rw [timedOut, timersBut]
    generalize raise (timeoutRecord se rq) (s.bump xchTimeouts 0 0 1) = v at hraise ⊢
    rw [hraise]
    rfl
  change execHxpTimeout se rq step s = _
  rw [execHxpTimeout, hu]
  dsimp only
  rw [if_neg (Nat.not_lt.2 hdue), ← timeoutRecord, htimers, timeoutDelivered]
  cases (timedOut se rq step s).memberOf se rq with
  | none => rfl
  | some x =>
    dsimp only
    rw [← timeoutSlot]
    cases timeoutSlot x.1 step (timedOut se rq step s) <;> rfl

/-- A timeout that is due: counted, recorded, its timer gone, and its receive delivered poisoned. -/
theorem exec_hxpTimeout_spec (hdue : u.due ≤ s.now) : ∃ t, exec (.hxpTimeout se rq step) s = .next t ∧
    t.dreg xchTimeouts = satAdd xchTimeouts.w (s.dreg xchTimeouts) 1 ∧ t.rxTimers = timersBut se rq step s ∧
    t.dreg rasFaultWritten = (s.dreg rasFaultWritten + 1) % 2 ^ 32 ∧
    (s.memberOf se rq = none → Recorded (timeoutRecord se rq) s t) ∧
    ∀ k i im h, s.memberOf se rq = some (k, i) → s.imageOf k = some im →
      im.hxp.find? (fun h => h.recv && h.step == step) = some h →
      ∃ d ∈ t.rxDone, d.session = se ∧ d.request = rq ∧ d.step = step ∧ d.code = 0x0403 := by
  have hrecorded := timedOut_recorded se rq step s
  have hcount := timedOut_timeouts se rq step s
  have htimers := timersBut_timedOut se rq step s
  have hframe := timedOut_frame se rq step s
  have hend := delivered_timeout se rq step htimers
  have hexec := exec_hxpTimeout_due hu hdue
  generalize timedOut se rq step s = v at *
  refine ⟨_, hexec, ?_, ?_, ?_, fun hnone => ?_, fun k i im h hm him hh => ?_⟩
  · rw [State.dreg, State.reg, hend.frame]
    exact hcount
  · rw [hend.timers, htimers, hframe]
  · rw [State.dreg, State.reg, hend.frame]
    exact hrecorded.2
  · rw [timeoutDelivered, show v.memberOf se rq = none by rw [hframe]; exact hnone]
    exact hrecorded
  · have hslot : timeoutSlot k step v = some (im, h) := by
      rw [timeoutSlot, show v.imageOf k = some im by rw [hframe]; exact him, Option.bind_some, hh]
      rfl
    have hstep : h.step = step := by
      have hsame := List.find?_some hh
      simp only [Bool.and_eq_true, beq_iff_eq] at hsame
      exact hsame.2
    rw [timeoutDelivered, show v.memberOf se rq = some (k, i) by rw [hframe]; exact hm]
    dsimp only
    rw [hslot]
    exact ⟨_, List.mem_append_right _ (.head _), rfl, rfl, hstep, rfl⟩

end

/-- Settles O60: each message is followed from its port to what it stores, acknowledges or poisons, the receives that it may
complete changing nothing that the exchange engine's frame keeps; retransmission and timeout by their timers. -/
theorem hxpMessages : Obligations.HxpMessages := by
  unfold Obligations.HxpMessages
  dsimp only
  refine ⟨fun m s htakes => ⟨?_, ?_, ?_⟩, fun s f hf => ⟨?_, ?_, ?_⟩, fun se rq step s u hu => ⟨?_, ?_⟩⟩
  · intro cmd hcmd hwhy
    refine ⟨(packetCounted m s).bump xchAuthDrops 0 0 1, ?_, rfl, ?_⟩
    · rcases hwhy with hauth | rfl
      · have hsplit : cmd ∈ (objectMessages m ++ [.ack m, .poisonNotice m]) ++ [.hxpInvalidType m] := hcmd
        rcases List.mem_append.1 hsplit with hcmd | hcmd
        · exact exec_unauthentic htakes hauth cmd hcmd
        · rw [List.mem_singleton.1 hcmd]
          exact exec_hxpInvalidType htakes
      · exact exec_hxpInvalidType htakes
    · have hreg : (packetCounted m s).dreg xchAuthDrops = s.dreg xchAuthDrops :=
        reg_bump_ne s 1 (by simp [Fld.key, prtRxPackets, xchAuthDrops]; omega)
      exact (reg_bump_same (packetCounted m s) xchAuthDrops 0 0 1).trans (congrArg (satAdd _ · 1) hreg)
  · intro hauth hepoch hseen cmd hcmd
    exact ⟨_, exec_replay htakes hauth hepoch hseen cmd hcmd, rfl, (regsBut_refl _ s).setReg _ (.head _)⟩
  · intro hauth hepoch hseen hwindow
    refine ⟨fun r hr hlive cmd hcmd => ?_, ?_, fun r hr hlive => ⟨fun hmember hnew => ?_, fun k i im h hmember him hh hdone hnew => ?_⟩⟩
    · obtain ⟨t, ht, hspec⟩ := receive_spec hauth hepoch hseen hwindow hr hlive htakes.1
      exact ⟨t, (exec_object htakes cmd hcmd).trans (congrArg _ ht), hspec⟩
    · obtain ⟨t, ht, hspec⟩ := receiveAck_spec hauth hepoch hseen hwindow
      exact ⟨t, (exec_ack htakes).trans (congrArg _ ht), hspec⟩
    · obtain ⟨t, ht, hspec⟩ := receiveNotice_waiting hauth hepoch hseen hwindow hr hlive hmember hnew
      exact ⟨t, (exec_poisonNotice htakes).trans (congrArg _ ht), hspec⟩
    · obtain ⟨t, ht, hspec⟩ := receiveNotice_running hauth hepoch hseen hwindow hr hlive hmember him hh hdone hnew
      exact ⟨t, (exec_poisonNotice htakes).trans (congrArg _ ht), hspec⟩
  · exact exec_hxpRetransmit_early hf
  · exact exec_hxpRetransmit_late hf
  · exact fun hdue hdeadline => ⟨_, exec_hxpRetransmit_again hf hdue hdeadline, resent_retransmits f s, rfl, rfl, rfl⟩
  · exact exec_hxpTimeout_early hu
  · exact exec_hxpTimeout_spec hu

end Sys2Proof.Machine

/-! # The window table: open, close, close with drain, and the end of a drain (O36) -/

namespace Sys2Proof.Machine

theorem win_setWin_same (s : State) (w : Nat) (e : Window) : (s.setWin w e).win w = e := tget_tput_same _ _ _ _

theorem win_setWin_ne (s : State) {w v : Nat} (e : Window) (h : v ≠ w) : (s.setWin w e).win v = s.win v := tget_tput_ne _ _ _ h

/-- The end of a window command of slot `p` on window `w`: its code in WIN_RESULT, the window's entry, and nothing else. -/
def WindowEnds (p w : Nat) (s t : State) (code : Nat) (x : Window) : Prop :=
  t = { s with windows := t.windows, regs := t.regs } ∧
    regsBut [prtWinResult.key 0 p] s t ∧ t.reg prtWinResult 0 p = code ∧ t.win w = x ∧ ∀ v, v ≠ w → t.win v = s.win v

theorem windowEnds_done {p w code : Nat} (s : State) (x : Window) (hcode : code < 2 ^ 16) :
    WindowEnds p w s (setWinResult p (code, s.setWin w x)) code x :=
  ⟨rfl, (regsBut_refl _ s).setReg _ (.head _), (reg_setReg_same _ _ _ _ _).trans (Nat.mod_eq_of_lt hcode),
    win_setWin_same s w x, fun _ hv => win_setWin_ne s x hv⟩

theorem windowEnds_refused {p w code : Nat} (s : State) (hcode : code < 2 ^ 16) :
    WindowEnds p w s (setWinResult p (code, s)) code (s.win w) :=
  ⟨rfl, (regsBut_refl _ s).setReg _ (.head _), (reg_setReg_same _ _ _ _ _).trans (Nat.mod_eq_of_lt hcode), rfl, fun _ _ => rfl⟩

theorem closeCode_lt (p w : Nat) (s : State) : closeCode p w s < 2 ^ 16 := by
  unfold closeCode
  dsimp only
  split
  · decide
  · split
    · decide
    · split <;> decide

section
variable {p : Nat} (hp : p < 8) (s : State)
include hp

theorem exec_windowOpen : exec (.windowOpen p) s = .next (setWinResult p (windowOpen p s)) := by
  change execWindowOpen p s = _
  rw [execWindowOpen, if_neg (by omega)]

theorem exec_windowClose : exec (.windowClose p) s = .next (setWinResult p (windowClose p s)) := by
  change execWindowClose p s = _
  rw [execWindowClose, if_neg (by omega)]

theorem exec_windowCloseDrain : exec (.windowCloseDrain p) s = .next (setWinResult p (windowDrain p s)) := by
  change execWindowCloseDrain p s = _
  rw [execWindowCloseDrain, if_neg (by omega)]

end

theorem closedWindow_spec (e : Window) :
    (e.epoch < 0xFFFF → closedWindow e = { epoch := e.epoch + 1 }) ∧ (0xFFFF ≤ e.epoch → (closedWindow e).st = .retired) := by
  constructor
  · intro hlt
    rw [closedWindow, if_neg (by omega)]
  · intro hle
    rw [closedWindow, if_pos hle]

/-- A window that has drained: its entry, and every other one as before. -/
def DrainEnds (w : Nat) (s t : State) : Prop :=
  ((s.win w).epoch ≤ 0xFFFF → t.win w = { epoch := (s.win w).epoch }) ∧
    (0xFFFF < (s.win w).epoch → (t.win w).st = .retired) ∧ ∀ v, v ≠ w → t.win v = s.win v

theorem drainEnds_windowDrained (w : Nat) (s : State) : DrainEnds w s (windowDrained w s) := by
  refine ⟨fun hle => ?_, fun hlt => ?_, fun v hv => win_setWin_ne s _ hv⟩
  · refine (win_setWin_same s w _).trans ?_
    rw [if_neg (by omega)]
  · rw [windowDrained, win_setWin_same, if_pos hlt]

section
variable {w : Nat} {s : State} (hst : (s.win w).st = .draining)
include hst

theorem exec_windowDrainDone_alone (hnone : s.waits.find? (fun x => x.verb = 9 ∧ x.key = w) = none) :
    exec (.windowDrainDone w) s = .next (windowDrained w s) := by
  have hnone' : (windowDrained w s).waits.find? (fun x => x.verb = 9 ∧ x.key = w) = none := hnone
  change execWindowDrainDone w s = _
  rw [execWindowDrainDone, if_neg (by simp [hst])]
  dsimp only
  rw [hnone']

theorem exec_windowDrainDone_waited {x : WaitVerb} (hx : s.waits.find? (fun x => x.verb = 9 ∧ x.key = w) = some x)
    (hpairs : x.pairs = []) : exec (.windowDrainDone w) s =
      .next (respond x.slot x.tag 0 [] { windowDrained w s with waits := s.waits.erase x }) := by
  have hx' : (windowDrained w s).waits.find? (fun x => x.verb = 9 ∧ x.key = w) = some x := hx
  change execWindowDrainDone w s = _
  rw [execWindowDrainDone, if_neg (by simp [hst])]
  dsimp only
  rw [hx']
  dsimp only
  rw [hpairs]
  rfl

end

/-- What refuses an open of slot `p` (R362). -/
def openRefused (p : Nat) (s : State) : Bool :=
  let w := s.reg prtWinId 0 p
  let remote := s.reg prtWinKind 0 p == 1
  let base := s.reg prtWinBaseLo 0 p + 2 ^ 32 * s.reg prtWinBaseHi 0 p
  let n := s.reg prtWinLength 0 p
  decide (w < 16 ∨ 1024 ≤ w) || (s.win w).st != .free || decide (n = 0 ∨ n % 64 ≠ 0 ∨ 0xFFFFFFC0 < n ∨ base % 64 ≠ 0) ||
    (!remote && (!s.windowPlaceOk base n || s.windowOverlap base n)) ||
    (remote && s.reg prtWinResidency 0 p == 1 && !s.bitmapOk p (s.reg prtWinBitmap 0 p) n)

theorem windowOpen_refused {p : Nat} {s : State} (h : openRefused p s = true) : windowOpen p s = (0x0409, s) := by
  rw [windowOpen]
  exact if_pos h

theorem windowOpen_opened {p : Nat} {s : State} (h : openRefused p s = false) :
    windowOpen p s = (0, s.setWin (s.reg prtWinId 0 p) { s.win (s.reg prtWinId 0 p) with
      st := .opened, owner := p, remote := s.reg prtWinKind 0 p == 1
      base := s.reg prtWinBaseLo 0 p + 2 ^ 32 * s.reg prtWinBaseHi 0 p, length := s.reg prtWinLength 0 p, rkey := s.reg prtWinRkey 0 p
      residency := s.reg prtWinKind 0 p == 1 && s.reg prtWinResidency 0 p == 1, bitmap := s.reg prtWinBitmap 0 p }) := by
  rw [windowOpen]
  exact if_neg (Bool.eq_false_iff.1 h)

/-- Settles O36: each command of the window table by its code, one write of WIN_RESULT and one entry replaced. -/
theorem windowCommands : Obligations.WindowCommands := by
  unfold Obligations.WindowCommands
  refine ⟨fun p s hp => ⟨?_, ?_, fun hcode => ⟨?_, ?_⟩, fun hcode => ⟨?_, ?_⟩⟩, fun w s hst => ⟨fun hnone => ?_, fun x hx hpairs => ?_⟩⟩
  · intro hlo hhi hfree hn hline hmax hbase hlocal hbitmap
    have hopen : openRefused p s = false := by
      rw [openRefused]
      simp only [Bool.or_eq_false_iff]
      refine ⟨⟨⟨⟨decide_eq_false (by omega), by simp [hfree]⟩, decide_eq_false (by omega)⟩, ?_⟩, ?_⟩
      · cases hr : (s.reg prtWinKind 0 p == 1)
        · obtain ⟨hplace, hoverlap⟩ := hlocal hr
          rw [hplace, hoverlap]
          rfl
        · rfl
      · cases hr : (s.reg prtWinKind 0 p == 1 && s.reg prtWinResidency 0 p == 1)
        · rfl
        · rw [hbitmap hr]
          rfl
    refine ⟨_, exec_windowOpen hp s, ?_⟩
    rw [windowOpen_opened hopen]
    exact windowEnds_done s _ (by decide)
  · intro hbad
    have hrefused : openRefused p s = true := by
      rw [openRefused]
      simp only [Bool.or_eq_true, decide_eq_true_eq, bne_iff_ne]
      refine .inl (.inl ?_)
      rcases hbad with hw | hst | hn | hline | hbase
      · exact .inl (.inl (.inl hw))
      · exact .inl (.inr hst)
      · exact .inr (.inl hn)
      · exact .inr (.inr (.inl hline))
      · exact .inr (.inr (.inr (.inr hbase)))
    refine ⟨_, exec_windowOpen hp s, ?_⟩
    rw [windowOpen_refused hrefused]
    exact windowEnds_refused s (by decide)
  · refine ⟨_, _, exec_windowClose hp s, ?_, closedWindow_spec _⟩
    rw [windowClose]
    dsimp only
    rw [if_neg (fun h => h hcode)]
    exact windowEnds_done s _ (by decide)
  · refine ⟨_, exec_windowCloseDrain hp s, ?_⟩
    rw [windowDrain]
    dsimp only
    rw [if_neg (fun h => h hcode)]
    exact windowEnds_done s _ (by decide)
  · refine ⟨_, exec_windowClose hp s, ?_⟩
    rw [windowClose]
    dsimp only
    rw [if_pos hcode]
    exact windowEnds_refused s (closeCode_lt _ _ _)
  · refine ⟨_, exec_windowCloseDrain hp s, ?_⟩
    rw [windowDrain]
    dsimp only
    rw [if_pos hcode]
    exact windowEnds_refused s (closeCode_lt _ _ _)
  · exact ⟨_, exec_windowDrainDone_alone hst hnone, drainEnds_windowDrained w s, rfl⟩
  · have hends := drainEnds_windowDrained w s
    refine ⟨_, exec_windowDrainDone_waited hst hx hpairs, ?_, ?_, answersWait_respond x 0 [] rfl⟩
    · rw [respond_frame]
      exact hends
    · rw [respond_frame]

end Sys2Proof.Machine

/-! # Discipline of the time base by PTP (O59) -/

namespace Sys2Proof.Machine

theorem dreg_setDreg_same (s : State) (f : Fld) (v : Nat) : (s.setDreg f v).dreg f = v % 2 ^ f.w := reg_setReg_same _ _ _ _ _

theorem dreg_setDreg_ne (s : State) {f g : Fld} (v : Nat) (h : g.key 0 0 ≠ f.key 0 0) : (s.setDreg f v).dreg g = s.dreg g :=
  reg_setReg_ne s v h

theorem dreg_bump_ne (s : State) {f g : Fld} (n : Nat) (h : g.key 0 0 ≠ f.key 0 0) : (s.bump f 0 0 n).dreg g = s.dreg g :=
  reg_bump_ne s n h

/-! ### The PTP state of a network -/

theorem net_modNet_same (s : State) (n : Nat) (f : PtpNet → PtpNet) : (s.modNet n f).servo.net n = f (s.servo.net n) :=
  tget_tput_same _ _ _ _

theorem net_modNet_ne (s : State) {n k : Nat} (f : PtpNet → PtpNet) (h : k ≠ n) : (s.modNet n f).servo.net k = s.servo.net k :=
  tget_tput_ne _ _ _ h

/-! ### The comparison of the two networks (R392) -/

/-- What a change of the time base's discipline leaves: all but registers, the record ring and the servo's marks. -/
structure Compared (s t : State) : Prop where
  frame : t = { s with regs := t.regs, mem := t.mem, servo := t.servo }
  regs : regsBut [tbNetDisagree.key 0 0, rasFaultWritten.key 0 0] s t
  nets : t.servo.nets = s.servo.nets
  sum : t.servo.sum = s.servo.sum

theorem Compared.refl (s : State) : Compared s s := ⟨rfl, regsBut_refl _ _, rfl, rfl⟩

theorem Compared.trans {s t u : State} (h : Compared s t) (h' : Compared t u) : Compared s u where
  frame := by rw [h'.frame, h.frame]
  regs := fun k hk d => (h'.regs k hk d).trans (h.regs k hk d)
  nets := h'.nets.trans h.nets
  sum := h'.sum.trans h.sum

theorem Compared.dreg_eq {s t : State} (h : Compared s t) {f : Fld}
    (hk : f.key 0 0 ∉ [tbNetDisagree.key 0 0, rasFaultWritten.key 0 0]) : t.dreg f = s.dreg f := h.regs.reg_eq hk

theorem compared_raise {rc : Rec} (hr : rc.action < 4) (s : State) : Compared s (raise rc s) := by
  have hregs := raise_regsBut hr s
  have hframe := raise_frame s rc
  generalize raise rc s = t at hregs hframe ⊢
  refine ⟨?_, fun k hk d => hregs k (fun h => hk (.tail _ h)) d, ?_, ?_⟩
  · rw [hframe]
  · rw [hframe]
  · rw [hframe]

theorem compared_compareNets (s : State) : Compared s (compareNets s) := by
  have hfar : ∀ (c : Bool), Compared s (if c then s.setDreg tbNetDisagree 1 else s) := fun c => by
    cases c
    · exact .refl s
    · exact ⟨rfl, (regsBut_refl _ s).setReg _ (.head _), rfl, rfl⟩
  have hrecord : ∀ (c : Bool) (u : State), Compared u (if c then raise { code := 0x0803, action := 0, unit := 8 } u else u) :=
    fun c u => by
      cases c
      · exact .refl u
      · exact compared_raise (rc := { code := 0x0803, action := 0, unit := 8 }) (by decide : (0 : Nat) < 4) u
  have hmark : ∀ (u : State) (b : Bool), Compared u { u with servo := { u.servo with apart := b } } := fun u b =>
    ⟨rfl, regsBut_refl _ u, rfl, rfl⟩
  exact ((hfar _).trans (hrecord _ _)).trans (hmark _ _)

/-! ### Which network the time base follows (R390, R391) -/

/-- Network A valid, B not preferred: the time base follows A. -/
theorem setValid_a {s : State} (hprefer : s.dreg tbPreferB = 0) :
    setValid 0 1 s = (s.setDreg tbValidA 1).setDreg tbSelNet 0 := by
  have hvalid : (s.setDreg tbValidA 1).dreg tbValidA = 1 := dreg_setDreg_same s tbValidA 1
  have hprefer' : (s.setDreg tbValidA 1).dreg tbPreferB = 0 := (dreg_setDreg_ne s 1 (by decide)).trans hprefer
  have hsel : (s.setDreg tbValidA 1).selected = 0 := by
    rw [State.selected]
    rw [hvalid, hprefer', if_neg (by simp)]
  have hvalid' : ((s.setDreg tbValidA 1).setDreg tbSelNet 0).dreg tbValidA = 1 :=
    (dreg_setDreg_ne _ 0 (by decide)).trans hvalid
  rw [setValid, if_pos rfl]
  dsimp only
  rw [hsel, if_neg (by rw [hvalid']; simp)]

/-! ### The servo and the step (R388, R391) -/

theorem stepTime_clk (o : Int) (s : State) : (stepTime o s).clk = { s.clk with ns := ((s.clk.ns : Int) - o).toNat % 2 ^ 64 } := rfl

theorem stepTime_net (o : Int) (s : State) (n : Nat) : ((stepTime o s).servo.net n).offset = (s.servo.net n).offset ∧
    ((stepTime o s).servo.net n).pendingSync = (s.servo.net n).pendingSync := by
  constructor
  · exact tget_map _ s.servo.nets (fun x => { x with lastSync := x.lastSync.map _ }) n PtpNet.offset rfl
  · exact tget_map _ s.servo.nets (fun x => { x with lastSync := x.lastSync.map _ }) n PtpNet.pendingSync rfl

theorem stepTime_dreg (o : Int) (s : State) : (stepTime o s).dreg tbSyncState = 1 ∧
    (stepTime o s).dreg tbSteps = satAdd tbSteps.w (s.dreg tbSteps) 1 ∧
    ∀ f : Fld, f.key 0 0 ∉ [tbSteps.key 0 0, tbSyncState.key 0 0] → (stepTime o s).dreg f = s.dreg f := by
  refine ⟨dreg_setDreg_same _ tbSyncState 1, ?_, fun f hf => ?_⟩
  · exact (dreg_setDreg_ne _ 1 (by decide)).trans (reg_bump_same _ tbSteps 0 0 1)
  · simp only [List.mem_cons, List.not_mem_nil, or_false, not_or] at hf
    exact (dreg_setDreg_ne _ 1 hf.2).trans (dreg_bump_ne _ 1 hf.1)

/-- The servo's effect on INCR and the sum of offsets, which leaves the time. -/
structure Served (o : Int) (gap : Nat) (s t : State) : Prop where
  clk : t.clk = s.clk
  nets : t.servo.nets = s.servo.nets
  sum : t.servo.sum = s.servo.sum + o
  incr : t.dreg tbIncr = servoIncr o s.servo.sum gap (s.dreg tbStepLimitNs) (s.dreg tbIncr) % 2 ^ tbIncr.w
  regs : ∀ f : Fld, f.key 0 0 ∉ [tbIncr.key 0 0, tbNetDisagree.key 0 0, rasFaultWritten.key 0 0] → t.dreg f = s.dreg f

/-- INCR and the servo's sums set from an offset. -/
def servoSet (o : Int) (gap limit n : Nat) (beyond : Bool) (u : State) : State :=
  { u.setDreg tbIncr (servoIncr o u.servo.sum gap limit (u.dreg tbIncr)) with
    servo := { u.servo with sum := u.servo.sum + o, small := n, overLimit := beyond } }

/-- An offset after the first: the servo, and LOCKED again from HOLDOVER after enough small offsets. -/
theorem steer_served (o : Int) (gap : Nat) {s : State} (hnot : s.dreg tbSyncState ≠ 0) : ∃ t, Served o gap s t ∧
    (steer o gap s = t ∨ t.dreg tbSyncState = 2 ∧ steer o gap s = t.setDreg tbSyncState 1) := by
  have hrecord : ∀ c : Prop, ∀ [Decidable c], Compared s (if c then raise { code := 0x0802, action := 0, unit := 8 } s else s) := by
    intro c _
    split
    · exact compared_raise (by decide : (0 : Nat) < 4) s
    · exact .refl s
  rw [steer, if_neg hnot]
  dsimp only
  generalize hu : (if decide (s.dreg tbStepLimitNs ≤ o.natAbs) = true ∧ (!s.servo.overLimit) = true then
    raise { code := 0x0802, action := 0, unit := 8 } s else s) = u
  have hcomp : Compared s u := hu ▸ hrecord _
  generalize (if o.natAbs < 1000 then _ + 1 else 0) = n
  refine ⟨servoSet o gap (s.dreg tbStepLimitNs) n (decide (s.dreg tbStepLimitNs ≤ o.natAbs)) u,
    ⟨?_, hcomp.nets, ?_, ?_, fun f hf => ?_⟩, ?_⟩
  rotate_left 4
  · split
    · next h => exact .inr ⟨h.2, rfl⟩
    · exact .inl rfl
  · change u.clk = s.clk
    rw [hcomp.frame]
  · change u.servo.sum + o = _
    rw [hcomp.sum]
  · refine (dreg_setDreg_same u tbIncr _).trans ?_
    rw [hcomp.sum, hcomp.dreg_eq (by decide)]
  · simp only [List.mem_cons, List.not_mem_nil, or_false, not_or] at hf
    refine (dreg_setDreg_ne u _ hf.1).trans (hcomp.dreg_eq ?_)
    simp [hf.2.1, hf.2.2]

theorem steer_locked {o : Int} {gap : Nat} {s : State} (hlocked : s.dreg tbSyncState = 1) : Served o gap s (steer o gap s) := by
  obtain ⟨t, hserved, h | ⟨hstate, -⟩⟩ := steer_served o gap (s := s) (by rw [hlocked]; decide)
  · rw [h]
    exact hserved
  · rw [hserved.regs tbSyncState (by decide), hlocked] at hstate
    cases hstate

/-- What every offset of the network that is followed leaves. -/
theorem steer_keeps (o : Int) (gap : Nat) (s : State) (n : Nat) : ((steer o gap s).servo.net n).offset = (s.servo.net n).offset ∧
    ((steer o gap s).servo.net n).pendingSync = (s.servo.net n).pendingSync ∧
    ∀ f : Fld, f.key 0 0 ∉ [tbSteps.key 0 0, tbSyncState.key 0 0, tbIncr.key 0 0, tbNetDisagree.key 0 0, rasFaultWritten.key 0 0] →
      (steer o gap s).dreg f = s.dreg f := by
  by_cases hstate : s.dreg tbSyncState = 0
  · rw [steer, if_pos hstate]
    obtain ⟨-, -, hdreg⟩ := stepTime_dreg o s
    exact ⟨(stepTime_net o s n).1, (stepTime_net o s n).2, fun f hf => hdreg f fun h =>
      hf (List.mem_append_left [tbIncr.key 0 0, tbNetDisagree.key 0 0, rasFaultWritten.key 0 0] h)⟩
  · obtain ⟨t, hserved, hsteer⟩ := steer_served o gap hstate
    have hnet : t.servo.net n = s.servo.net n := congrArg (tget _ · n) hserved.nets
    have hdreg : ∀ f : Fld, f.key 0 0 ∉ [tbSteps.key 0 0, tbSyncState.key 0 0, tbIncr.key 0 0, tbNetDisagree.key 0 0,
        rasFaultWritten.key 0 0] → t.dreg f = s.dreg f := fun f hf => hserved.regs f fun h => hf (.tail _ (.tail _ h))
    rcases hsteer with h | ⟨-, h⟩
    · rw [h, hnet]
      exact ⟨rfl, rfl, hdreg⟩
    · rw [h]
      refine ⟨congrArg _ hnet, congrArg _ hnet, fun f hf => (dreg_setDreg_ne t 1 fun he => hf ?_).trans (hdreg f hf)⟩
      rw [he]
      exact .tail _ (.head _)

/-! ### An accepted Sync of network A (R390, R391) -/

/-- The ns between the last two Syncs accepted. -/
def syncGap (s : State) : Nat :=
  match (s.servo.net 0).lastSync with
  | some x => s.now - x
  | none => (s.servo.net 0).interval

/-- The offset that a Sync of network A measures. -/
def syncOffset (t1 t2 : Int) (s : State) : Int := t2 - t1 - (s.servo.net 0).delay

/-- What a Sync of network A does to time, state and INCR. -/
structure SyncTaken (t1 t2 : Int) (s t : State) : Prop where
  valid : t.dreg tbValidA = 1
  sel : t.dreg tbSelNet = 0
  word : t.dreg tbOffsetA = offsetWord (syncOffset t1 t2 s)
  offset : (t.servo.net 0).offset = syncOffset t1 t2 s
  pending : (t.servo.net 0).pendingSync = none
  stepped : s.dreg tbSyncState = 0 → t.clk = { s.clk with ns := ((s.clk.ns : Int) - syncOffset t1 t2 s).toNat % 2 ^ 64 } ∧
    t.dreg tbSyncState = 1 ∧ t.dreg tbSteps = satAdd tbSteps.w (s.dreg tbSteps) 1 ∧ t.dreg tbIncr = s.dreg tbIncr
  locked : s.dreg tbSyncState = 1 → t.clk = s.clk ∧ t.dreg tbSyncState = 1 ∧ t.dreg tbSteps = s.dreg tbSteps ∧
    t.servo.sum = s.servo.sum + syncOffset t1 t2 s ∧
    t.dreg tbIncr = servoIncr (syncOffset t1 t2 s) s.servo.sum (syncGap s) (s.dreg tbStepLimitNs) (s.dreg tbIncr) % 2 ^ tbIncr.w

/-- Network A's Sync measured. -/
def syncMeasured (t1 t2 : Int) (s : State) : State :=
  (s.modNet 0 fun x => { x with
      lastSync := some s.now, interval := syncGap s, offset := syncOffset t1 t2 s, t1 := t1, t2 := t2, pendingSync := none }).setDreg
    tbOffsetA (offsetWord (syncOffset t1 t2 s))

/-- Network A's Sync noted, before the time base is steered. -/
def syncNoted (t1 t2 : Int) (s : State) : State := ((syncMeasured t1 t2 s).setDreg tbValidA 1).setDreg tbSelNet 0

theorem syncNoted_net (t1 t2 : Int) (s : State) : ((syncNoted t1 t2 s).servo.net 0).offset = syncOffset t1 t2 s ∧
    ((syncNoted t1 t2 s).servo.net 0).pendingSync = none := by
  have hnet := net_modNet_same s 0 fun x => { x with
    lastSync := some s.now, interval := syncGap s, offset := syncOffset t1 t2 s, t1 := t1, t2 := t2, pendingSync := none }
  exact ⟨congrArg PtpNet.offset hnet, congrArg PtpNet.pendingSync hnet⟩

theorem syncNoted_dreg (t1 t2 : Int) (s : State) : (syncNoted t1 t2 s).dreg tbValidA = 1 ∧ (syncNoted t1 t2 s).dreg tbSelNet = 0 ∧
    (syncNoted t1 t2 s).dreg tbOffsetA = offsetWord (syncOffset t1 t2 s) ∧
    ∀ f : Fld, f.key 0 0 ∉ [tbOffsetA.key 0 0, tbValidA.key 0 0, tbSelNet.key 0 0] → (syncNoted t1 t2 s).dreg f = s.dreg f := by
  have hword : offsetWord (syncOffset t1 t2 s) < 2 ^ 32 := by
    rw [offsetWord, wrap]
    omega
  refine ⟨?_, dreg_setDreg_same _ tbSelNet 0, ?_, fun f hf => ?_⟩
  · exact (dreg_setDreg_ne _ 0 (by decide)).trans (dreg_setDreg_same _ tbValidA 1)
  · refine (dreg_setDreg_ne _ 0 (by decide)).trans ((dreg_setDreg_ne _ 1 (by decide)).trans ((dreg_setDreg_same _ tbOffsetA _).trans ?_))
    exact Nat.mod_eq_of_lt hword
  · simp only [List.mem_cons, List.not_mem_nil, or_false, not_or] at hf
    obtain ⟨hoffset, hvalid, hsel⟩ := hf
    exact (dreg_setDreg_ne _ 0 hsel).trans ((dreg_setDreg_ne _ 1 hvalid).trans (dreg_setDreg_ne _ _ hoffset))

theorem acceptSync_a {t1 t2 : Int} {s : State} (hprefer : s.dreg tbPreferB = 0) :
    acceptSync 0 t1 t2 s = compareNets (steer (syncOffset t1 t2 s) (syncGap s) (syncNoted t1 t2 s)) := by
  have hvalid : setValid 0 1 (syncMeasured t1 t2 s) = syncNoted t1 t2 s :=
    setValid_a ((dreg_setDreg_ne _ _ (by decide)).trans hprefer)
  have haccept : acceptSync 0 t1 t2 s = compareNets (if (setValid 0 1 (syncMeasured t1 t2 s)).dreg tbSelNet = 0 then
      steer (syncOffset t1 t2 s) (syncGap s) (setValid 0 1 (syncMeasured t1 t2 s)) else setValid 0 1 (syncMeasured t1 t2 s)) := rfl
  rw [haccept, hvalid, if_pos (syncNoted_dreg t1 t2 s).2.1]

theorem syncTaken_acceptSync (t1 t2 : Int) {s : State} (hprefer : s.dreg tbPreferB = 0) :
    SyncTaken t1 t2 s (acceptSync 0 t1 t2 s) := by
  obtain ⟨hvalid, hsel, hword, hdreg⟩ := syncNoted_dreg t1 t2 s
  obtain ⟨hoffset, hpending⟩ := syncNoted_net t1 t2 s
  rw [acceptSync_a hprefer]
  have hcomp := compared_compareNets (steer (syncOffset t1 t2 s) (syncGap s) (syncNoted t1 t2 s))
  obtain ⟨hkeptOffset, hkeptPending, hkept⟩ := steer_keeps (syncOffset t1 t2 s) (syncGap s) (syncNoted t1 t2 s) 0
  have hnets : ∀ n, (compareNets (steer (syncOffset t1 t2 s) (syncGap s) (syncNoted t1 t2 s))).servo.net n =
      (steer (syncOffset t1 t2 s) (syncGap s) (syncNoted t1 t2 s)).servo.net n := fun n => congrArg (tget _ · n) hcomp.nets
  have hclk : (compareNets (steer (syncOffset t1 t2 s) (syncGap s) (syncNoted t1 t2 s))).clk =
      (steer (syncOffset t1 t2 s) (syncGap s) (syncNoted t1 t2 s)).clk := by rw [hcomp.frame]
  have hstate : (syncNoted t1 t2 s).dreg tbSyncState = s.dreg tbSyncState := hdreg _ (by decide)
  refine ⟨?_, ?_, ?_, ?_, ?_, fun hzero => ?_, fun hlocked => ?_⟩
  · exact (hcomp.dreg_eq (by decide)).trans ((hkept _ (by decide)).trans hvalid)
  · exact (hcomp.dreg_eq (by decide)).trans ((hkept _ (by decide)).trans hsel)
  · exact (hcomp.dreg_eq (by decide)).trans ((hkept _ (by decide)).trans hword)
  · rw [hnets, hkeptOffset, hoffset]
  · rw [hnets, hkeptPending, hpending]
  · obtain ⟨hsync, hsteps, hrest⟩ := stepTime_dreg (syncOffset t1 t2 s) (syncNoted t1 t2 s)
    rw [steer, if_pos (hstate.trans hzero)] at hcomp hclk ⊢
    refine ⟨hclk.trans (stepTime_clk _ _), (hcomp.dreg_eq (by decide)).trans hsync, ?_, ?_⟩
    · rw [hcomp.dreg_eq (by decide), hsteps, hdreg _ (by decide)]
    · rw [hcomp.dreg_eq (by decide), hrest _ (by decide), hdreg _ (by decide)]
  · have hserved := steer_locked (o := syncOffset t1 t2 s) (gap := syncGap s) (hstate.trans hlocked)
    refine ⟨hclk.trans hserved.clk, ?_, ?_, ?_, ?_⟩
    · rw [hcomp.dreg_eq (by decide), hserved.regs _ (by decide), hstate, hlocked]
    · rw [hcomp.dreg_eq (by decide), hserved.regs _ (by decide), hdreg _ (by decide)]
    · rw [hcomp.sum, hserved.sum]
      rfl
    · rw [hcomp.dreg_eq (by decide), hserved.incr, hdreg _ (by decide), hdreg _ (by decide)]
      rfl

/-! ### The messages at their port (R389) -/

/-- The time base's registers lie below the ports'. -/
theorem dreg_packet {f : Fld} (hf : f.key 0 0 < 8388608) (k : Nat) (s : State) : (s.bump prtRxPackets 0 k 1).dreg f = s.dreg f :=
  reg_bump_ne s 1 (by
    have hport : prtRxPackets.key 0 k ≥ 8388608 := by simp [Fld.key, prtRxPackets]; omega
    omega)

theorem SyncTaken.of_packet {t1 t2 : Int} {k : Nat} {s t : State} (h : SyncTaken t1 t2 (s.bump prtRxPackets 0 k 1) t) :
    SyncTaken t1 t2 s t where
  valid := h.valid
  sel := h.sel
  word := h.word
  offset := h.offset
  pending := h.pending
  stepped hzero := by
    have hstep := h.stepped ((dreg_packet (by decide) k s).trans hzero)
    rw [dreg_packet (by decide), dreg_packet (by decide)] at hstep
    exact hstep
  locked hone := by
    have hlock := h.locked ((dreg_packet (by decide) k s).trans hone)
    rw [dreg_packet (by decide), dreg_packet (by decide), dreg_packet (by decide)] at hlock
    exact hlock

theorem ptpFrom_packet (k n domain identity : Nat) (s : State) :
    ptpFrom (s.bump prtRxPackets 0 k 1) n domain identity = ptpFrom s n domain identity := by
  have hdomain : (s.bump prtRxPackets 0 k 1).ptpDomain n = s.ptpDomain n := by
    rw [State.ptpDomain, dreg_packet (by decide), dreg_packet (by decide)]
    rfl
  rw [ptpFrom, hdomain]
  rfl

section
variable {s : State} (htakes : s.takes (s.ptpPort 0))
include htakes

theorem exec_sync {o : SyncOp} (hnet : o.net = 0) : exec (.sync o) s = .next
    (if !ptpFrom s 0 o.domain o.identity then s.bump prtRxPackets 0 (s.ptpPort 0) 1
      else if o.twoStep then (s.bump prtRxPackets 0 (s.ptpPort 0) 1).modNet 0 fun x => { x with pendingSync := some (o.seqId, o.rx, o.corr) }
      else acceptSync 0 (o.origin + o.corr) o.rx (s.bump prtRxPackets 0 (s.ptpPort 0) 1)) := by
  change execSync o s = _
  rw [execSync, if_neg (by omega), hnet, onPort_takes (h := htakes), ptpFrom_packet]

theorem syncTaken_sync {o : SyncOp} (hnet : o.net = 0) (hfrom : ptpFrom s 0 o.domain o.identity = true) (hone : o.twoStep = false)
    (hprefer : s.dreg tbPreferB = 0) : ∃ t, exec (.sync o) s = .next t ∧ SyncTaken (o.origin + o.corr) o.rx s t := by
  refine ⟨_, exec_sync htakes hnet, ?_⟩
  rw [hfrom, hone, if_neg (by decide), if_neg (by decide)]
  exact (syncTaken_acceptSync _ _ ((dreg_packet (by decide) _ s).trans hprefer)).of_packet

theorem syncTaken_followUp {seqId origin rx : Nat} {corr c : Int} (hpending : (s.servo.net 0).pendingSync = some (seqId, rx, c))
    (hprefer : s.dreg tbPreferB = 0) :
    ∃ t, exec (.followUp 0 seqId origin corr) s = .next t ∧ SyncTaken (origin + c + corr) rx s t := by
  have hpending' : ((s.bump prtRxPackets 0 (s.ptpPort 0) 1).servo.net 0).pendingSync = some (seqId, rx, c) := hpending
  refine ⟨acceptSync 0 (origin + c + corr) rx (s.bump prtRxPackets 0 (s.ptpPort 0) 1), ?_,
    (syncTaken_acceptSync _ _ ((dreg_packet (by decide) _ s).trans hprefer)).of_packet⟩
  change execFollowUp 0 seqId origin corr s = _
  rw [execFollowUp, if_neg (by decide), onPort_takes (h := htakes), hpending']
  dsimp only
  rw [if_pos rfl]

end

/-! ### Messages of either network -/

/-- A network's PTP state replaced, the other's as before; registers and messages apart, nothing else. -/
def NetOnly (n : Nat) (s t : State) (x : PtpNet) : Prop :=
  t = { s with regs := t.regs, servo := t.servo, out := t.out } ∧ t.servo.net n = x ∧ t.servo.net (1 - n) = s.servo.net (1 - n)

theorem netOnly_modNet {n k : Nat} (hn : n < 2) (s : State) (f : PtpNet → PtpNet) :
    NetOnly n s ((s.bump prtRxPackets 0 k 1).modNet n f) (f (s.servo.net n)) :=
  ⟨rfl, net_modNet_same (s.bump prtRxPackets 0 k 1) n f, net_modNet_ne (s.bump prtRxPackets 0 k 1) f (by omega)⟩

/-- The best Announce kept (R389). -/
def announced (m : Nat × Nat × Nat × Nat × Nat × Nat) (x : PtpNet) : PtpNet :=
  let key := fun (m : Nat × Nat × Nat × Nat × Nat × Nat) => [m.1, m.2.1, m.2.2.1, m.2.2.2.1, m.2.2.2.2.1, m.2.2.2.2.2]
  { x with master := match x.master with
    | some b => if b.2.2.2.2.2 = m.2.2.2.2.2 ∨ key m < key b then some m else some b
    | none => some m }

/-- The first Announce, or another one of the same master, is the best. -/
theorem announced_same {m : Nat × Nat × Nat × Nat × Nat × Nat} {x : PtpNet}
    (h : x.master = none ∨ ∃ b, x.master = some b ∧ b.2.2.2.2.2 = m.2.2.2.2.2) : announced m x = { x with master := some m } := by
  rcases h with h | ⟨b, h, hid⟩
  · rw [announced, h]
  · rw [announced, h]
    dsimp only
    rw [if_pos (.inl hid)]

section
variable {n : Nat} (hn : n < 2) {s : State}
include hn

theorem exec_announce (htakes : s.takes (s.ptpPort n)) (p1 cls acc var p2 : Nat) {id : Nat}
    (hmaster : (s.servo.net n).master = none ∨ ∃ m, (s.servo.net n).master = some m ∧ m.2.2.2.2.2 = id) :
    ∃ t, exec (.announce n (s.ptpDomain n) p1 cls acc var p2 id) s = .next t ∧
      NetOnly n s t { s.servo.net n with master := some (p1, cls, acc, var, p2, id) } := by
  have hdomain : (s.bump prtRxPackets 0 (s.ptpPort n) 1).ptpDomain n = s.ptpDomain n := by
    rw [State.ptpDomain, dreg_packet (by decide), dreg_packet (by decide)]
    rfl
  refine ⟨(s.bump prtRxPackets 0 (s.ptpPort n) 1).modNet n (announced (p1, cls, acc, var, p2, id)), ?_,
    announced_same (m := (p1, cls, acc, var, p2, id)) hmaster ▸ netOnly_modNet hn s _⟩
  change execAnnounce n (s.ptpDomain n) p1 cls acc var p2 id s = _
  rw [execAnnounce, if_neg (by omega), onPort_takes (h := htakes), hdomain, if_neg (by simp)]
  rfl

theorem exec_delayResp (htakes : s.takes (s.ptpPort n)) {seqId t3 : Nat} (rx : Nat) (corr : Int)
    (hreq : (s.servo.net n).delayReq = some (seqId, t3)) : ∃ t, exec (.delayResp n seqId rx corr) s = .next t ∧
      NetOnly n s t { s.servo.net n with
        delayReq := none, delay := (((s.servo.net n).t2 - (s.servo.net n).t1) + ((rx : Int) - corr - t3)) / 2 } := by
  have hreq' : ((s.bump prtRxPackets 0 (s.ptpPort n) 1).servo.net n).delayReq = some (seqId, t3) := hreq
  refine ⟨_, ?_, netOnly_modNet (k := s.ptpPort n) hn s fun x => { x with
    delayReq := none, delay := ((x.t2 - x.t1) + ((rx : Int) - corr - t3)) / 2 }⟩
  change execDelayResp n seqId rx corr s = _
  rw [execDelayResp, if_neg (by omega), onPort_takes (h := htakes), hreq']
  dsimp only
  rw [if_neg (by simp)]

theorem exec_delayReq (hboot : s.ks.boot = 1) (ha3 : s.pwr.state ≠ .a3) (ha4 : s.pwr.state ≠ .a4)
    (hon : s.reg prtPortEnable 0 (s.ptpPort n) ≠ 0) : exec (.delayReq n) s = .next ((s.modNet n fun x => { x with
      delayReq := some ((s.servo.net n).nextSeq, s.now), nextSeq := ((s.servo.net n).nextSeq + 1) % 2 ^ 16 }).send
        (.delayReq n (s.servo.net n).nextSeq)) := by
  change execDelayReq n s = _
  rw [execDelayReq, if_neg (by omega), if_neg (by simp [hboot, ha3, ha4, hon])]

theorem exec_syncLoss {x : Nat} (hlast : (s.servo.net n).lastSync = some x)
    (hvalid : s.dreg (if n = 0 then tbValidA else tbValidB) ≠ 0) : exec (.syncLoss n) s =
      if s.now < x + 1000000 * s.dreg tbSyncLossMs then .next s
      else .next (compareNets (setValid n 0 (s.bump tbSyncLosses 0 0 1))) := by
  change execSyncLoss n s = _
  rw [execSyncLoss, if_neg (by omega), hlast]
  dsimp only
  simp only [hvalid, or_false]

end

/-! ### A network without a Sync (R390, R391) -/

/-- The field of a network's validity. -/
def validOf (n : Nat) : Fld := if n = 0 then tbValidA else tbValidB

/-- The field of the other network's validity. -/
def otherValid (n : Nat) : Fld := if n = 0 then tbValidB else tbValidA

theorem validOf_cases (n : Nat) : validOf n = tbValidA ∧ otherValid n = tbValidB ∨ validOf n = tbValidB ∧ otherValid n = tbValidA := by
  by_cases h : n = 0
  · exact .inl ⟨if_pos h, if_pos h⟩
  · exact .inr ⟨if_neg h, if_neg h⟩

/-- A network marked as not valid, with the network that is followed. -/
def unmarked (n : Nat) (s : State) : State := (s.setDreg (validOf n) 0).setDreg tbSelNet (s.setDreg (validOf n) 0).selected

theorem unmarked_dreg (n : Nat) (s : State) : (unmarked n s).dreg (validOf n) = 0 ∧
    ∀ f : Fld, f.key 0 0 ≠ (validOf n).key 0 0 → f.key 0 0 ≠ tbSelNet.key 0 0 → (unmarked n s).dreg f = s.dreg f := by
  refine ⟨?_, fun f hf hsel => (dreg_setDreg_ne _ _ hsel).trans (dreg_setDreg_ne _ _ hf)⟩
  have hne : (validOf n).key 0 0 ≠ tbSelNet.key 0 0 := by
    rcases validOf_cases n with ⟨h, -⟩ | ⟨h, -⟩ <;> rw [h] <;> decide
  exact (dreg_setDreg_ne _ _ hne).trans ((dreg_setDreg_same s _ 0).trans (Nat.zero_mod _))

/-- A network no longer valid: with none valid, LOCKED becomes HOLDOVER. -/
theorem setValid_lost (n : Nat) (s : State) : (setValid n 0 s).dreg (validOf n) = 0 ∧ (setValid n 0 s).clk = s.clk ∧
    (setValid n 0 s).dreg tbSyncLosses = s.dreg tbSyncLosses ∧
    (s.dreg (otherValid n) = 0 → s.dreg tbSyncState = 1 → (setValid n 0 s).dreg tbSyncState = 2) ∧
    (s.dreg (otherValid n) ≠ 0 → (setValid n 0 s).dreg tbSyncState = s.dreg tbSyncState) := by
  obtain ⟨hzero, hdreg⟩ := unmarked_dreg n s
  have hother : (unmarked n s).dreg (otherValid n) = s.dreg (otherValid n) := by
    rcases validOf_cases n with ⟨h, h'⟩ | ⟨h, h'⟩
    · exact hdreg _ (by rw [h, h']; decide) (by rw [h']; decide)
    · exact hdreg _ (by rw [h, h']; decide) (by rw [h']; decide)
  have hstate : (unmarked n s).dreg tbSyncState = s.dreg tbSyncState := by
    rcases validOf_cases n with ⟨h, -⟩ | ⟨h, -⟩
    · exact hdreg _ (by rw [h]; decide) (by decide)
    · exact hdreg _ (by rw [h]; decide) (by decide)
  have hlosses : (unmarked n s).dreg tbSyncLosses = s.dreg tbSyncLosses := by
    rcases validOf_cases n with ⟨h, -⟩ | ⟨h, -⟩
    · exact hdreg _ (by rw [h]; decide) (by decide)
    · exact hdreg _ (by rw [h]; decide) (by decide)
  have hboth : ((unmarked n s).dreg tbValidA = 0 ∧ (unmarked n s).dreg tbValidB = 0) ↔ s.dreg (otherValid n) = 0 := by
    rw [← hother]
    rcases validOf_cases n with ⟨h, h'⟩ | ⟨h, h'⟩
    · rw [h] at hzero
      rw [h']
      exact and_iff_right hzero
    · rw [h] at hzero
      rw [h']
      exact and_iff_left hzero
  have hset : setValid n 0 s = if (unmarked n s).dreg tbValidA = 0 ∧ (unmarked n s).dreg tbValidB = 0 ∧ (unmarked n s).dreg tbSyncState = 1
      then ({ unmarked n s with servo := { (unmarked n s).servo with small := 0 } }).setDreg tbSyncState 2 else unmarked n s := rfl
  have hne : (validOf n).key 0 0 ≠ tbSyncState.key 0 0 := by
    rcases validOf_cases n with ⟨h, -⟩ | ⟨h, -⟩ <;> rw [h] <;> decide
  have hcond : ((unmarked n s).dreg tbValidA = 0 ∧ (unmarked n s).dreg tbValidB = 0 ∧ (unmarked n s).dreg tbSyncState = 1) ↔
      (s.dreg (otherValid n) = 0 ∧ s.dreg tbSyncState = 1) := by rw [← and_assoc, hboth, hstate]
  by_cases h : s.dreg (otherValid n) = 0 ∧ s.dreg tbSyncState = 1
  · rw [hset, if_pos (hcond.2 h)]
    exact ⟨(dreg_setDreg_ne _ _ hne).trans hzero, rfl, (dreg_setDreg_ne _ _ (by decide)).trans hlosses,
      fun _ _ => dreg_setDreg_same _ tbSyncState 2, fun hno => absurd h.1 hno⟩
  · rw [hset, if_neg (fun hc => h (hcond.1 hc))]
    exact ⟨hzero, rfl, hlosses, fun hno hone => absurd ⟨hno, hone⟩ h, fun _ => hstate⟩

/-- Settles O59: an offset's way from its message through the validity of its network, the step or the servo, and the
comparison of the networks, each of which is stated once above. -/
theorem timeSync : Obligations.TimeSync := by
  unfold Obligations.TimeSync
  dsimp only
  refine ⟨fun s htakes => ⟨fun o hnet hfrom => ⟨fun hone hprefer => ?_, fun htwo => ?_⟩, fun o hnet hfrom => ?_, ?_⟩,
    fun n s hn => ⟨fun htakes => ⟨?_, ?_⟩, fun hboot ha3 ha4 hon => ?_, fun x hlast hvalid => ⟨fun hlt => ?_, fun hle => ?_⟩⟩⟩
  · obtain ⟨t, ht, hspec⟩ := syncTaken_sync htakes hnet hfrom hone hprefer
    exact ⟨t, ht, hspec.valid, hspec.sel, hspec.word, hspec.offset, hspec.pending, hspec.stepped, hspec.locked⟩
  · have hexec := exec_sync htakes hnet
    rw [hfrom, htwo, if_neg (by decide), if_pos rfl] at hexec
    exact ⟨_, hexec, rfl, net_modNet_same _ 0 _, net_modNet_ne _ _ (by decide)⟩
  · have hexec := exec_sync htakes hnet
    rw [hfrom, if_pos (by decide)] at hexec
    exact ⟨_, hexec, rfl, (regsBut_refl _ s).setReg _ (.head _)⟩
  · intro seqId origin rx corr c hpending hprefer
    obtain ⟨t, ht, hspec⟩ := syncTaken_followUp htakes hpending hprefer
    exact ⟨t, ht, hspec.valid, hspec.sel, hspec.word, hspec.offset, hspec.pending, hspec.stepped, hspec.locked⟩
  · exact fun p1 cls acc var p2 id hmaster => exec_announce hn htakes p1 cls acc var p2 hmaster
  · exact fun seqId rx t3 corr hreq => exec_delayResp hn htakes rx corr hreq
  · exact ⟨_, exec_delayReq hn hboot ha3 ha4 hon, rfl, rfl, rfl, tget_tput_same _ _ _ _, tget_tput_ne _ _ _ (by omega)⟩
  · rw [exec_syncLoss hn hlast hvalid, if_pos hlt]
  · have hcomp := compared_compareNets (setValid n 0 (s.bump tbSyncLosses 0 0 1))
    obtain ⟨hzero, hclk, hlosses, hholdover, hkept⟩ := setValid_lost n (s.bump tbSyncLosses 0 0 1)
    have hlossesOther : (otherValid n).key 0 0 ≠ tbSyncLosses.key 0 0 := by
      rcases validOf_cases n with ⟨-, h⟩ | ⟨-, h⟩ <;> rw [h] <;> decide
    refine ⟨_, (exec_syncLoss hn hlast hvalid).trans (if_neg (Nat.not_lt.2 hle)), ?_, ?_, ?_, fun hother hstate => ?_, fun hother => ?_⟩
    · have hkey : (validOf n).key 0 0 ∉ [tbNetDisagree.key 0 0, rasFaultWritten.key 0 0] := by
        rcases validOf_cases n with ⟨h, -⟩ | ⟨h, -⟩ <;> rw [h] <;> decide
      exact (hcomp.dreg_eq hkey).trans hzero
    · rw [hcomp.dreg_eq (by decide), hlosses]
      exact reg_bump_same s tbSyncLosses 0 0 1
    · rw [hcomp.frame]
      exact hclk
    · refine (hcomp.dreg_eq (by decide)).trans (hholdover ((dreg_bump_ne s 1 hlossesOther).trans hother) ?_)
      exact (dreg_bump_ne s 1 (by decide)).trans hstate
    · refine (hcomp.dreg_eq (by decide)).trans ((hkept fun hz => hother ?_).trans (dreg_bump_ne s 1 (by decide)))
      exact (dreg_bump_ne s 1 hlossesOther).symm.trans hz

end Sys2Proof.Machine

/-! # Errors that a pier's checks find, self-tests and the steps of a takeover (O53) -/

namespace Sys2Proof.Machine

theorem tfind_isSome_of_mem {α : Type} {m : List (Nat × α)} {k : Nat} {x : α} (h : (k, x) ∈ m) : (tfind m k).isSome = true := by
  induction m with
  | nil => cases h
  | cons e m ih =>
    obtain ⟨j, y⟩ := e
    by_cases hk : k = j
    · simp [tfind, hk]
    · rcases List.mem_cons.1 h with h | h
      · exact absurd (Prod.mk.inj h).1 hk
      · simpa [tfind, hk] using ih h

/-! ### An error that halts a span for replay (R160, R243, R464) -/

/-- What a check writes to its pier's registers is no part of the record that follows. -/
theorem Recorded.of_regs {rc : Rec} {s u t : State} (h : Recorded rc u t) (hu : u = { s with regs := u.regs }) {ks : List Nat}
    (hregs : regsBut ks s u) (hks : ∀ k ∈ ks, k ≠ rasFaultWritten.key 0 0 ∧ k ≠ tbDeviceId.key 0 0) : Recorded rc s t := by
  refine h.congr ?_ ?_ ?_ ?_ rfl rfl
  · rw [hu]
  · rw [hu]
    rfl
  · exact (hregs.reg_eq fun hk => (hks _ hk).1 rfl).symm
  · exact (hregs.reg_eq fun hk => (hks _ hk).2 rfl).symm

/-- The record of a difference between an engine and its shadow. -/
def residueRecord (k st p : Nat) (e : EngErr) : Rec :=
  { code := 0x0602, action := 2, unit := 1, pier := p, span := k
    detail := leBytes 1 e.engine ++ leBytes 1 e.pos ++ leBytes 2 e.elem ++ leBytes 2 st }

/-- The record of a bench word read with a parity mismatch. -/
def parityRecord (k p w : Nat) : Rec :=
  { code := 0x0601, action := 2, unit := 1, pier := p, span := k
    detail := leBytes 2 (w / 64) ++ leBytes 1 (w % 64) ++ leBytes 1 ((w / 64 + w % 64) % 64) ++ leBytes 1 0 }

section
variable {k st p : Nat} {s : State} (hp : p < 192)
include hp

theorem foundErr_spec (hk : (tfind s.spans k).isSome = true) (hstop : (s.span k).stop = none) (e : EngErr) :
    let t := foundErr k st p e s
    let counter := if e.engine = 2 then spResidueErrors else laResidueErrors
    t.piers = s.piers ∧ spansBut k s t ∧ t.span k = { s.span k with stop := some (.replay 0x0602 (some p)) } ∧
      t.reg counter p 0 = satAdd counter.w (s.reg counter p 0) 1 ∧
      Recorded (residueRecord k st p e) s t := by
  intro t counter
  have hkey : counter.key p 0 ≠ rasFaultWritten.key 0 0 ∧ counter.key p 0 ≠ tbDeviceId.key 0 0 := by
    have hcounter : counter = spResidueErrors ∨ counter = laResidueErrors := ite_eq_then_or_else _ _ _
    rcases hcounter with h | h
    · rw [h]
      constructor <;> simp [Fld.key, spResidueErrors, rasFaultWritten, tbDeviceId] <;> omega
    · rw [h]
      constructor <;> simp [Fld.key, laResidueErrors, rasFaultWritten, tbDeviceId] <;> omega
  have ht : t = halted (residueRecord k st p e) k (.replay 0x0602 (some p)) (s.bump counter p 0 1) := rfl
  have hregs := halted_regsBut (rc := residueRecord k st p e) (k := k) (s := s.bump counter p 0 1) (.replay 0x0602 (some p))
    (by decide : (2 : Nat) < 4)
  have hspan := halted_span (rc := residueRecord k st p e) (k := k) (s := s.bump counter p 0 1) hk hstop (.replay 0x0602 (some p))
  have hrec := (halted_recorded (rc := residueRecord k st p e) (k := k) (s := s.bump counter p 0 1) (.replay 0x0602 (some p))).of_regs
    (s := s) rfl ((regsBut_refl [counter.key p 0] s).setReg _ (.head _)) fun n hn => List.mem_singleton.1 hn ▸ hkey
  have hpiers : t.piers = s.piers := ht ▸ halted_piers _
  have hspans : spansBut k s t := ht ▸ halted_spansBut (s := s.bump counter p 0 1) _
  rw [← ht] at hregs hspan hrec
  refine ⟨hpiers, hspans, hspan, ?_, hrec⟩
  exact (hregs.reg_eq (by simpa using hkey.1)).trans (reg_bump_same s counter p 0 1)

/-- A bench read that meets one word with a parity mismatch. -/
theorem checkBench_spec {w : Nat} {keys : List Nat} (hspan : s.spanOf p = some (k, st)) (hstop : (s.span k).stop = none)
    (hbad : badWords (s.pier p).benchPar keys = [w]) (hw : w < 2 ^ 20) :
    let t := checkBench p keys s
    t.piers = s.piers ∧ spansBut k s t ∧ t.span k = { s.span k with stop := some (.replay 0x0601 (some p)) } ∧
      t.reg bnParityErrors p 0 = satAdd bnParityErrors.w (s.reg bnParityErrors p 0) 1 ∧
      t.reg bnParityLastRow p 0 = w / 64 ∧ t.reg bnParityLastLane p 0 = w % 64 ∧
      Recorded (parityRecord k p w) s t := by
  intro t
  let u := ((s.bump bnParityErrors p 0 1).setReg bnParityLastRow p 0 (w / 64)).setReg bnParityLastLane p 0 (w % 64)
  have ht : t = halted (parityRecord k p w) k
      (.replay 0x0601 (some p)) u := by
    change checkBench p keys s = _
    rw [checkBench, hspan]
    dsimp only
    rw [hbad]
    rfl
  have hregs : regsBut [bnParityErrors.key p 0, bnParityLastRow.key p 0, bnParityLastLane.key p 0] s u :=
    (((regsBut_refl _ s).setReg _ (.head _)).setReg _ (.tail _ (.head _))).setReg _ (.tail _ (.tail _ (.head _)))
  have hkept : ∀ f : Fld, f ∈ [bnParityErrors, bnParityLastRow, bnParityLastLane] → t.reg f p 0 = u.reg f p 0 := by
    intro f hf
    rw [ht]
    refine (halted_regsBut _ (by decide : (2 : Nat) < 4)).reg_eq ?_
    simp only [List.mem_cons, List.not_mem_nil, or_false] at hf
    rcases hf with rfl | rfl | rfl
    · simp [Fld.key, bnParityErrors, rasFaultWritten]; omega
    · simp [Fld.key, bnParityLastRow, rasFaultWritten]; omega
    · simp [Fld.key, bnParityLastLane, rasFaultWritten]; omega
  have hrow : u.reg bnParityLastRow p 0 = w / 64 := by
    refine (reg_setReg_ne _ _ (by simp [Fld.key, bnParityLastRow, bnParityLastLane] <;> omega)).trans ((reg_setReg_same _ _ _ _ _).trans (Nat.mod_eq_of_lt ?_))
    change w / 64 < 2 ^ 14
    omega
  have hlane : u.reg bnParityLastLane p 0 = w % 64 := (reg_setReg_same _ _ _ _ _).trans (Nat.mod_eq_of_lt (by
    change w % 64 < 2 ^ 6
    omega))
  have herrors : u.reg bnParityErrors p 0 = satAdd bnParityErrors.w (s.reg bnParityErrors p 0) 1 :=
    (reg_setReg_ne _ _ (by simp [Fld.key, bnParityErrors, bnParityLastLane] <;> omega)).trans ((reg_setReg_ne _ _
      (by simp [Fld.key, bnParityErrors, bnParityLastRow] <;> omega)).trans (reg_bump_same s bnParityErrors p 0 1))
  refine ⟨by rw [ht]; exact halted_piers _, by rw [ht]; exact halted_spansBut _,
    by rw [ht]; exact halted_span (s := u) (spanOf_loaded s p hspan) hstop _,
    (hkept _ (by simp)).trans herrors, (hkept _ (by simp)).trans hrow, (hkept _ (by simp)).trans hlane, ?_⟩
  rw [ht]
  refine (halted_recorded _).of_regs rfl hregs fun n hn => ?_
  simp only [List.mem_cons, List.not_mem_nil, or_false] at hn
  rcases hn with rfl | rfl | rfl
  · constructor <;> simp [Fld.key, bnParityErrors, rasFaultWritten, tbDeviceId] <;> omega
  · constructor <;> simp [Fld.key, bnParityLastRow, rasFaultWritten, tbDeviceId] <;> omega
  · constructor <;> simp [Fld.key, bnParityLastLane, rasFaultWritten, tbDeviceId] <;> omega

end

/-! ### Spares designated again, and images reprogrammed -/

/-- A step that changes spans alone. -/
def SpansOnly (s t : State) : Prop := t = { s with spans := t.spans }

theorem SpansOnly.trans {s t u : State} (h : SpansOnly s t) (h' : SpansOnly t u) : SpansOnly s u := by
  rw [SpansOnly, h', h]

theorem spansOnly_modSpan (k : Nat) (f : Span → Span) (s : State) : SpansOnly s (s.modSpan k f) := modSpan_frame _ _ _

theorem spansOnly_foldl {α : Type} {f : State → α → State} (hf : ∀ s a, SpansOnly s (f s a)) (l : List α) (s : State) :
    SpansOnly s (l.foldl f s) :=
  foldl_rel (R := SpansOnly) (fun _ => rfl) SpansOnly.trans hf l s

theorem spansOnly_redesignate (k : Nat) (s : State) : SpansOnly s (redesignate k s) := by
  unfold redesignate
  split
  · rfl
  · exact spansOnly_modSpan k _ s

theorem spansOnly_redesignateOf (q : Nat) (s : State) : SpansOnly s (redesignateOf q s) :=
  spansOnly_foldl (f := fun s (e : Nat × Span) => redesignate e.1 s) (fun s e => spansOnly_redesignate e.1 s) _ s

theorem span_redesignate_ne {j k : Nat} (h : j ≠ k) (s : State) : (redesignate k s).span j = s.span j := by
  unfold redesignate
  split
  · rfl
  · exact span_modSpan_ne h

theorem isSome_redesignate {j k : Nat} {s : State} (h : (tfind s.spans j).isSome = true) : (tfind (redesignate k s).spans j).isSome = true := by
  unfold redesignate
  split
  · exact h
  · exact modSpan_isSome h

/-- A span that keeps its place and stages while others designate again. -/
theorem span_redesignateOthers (k q : Nat) (s : State) : (beginTakeover.redesignateOthers k q s).span k = s.span k ∧
    ((tfind s.spans k).isSome = true → (tfind (beginTakeover.redesignateOthers k q s).spans k).isSome = true) := by
  unfold beginTakeover.redesignateOthers
  have hothers : ∀ e ∈ s.spans.filter (fun e => e.1 != k && e.2.spares.any fun x => x.2 == q), e.1 ≠ k := fun e he => by
    have hmem := (List.mem_filter.1 he).2
    simp only [Bool.and_eq_true, bne_iff_ne] at hmem
    exact hmem.1
  generalize s.spans.filter (fun e => e.1 != k && e.2.spares.any fun x => x.2 == q) = l at hothers ⊢
  induction l generalizing s with
  | nil => exact ⟨rfl, id⟩
  | cons e l ih =>
    obtain ⟨hspan, hloaded⟩ := ih (redesignate e.1 s) fun x hx => hothers x (.tail _ hx)
    have hne : k ≠ e.1 := (hothers e (.head _)).symm
    exact ⟨hspan.trans (span_redesignate_ne hne s), fun hk => hloaded (isSome_redesignate hk)⟩

/-- What a span's reprogramming changes: images and piers. -/
theorem reprogram_frame (k : Nat) (s : State) :
    reprogram k s = { s with images := (reprogram k s).images, piers := (reprogram k s).piers } := by
  have hload : ∀ (f : StageProg → Nat) (g : StageProg → Pier → Pier) (l : List StageProg) (u : State),
      l.foldl (fun s e => s.modPier (f e) (g e)) u = { u with piers := (l.foldl (fun s e => s.modPier (f e) (g e)) u).piers } :=
    fun f g l u => foldl_rel (R := fun s t => t = { s with piers := t.piers }) (f := fun (s : State) (e : StageProg) => s.modPier (f e) (g e)) (fun _ => rfl)
      (fun h h' => by rw [h', h]) (fun _ _ => rfl) l u
  unfold reprogram
  split
  · rfl
  · dsimp only
    rw [hload]
    rfl

theorem recovered_fixOnly (k : Nat) (s : State) : FixOnly s (recovered k s) :=
  (fixOnly_modSpan k _ s).trans (fixOnly_trySchedule k _)

theorem fixBatch_span {k : Nat} {s : State} (hk : (tfind s.spans k).isSome = true) (ws : List (Nat × Nat × Nat)) (at_ : Nat) :
    ((fixBatch k ws at_ s).span k).recovery = (s.span k).recovery ∧ spansBut k s (fixBatch k ws at_ s) := by
  have hmembers : ∀ (l : List (Nat × Nat × Nat)) (u : State),
      (l.foldl (fun s w => s.modRequest w.1 w.2.1 fun r => { r with st := .running }) u).spans = u.spans := fun l u =>
    foldl_rel (R := fun (s t : State) => t.spans = s.spans) (f := fun (s : State) (w : Nat × Nat × Nat) => s.modRequest w.1 w.2.1 fun r => { r with st := .running })
      (fun _ => rfl) (fun h h' => h'.trans h) (fun _ _ => rfl) l u
  unfold fixBatch
  dsimp only
  have hspans := hmembers ws { s with nextSerial := s.nextSerial + 1 }
  generalize ws.foldl (fun s w => s.modRequest w.1 w.2.1 fun r => { r with st := .running }) { s with nextSerial := s.nextSerial + 1 } = u at hspans ⊢
  have hk' : (tfind u.spans k).isSome = true := by rw [hspans]; exact hk
  have hspan : ∀ j, u.span j = s.span j := fun j => congrArg (tget _ · j) hspans
  refine ⟨?_, fun j hj => (span_modSpan_ne hj).trans (hspan j)⟩
  rw [span_modSpan_same hk', hspan]

theorem trySchedule_span {k : Nat} {s : State} (hk : (tfind s.spans k).isSome = true) :
    ((trySchedule k s).span k).recovery = (s.span k).recovery ∧ spansBut k s (trySchedule k s) := by
  unfold trySchedule
  dsimp only
  split
  · exact fixBatch_span hk _ _
  · exact ⟨rfl, fun _ _ => rfl⟩

/-- A recovery that is over: the span's own mark, and the launch that it may fix. -/
theorem recovered_spec {k : Nat} {s : State} (hk : (tfind s.spans k).isSome = true) :
    ((recovered k s).span k).recovery = .none ∧ spansBut k s (recovered k s) := by
  have hspan := span_modSpan_same (f := fun sp => { sp with recovery := .none }) hk
  have hbut : spansBut k s (s.modSpan k fun sp => { sp with recovery := .none }) := fun j hj => span_modSpan_ne hj
  have hk' : (tfind (s.modSpan k fun sp => { sp with recovery := .none }).spans k).isSome = true := modSpan_isSome hk
  unfold recovered
  generalize s.modSpan k (fun sp => { sp with recovery := .none }) = u at hspan hbut hk' ⊢
  obtain ⟨hrecovery, hrest⟩ := trySchedule_span hk'
  exact ⟨hrecovery.trans (congrArg Span.recovery hspan), fun j hj => (hrest j hj).trans (hbut j hj)⟩

/-! ### The self-test of a spare (R23) -/

theorem exec_spare {q : Nat} {s : State} (hq : q < 192) (hspare : s.pierState q = 2) (pass : Bool) :
    exec (.pierSelfTestDone q pass) s = .next (if s.spareTests.contains q then spareTested q pass s else s) := by
  change execPierSelfTestDone q pass s = _
  rw [execPierSelfTestDone, if_neg (by omega), if_pos hspare]

/-- The record of a spare that is retired with no replacement. -/
def spareRecord (q : Nat) : Rec := { code := 0x060A, action := 0, unit := 1, pier := q, detail := [0xFF] }

/-- A spare retired: its pair burned, its record, and spans that designate again. -/
theorem retireSpare_spec (q : Nat) (s : State) : retireSpare q s = { s with
      mem := (retireSpare q s).mem, regs := (retireSpare q s).regs, spans := (retireSpare q s).spans
      ks := { s.ks with retired := s.ks.retired ++ [(q, 0xFF)] } } ∧ Recorded (spareRecord q) s (retireSpare q s) := by
  have hframe := raise_frame (burnPair q 0xFF s) (spareRecord q)
  have hrec := (raise_spec (spareRecord q) (burnPair q 0xFF s)).1
  have hspans := spansOnly_redesignateOf q (raise (spareRecord q) (burnPair q 0xFF s))
  have hretire : retireSpare q s = redesignateOf q (raise (spareRecord q) (burnPair q 0xFF s)) := rfl
  rw [hretire]
  generalize raise (spareRecord q) (burnPair q 0xFF s) = u at hframe hrec hspans ⊢
  generalize redesignateOf q u = v at hspans ⊢
  refine ⟨?_, hrec.congr rfl rfl rfl rfl ?_ ?_⟩
  · rw [hspans, hframe]
    rfl
  · rw [hspans]
  · rw [hspans]

theorem checkDegraded_kept {s : State} (h : s.degraded = true ∨ s.isDegraded = false) : checkDegraded s = s := by
  rw [checkDegraded, if_neg]
  rintro ⟨hdegraded, hnot⟩
  rcases h with h | h
  · exact hnot h
  · rw [h] at hdegraded
    cases hdegraded

/-- The record of a pier's retirement with its replacement. -/
def retiredRecord (k p q : Nat) : Rec := { code := 0x060A, action := 4, unit := 1, pier := p, span := k, detail := [BitVec.ofNat 8 q] }

/-- The first step of a takeover: the pair burned, the record, and the span that waits for its slice. -/
theorem beginTakeover_spec {k : Nat} {s : State} (hk : (tfind s.spans k).isSome = true) (p q : Nat) :
    beginTakeover k p q s = { s with
      mem := (beginTakeover k p q s).mem, regs := (beginTakeover k p q s).regs, spans := (beginTakeover k p q s).spans
      ks := { s.ks with retired := s.ks.retired ++ [(p, q)] } } ∧
    (beginTakeover k p q s).span k = { s.span k with recovery := .takeover p q 3 } ∧
    (beginTakeover k p q s).dreg rasFaultLatch = 1 ∧ Recorded (retiredRecord k p q) s (beginTakeover k p q s) := by
  obtain ⟨hrec, hframe, hlatch, -⟩ := raise_spec (retiredRecord k p q) (burnPair p q s)
  have hbegin : beginTakeover k p q s = (beginTakeover.redesignateOthers k q (raise (retiredRecord k p q) (burnPair p q s))).modSpan k
    fun sp => { sp with recovery := .takeover p q 3 } := rfl
  rw [hbegin]
  generalize raise (retiredRecord k p q) (burnPair p q s) = u at hrec hframe hlatch ⊢
  have hku : (tfind u.spans k).isSome = true := by rw [hframe]; exact hk
  have huspan : u.span k = s.span k := by rw [hframe]; rfl
  have hothers : SpansOnly u (beginTakeover.redesignateOthers k q u) :=
    spansOnly_foldl (f := fun s (e : Nat × Span) => redesignate e.1 s) (fun s e => spansOnly_redesignate e.1 s) _ u
  obtain ⟨hspan, hloaded⟩ := span_redesignateOthers k q u
  have hmark := hothers.trans (spansOnly_modSpan k (fun sp => { sp with recovery := .takeover p q 3 }) _)
  have htaken := (span_modSpan_same (f := fun sp => { sp with recovery := .takeover p q 3 }) (hloaded hku))
  generalize (beginTakeover.redesignateOthers k q u).modSpan k (fun sp => { sp with recovery := .takeover p q 3 }) = v at hmark htaken ⊢
  refine ⟨?_, ?_, ?_, hrec.congr rfl rfl rfl rfl ?_ ?_⟩
  · rw [hmark, hframe]
    rfl
  · rw [htaken, hspan, huspan]
  · rw [hmark]
    exact hlatch (by decide : (4 : Nat) ≤ 4)
  · rw [hmark]
  · rw [hmark]

theorem awaiting_loaded {k p q : Nat} {direct : Bool} {s : State} {l : List (Nat × Nat × Bool)} (h : s.awaiting q = (k, p, direct) :: l) :
    (tfind s.spans k).isSome = true := by
  have hmem : (k, p, direct) ∈ s.awaiting q := by
    rw [h]
    exact .head _
  obtain ⟨⟨j, x⟩, hin, heq⟩ := List.mem_filterMap.1 hmem
  have hj : j = k := by
    dsimp only at heq
    split at heq
    · split at heq
      · exact (Prod.mk.inj (Option.some.inj heq)).1
      · cases heq
    · split at heq
      · exact (Prod.mk.inj (Option.some.inj heq)).1
      · cases heq
    · cases heq
  exact tfind_isSome_of_mem (hj ▸ hin)

/-! ### The self-test of a pier that hosts a stage (R464) -/

section
variable {p k st : Nat} {replay : Bool} {s : State} (hp : p < 192) (hstate : s.pierState p ≠ 2) (hspan : s.spanOf p = some (k, st))
  (hrecovery : (s.span k).recovery = .testing p replay)
include hp hstate hspan hrecovery

theorem exec_hosting (pass : Bool) : exec (.pierSelfTestDone p pass) s = .next
    (if pass ∧ (¬ replay ∨ s.recentFaults p < s.dreg rasRetireThreshold) then recovered k s else startTakeover k p s) := by
  change execPierSelfTestDone p pass s = _
  rw [execPierSelfTestDone, if_neg (by omega), if_neg hstate, hspan]
  dsimp only
  rw [hrecovery]
  dsimp only
  rw [if_neg (by simp)]
  split
  · rfl
  · rfl

end

theorem startTakeover_spare {k p q : Nat} {s : State} (hq : tfind (s.span k).spares p = some q) (hspare : s.pierState q = 2)
    (hfree : s.routeFree k p q = true) : startTakeover k p s = testSpare k p q 2 s := by
  rw [startTakeover, hq, takeSpare, Option.filter_some, if_pos (by simp [hspare, hfree])]

/-! ### The steps of a takeover (Table 18-6) -/

theorem takeoverOf_loaded {p n k q : Nat} {s : State} (h : s.takeoverOf p n = some (k, q)) : (tfind s.spans k).isSome = true := by
  obtain ⟨⟨j, x⟩, hin, heq⟩ := List.exists_of_findSome?_eq_some h
  have hj : j = k := by
    dsimp only at heq
    split at heq
    · split at heq
      · exact (Prod.mk.inj (Option.some.inj heq)).1
      · cases heq
    · cases heq
  exact tfind_isSome_of_mem (hj ▸ hin)

theorem objIndex_lt {b mib a y : Nat} (h : objIndex b mib a = some y) : y < mib * 1048576 := by
  rw [objIndex] at h
  split at h
  · next hin =>
    obtain ⟨-, hk, hlo, hhi⟩ := hin
    have hy := Option.some.inj h
    omega
  · cases h

theorem mget_mputAll_ne {n : Nat} {a : Nat} (l : List (Nat × BitVec n)) (hl : ∀ e ∈ l, a ≠ e.1) (m : List (Nat × BitVec n)) :
    mget (mputAll m l) a = mget m a := by
  induction l generalizing m with
  | nil => rfl
  | cons e l ih => exact (ih (fun x hx => hl x (.tail _ hx)) _).trans (mget_mput_ne m e.2 (hl e (.head _)))

theorem restoreSlice_frame (q id : Nat) (s : State) : restoreSlice q id s = { s with mem := (restoreSlice q id s).mem } := by
  unfold restoreSlice
  split <;> rfl

/-- A slice that is restored lies in its 32 MiB. -/
theorem mget_restoreSlice {q id a : Nat} {s : State}
    (ha : a < sliceBase q ∨ (sliceBase (q + 1) ≤ a ∧ ∀ o ∈ s.objs, o.mib ≤ 32)) : mget (restoreSlice q id s).mem a = mget s.mem a := by
  have hnext : sliceBase (q + 1) = sliceBase q + 0x2000000 := by rw [sliceBase, sliceBase]; omega
  unfold restoreSlice
  split
  · rfl
  · next o ho =>
    dsimp only
    rw [mget_mputAll_ne, zeroMem_mem, mget_mzero, if_neg (by omega)]
    intro e he
    obtain ⟨c, -, hc⟩ := List.mem_filterMap.1 he
    obtain ⟨y, hy, rfl⟩ := Option.map_eq_some_iff.1 hc
    have hlt := objIndex_lt hy
    rcases ha with ha | ⟨ha, hmib⟩
    · dsimp only
      omega
    · have hsmall := hmib o (List.mem_of_find?_eq_some ho)
      dsimp only
      omega

theorem restoreChecked_good {q p id : Nat} {ws : List (Nat × Nat × Nat × Nat × Nat)} {s : State}
    (h : (restoreChecked q p id ws s).1 = true) : (restoreChecked q p id ws s).2 = restoreSlice q id s := by
  rw [restoreChecked] at h ⊢
  split at h
  · next hgood => rw [if_pos hgood]
  · cases h

theorem restoreChecked_bad {q p id : Nat} {ws : List (Nat × Nat × Nat × Nat × Nat)} {s : State}
    (h : (restoreChecked q p id ws s).1 = false) : (restoreChecked q p id ws s).2 = storeLost 6 p id (restoreSlice q id s) := by
  rw [restoreChecked] at h ⊢
  split at h
  · cases h
  · next hbad => rw [if_neg hbad]

theorem storeLost_spec (store pier id : Nat) (s : State) : storeLost store pier id s = { s with
      mem := (storeLost store pier id s).mem, regs := (storeLost store pier id s).regs, nextId := (storeLost store pier id s).nextId
      repairs := s.repairs ++ [{ id := s.nextId, store := store, addr := id, pier := pier }] } ∧
    Recorded { code := 0x0606, action := 0, unit := 3, pier := pier, detail := storeDetail (gddrBase 0 + s.objBase id) store } s
      (storeLost store pier id s) := by
  have hframe := raise_frame s { code := 0x0606, action := 0, unit := 3, pier := pier, detail := storeDetail (gddrBase 0 + s.objBase id) store }
  have hrec := (raise_spec { code := 0x0606, action := 0, unit := 3, pier := pier, detail := storeDetail (gddrBase 0 + s.objBase id) store } s).1
  unfold storeLost
  generalize raise { code := 0x0606, action := 0, unit := 3, pier := pier, detail := storeDetail (gddrBase 0 + s.objBase id) store } s = u
    at hframe hrec ⊢
  refine ⟨?_, hrec.congr rfl rfl rfl rfl rfl rfl⟩
  rw [hframe]
  rfl

section
variable {p k q : Nat} {s : State} {im : Image} (hp : p < 192) (him : s.imageOf k = some im)
include hp him

section
variable (hat : s.takeoverOf p 3 = some (k, q))
include hat

theorem exec_takeoverSlice_good (hread : (restoreChecked q p (tget 0 im.backing p) (s.weightsOn p) s).1 = true) :
    exec (.takeoverSliceWritten p true) s = .next (((restoreSlice q (tget 0 im.backing p) s).modImage im.handle fun im' => { im' with
      backing := im.backing.map fun b => if b.1 = p then (q, b.2) else b }).modSpan k fun sp => { sp with recovery := .takeover p q 4 }) := by
  change execTakeoverSliceWritten p true s = _
  rw [execTakeoverSliceWritten, if_neg (by omega), hat]
  dsimp only
  rw [if_neg (by decide), him]
  dsimp only
  rw [if_neg (by rw [hread]; decide), restoreChecked_good hread]

theorem exec_takeoverSlice_bad (hread : (restoreChecked q p (tget 0 im.backing p) (s.weightsOn p) s).1 = false) :
    exec (.takeoverSliceWritten p true) s =
      .next (storeLost 6 p (tget 0 im.backing p) (restoreSlice q (tget 0 im.backing p) s)) := by
  change execTakeoverSliceWritten p true s = _
  rw [execTakeoverSliceWritten, if_neg (by omega), hat]
  dsimp only
  rw [if_neg (by decide), him]
  dsimp only
  rw [if_pos (by rw [hread]; rfl), restoreChecked_bad hread]

end

theorem exec_takeoverReverified (hat : s.takeoverOf p 4 = some (k, q))
    (hfits : fitsAt im.raw im.winMap (s.span k).imgSpan ((s.span k).piers.map fun x => if x = p then q else x) = true)
    (hfree : s.routeFree k p q = true) : exec (.takeoverReverified p) s = .next (s.modSpan k fun sp => { sp with
      piers := (s.span k).piers.map fun x => if x = p then q else x
      links := spanLinks ((s.span k).piers.map fun x => if x = p then q else x) sp.edges, recovery := .takeover p q 5 }) := by
  change execTakeoverReverified p s = _
  rw [execTakeoverReverified, if_neg (by omega), hat]
  dsimp only
  rw [him]
  dsimp only
  rw [if_pos (by rw [hfits, hfree]; rfl)]

end

/-- A pier's programs in place: the span launches again, and the takeover is counted. -/
theorem exec_takeoverProgramWritten {p k q : Nat} {s : State} (hp : p < 192) (hat : s.takeoverOf p 5 = some (k, q)) :
    exec (.takeoverProgramWritten p) s =
      .next (recovered k ((redesignateOf q (redesignate k (reprogram k s))).bump rasTakeovers 0 0 1)) := by
  change execTakeoverProgramWritten p s = _
  rw [execTakeoverProgramWritten, if_neg (by omega), hat]

theorem isSome_redesignateOf {j q : Nat} {s : State} (h : (tfind s.spans j).isSome = true) :
    (tfind (redesignateOf q s).spans j).isSome = true :=
  foldl_rel (R := fun s t => (tfind s.spans j).isSome = true → (tfind t.spans j).isSome = true)
    (f := fun s (e : Nat × Span) => redesignate e.1 s) (fun _ => id) (fun h h' hs => h' (h hs)) (fun _ _ => isSome_redesignate) _ s h

/-- Settles O53: the halts for replay by the record and the stop, the spare's self-test by the spans that wait for it, and each step of a
takeover by what it changes of its span. -/
theorem takeover : Obligations.Takeover := by
  unfold Obligations.Takeover
  refine ⟨fun k st p e s hp hk hstop => foundErr_spec hp hk hstop e,
    fun p k st w keys s hp hspan hstop hbad hw => checkBench_spec hp hspan hstop hbad hw,
    fun q s hq hspare => ⟨fun hout pass => ?_, fun hin hidle => ⟨?_, fun hdegraded => ?_⟩, fun p k hin hwait => ?_⟩,
    fun p k st replay s hp hstate hspan hrecovery => ⟨fun hworks => ?_, fun q pass hfails hq hspare hfree => ?_⟩,
    fun p k q s im hp him => ⟨fun hat => ⟨fun hread => ?_, fun hread => ?_⟩, fun hat => ?_, fun hat => ?_⟩⟩
  · rw [exec_spare hq hspare, if_neg (by simpa using hout)]
  · rw [exec_spare hq hspare, if_pos (by simpa using hin)]
    have hidle' : State.awaiting { s with spareTests := s.spareTests.erase q } q = [] := hidle
    unfold spareTested
    dsimp only
    rw [hidle']
  · obtain ⟨hframe, hrec⟩ := retireSpare_spec q { s with spareTests := s.spareTests.erase q }
    have hidle' : State.awaiting { s with spareTests := s.spareTests.erase q } q = [] := hidle
    refine ⟨retireSpare q { s with spareTests := s.spareTests.erase q }, ?_, by rw [hframe], by rw [hframe], by rw [hframe],
      hrec.congr rfl rfl rfl rfl rfl rfl⟩
    rw [exec_spare hq hspare, if_pos (by simpa using hin)]
    unfold spareTested
    dsimp only
    rw [hidle']
    refine congrArg _ (checkDegraded_kept (hdegraded.imp (fun h => ?_) id))
    rw [hframe]
    exact h
  · have hwait' : State.awaiting { s with spareTests := s.spareTests.erase q } q = [(k, p, true)] := hwait
    obtain ⟨hframe, hspan, hlatch, hrec⟩ := beginTakeover_spec (s := { s with spareTests := s.spareTests.erase q })
      (awaiting_loaded hwait) p q
    refine ⟨beginTakeover k p q { s with spareTests := s.spareTests.erase q }, ?_, by rw [hframe], hspan, by rw [hframe], hlatch,
      by rw [hframe], hrec.congr rfl rfl rfl rfl rfl rfl⟩
    rw [exec_spare hq hspare, if_pos (by simpa using hin)]
    unfold spareTested
    dsimp only
    rw [hwait']
    rfl
  · obtain ⟨hnone, hbut⟩ := recovered_spec (spanOf_loaded s p hspan)
    have hfix := recovered_fixOnly k s
    refine ⟨recovered k s, ?_, hnone, by rw [hfix], by rw [hfix], by rw [hfix], hbut⟩
    rw [exec_hosting hp hstate hspan hrecovery, if_pos ⟨rfl, by simpa using hworks⟩]
  · have hk : (tfind s.spans k).isSome = true := spanOf_loaded s p hspan
    have htest := modSpan_frame (s := { s with spareTests := q :: s.spareTests.erase q }) k fun sp => { sp with recovery := .takeover p q 2 }
    refine ⟨testSpare k p q 2 s, ?_, htest, fun j hj => span_modSpan_ne hj, span_modSpan_same hk⟩
    rw [exec_hosting hp hstate hspan hrecovery, if_neg, startTakeover_spare hq hspare hfree]
    rintro ⟨hpass, hworks⟩
    exact hfails hpass (by simpa using hworks)
  · have hk := takeoverOf_loaded hat
    have hrestore := restoreSlice_frame q (tget 0 im.backing p) s
    have hmem : ∀ a, (a < sliceBase q ∨ (sliceBase (q + 1) ≤ a ∧ ∀ o ∈ s.objs, o.mib ≤ 32)) →
        mget (restoreSlice q (tget 0 im.backing p) s).mem a = mget s.mem a := fun a => mget_restoreSlice
    refine ⟨_, exec_takeoverSlice_good hp him hat hread, ?_⟩
    generalize restoreSlice q (tget 0 im.backing p) s = u at hrestore hmem ⊢
    have hu : (tfind (u.modImage im.handle fun im' => { im' with
        backing := im.backing.map fun b => if b.1 = p then (q, b.2) else b }).spans k).isSome = true := by
      rw [hrestore]
      exact hk
    have hspan : (u.modImage im.handle fun im' => { im' with
        backing := im.backing.map fun b => if b.1 = p then (q, b.2) else b }).span k = s.span k := by
      rw [hrestore]
      rfl
    rw [span_modSpan_same hu, hspan, modSpan_frame]
    refine ⟨rfl, rfl, ?_, hmem⟩
    rw [hrestore]
    rfl
  · obtain ⟨hframe, hrec⟩ := storeLost_spec 6 p (tget 0 im.backing p) (restoreSlice q (tget 0 im.backing p) s)
    refine ⟨_, exec_takeoverSlice_bad hp him hat hread, ?_, ?_, ?_, ?_⟩
    · rw [hframe, restoreSlice_frame]
    · rw [hframe, restoreSlice_frame]
    · rw [hframe, restoreSlice_frame]
    · rw [hrec.2, restoreSlice_frame]
      rfl
  · intro piers hfits hfree
    exact ⟨_, exec_takeoverReverified hp him hat hfits hfree, modSpan_frame _ _ _, fun j hj => span_modSpan_ne hj,
      span_modSpan_same (takeoverOf_loaded hat)⟩
  · have hframe := reprogram_frame k s
    have hk : (tfind (reprogram k s).spans k).isSome = true := by
      rw [hframe]
      exact takeoverOf_loaded hat
    have hspans := (spansOnly_redesignate k (reprogram k s)).trans (spansOnly_redesignateOf q _)
    have hk' : (tfind ((redesignateOf q (redesignate k (reprogram k s))).bump rasTakeovers 0 0 1).spans k).isSome = true :=
      isSome_redesignateOf (isSome_redesignate hk)
    have hnone := (recovered_spec hk').1
    have hfix := recovered_fixOnly k ((redesignateOf q (redesignate k (reprogram k s))).bump rasTakeovers 0 0 1)
    have hcount := reg_bump_same (redesignateOf q (redesignate k (reprogram k s))) rasTakeovers 0 0 1
    refine ⟨_, exec_takeoverProgramWritten hp hat, hnone, ?_, ?_⟩
    · rw [hfix]
      change (redesignateOf q (redesignate k (reprogram k s))).mem = s.mem
      rw [hspans, hframe]
    · rw [hfix]
      refine hcount.trans ?_
      rw [hspans, hframe]
      rfl

end Sys2Proof.Machine

/-! # Scrubs, repairs, training and keystone's events (O54) -/

namespace Sys2Proof.Machine

/-! ### Memory that a record leaves -/

theorem recBytes_length (n time device : Nat) (r : Rec) : (recBytes n time device r).length = 64 := by
  simp only [recBytes, List.length_append, leBytes_length, fitBytes, List.length_take, List.length_replicate]
  omega

/-- A record lies in the first 16 KiB of the LLM. -/
theorem mget_raise {r : Rec} {s : State} {x : Nat} (hx : x < llmBase ∨ llmBase + 16384 ≤ x) : mget (raise r s).mem x = mget s.mem x := by
  rw [raise_mem, mget_mputs_ne]
  rw [recBytes_length]
  omega

/-! ### The LLM scrub (R341, R342) -/

/-- The scrub of the LLM moved on by a line. -/
def llmMoved (s : State) : State := { s with scrub := { s.scrub with llm := (s.scrub.llm + 1) % 6291456 } }

theorem exec_llmScrub_clean (s : State) : exec (.llmScrub 0) s = .next (llmMoved s) := rfl

theorem exec_llmScrub_single (s : State) : exec (.llmScrub 1) s = .next ((llmMoved s).bump llmLlmCorrected 0 0 1) := rfl

/-- The line's address noted. -/
def llmNoted (s : State) : State := (llmMoved s).setDreg llmLlmLastError (64 * s.scrub.llm)

section
variable {n : Nat} (hn : 2 ≤ n) (s : State)
include hn

theorem exec_llmScrub_cache (hcache : s.scratch ≤ 64 * s.scrub.llm) :
    exec (.llmScrub n) s = .next ((llmNoted s).bump llmLlmCacheRefetches 0 0 1) := by
  change execLlmScrub n s = _
  rw [execLlmScrub]
  dsimp only
  rw [if_neg (by omega), if_neg (by omega), if_pos hcache]
  rfl

theorem exec_llmScrub_lost (hlost : 64 * s.scrub.llm < s.scratch) :
    exec (.llmScrub n) s = .next (llmLost (64 * s.scrub.llm) ((llmNoted s).bump llmLlmUncorrected 0 0 1)) := by
  change execLlmScrub n s = _
  rw [execLlmScrub]
  dsimp only
  rw [if_neg (by omega), if_neg (by omega), if_neg (show ¬ (s.scratch ≤ 64 * s.scrub.llm) by omega)]
  rfl

end

/-- The record of a lost LLM line. -/
def lineRecord (a : Nat) (s : State) : Rec :=
  { code := 0x0603, action := if (lineRequests s a).isEmpty then 0 else 1, unit := 2, detail := storeDetail a 2 }

/-- A lost LLM line recorded, and zeroed or waiting for its repair. -/
def lineHandled (a : Nat) (s : State) : State :=
  if decide (0x1000000 ≤ a ∧ a < 0x2000000) then addRepair 2 a 0xFF (raise (lineRecord a s) s)
  else (raise (lineRecord a s) s).zeroMem (llmBase + a) (llmBase + a + 64)

/-- What follows the handling of a lost line marks slots and members alone. -/
theorem llmLost_frame (a : Nat) (s : State) : llmLost a s =
    { lineHandled a s with slots := (llmLost a s).slots, spans := (llmLost a s).spans } := by
  have hpoison : ∀ (l : List (Nat × Nat)) (u : State), SpansOnly u (l.foldl (fun s e => poisonRequest e 0x0603 s) u) := fun l u =>
    spansOnly_foldl (f := fun (s : State) (e : Nat × Nat) => poisonRequest e 0x0603 s) (fun _ _ => rfl) l u
  have hslot : ∀ (c : Prop) [Decidable c] (p : Nat) (u : State), (if c then u.modSlot p fun sl => { sl with credit := [] } else u) =
      { u with slots := (if c then u.modSlot p fun sl => { sl with credit := [] } else u).slots } := fun c _ p u => by
    split
    · rfl
    · rfl
  have hlost : llmLost a s = (lineRequests s a).foldl (fun s e => poisonRequest e 0x0603 s)
    (if 0x10000 ≤ a ∧ (a - 0x10000) / 0x1000 < 8 then (lineHandled a s).modSlot ((a - 0x10000) / 0x1000) fun sl => { sl with credit := [] }
      else lineHandled a s) := rfl
  have hmarked := hslot (0x10000 ≤ a ∧ (a - 0x10000) / 0x1000 < 8) ((a - 0x10000) / 0x1000) (lineHandled a s)
  rw [hlost]
  generalize lineHandled a s = u at hmarked ⊢
  generalize (if 0x10000 ≤ a ∧ (a - 0x10000) / 0x1000 < 8 then u.modSlot ((a - 0x10000) / 0x1000) fun sl => { sl with credit := [] }
    else u) = v at hmarked ⊢
  rw [hpoison (lineRequests s a) v, hmarked]

theorem lineRecord_action (a : Nat) (s : State) : (lineRecord a s).action < 4 := by
  rw [lineRecord]
  dsimp only
  split <;> decide

theorem lineHandled_frame (a : Nat) (s : State) : (lineHandled a s).scrub = s.scrub ∧ (lineHandled a s).piers = s.piers ∧
    (lineHandled a s).regs = (raise (lineRecord a s) s).regs := by
  have hraise := raise_frame s (lineRecord a s)
  unfold lineHandled
  generalize raise (lineRecord a s) s = u at hraise ⊢
  have hsame : u.scrub = s.scrub ∧ u.piers = s.piers := by
    rw [hraise]
    exact ⟨rfl, rfl⟩
  split
  · exact ⟨hsame.1, hsame.2, rfl⟩
  · exact ⟨hsame.1, hsame.2, rfl⟩

/-- What the loss of an LLM line leaves: the line is zero, or waits for its repair; a record; marks of the requests that it held. -/
theorem llmLost_spec (a : Nat) (s : State) : (llmLost a s).scrub = s.scrub ∧ (llmLost a s).piers = s.piers ∧
    (∀ f : Fld, f.key 0 0 ≠ rasFaultWritten.key 0 0 → (llmLost a s).dreg f = s.dreg f) ∧
    (llmLost a s).dreg rasFaultWritten = (s.dreg rasFaultWritten + 1) % 2 ^ 32 := by
  obtain ⟨hscrub, hpiers, hregs⟩ := lineHandled_frame a s
  have hdreg : ∀ f : Fld, (lineHandled a s).dreg f = (raise (lineRecord a s) s).dreg f := fun f => by
    rw [State.dreg, State.reg, hregs]
    rfl
  rw [llmLost_frame]
  refine ⟨hscrub, hpiers, fun f hf => (hdreg f).trans (dreg_raise (lineRecord_action a s) hf s), (hdreg _).trans (raise_spec (lineRecord a s) s).1.2⟩

/-- A line outside the journal reads zero. -/
theorem llmLost_zeroed {a : Nat} (s : State) (ha : a < 0x1000000 ∨ 0x2000000 ≤ a) : (llmLost a s).repairs = s.repairs ∧
    ∀ x, llmBase + a ≤ x → x < llmBase + a + 64 → mget (llmLost a s).mem x = 0 := by
  have hhandled : lineHandled a s = (raise (lineRecord a s) s).zeroMem (llmBase + a) (llmBase + a + 64) := by
    rw [lineHandled, if_neg]
    simp only [decide_eq_true_eq]
    omega
  rw [llmLost_frame, hhandled]
  refine ⟨?_, fun x hlo hhi => ?_⟩
  · change (raise (lineRecord a s) s).repairs = _
    rw [raise_frame]
  · change mget (mzero (raise (lineRecord a s) s).mem _ _) x = 0
    rw [mget_mzero, if_pos ⟨hlo, hhi⟩]

/-- A line of the journal waits for its repair and keeps its bytes. -/
theorem llmLost_journal {a : Nat} (s : State) (hlo : 0x1000000 ≤ a) (hhi : a < 0x2000000) :
    (llmLost a s).repairs = s.repairs ++ [{ id := s.nextId, store := 2, addr := a, pier := 0xFF }] ∧
    ∀ x, llmBase + a ≤ x → x < llmBase + a + 64 → mget (llmLost a s).mem x = mget s.mem x := by
  have hhandled : lineHandled a s = addRepair 2 a 0xFF (raise (lineRecord a s) s) := by
    rw [lineHandled, if_pos]
    simp only [decide_eq_true_eq]
    omega
  rw [llmLost_frame, hhandled]
  refine ⟨?_, fun x hx _ => ?_⟩
  · change (addRepair 2 a 0xFF (raise (lineRecord a s) s)).repairs = _
    rw [raise_frame]
    rfl
  · change mget (raise (lineRecord a s) s).mem x = _
    exact mget_raise (by omega)

/-! ### GDDR: scrub, training and retraining (R348, R353, R466) -/

theorem bit_setFld_one {x k n : Nat} (hk : k < n) : bit (setFld x k 1 1 % 2 ^ n) k = true := by
  rw [bit, Nat.testBit_mod_two_pow, testBit_setFld, if_neg (by omega), if_pos (by omega), Nat.sub_self]
  simp [hk]

/-- What the hand-over of every request changes. -/
def Handed (s t : State) : Prop := t =
  { s with
    requests := t.requests, regs := t.regs, slots := t.slots, images := t.images, sessions := t.sessions, objs := t.objs
    mem := t.mem, journal := t.journal, sent := t.sent, rx := t.rx, rxDone := t.rxDone, rxTimers := t.rxTimers, out := t.out
    pending := t.pending, piers := t.piers, spans := t.spans, links := t.links }

theorem Handed.trans {s t u : State} (h : Handed s t) (h' : Handed t u) : Handed s u := by
  rw [Handed, h', h]

theorem CommitOnly.handed {s t : State} (h : CommitOnly s t) : Handed s t := by
  rw [Handed, h]

theorem SpansOnly.handed {s t : State} (h : SpansOnly s t) : Handed s t := by
  rw [Handed, h]

theorem handed_foldl {α : Type} {f : State → α → State} (hf : ∀ s a, Handed s (f s a)) (l : List α) (s : State) : Handed s (l.foldl f s) :=
  foldl_rel (R := Handed) (fun _ => rfl) Handed.trans hf l s

theorem handed_abortPiers (k : Nat) (fault : Bool) (s : State) : Handed s (abortPiers k fault s) := by
  rw [abortPiers_eq]
  have hlinks : Handed s { s with links := s.links.filter fun f => !(s.span k).piers.contains f.pier } := rfl
  exact hlinks.trans (handed_foldl (f := fun s p => s.modPier p (abortedPier fault)) (fun _ _ => rfl) _ _)

theorem handed_handAll (s : State) : Handed s (handAll s) := by
  have hdrop : ∀ (s : State) (e : Nat × Span),
      Handed s ((dropBatch e.1 (abortPiers e.1 true s)).modSpan e.1 fun sp => { sp with waiting := [], fixed := [] }) := fun s e =>
    (handed_abortPiers e.1 true s).trans ((spansOnly_modSpan e.1 _ _).handed.trans (spansOnly_modSpan e.1 _ _).handed)
  unfold handAll
  dsimp only
  refine (handed_foldl hdrop s.spans s).trans ?_
  split
  · refine Handed.trans ?_ (handed_foldl (fun s se => (commitOnly_raise { code := 0x060C, action := 6, session := se } s).handed) _ _)
    exact handed_foldl (fun s (r : Request) => (commitOnly_handOff r s).handed) _ _
  · exact handed_foldl (fun s (r : Request) => (commitOnly_outputDone r.session r.seq 0x040B s).handed) _ _

/-- A device with a failed GDDR device is Degraded. -/
theorem checkDegraded_failed {s : State} (hbad : s.badTraining ≠ []) : (checkDegraded s).degraded = true ∧
    (checkDegraded s).badTraining = s.badTraining := by
  have hdegraded : s.isDegraded = true := by
    have hne : (!s.badTraining.isEmpty) = true := by simpa using hbad
    rw [State.isDegraded, hne, Bool.or_true]
  rw [checkDegraded]
  split
  · have hraise := (commitOnly_raise { code := 0x060B, action := 5 } { s with degraded := true }).handed
    have hand := hraise.trans (handed_handAll _)
    rw [hand]
    exact ⟨rfl, rfl⟩
  · next hno =>
    exact ⟨Decidable.not_not.1 fun h => hno ⟨hdegraded, h⟩, rfl⟩

/-- The record of a GDDR device that fails its training. -/
def trainingRecord (detail : List Byte) : Rec := { code := 0x0604, action := 0, unit := 3, detail := detail }

/-- A GDDR device that has failed. -/
def trainingFailed (k : Nat) (detail : List Byte) (s : State) : State :=
  checkDegraded (raise (trainingRecord detail) { s with badTraining := (s.badTraining ++ [k]).eraseDups })

theorem trainingFailed_spec (k : Nat) (detail : List Byte) (s : State) : k ∈ (trainingFailed k detail s).badTraining ∧
    (trainingFailed k detail s).gddrOk = false ∧ (trainingFailed k detail s).degraded = true ∧
    (s.degraded = true → Recorded (trainingRecord detail) s (trainingFailed k detail s)) := by
  obtain ⟨hrec, hframe, -, -⟩ := raise_spec (trainingRecord detail) { s with badTraining := (s.badTraining ++ [k]).eraseDups }
  unfold trainingFailed
  generalize raise (trainingRecord detail) { s with badTraining := (s.badTraining ++ [k]).eraseDups } = u at hrec hframe ⊢
  have hmem : k ∈ u.badTraining := by
    rw [hframe]
    exact List.mem_eraseDups.2 (by simp)
  obtain ⟨hdegraded, hbad⟩ := checkDegraded_failed (List.ne_nil_of_mem hmem)
  refine ⟨hbad ▸ hmem, ?_, hdegraded, fun h => ?_⟩
  · rw [State.gddrOk, hbad]
    exact List.isEmpty_eq_false_iff.2 (List.ne_nil_of_mem hmem)
  · rw [checkDegraded_kept (.inl (by rw [hframe]; exact h))]
    exact hrec.congr rfl rfl rfl rfl rfl rfl

section
variable {k : Nat} (hk : k < 16) (s : State)
include hk

theorem exec_gddrScrub (c : Nat) (bad : Option Nat) : exec (.gddrScrub k c bad) s = .next
    (bad.elim id objectLost (({ s with scrub := { s.scrub with gddr := s.scrub.gddr + 1 } }).bump mcEccCorrected 0 k c)) := by
  change execGddrScrub k c bad s = _
  rw [execGddrScrub, if_neg (by omega)]
  cases bad <;> rfl

theorem exec_gddrTrainingDone (ok : Bool) : exec (.gddrTrainingDone k ok) s = .next
    (if ok then s.setDreg mcGddrTrained (setFld (s.dreg mcGddrTrained) k 1 1) else trainingFailed k (leBytes 1 k) s) := by
  change execGddrTrainingDone k ok s = _
  rw [execGddrTrainingDone, if_neg (by omega)]
  cases ok <;> rfl

theorem exec_channelRetrainDone (ch : Nat) (ok : Bool) : exec (.channelRetrainDone k ch ok) s = .next
    (if ok then s else trainingFailed k (leBytes 1 k ++ leBytes 1 ch) s) := by
  change execChannelRetrainDone k ch ok s = _
  rw [execChannelRetrainDone, if_neg (by omega)]
  cases ok <;> rfl

end

theorem objectLost_repaired {id store pier : Nat} {s : State} (hstore : s.storeOf id = some (store, pier))
    (hcopy : store = 5 ∨ store = 6 ∨ s.hasBuddy = true) : objectLost id s = storeLost store pier id s := by
  rw [objectLost, hstore]
  dsimp only
  rw [if_neg]
  rintro ⟨h34, hno⟩
  rcases hcopy with h | h | h
  · omega
  · omega
  · exact hno h

/-! ### Slices and instruction memories (R277, R460) -/

/-- The record of a pier's store that fails on a span that no error halts. -/
def pierStoreRecord (p store addr span : Nat) : Rec :=
  { code := 0x0603, action := 0, unit := 1, pier := p, span := span, detail := storeDetail addr store }

/-- The record of a pier's store that fails under a batch. -/
def pierHaltRecord (p store addr span : Nat) : Rec :=
  { code := 0x0603, action := 2, unit := 1, pier := p, span := span, detail := storeDetail addr store }

/-- A pier's store that fails under a batch: the repair, the record and the halt. -/
theorem pierStoreLost_running {p k st : Nat} {s : State} (hspan : s.spanOf p = some (k, st)) (hrun : (s.span k).running = true)
    (store addr : Nat) : pierStoreLost p store addr true s =
      halted (pierHaltRecord p store addr k) k (.replay 0x0603 (some p)) (addRepair store addr p s) := by
  have hspan' : (addRepair store addr p s).spanOf p = some (k, st) := hspan
  rw [pierStoreLost]
  rw [hspan']
  dsimp only
  rw [if_pos ⟨rfl, hrun⟩]
  rfl

/-- What the loss of a pier's store leaves in every case: the repair, one record, and the spans where no batch runs on it. -/
theorem pierStoreLost_spec (p store addr : Nat) (active : Bool) (s : State) :
    pierStoreLost p store addr active s = { s with
      repairs := s.repairs ++ [{ id := s.nextId, store := store, addr := addr, pier := p }], nextId := s.nextId + 1
      mem := (pierStoreLost p store addr active s).mem, regs := (pierStoreLost p store addr active s).regs
      spans := (pierStoreLost p store addr active s).spans } ∧
    (pierStoreLost p store addr active s).dreg rasFaultWritten = (s.dreg rasFaultWritten + 1) % 2 ^ 32 ∧
    (active = false → (pierStoreLost p store addr active s).spans = s.spans) := by
  have hraised : ∀ rc : Rec, raise rc (addRepair store addr p s) = { s with
      repairs := s.repairs ++ [{ id := s.nextId, store := store, addr := addr, pier := p }], nextId := s.nextId + 1
      mem := (raise rc (addRepair store addr p s)).mem, regs := (raise rc (addRepair store addr p s)).regs
      spans := (raise rc (addRepair store addr p s)).spans } ∧
      (raise rc (addRepair store addr p s)).dreg rasFaultWritten = (s.dreg rasFaultWritten + 1) % 2 ^ 32 ∧
      (active = false → (raise rc (addRepair store addr p s)).spans = s.spans) := fun rc => by
    obtain ⟨hrec, hframe, -, -⟩ := raise_spec rc (addRepair store addr p s)
    have hcount := hrec.2
    generalize raise rc (addRepair store addr p s) = u at hframe hcount ⊢
    refine ⟨?_, hcount, fun _ => ?_⟩
    · rw [hframe]
      rfl
    · rw [hframe]
      rfl
  cases hspan : s.spanOf p with
  | none =>
    have hspan' : (addRepair store addr p s).spanOf p = none := hspan
    have hlost : pierStoreLost p store addr active s = raise (pierStoreRecord p store addr 0xFF) (addRepair store addr p s) := by
      rw [pierStoreLost]
      rw [hspan']
      rfl
    rw [hlost]
    exact hraised _
  | some e =>
    obtain ⟨k, st⟩ := e
    have hspan' : (addRepair store addr p s).spanOf p = some (k, st) := hspan
    by_cases hrun : active = true ∧ (s.span k).running = true
    · obtain ⟨rfl, hrun⟩ := hrun
      rw [pierStoreLost_running hspan hrun]
      have hframe := halted_frame (rc := pierHaltRecord p store addr k) (k := k) (s := addRepair store addr p s) (.replay 0x0603 (some p))
      have hcount := (halted_recorded (rc := pierHaltRecord p store addr k) (k := k) (s := addRepair store addr p s)
        (.replay 0x0603 (some p))).2
      generalize halted (pierHaltRecord p store addr k) k (.replay 0x0603 (some p)) (addRepair store addr p s) = u at hframe hcount ⊢
      refine ⟨?_, hcount, fun h => nomatch h⟩
      rw [hframe]
      rfl
    · have hlost : pierStoreLost p store addr active s = raise (pierStoreRecord p store addr k) (addRepair store addr p s) := by
        rw [pierStoreLost]
        rw [hspan']
        dsimp only
        exact if_neg hrun
      rw [hlost]
      exact hraised _

/-- A store that fails under a batch halts the span for replay. -/
theorem pierStoreLost_halts {p k st : Nat} {s : State} (hspan : s.spanOf p = some (k, st)) (hrun : (s.span k).running = true)
    (hstop : (s.span k).stop = none) (store addr : Nat) :
    ((pierStoreLost p store addr true s).span k).stop = some (.replay 0x0603 (some p)) ∧
      spansBut k s (pierStoreLost p store addr true s) ∧
      Recorded (pierHaltRecord p store addr k) s (pierStoreLost p store addr true s) := by
  have hstopped := halted_span (rc := pierHaltRecord p store addr k) (s := addRepair store addr p s) (spanOf_loaded s p hspan) hstop
    (.replay 0x0603 (some p))
  have hbut := halted_spansBut (rc := pierHaltRecord p store addr k) (k := k) (s := addRepair store addr p s) (.replay 0x0603 (some p))
  have hrec := halted_recorded (rc := pierHaltRecord p store addr k) (k := k) (s := addRepair store addr p s) (.replay 0x0603 (some p))
  rw [pierStoreLost_running hspan hrun]
  generalize halted (pierHaltRecord p store addr k) k (.replay 0x0603 (some p)) (addRepair store addr p s) = u at hstopped hbut hrec ⊢
  exact ⟨by rw [hstopped], hbut, hrec.congr rfl rfl rfl rfl rfl rfl⟩

/-- The scrub of the slices moved on by a word. -/
def weightMoved (s : State) : State := { s with scrub := { s.scrub with weight := (s.scrub.weight + 1) % 4194304 } }

/-- The scrub of the instruction memories moved on. -/
def imemMoved (s : State) : State := { s with scrub := { s.scrub with imem := s.scrub.imem + 1 } }

section
variable {p : Nat} (hp : p < 192) (s : State)
include hp

theorem exec_weightScrub (hactive : s.pierState p = 1) (n : Nat) : exec (.weightScrub p n) s = .next
    (if n = 0 then weightMoved s else if n = 1 then (weightMoved s).bump rasWeightCorrected 0 0 1
      else pierStoreLost p 0 (sliceBase p + 8 * s.scrub.weight) true (weightMoved s)) := by
  change execWeightScrub p n s = _
  rw [execWeightScrub, if_neg (by omega), if_neg (by simp [hactive])]
  dsimp only
  split
  · rfl
  · split <;> rfl

theorem exec_weightScrub_idle (hidle : s.pierState p ≠ 1) (n : Nat) : exec (.weightScrub p n) s = .next s := by
  change execWeightScrub p n s = _
  rw [execWeightScrub, if_neg (by omega), if_pos hidle]

theorem exec_imemScrub (b n : Nat) : exec (.imemScrub p b n) s = .next
    (if n = 0 then imemMoved s else if n = 1 then (imemMoved s).bump seqImemCorrected p 0 1
      else if b = (s.pier p).seq.bank then pierStoreLost p 1 b true (imemMoved s)
      else pierStoreLost p 1 b false ((imemMoved s).modSeq p fun q => { q with armed := false })) := by
  change execImemScrub p b n s = _
  rw [execImemScrub, if_neg (by omega)]
  dsimp only
  split
  · rfl
  · split
    · rfl
    · by_cases hb : b = (s.pier p).seq.bank
      · rw [if_pos hb]
        have hactive : decide (b = (s.pier p).seq.bank) = true := decide_eq_true hb
        rw [hactive]
        rfl
      · rw [if_neg hb]
        have hactive : decide (b = (s.pier p).seq.bank) = false := decide_eq_false hb
        rw [hactive]
        rfl

end

/-! ### Repairs that are done (Table 18-5) -/

/-- A store restored, by its kind. -/
def repairDone (r : Repair) (copy : List Byte) (s : State) : State :=
  match r.store with
  | 0 => match s.images.findSome? fun e => (e.2.backing.find? fun b => b.1 = r.pier).map (·.2) with
    | some o => (restoreChecked r.pier r.pier o (s.weightsOn r.pier) s).2
    | none => s
  | 1 => match s.spanOf r.pier with
    | some (k, st) => (match s.stageProg k st with
      | some g => s.modPier r.pier fun x => x.loadBank r.addr g
      | none => s)
    | none => s
  | 6 => if s.sliceGood r.pier (s.weightsOn r.pier) then backupSlice r.pier r.addr s else s
  | 2 => s
  | 5 => s
  | _ => objWr r.addr 0 copy s

theorem exec_storeRepairDone {s : State} {id : Nat} {r : Repair} (hr : s.repairs.find? (fun r => r.id = id) = some r) (copy : List Byte) :
    exec (.storeRepairDone id copy) s = .next (repairDone r copy { s with repairs := s.repairs.erase r }) := by
  change execStoreRepairDone id copy s = _
  rw [execStoreRepairDone, hr]
  dsimp only
  unfold repairDone
  generalize r.store = n
  rcases n with _ | _ | _ | _ | _ | _ | _ | n <;> rfl

/-- A slice restored from its backing copy. -/
theorem repairDone_slice {s : State} {r : Repair} {copy : List Byte} {o : Nat} (hstore : r.store = 0)
    (hsome : (s.images.findSome? fun e => (e.2.backing.find? fun b => b.1 = r.pier).map (·.2)) = some o) :
    repairDone r copy { s with repairs := s.repairs.erase r } =
      (restoreChecked r.pier r.pier o (s.weightsOn r.pier) { s with repairs := s.repairs.erase r }).2 := by
  rw [repairDone, hstore]
  dsimp only
  rw [hsome]
  rfl

/-! ### Cells written one by one -/

theorem mget_mputAll_of {n : Nat} {a : Nat} {v : BitVec n} {l : List (Nat × BitVec n)} {m : List (Nat × BitVec n)} (hm : Memory.wf m = true)
    (hl : ∀ e ∈ l, e.1 = a → e.2 = v) (hin : ∃ e ∈ l, e.1 = a) : mget (mputAll m l) a = v := by
  induction l generalizing m with
  | nil => exact absurd hin (by simp)
  | cons e l ih =>
    by_cases hlater : ∃ x ∈ l, x.1 = a
    · exact ih (mput_wf m e.1 e.2 hm) (fun x hx => hl x (.tail _ hx)) hlater
    · have he : e.1 = a := by
        obtain ⟨x, hx, hxa⟩ := hin
        rcases List.mem_cons.1 hx with rfl | hx
        · exact hxa
        · exact absurd ⟨x, hx, hxa⟩ hlater
      have hput : mget (mput m e.1 e.2) a = v := by
        rw [← hl e (.head _) he, ← he]
        exact mget_mput_same m e.1 e.2 hm
      exact (mget_mputAll_ne l (fun x hx hxa => hlater ⟨x, hx, hxa.symm⟩) _).trans hput

/-- A cell of a canonical memory is what the memory reads there, and is not zero. -/
theorem mget_of_mem {n : Nat} {m : List (Nat × BitVec n)} (hm : Memory.wf m = true) {e : Nat × BitVec n} (he : e ∈ m) :
    mget m e.1 = e.2 ∧ e.2 ≠ 0 := by
  have hfrom : ∀ (l : List (Nat × BitVec n)) (b : Nat), mwfFrom b l = true → ∀ e ∈ l, b ≤ e.1 ∧ mget l e.1 = e.2 ∧ e.2 ≠ 0 := by
    intro l
    induction l with
    | nil => exact fun _ _ _ h => nomatch h
    | cons c l ih =>
      intro b hwf e he
      simp only [mwfFrom, Bool.and_eq_true, decide_eq_true_eq] at hwf
      obtain ⟨⟨hb, hv⟩, hl⟩ := hwf
      rcases List.mem_cons.1 he with rfl | he
      · exact ⟨hb, by simp [mget], hv⟩
      · obtain ⟨hle, hget, hne⟩ := ih _ hl e he
        refine ⟨by omega, ?_, hne⟩
        rw [mget, if_neg (by omega)]
        exact hget
  exact (hfrom m 0 hm e he).2

theorem mem_of_mget {n : Nat} {m : List (Nat × BitVec n)} {a : Nat} (h : mget m a ≠ 0) : (a, mget m a) ∈ m := by
  induction m with
  | nil => exact absurd rfl h
  | cons c m ih =>
    obtain ⟨k, v⟩ := c
    by_cases hk : a = k
    · subst hk
      simp [mget]
    · rw [mget, if_neg hk] at h ⊢
      exact .tail _ (ih h)

/-! ### Internal objects (R347) -/

theorem objAddr_injective {b y z : Nat} (hy : y < 2 ^ 20) (hz : z < 2 ^ 20) (h : objAddr b y = objAddr b z) : y = z := by
  simp only [objAddr, gddrBase] at h
  omega

theorem objAddr_of_index {b mib a y : Nat} (h : objIndex b mib a = some y) : a = objAddr b y := by
  rw [objIndex] at h
  split at h
  · next hin =>
    obtain ⟨hlo, hk, hx, -⟩ := hin
    have hy := Option.some.inj h
    simp only [objAddr, gddrBase] at hlo hk hx hy ⊢
    omega
  · cases h

theorem objIndex_objAddr {b y : Nat} (hb : b + 65536 * 32 ≤ 2 ^ 32) (hy : y < 0x2000000) : objIndex b 32 (objAddr b y) = some y := by
  -- device, 64 KiB block and byte of `y`
  have hk : y / 65536 % 16 < 16 := Nat.mod_lt _ (by decide)
  have hq : y / 1048576 < 32 := by omega
  have hr : y % 65536 < 65536 := Nat.mod_lt _ (by decide)
  have hsplit : y / 1048576 * 1048576 + y / 65536 % 16 * 65536 + y % 65536 = y := by omega
  rw [objAddr]
  generalize y / 65536 % 16 = k at hk hsplit ⊢
  generalize y / 1048576 = q at hq hsplit ⊢
  generalize y % 65536 = r at hr hsplit ⊢
  have hoff : gddrBase k + b + 65536 * q + r - gddrBase 0 = 2 ^ 32 * k + (b + 65536 * q + r) := by
    simp only [gddrBase]
    omega
  have hlt : b + 65536 * q + r < 2 ^ 32 := by omega
  have hdiv : (2 ^ 32 * k + (b + 65536 * q + r)) / 2 ^ 32 = k := by
    rw [Nat.mul_add_div (by decide), Nat.div_eq_of_lt hlt, Nat.add_zero]
  have hmod : (2 ^ 32 * k + (b + 65536 * q + r)) % 2 ^ 32 = b + 65536 * q + r := by
    rw [Nat.mul_add_mod, Nat.mod_eq_of_lt hlt]
  unfold objIndex
  rw [hoff, hdiv, hmod]
  have hlow : gddrBase 0 ≤ gddrBase k + b + 65536 * q + r := by
    simp only [gddrBase]
    omega
  have hhigh : b + 65536 * q + r < b + 65536 * 32 := by omega
  have hsub : b + 65536 * q + r - b = 65536 * q + r := by omega
  have hquot : (65536 * q + r) / 65536 = q := by omega
  have hrem : (65536 * q + r) % 65536 = r := by omega
  have hy' : (b + 65536 * q + r - b) / 65536 * 1048576 + k * 65536 + (b + 65536 * q + r - b) % 65536 = y := by
    rw [hsub, hquot, hrem, hsplit]
  exact (if_pos ⟨hlow, hk, by omega, hhigh⟩).trans (congrArg some hy')

theorem objWr_eq (id : Nat) (bs : List Byte) (s : State) : objWr id 0 bs s =
    { s with mem := mputAll s.mem (bs.zipIdx.map fun e => (objAddr (s.objBase id) (0 + e.2), e.1)) } := by
  have hstep : ∀ (l : List (Byte × Nat)) (u : State), l.foldl (fun s e => s.wr (objAddr (s.objBase id) (0 + e.2)) [e.1]) u =
      { u with mem := mputAll u.mem (l.map fun e => (objAddr (u.objBase id) (0 + e.2), e.1)) } := by
    intro l
    induction l with
    | nil => exact fun u => rfl
    | cons e l ih => exact fun u => ih (u.wr (objAddr (u.objBase id) (0 + e.2)) [e.1])
  exact hstep _ s

/-- A copy that the buddy sent lies in its object. -/
theorem mget_objWr {id y : Nat} {bs : List Byte} {s : State} (hm : Memory.wf s.mem = true) (hlen : bs.length ≤ 2 ^ 20) (hy : y < bs.length) :
    mget (objWr id 0 bs s).mem (objAddr (s.objBase id) y) = bs.getD y 0 := by
  rw [objWr_eq]
  refine mget_mputAll_of hm (fun e he hea => ?_) ?_
  · obtain ⟨⟨v, i⟩, hin, rfl⟩ := List.mem_map.1 he
    have hget := List.mem_zipIdx_iff_getElem?.1 hin
    have hi : i < bs.length := (List.getElem?_eq_some_iff.1 hget).1
    have hiy : 0 + i = y := objAddr_injective (by omega) (by omega) hea
    rw [← hiy, Nat.zero_add, List.getD_eq_getElem?_getD, hget]
    rfl
  · refine ⟨_, List.mem_map.2 ⟨(bs[y], y), List.mem_zipIdx_iff_getElem?.2 (List.getElem?_eq_getElem hy), rfl⟩, ?_⟩
    simp only [Nat.zero_add]

/-! ### A slice restored from its backing copy (R86) -/

/-- The cells of a slice that a backing copy holds. -/
def sliceCells (g : GObj) (p : Nat) (s : State) : List (Nat × Byte) :=
  s.mem.filterMap fun c => (objIndex g.base g.mib c.1).map fun y => (sliceBase p + y, c.2)

theorem restoreSlice_mem {p id : Nat} {s : State} {g : GObj} (hg : s.objs.find? (fun x => x.id = id) = some g) :
    (restoreSlice p id s).mem = mputAll (mzero s.mem (sliceBase p) (sliceBase p + 0x2000000)) (sliceCells g p s) := by
  rw [restoreSlice, hg]
  rfl

theorem mem_sliceCells {g : GObj} {p : Nat} {s : State} {e : Nat × Byte} : e ∈ sliceCells g p s ↔
    ∃ c ∈ s.mem, ∃ y, objIndex g.base g.mib c.1 = some y ∧ e = (sliceBase p + y, c.2) := by
  simp only [sliceCells, List.mem_filterMap, Option.map_eq_some_iff, eq_comm (a := e)]

section
variable {p id : Nat} {s : State} {g : GObj} (hm : Memory.wf s.mem = true) (hg : s.objs.find? (fun x => x.id = id) = some g)
  (hmib : g.mib = 32) (hbase : g.base + 65536 * 32 ≤ 2 ^ 32)
include hm hg hmib hbase

theorem mget_restoreSlice_copy {y : Nat} (hy : y < 0x2000000) :
    mget (restoreSlice p id s).mem (sliceBase p + y) = mget s.mem (objAddr g.base y) := by
  have hzero := mzero_wf s.mem (sliceBase p) (sliceBase p + 0x2000000) hm
  have hcell : ∀ e ∈ sliceCells g p s, e.1 = sliceBase p + y → (objAddr g.base y, e.2) ∈ s.mem := fun e he hea => by
    obtain ⟨c, hc, z, hz, rfl⟩ := mem_sliceCells.1 he
    have hzy : z = y := Nat.add_left_cancel hea
    rw [← hzy, ← objAddr_of_index hz]
    exact hc
  rw [restoreSlice_mem hg]
  by_cases hread : mget s.mem (objAddr g.base y) = 0
  · rw [mget_mputAll_ne, mget_mzero, if_pos (by omega), hread]
    intro e he hea
    obtain ⟨hget, hne⟩ := mget_of_mem hm (hcell e he hea.symm)
    exact hne (hget.symm.trans hread)
  · refine mget_mputAll_of hzero (fun e he hea => ((mget_of_mem hm (hcell e he hea)).1).symm) ?_
    refine ⟨_, mem_sliceCells.2 ⟨_, mem_of_mget hread, y, ?_, rfl⟩, rfl⟩
    rw [hmib]
    exact objIndex_objAddr hbase hy

theorem memBut_restoreSlice : memBut (sliceBase p) (sliceBase p + 0x2000000) s (restoreSlice p id s) := by
  intro a ha
  rw [restoreSlice_mem hg, mget_mputAll_ne, mget_mzero, if_neg (by omega)]
  intro e he
  obtain ⟨c, -, z, hz, rfl⟩ := mem_sliceCells.1 he
  have hlt := objIndex_lt hz
  rw [hmib] at hlt
  dsimp only
  omega

end

/-! ### The obligation -/

theorem scrub_llm (s : State) (n : Nat) (hn : 2 ≤ n) (hlost : 64 * s.scrub.llm < s.scratch) :
    ∃ t, exec (.llmScrub n) s = .next t ∧ t.scrub = (llmMoved s).scrub ∧ t.piers = s.piers ∧
      t.dreg llmLlmLastError = 64 * s.scrub.llm % 2 ^ llmLlmLastError.w ∧
      t.dreg llmLlmUncorrected = satAdd llmLlmUncorrected.w (s.dreg llmLlmUncorrected) 1 ∧
      t.dreg rasFaultWritten = (s.dreg rasFaultWritten + 1) % 2 ^ 32 ∧
      (64 * s.scrub.llm < 0x1000000 ∨ 0x2000000 ≤ 64 * s.scrub.llm → t.repairs = s.repairs ∧
        ∀ x, llmBase + 64 * s.scrub.llm ≤ x → x < llmBase + 64 * s.scrub.llm + 64 → mget t.mem x = 0) ∧
      (0x1000000 ≤ 64 * s.scrub.llm → 64 * s.scrub.llm < 0x2000000 →
        t.repairs = s.repairs ++ [{ id := s.nextId, store := 2, addr := 64 * s.scrub.llm, pier := 0xFF }] ∧
        ∀ x, llmBase + 64 * s.scrub.llm ≤ x → x < llmBase + 64 * s.scrub.llm + 64 → mget t.mem x = mget s.mem x) := by
  obtain ⟨hscrub, hpiers, hdreg, hcount⟩ := llmLost_spec (64 * s.scrub.llm) ((llmNoted s).bump llmLlmUncorrected 0 0 1)
  refine ⟨_, exec_llmScrub_lost hn s hlost, hscrub, hpiers, ?_, ?_, ?_,
    fun h => llmLost_zeroed ((llmNoted s).bump llmLlmUncorrected 0 0 1) h,
    fun hlo hhi => llmLost_journal ((llmNoted s).bump llmLlmUncorrected 0 0 1) hlo hhi⟩
  · rw [hdreg _ (by decide), dreg_bump_ne _ _ (by decide)]
    exact dreg_setDreg_same _ _ _
  · rw [hdreg _ (by decide)]
    exact (reg_bump_same (llmNoted s) llmLlmUncorrected 0 0 1).trans (congrArg (satAdd _ · 1) (dreg_setDreg_ne _ _ (by decide)))
  · rw [hcount, dreg_bump_ne _ _ (by decide)]
    exact congrArg (fun n => (n + 1) % 2 ^ 32) (dreg_setDreg_ne (llmMoved s) _ (by decide))

theorem storeLost_regs (store pier id : Nat) (s : State) : regsBut [rasFaultWritten.key 0 0] s (storeLost store pier id s) := by
  have hregs := raise_regsBut (r := { code := 0x0606, action := 0, unit := 3, pier := pier, detail := storeDetail (gddrBase 0 + s.objBase id) store })
    (by decide : (0 : Nat) < 4) s
  unfold storeLost
  generalize raise { code := 0x0606, action := 0, unit := 3, pier := pier, detail := storeDetail (gddrBase 0 + s.objBase id) store } s = u
    at hregs ⊢
  exact hregs

section
variable {k : Nat} (hk : k < 16) (s : State)
include hk

theorem scrub_object (c : Nat) {id store pier : Nat} (hstore : s.storeOf id = some (store, pier))
    (hcopy : store = 5 ∨ store = 6 ∨ s.hasBuddy = true) : ∃ t, exec (.gddrScrub k c (some id)) s = .next t ∧
      (t.scrub = { s.scrub with gddr := s.scrub.gddr + 1 } ∧ t.reg mcEccCorrected 0 k = satAdd mcEccCorrected.w (s.reg mcEccCorrected 0 k) c) ∧
      t.repairs = s.repairs ++ [{ id := s.nextId, store := store, addr := id, pier := pier }] ∧
      Recorded { code := 0x0606, action := 0, unit := 3, pier := pier, detail := leBytes 6 (gddrBase 0 + s.objBase id) ++ leBytes 1 store } s t := by
  have hkey : ∀ f : Fld, f = rasFaultWritten ∨ f = tbDeviceId ∨ f = prtBuddyNone → f.key 0 0 ≠ mcEccCorrected.key 0 k := by
    rintro f (rfl | rfl | rfl)
    · simp [Fld.key, rasFaultWritten, mcEccCorrected]; omega
    · simp [Fld.key, tbDeviceId, mcEccCorrected]; omega
    · simp [Fld.key, prtBuddyNone, mcEccCorrected]; omega
  have hbuddy : (({ s with scrub := { s.scrub with gddr := s.scrub.gddr + 1 } }).bump mcEccCorrected 0 k c).hasBuddy = s.hasBuddy := by
    rw [State.hasBuddy, State.dreg, reg_bump_ne _ _ (hkey _ (by simp))]
    rfl
  have hlost : objectLost id (({ s with scrub := { s.scrub with gddr := s.scrub.gddr + 1 } }).bump mcEccCorrected 0 k c) = _ :=
    objectLost_repaired hstore (hbuddy ▸ hcopy)
  obtain ⟨hframe, hrec⟩ := storeLost_spec store pier id (({ s with scrub := { s.scrub with gddr := s.scrub.gddr + 1 } }).bump mcEccCorrected 0 k c)
  have hcounted := hrec.2
  refine ⟨_, (exec_gddrScrub hk s c (some id)).trans (congrArg _ hlost), ⟨?_, ?_⟩, ?_, ?_⟩
  · rw [hframe]
    rfl
  · refine ((storeLost_regs store pier id _).reg_eq ?_).trans (reg_bump_same _ mcEccCorrected 0 k c)
    simpa using (hkey _ (.inl rfl)).symm
  · rw [hframe]
    rfl
  · exact hrec.congr rfl rfl (reg_bump_ne _ _ (hkey _ (by simp))).symm (reg_bump_ne _ _ (hkey _ (by simp))).symm rfl rfl

end

section
variable {p : Nat} (hp : p < 192) (s : State)
include hp

theorem scrub_weight (hactive : s.pierState p = 1) : ∃ t, exec (.weightScrub p 2) s = .next t ∧ t.piers = s.piers ∧
    t.scrub = (weightMoved s).scrub ∧
    t.repairs = s.repairs ++ [{ id := s.nextId, store := 0, addr := sliceBase p + 8 * s.scrub.weight, pier := p }] ∧
    (∀ k st, s.spanOf p = some (k, st) → (s.span k).running = true → (s.span k).stop = none →
      (t.span k).stop = some (.replay 0x0603 (some p)) ∧ spansBut k s t ∧
        Recorded (pierHaltRecord p 0 (sliceBase p + 8 * s.scrub.weight) k) s t) ∧
    t.dreg rasFaultWritten = (s.dreg rasFaultWritten + 1) % 2 ^ 32 := by
  obtain ⟨hframe, hcount, -⟩ := pierStoreLost_spec p 0 (sliceBase p + 8 * s.scrub.weight) true (weightMoved s)
  refine ⟨_, exec_weightScrub hp s hactive 2, by rw [if_neg (by decide), if_neg (by decide), hframe]; rfl,
    by rw [if_neg (by decide), if_neg (by decide), hframe], by rw [if_neg (by decide), if_neg (by decide), hframe]; rfl,
    fun k st hspan hrun hstop => ?_, hcount⟩
  exact pierStoreLost_halts (s := weightMoved s) hspan hrun hstop 0 _

theorem scrub_imem (b : Nat) : ∃ t, exec (.imemScrub p b 2) s = .next t ∧ (t.pier p).imem = (s.pier p).imem ∧
    t.scrub = (imemMoved s).scrub ∧ t.repairs = s.repairs ++ [{ id := s.nextId, store := 1, addr := b, pier := p }] ∧
    t.dreg rasFaultWritten = (s.dreg rasFaultWritten + 1) % 2 ^ 32 ∧
    (b = (s.pier p).seq.bank → t.piers = s.piers ∧
      ∀ k st, s.spanOf p = some (k, st) → (s.span k).running = true → (s.span k).stop = none →
        (t.span k).stop = some (.replay 0x0603 (some p)) ∧ spansBut k s t ∧ Recorded (pierHaltRecord p 1 b k) s t) ∧
    (b ≠ (s.pier p).seq.bank → (t.pier p).seq.armed = false ∧ piersBut p s t ∧ t.spans = s.spans) := by
  by_cases hb : b = (s.pier p).seq.bank
  · obtain ⟨hframe, hcount, -⟩ := pierStoreLost_spec p 1 b true (imemMoved s)
    have hpiers : (pierStoreLost p 1 b true (imemMoved s)).piers = s.piers := by rw [hframe]; rfl
    have hhalts := fun k st hspan hrun hstop => pierStoreLost_halts (p := p) (k := k) (st := st) (s := imemMoved s) hspan hrun hstop 1 b
    have hexec := exec_imemScrub hp s b 2
    rw [if_neg (by decide), if_neg (by decide), if_pos hb] at hexec
    refine ⟨_, hexec, ?_, ?_, ?_, hcount, fun _ => ⟨hpiers, hhalts⟩, fun h => absurd hb h⟩
    · exact congrArg (fun l => (tget _ l p : Pier).imem) hpiers
    · rw [hframe]
    · rw [hframe]
      rfl
  · obtain ⟨hframe, hcount, hspans⟩ := pierStoreLost_spec p 1 b false ((imemMoved s).modSeq p fun q => { q with armed := false })
    have hexec := exec_imemScrub hp s b 2
    rw [if_neg (by decide), if_neg (by decide), if_neg hb] at hexec
    have hpier : (pierStoreLost p 1 b false ((imemMoved s).modSeq p fun q => { q with armed := false })).pier p =
        { s.pier p with seq := { (s.pier p).seq with armed := false } } := by
      rw [hframe]
      exact pier_setPier_same _ _ _
    refine ⟨_, hexec, ?_, ?_, ?_, hcount, fun h => absurd h hb, fun _ => ⟨?_, fun q hq => ?_, hspans rfl⟩⟩
    · rw [hpier]
    · rw [hframe]
      rfl
    · rw [hframe]
      rfl
    · rw [hpier]
    · rw [hframe]
      exact pier_setPier_ne (imemMoved s) _ hq

end

/-- Settles O54: each scrub by the line, object or store that it finds, the repairs by what they restore cell by cell, and keystone's
events by their state. -/
theorem scrubsAndTraining : Obligations.ScrubsAndTraining := by
  unfold Obligations.ScrubsAndTraining
  refine ⟨fun s n => ⟨exec_llmScrub_clean s, ?_, fun hn hcache => ?_, fun hn hlost => scrub_llm s n hn hlost⟩,
    fun s k c hk => ⟨?_, ?_, fun id store pier hstore hcopy => scrub_object hk s c hstore hcopy, ?_, fun ch => ?_, fun ch e he => ?_⟩,
    fun p b s hp => ⟨fun hactive => ⟨?_, ?_, scrub_weight hp s hactive⟩, fun hidle n => exec_weightScrub_idle hp s hidle n, ?_, ?_,
      scrub_imem hp s b⟩,
    fun s id copy r hr => ⟨fun hstore => ?_, fun hstore => ?_, fun k st g hstore hspan hg hp => ?_, fun hstore => ⟨fun hbad => ?_, fun hgood => ?_⟩,
      fun hstore hnone => ?_, fun o hstore hsome => ⟨fun hbad => ?_, fun hgood => ?_⟩⟩,
    fun s b hrun hdue hboot => ?_, fun s hno => ?_, fun s => ?_⟩
  · exact ⟨_, exec_llmScrub_single s, rfl, reg_bump_same _ llmLlmCorrected 0 0 1, dreg_bump_ne _ _ (by decide)⟩
  · refine ⟨_, exec_llmScrub_cache hn s hcache, rfl, ?_, ?_⟩
    · exact (dreg_bump_ne _ _ (by decide)).trans (dreg_setDreg_same _ _ _)
    · exact (reg_bump_same (llmNoted s) llmLlmCacheRefetches 0 0 1).trans (congrArg (satAdd _ · 1) (dreg_setDreg_ne _ _ (by decide)))
  · change execGddrRefresh k s = _
    rw [execGddrRefresh, if_neg (by omega)]
  · exact ⟨_, exec_gddrScrub hk s c none, rfl, rfl, reg_bump_same _ _ _ _ _⟩
  · refine ⟨_, exec_gddrTrainingDone hk s true, rfl, ?_⟩
    rw [if_pos rfl, dreg_setDreg_same]
    exact bit_setFld_one hk
  · exact exec_channelRetrainDone hk s ch true
  · simp only [List.mem_cons, List.not_mem_nil, or_false] at he
    rcases he with rfl | rfl
    · exact ⟨_, exec_gddrTrainingDone hk s false, trainingFailed_spec k _ s⟩
    · exact ⟨_, exec_channelRetrainDone hk s ch false, trainingFailed_spec k _ s⟩
  · exact exec_weightScrub hp s hactive 0
  · exact ⟨_, exec_weightScrub hp s hactive 1, rfl, reg_bump_same (weightMoved s) rasWeightCorrected 0 0 1⟩
  · exact exec_imemScrub hp s b 0
  · exact ⟨_, exec_imemScrub hp s b 1, rfl, reg_bump_same (imemMoved s) seqImemCorrected p 0 1⟩
  · rw [exec_storeRepairDone hr, repairDone]
    rcases hstore with h | h
    · rw [h]
      rfl
    · rw [h]
      rfl
  · have hwritten : repairDone r copy { s with repairs := s.repairs.erase r } = objWr r.addr 0 copy { s with repairs := s.repairs.erase r } := by
      rw [repairDone]
      rcases hstore with h | h
      · rw [h]
        rfl
      · rw [h]
        rfl
    refine ⟨_, (exec_storeRepairDone hr copy).trans (congrArg _ hwritten), ?_, fun hm hlen y hy => ?_⟩
    · rw [objWr_eq]
    · exact mget_objWr (s := { s with repairs := s.repairs.erase r }) hm hlen hy
  · have hspan' : State.spanOf { s with repairs := s.repairs.erase r } r.pier = some (k, st) := hspan
    have hg' : State.stageProg { s with repairs := s.repairs.erase r } k st = some g := hg
    refine ⟨_, exec_storeRepairDone hr copy, ?_⟩
    rw [repairDone, hstore]
    dsimp only
    rw [hspan']
    dsimp only
    rw [hg']
    exact ⟨rfl, fun q hq => pier_setPier_ne _ _ hq, pier_setPier_same _ _ _⟩
  · rw [exec_storeRepairDone hr, repairDone, hstore]
    exact congrArg _ (if_neg (Bool.eq_false_iff.1 hbad))
  · rw [exec_storeRepairDone hr, repairDone, hstore]
    exact congrArg _ (if_pos hgood)
  · rw [exec_storeRepairDone hr, repairDone, hstore]
    dsimp only
    rw [hnone]
    rfl
  · let c : State := restoreSlice r.pier o { s with repairs := s.repairs.erase r }
    have hlost : (restoreChecked r.pier r.pier o (s.weightsOn r.pier) { s with repairs := s.repairs.erase r }).2 = storeLost 6 r.pier o c :=
      congrArg Prod.snd (if_neg (Bool.eq_false_iff.1 hbad))
    obtain ⟨hframe, hrec⟩ := storeLost_spec 6 r.pier o c
    have hcframe : c = { s with repairs := s.repairs.erase r, mem := c.mem } := restoreSlice_frame _ _ _
    refine ⟨_, (exec_storeRepairDone hr copy).trans (congrArg _ ((repairDone_slice hstore hsome).trans hlost)), ?_, ?_⟩
    · rw [hframe]
    · rw [hrec.2, hcframe]
      rfl
  · let c : State := restoreSlice r.pier o { s with repairs := s.repairs.erase r }
    have hdone : (restoreChecked r.pier r.pier o (s.weightsOn r.pier) { s with repairs := s.repairs.erase r }).2 = c :=
      congrArg Prod.snd (if_pos hgood)
    refine ⟨(exec_storeRepairDone hr copy).trans (congrArg _ ((repairDone_slice hstore hsome).trans hdone)), restoreSlice_frame _ _ _,
      fun g hm hg hmib hbase => ⟨fun y hy => ?_, ?_⟩⟩
    · exact mget_restoreSlice_copy (s := { s with repairs := s.repairs.erase r }) hm hg hmib hbase hy
    · exact memBut_restoreSlice (s := { s with repairs := s.repairs.erase r }) hm hg hmib hbase
  · change execFwSvnBurn s = _
    rw [execFwSvnBurn, hrun]
    exact if_pos ⟨hdue, hboot⟩
  · change execFwSvnBurn s = _
    rw [execFwSvnBurn]
    split
    · next b hrun =>
      refine if_neg fun ⟨hdue, hboot⟩ => ?_
      rcases hno with h | h | h
      · rw [hrun] at h
        cases h
      · rw [h] at hdue
        cases hdue
      · exact h hboot
    · rfl
  · obtain ⟨hrec, hframe, -, -⟩ := raise_spec { code := 0x0707, action := 0, unit := 6 } { s with ks := { s.ks with rngOk := false } }
    refine ⟨raise { code := 0x0707, action := 0, unit := 6 } { s with ks := { s.ks with rngOk := false } }, rfl, ?_⟩
    generalize raise { code := 0x0707, action := 0, unit := 6 } { s with ks := { s.ks with rngOk := false } } = u at hrec hframe ⊢
    exact ⟨by rw [hframe], by rw [hframe], hrec.congr rfl rfl rfl rfl rfl rfl⟩

end Sys2Proof.Machine

/-! # The life of a batch: fixed, prepared, launched; feed launches (O49) -/

namespace Sys2Proof.Machine

theorem span_of_unloaded {k : Nat} {s : State} (h : ¬ (tfind s.spans k).isSome = true) : s.span k = noSpan :=
  tget_of_tfind_none _ (by simpa using h)

theorem loaded_of_open {k : Nat} {s : State} (h : (s.span k).open = true) : (tfind s.spans k).isSome = true := by
  refine Classical.byContradiction fun hno => ?_
  rw [span_of_unloaded hno] at h
  exact absurd h (by decide)

theorem loaded_of_fixed {k : Nat} {s : State} {b : Batch} {r : List Batch} (h : (s.span k).fixed = b :: r) :
    (tfind s.spans k).isSome = true := by
  refine Classical.byContradiction fun hno => ?_
  rw [span_of_unloaded hno] at h
  cases h

theorem loaded_of_batch {k : Nat} {s : State} {b : Batch} (h : (s.span k).batch = some b) : (tfind s.spans k).isSome = true := by
  refine Classical.byContradiction fun hno => ?_
  rw [span_of_unloaded hno] at h
  cases h

/-! ### A launch that is fixed (R114) -/

/-- The batch that the scheduler fixes. -/
def fixedBatch (ws : List (Nat × Nat × Nat)) (at_ : Nat) (s : State) : Batch :=
  let tag := s.tagOf ((ws.headD (0, 0, 0)).1)
  let start := max (at_ - Config.prepNs) (s.now + resumeNs s.pwr.state s.pwr.gddrOff)
  { serial := s.nextSerial, launchTs := start + Config.prepNs, prepTs := start, keyTag := tag, ring := s.ringOf tag
    members := ws.map fun w => { session := w.1, seq := w.2.1, arrival := ((s.request w.1 w.2.1).map (·.arrival)).getD 0 } }

theorem fixBatch_spec {k : Nat} {s : State} (hk : (tfind s.spans k).isSome = true) (ws : List (Nat × Nat × Nat)) (at_ : Nat) :
    (fixBatch k ws at_ s).span k = { s.span k with
      fixed := (s.span k).fixed ++ [fixedBatch ws at_ s], waiting := (s.span k).waiting.filter fun w => !ws.contains w } := by
  have hmembers : ∀ (l : List (Nat × Nat × Nat)) (u : State),
      (l.foldl (fun s w => s.modRequest w.1 w.2.1 fun r => { r with st := .running }) u).spans = u.spans := fun l u =>
    foldl_rel (R := fun (s t : State) => t.spans = s.spans) (f := fun (s : State) (w : Nat × Nat × Nat) => s.modRequest w.1 w.2.1 fun r => { r with st := .running })
      (fun _ => rfl) (fun h h' => h'.trans h) (fun _ _ => rfl) l u
  have hspans := hmembers ws { s with nextSerial := s.nextSerial + 1 }
  unfold fixBatch
  dsimp only
  generalize ws.foldl (fun s w => s.modRequest w.1 w.2.1 fun r => { r with st := .running }) { s with nextSerial := s.nextSerial + 1 } = u at hspans ⊢
  have hk' : (tfind u.spans k).isSome = true := by rw [hspans]; exact hk
  have hspan : u.span k = s.span k := congrArg (tget _ · k) hspans
  rw [span_modSpan_same hk', hspan]
  rfl

theorem exec_batchWait {k : Nat} {s : State} (hk : k < 16) (hopen : (s.span k).open = true) (hfix : s.mayFix = true)
    (hws : s.joinable k ≠ []) (hwait : ((s.joinable k).headD (0, 0, 0)).2.2 + s.waitNs k ≤ s.now + Config.prepNs) :
    exec (.batchWait k) s = .next (fixBatch k (s.joinable k) (((s.joinable k).headD (0, 0, 0)).2.2 + s.waitNs k) s) := by
  have hne : (!(s.joinable k).isEmpty) = true := by simpa using hws
  change execBatchWait k s = _
  rw [execBatchWait, if_neg (by omega)]
  dsimp only
  rw [if_pos]
  rw [hopen, hfix, hne]
  exact decide_eq_true hwait

/-! ### Preparation (R378) -/

theorem length_flatMap_of_length {α β : Type} {f : α → List β} {n : Nat} (hf : ∀ a, (f a).length = n) (l : List α) :
    (l.flatMap f).length = n * l.length := by
  induction l with
  | nil => rfl
  | cons a l ih => rw [List.flatMap_cons, List.length_append, hf, ih, List.length_cons, Nat.mul_succ, Nat.add_comm]

theorem tableEntry_length (s : State) (m : Member) : (tableEntry s m).length = 64 := by
  unfold tableEntry
  split
  · simp only [List.length_append, leBytes_length, List.length_replicate]
  · dsimp only
    have hargs : ∀ f : Nat → Nat, ((List.range 7).flatMap fun i => leBytes 4 (f i)).length = 28 := fun f =>
      length_flatMap_of_length (fun i => leBytes_length 4 (f i)) (List.range 7)
    simp only [List.length_append, leBytes_length, hargs]

/-- The batch table that preparation writes. -/
def batchTable (b : Batch) (s : State) : List Byte := if b.feed.isSome then b.table else b.members.flatMap (tableEntry s)

theorem batchTable_length {b : Batch} (hfeed : b.feed = none) (s : State) : (batchTable b s).length = 64 * b.members.length := by
  rw [batchTable, hfeed, if_neg (by decide)]
  exact length_flatMap_of_length (tableEntry_length s) b.members

theorem modPiers_frame (g : Nat → Pier → Pier) (l : List Nat) (s : State) : l.foldl (fun s p => s.modPier p (g p)) s =
    { s with piers := (l.foldl (fun s p => s.modPier p (g p)) s).piers } :=
  foldl_rel (R := fun s t => t = { s with piers := t.piers }) (f := fun (s : State) p => s.modPier p (g p)) (fun _ => rfl)
    (fun h h' => by rw [h', h]) (fun _ _ => rfl) l s

theorem modPiers_other (g : Nat → Pier → Pier) {p : Nat} {l : List Nat} (hp : p ∉ l) (s : State) :
    (l.foldl (fun s p => s.modPier p (g p)) s).pier p = s.pier p := by
  induction l generalizing s with
  | nil => rfl
  | cons q l ih =>
    simp only [List.mem_cons, not_or] at hp
    exact (ih hp.2 _).trans (pier_setPier_ne s _ hp.1)

/-- What each step of a fold makes of its pier, where the steps before leave what it needs. -/
theorem foldl_pier_listed {α : Type} {f : State → α → State} {key : α → Nat} (hother : ∀ s a q, q ≠ key a → (f s a).pier q = s.pier q)
    {I P : Pier → Prop} (hstep : ∀ s a, I (s.pier (key a)) → I ((f s a).pier (key a)) ∧ P ((f s a).pier (key a))) {p : Nat} (l : List α)
    (s : State) (hI : I (s.pier p)) (hp : P (s.pier p) ∨ p ∈ l.map key) : P ((l.foldl f s).pier p) := by
  induction l generalizing s with
  | nil => exact hp.resolve_right (by simp)
  | cons a l ih =>
    by_cases ha : p = key a
    · subst ha
      obtain ⟨hI', hP'⟩ := hstep s a hI
      exact ih (f s a) hI' (.inl hP')
    · refine ih (f s a) (by rwa [hother s a p ha]) ?_
      rw [hother s a p ha]
      exact hp.imp_right fun h => (List.mem_cons.1 h).resolve_left ha

/-- The member table of a pier for a batch. -/
def memberKeys (b : Batch) (s : State) : List (Nat × Block × Nat) :=
  b.members.zipIdx.map fun e => (e.2, ((tfind s.sessions e.1.session).map (·.mask)).getD 0, e.1.seq)

/-- A batch that is prepared. -/
def preparedBatch (b : Batch) (s : State) : Batch := { b with prepared := true, table := batchTable b s }

theorem prepareBatch_spec {k : Nat} {b : Batch} {s : State} (hk : (tfind s.spans k).isSome = true) :
    (prepareBatch k b s).span k = { s.span k with batch := some (preparedBatch b s) } ∧ spansBut k s (prepareBatch k b s) ∧
    prepareBatch k b s = { s with
      mem := (prepareBatch k b s).mem, spans := (prepareBatch k b s).spans, piers := (prepareBatch k b s).piers } ∧
    (∀ p ∈ (s.span k).piers, ((prepareBatch k b s).pier p).constTag = b.keyTag ∧
      ((prepareBatch k b s).pier p).members.length = b.members.length) ∧
    ∀ p, p ∉ (s.span k).piers → (prepareBatch k b s).pier p = s.pier p := by
  let s1 := s.modSpan k fun sp => { sp with batch := some (preparedBatch b s) }
  let g : Nat → Pier → Pier := fun _ x => { x with constTag := b.keyTag, members := memberKeys b s }
  let s2 := (s.span k).piers.foldl (fun s p => s.modPier p (g p)) s1
  have hs1 : s1 = { s with spans := s1.spans } := modSpan_frame _ _ _
  have hframe : s2 = { s1 with piers := s2.piers } := modPiers_frame g _ s1
  have hspan : s2.span k = { s.span k with batch := some (preparedBatch b s) } := by
    rw [hframe]
    exact span_modSpan_same hk
  have hbut : spansBut k s s2 := fun j hj => by
    rw [hframe]
    exact span_modSpan_ne hj
  have hlisted : ∀ p ∈ (s.span k).piers, (s2.pier p).constTag = b.keyTag ∧ (s2.pier p).members.length = b.members.length := fun p hp =>
    foldl_pier_listed (f := fun s p => s.modPier p (g p)) (key := id) (fun s p q hq => pier_setPier_ne s _ hq) (I := fun _ => True)
      (P := fun x => x.constTag = b.keyTag ∧ x.members.length = b.members.length)
      (fun s p _ => by
        rw [show State.pier (s.modPier p (g p)) (id p) = g p (s.pier p) from pier_setPier_same s p _]
        exact ⟨trivial, rfl, by simp [g, memberKeys]⟩) _ s1 trivial (.inr (by simpa using hp))
  have hothers : ∀ p, p ∉ (s.span k).piers → s2.pier p = s.pier p := fun p hp => by
    have hp1 : s1.pier p = s.pier p := by rw [hs1]; rfl
    exact (modPiers_other g hp s1).trans hp1
  have hwritten : ∃ m, prepareBatch k b s = { s2 with mem := m } := by
    have hprepare : prepareBatch k b s = match s.imageOf k with
      | some im => s2.wr (llmBase + im.llmBase + im.tableAt (s.span k).imgSpan) (batchTable b s)
      | none => s2 := rfl
    rw [hprepare]
    cases s.imageOf k with
    | none => exact ⟨_, rfl⟩
    | some im => exact ⟨_, rfl⟩
  obtain ⟨m, hm⟩ := hwritten
  rw [hm]
  refine ⟨hspan, hbut, ?_, hlisted, hothers⟩
  rw [hframe, hs1]

theorem exec_batchPrepare {k : Nat} {s : State} {b : Batch} {r : List Batch} (hk : k < 16) (hfixed : (s.span k).fixed = b :: r)
    (hbatch : (s.span k).batch = none) (hrecovery : (s.span k).recovery = .none) (hblocked : (s.span k).blocked = none)
    (hlaunch : s.mayLaunch = true) (hrepair : s.repairing k b.keyTag = false) (hprep : b.prepTs ≤ s.now) :
    exec (.batchPrepare k) s = .next (prepareBatch k b (s.modSpan k fun sp => { sp with fixed := r })) := by
  change execBatchPrepare k s = _
  rw [execBatchPrepare, if_neg (by omega)]
  dsimp only
  rw [hfixed]
  dsimp only
  rw [if_neg]
  simpa [hbatch, hrecovery, hblocked, hlaunch, hrepair] using hprep

/-! ### A launch (R247, R258, R276) -/

/-- The bank that a launch takes: the other one where a swap was armed. -/
def launchBank (x : Pier) : Nat := if x.seq.armed then 1 - x.seq.bank else x.seq.bank

/-- A pier that starts a batch. -/
structure PierLaunched (b : Batch) (bank : Nat) (x : Pier) : Prop where
  st : x.seq.st = .running
  pc : x.seq.pc = 0
  routine : x.seq.routine = none
  due : x.seq.due = 0
  armed : x.seq.armed = false
  loops : x.seq.loops = []
  stack : x.seq.stack = []
  bank_eq : x.seq.bank = bank
  members : tget 0 x.seq.params 0 = BitVec.ofNat 32 b.members.length
  serial : tget 0 x.seq.params 1 = BitVec.ofNat 32 (b.serial % 2 ^ 32)
  tiles : x.tiles = []
  acts : x.acts = []
  poison : x.poison = []

theorem pierLaunched_launchPier (im : Image) (k : Nat) (b : Batch) (g : Option StageProg) (x : Pier) :
    PierLaunched b (launchBank x) (launchPier im k b g x) where
  st := rfl
  pc := rfl
  routine := rfl
  due := rfl
  armed := rfl
  loops := rfl
  stack := rfl
  bank_eq := rfl
  members := rfl
  serial := rfl
  tiles := rfl
  acts := rfl
  poison := rfl

theorem PierLaunched.fetched {b : Batch} {bank : Nat} {x : Pier} (h : PierLaunched b bank x) (c : Bool) :
    PierLaunched b bank { x with seq := { x.seq with fetched := c } } :=
  ⟨h.st, h.pc, h.routine, h.due, h.armed, h.loops, h.stack, h.bank_eq, h.members, h.serial, h.tiles, h.acts, h.poison⟩

/-- A fetch changes its pier and what is due. -/
def FetchOnly (s t : State) : Prop := t = { s with piers := t.piers, pending := t.pending } ∧
  ∀ b bank q, PierLaunched b bank (s.pier q) → PierLaunched b bank (t.pier q)

theorem FetchOnly.trans {s t u : State} (h : FetchOnly s t) (h' : FetchOnly t u) : FetchOnly s u :=
  ⟨by rw [h'.1, h.1], fun b bank q hq => h'.2 b bank q (h.2 b bank q hq)⟩

theorem fetchOnly_fetchPier (k p : Nat) (s : State) : FetchOnly s (fetchPier k p s) := by
  have hmark : FetchOnly s (s.modSeq p fun q => { q with fetched := true }) := by
    refine ⟨rfl, fun b bank q hq => ?_⟩
    by_cases h : q = p
    · subst h
      rw [State.modSeq, State.modPier, pier_setPier_same]
      exact hq.fetched true
    · rw [State.modSeq, State.modPier, pier_setPier_ne s _ h]
      exact hq
  have hqueue : ∀ (u : State) (c : Instr), FetchOnly u (u.enqueue c) := fun u c => ⟨rfl, fun _ _ _ h => h⟩
  unfold fetchPier
  dsimp only
  split
  · split
    · exact hmark.trans (hqueue _ _)
    · exact hmark
  · exact ⟨rfl, fun _ _ _ h => h⟩

theorem fetchOnly_fetchDue (k : Nat) (s : State) : FetchOnly s (fetchDue k s) :=
  foldl_rel (R := FetchOnly) (f := fun s p => fetchPier k p s) (fun s => ⟨rfl, fun _ _ _ h => h⟩) FetchOnly.trans
    (fun s p => fetchOnly_fetchPier k p s) _ s

/-- A launch's receives mapped anew. -/
theorem remapRecvs_frame (im : Image) (replay : Bool) (m : Member) (s : State) : remapRecvs im replay m s =
    { s with rxDone := (remapRecvs im replay m s).rxDone, rxTimers := (remapRecvs im replay m s).rxTimers, sent := (remapRecvs im replay m s).sent } := by
  unfold remapRecvs
  dsimp only
  split <;> rfl

/-- A batch whose members start with no code. -/
def launchedBatch (b : Batch) : Batch :=
  { b with members := b.members.map fun m => { m with code := 0, saw203 := false, saw204 := false } }

/-- A span that starts a batch. -/
def launchedSpan (b : Batch) (sp : Span) : Span :=
  { sp with
    batch := some (launchedBatch b), running := true, shown := true, relFc := 0, held := [], frozen := false, holds := [], charges := []
    level := 0, nextLevel := 0, winFc := 0, winSum := 0, winIndex := 0, stop := none }

/-- What the launch of a stage does to its pier and its registers. -/
def launchStage (k : Nat) (im : Image) (b : Batch) (s : State) (e : Nat × Nat) : State :=
  setTimeouts e.1 (s.stageProg k e.2)
    ((s.modPier e.1 (launchPier im (s.span k).imgSpan b (s.stageProg k e.2))).setReg spnWindowPeak e.1 0 0)

theorem launchBatch_eq (k : Nat) (b : Batch) (im : Image) (s : State) : launchBatch k b im s =
    fetchDue k ((s.span k).piers.zipIdx.foldl (launchStage k im (launchedBatch b))
      ((b.members.foldl (fun s m => remapRecvs im b.replay m s) s).modSpan k (launchedSpan b))) := rfl

theorem launchStages_frame (k : Nat) (im : Image) (b : Batch) (l : List (Nat × Nat)) (s : State) :
    l.foldl (launchStage k im b) s = { s with
      piers := (l.foldl (launchStage k im b) s).piers, regs := (l.foldl (launchStage k im b) s).regs } :=
  foldl_rel (R := fun s t => t = { s with piers := t.piers, regs := t.regs }) (f := launchStage k im b) (fun _ => rfl)
    (fun h h' => by rw [h', h]) (fun _ _ => rfl) l s

/-- Every stage of a launched span starts at PC 0 of its bank. -/
theorem launchStages_listed {k : Nat} {im : Image} {b : Batch} {p : Nat} {l : List (Nat × Nat)} (hp : p ∈ l.map Prod.fst) (s : State) :
    PierLaunched b (launchBank (s.pier p)) ((l.foldl (launchStage k im b) s).pier p) := by
  refine foldl_pier_listed (f := launchStage k im b) (key := Prod.fst) (I := fun x => launchBank x = launchBank (s.pier p))
    (P := PierLaunched b (launchBank (s.pier p))) (fun s e q hq => pier_setPier_ne s _ hq) (fun u e hx => ?_) l s rfl (.inr hp)
  have hlaunched := pierLaunched_launchPier im (u.span k).imgSpan b (u.stageProg k e.2) (u.pier e.1)
  have hpier : (launchStage k im b u e).pier e.1 = launchPier im (u.span k).imgSpan b (u.stageProg k e.2) (u.pier e.1) :=
    pier_setPier_same u e.1 _
  rw [hx] at hlaunched
  rw [hpier]
  exact ⟨by rw [launchBank, hlaunched.armed, if_neg (by decide), hlaunched.bank_eq], hlaunched⟩

theorem launchBatch_spec {k : Nat} {b : Batch} {im : Image} {s : State} (hk : (tfind s.spans k).isSome = true) :
    (launchBatch k b im s).span k = launchedSpan b (s.span k) ∧ spansBut k s (launchBatch k b im s) ∧
    (launchBatch k b im s).mem = s.mem ∧
    ∀ p ∈ (s.span k).piers, PierLaunched (launchedBatch b) (launchBank (s.pier p)) ((launchBatch k b im s).pier p) := by
  have hremap : b.members.foldl (fun s m => remapRecvs im b.replay m s) s = { s with
      rxDone := (b.members.foldl (fun s m => remapRecvs im b.replay m s) s).rxDone
      rxTimers := (b.members.foldl (fun s m => remapRecvs im b.replay m s) s).rxTimers
      sent := (b.members.foldl (fun s m => remapRecvs im b.replay m s) s).sent } :=
    foldl_rel (R := fun s t => t = { s with rxDone := t.rxDone, rxTimers := t.rxTimers, sent := t.sent })
      (f := fun (s : State) m => remapRecvs im b.replay m s) (fun _ => rfl) (fun h h' => by rw [h', h])
      (fun s m => remapRecvs_frame im b.replay m s) _ s
  rw [launchBatch_eq]
  generalize b.members.foldl (fun s m => remapRecvs im b.replay m s) s = u at hremap ⊢
  have hku : (tfind u.spans k).isSome = true := by rw [hremap]; exact hk
  have huspan : ∀ j, u.span j = s.span j := fun j => by rw [hremap]; rfl
  have hvspan : (u.modSpan k (launchedSpan b)).span k = launchedSpan b (s.span k) := (span_modSpan_same hku).trans (congrArg _ (huspan k))
  have hvbut : ∀ j, j ≠ k → (u.modSpan k (launchedSpan b)).span j = s.span j := fun j hj => (span_modSpan_ne hj).trans (huspan j)
  have hvframe : u.modSpan k (launchedSpan b) = { u with spans := (u.modSpan k (launchedSpan b)).spans } := modSpan_frame _ _ _
  generalize u.modSpan k (launchedSpan b) = v at hvspan hvbut hvframe ⊢
  have hpier : ∀ p, v.pier p = s.pier p := fun p => by rw [hvframe, hremap]; rfl
  have hstages := launchStages_frame k im (launchedBatch b) (s.span k).piers.zipIdx v
  have hlisted : ∀ p ∈ (s.span k).piers, PierLaunched (launchedBatch b) (launchBank (s.pier p))
      (((s.span k).piers.zipIdx.foldl (launchStage k im (launchedBatch b)) v).pier p) := fun p hp => by
    rw [← hpier]
    exact launchStages_listed (by rwa [List.zipIdx_map_fst]) v
  generalize (s.span k).piers.zipIdx.foldl (launchStage k im (launchedBatch b)) v = w at hstages hlisted ⊢
  obtain ⟨hfetch, hkept⟩ := fetchOnly_fetchDue k w
  refine ⟨?_, fun j hj => ?_, ?_, fun p hp => hkept _ _ _ (hlisted p hp)⟩
  · rw [hfetch, hstages]
    exact hvspan
  · rw [hfetch, hstages]
    exact hvbut j hj
  · rw [hfetch, hstages, hvframe, hremap]

theorem exec_launchTimestamp {k : Nat} {s : State} {b : Batch} {im : Image} (hk : k < 16) (hbatch : (s.span k).batch = some b)
    (him : s.imageOf k = some im) (hprepared : b.prepared = true) (hidle : (s.span k).running = false) (hts : b.launchTs ≤ s.now)
    (hrecovery : (s.span k).recovery = .none) (hlaunch : s.mayLaunch = true) (hrepair : s.repairing k b.keyTag = false)
    (hinputs : s.inputsInUse k = false) : exec (.launchTimestamp k) s = .next (launchBatch k b im s) := by
  change execLaunchTimestamp k s = _
  rw [execLaunchTimestamp, if_neg (by omega)]
  dsimp only
  rw [hbatch, him]
  dsimp only
  rw [if_neg]
  simpa [hprepared, hidle, hrecovery, hlaunch, hrepair, hinputs] using hts

/-! ### Feed launches (R404, R405) -/

section
variable {channel k b at_ : Nat} {r : List (Nat × Nat × Nat)} {s : State} {c : Channel} (hc : s.channelOf (1024 + channel) = some c)
  (hfeeds : c.feeds = (k, b, at_) :: r)
include hc hfeeds

theorem exec_feedLaunch_unbound (hspan : s.feedSpan channel = none) : exec (.feedLaunch channel k) s =
    .next (feedUnbound c k b (s.modChannel channel fun c => { c with feeds := r })) := by
  change execFeedLaunch channel k s = _
  rw [execFeedLaunch, hc]
  dsimp only
  rw [hfeeds]
  dsimp only
  rw [if_neg (by simp), hspan]

variable {j : Nat} (hspan : s.feedSpan channel = some j) (hj : (tfind s.spans j).isSome = true)
include hspan hj

theorem exec_feedLaunch_starts (him : (s.imageOf j).isSome = true) (hlag : b + c.lag ≤ s.now / 1000) (hat : at_ < 1000 * (s.now / 1000))
    (hbatch : (s.span j).batch = none) (hrecovery : (s.span j).recovery = .none) (hblocked : (s.span j).blocked = none)
    (hlaunch : s.mayLaunch = true) : ∃ (t : State) (x : Batch), exec (.feedLaunch channel k) s = .next t ∧ (t.span j).running = true ∧
      (t.span j).relFc = 0 ∧ (t.span j).batch = some x ∧ x.feed = some (c.id, k, b) ∧ x.launchTs = 1000 * (s.now / 1000) ∧ spansBut j s t := by
  obtain ⟨im, him⟩ := Option.isSome_iff_exists.1 him
  let u := s.modChannel channel fun c => { c with feeds := r }
  let fb := feedBatch s (s.span j) c k b (s.now / 1000)
  have hju : (tfind u.spans j).isSome = true := hj
  obtain ⟨hprepared, hpbut, hpframe, -, -⟩ := prepareBatch_spec (b := fb) hju
  have hju' : (tfind (prepareBatch j fb u).spans j).isSome = true := loaded_of_batch (congrArg Span.batch hprepared)
  have himage : (prepareBatch j fb u).imageOf j = some im := by
    rw [State.imageOf, hprepared, hpframe]
    exact him
  obtain ⟨hlspan, hlbut, -, -⟩ := launchBatch_spec (k := j) (b := preparedBatch fb u) (im := im) hju'
  refine ⟨launchBatch j (preparedBatch fb u) im (prepareBatch j fb u), launchedBatch (preparedBatch fb u), ?_, by rw [hlspan]; rfl,
    by rw [hlspan]; rfl, by rw [hlspan]; rfl, rfl, rfl, fun i hi => (hlbut i hi).trans (hpbut i hi)⟩
  have hbatch' : ((prepareBatch j fb u).span j).batch = some (preparedBatch fb u) := congrArg Span.batch hprepared
  change execFeedLaunch channel k s = _
  rw [execFeedLaunch, hc]
  dsimp only
  rw [hfeeds]
  dsimp only
  rw [if_neg (by simp), hspan]
  dsimp only
  rw [if_neg]
  · change (match ((prepareBatch j fb u).span j).batch, (prepareBatch j fb u).imageOf j with | some x, some im => _ | _, _ => _) = _
    rw [hbatch', himage]
  · simp [hbatch, hrecovery, hblocked, hlaunch]
    exact ⟨hlag, hat⟩

end

/-- Settles O49: a batch fixed, prepared and launched, each by what it changes of its span and its piers. -/
theorem batches : Obligations.Batches := by
  unfold Obligations.Batches
  refine ⟨fun k s hk hopen hfix => ?_, fun k s b r hk hfixed hbatch hrecovery hblocked hlaunch hrepair hprep => ?_,
    fun k s b im hk hbatch him hprepared hidle hts hrecovery hlaunch hrepair hinputs => ?_,
    fun channel k b at_ r s c hc hfeeds => ⟨fun hspan => ?_, fun j hspan hj him hlag hat hbatch hrecovery hblocked hlaunch =>
      exec_feedLaunch_starts hc hfeeds hspan hj him hlag hat hbatch hrecovery hblocked hlaunch⟩⟩
  · intro ws since hws hwait
    have hk' := loaded_of_open hopen
    have hspan := fixBatch_spec hk' ws (since + s.waitNs k)
    have hbut := (fixBatch_span hk' ws (since + s.waitNs k)).2
    have hframe := fixOnly_fixBatch k ws (since + s.waitNs k) s
    have hempty : (s.span k).fixed = [] := by
      simp only [Span.open, Bool.and_eq_true, List.isEmpty_iff] at hopen
      exact hopen.1.1.1.2
    refine ⟨_, fixedBatch ws (since + s.waitNs k) s, exec_batchWait hk hopen hfix hws hwait, ?_, rfl, ?_, ?_, rfl, ?_, hbut, ?_, ?_⟩
    · rw [hspan, hempty]
      rfl
    · simp [fixedBatch]
    · simp only [fixedBatch]
      omega
    · intro w hw hin
      rw [hspan] at hin
      have hkept := (List.mem_filter.1 hin).2
      simp [hw] at hkept
    · rw [hframe]
    · rw [hframe]
  · have hk' := loaded_of_fixed hfixed
    have hu := span_modSpan_same (f := fun sp => { sp with fixed := r }) hk'
    have huframe := modSpan_frame (s := s) k fun sp => { sp with fixed := r }
    have hubut : spansBut k s (s.modSpan k fun sp => { sp with fixed := r }) := fun j hj => span_modSpan_ne hj
    have hku : (tfind (s.modSpan k fun sp => { sp with fixed := r }).spans k).isSome = true := modSpan_isSome hk'
    have hexec := exec_batchPrepare hk hfixed hbatch hrecovery hblocked hlaunch hrepair hprep
    generalize s.modSpan k (fun sp => { sp with fixed := r }) = u at hu huframe hubut hku hexec
    obtain ⟨hspan, hbut, hframe, hlisted, hothers⟩ := prepareBatch_spec (b := b) hku
    have hpiers : (u.span k).piers = (s.span k).piers := by rw [hu]
    have hpier : ∀ p, u.pier p = s.pier p := fun p => by rw [huframe]; rfl
    refine ⟨_, batchTable b u, hexec, ?_, ?_, fun hfeed => batchTable_length hfeed u, fun p hp => hlisted p (hpiers ▸ hp),
      fun p hp => (hothers p (hpiers ▸ hp)).trans (hpier p), fun j hj => (hbut j hj).trans (hubut j hj), ?_⟩
    · rw [hspan, hu]
    · rw [hspan]
      rfl
    · rw [hframe, huframe]
  · obtain ⟨hspan, hbut, hmem, hlisted⟩ := launchBatch_spec (k := k) (b := b) (im := im) (loaded_of_batch hbatch)
    refine ⟨_, exec_launchTimestamp hk hbatch him hprepared hidle hts hrecovery hlaunch hrepair hinputs, by rw [hspan]; rfl,
      by rw [hspan]; rfl, by rw [hspan]; rfl, by rw [hspan]; rfl, by rw [hspan]; rfl, hbut, hmem, fun p hp => ?_⟩
    have h := hlisted p hp
    have hlength : (launchedBatch b).members.length = b.members.length := List.length_map _
    exact ⟨h.st, h.pc, h.routine, h.due, h.armed, h.loops, h.stack, h.bank_eq, hlength ▸ h.members, h.serial, h.tiles, h.acts, h.poison⟩
  · obtain ⟨hout, -, hrec⟩ := feedUnbound_spec c k b (s.modChannel channel fun c => { c with feeds := r })
    exact ⟨_, exec_feedLaunch_unbound hc hfeeds hspan, hout, hrec.congr rfl rfl rfl rfl rfl rfl⟩

end Sys2Proof.Machine

/-! The scan of submission windows, what a buddy acknowledges, handoffs and the loss of a buddy (R106, R370 to R376, R474 to R476). -/
namespace Sys2Proof.Machine

/-! ### What answers and commits leave unchanged -/

/-- What a partner reads of the front of its submission window: what is consumed, why the head waits, whether it overran. -/
def Slot.front (sl : Slot) : Nat × Nat × Bool := (sl.consumed, sl.headWait, sl.overrun)

/-- Every slot's front stays, and so do the group that is settled, the records of mirrored requests and RAS.HANDOFFS_IN. -/
structure FrontsStay (s t : State) : Prop where
  front : ∀ q, (tfind t.slots q).map Slot.front = (tfind s.slots q).map Slot.front
  group : t.group = s.group
  mirrored : t.mirrored = s.mirrored
  handoffsIn : t.dreg rasHandoffsIn = s.dreg rasHandoffsIn

theorem FrontsStay.refl (s : State) : FrontsStay s s := ⟨fun _ => rfl, rfl, rfl, rfl⟩

theorem FrontsStay.trans {s t u : State} (h : FrontsStay s t) (h' : FrontsStay t u) : FrontsStay s u :=
  ⟨fun q => (h'.front q).trans (h.front q), h'.group.trans h.group, h'.mirrored.trans h.mirrored, h'.handoffsIn.trans h.handoffsIn⟩

theorem FrontsStay.ite {s t u : State} {c : Prop} [Decidable c] (ht : FrontsStay s t) (hu : FrontsStay s u) :
    FrontsStay s (if c then t else u) := by
  split
  · exact ht
  · exact hu

theorem frontsStay_foldl {α : Type} {f : State → α → State} (hf : ∀ s a, FrontsStay s (f s a)) (l : List α) (s : State) :
    FrontsStay s (l.foldl f s) :=
  foldl_rel (R := FrontsStay) .refl FrontsStay.trans hf l s

/-- A change that touches neither slots nor the group, the mirrored records or registers. -/
theorem FrontsStay.of_eq {s t : State} (hslots : t.slots = s.slots) (hgroup : t.group = s.group) (hmirrored : t.mirrored = s.mirrored)
    (hregs : t.regs = s.regs) : FrontsStay s t :=
  ⟨fun q => by rw [hslots], hgroup, hmirrored, by rw [State.dreg, State.reg, hregs]; rfl⟩

theorem front_modSlot (s : State) (p q : Nat) (f : Slot → Slot) (hf : ∀ sl, (f sl).front = sl.front) :
    (tfind (s.modSlot p f).slots q).map Slot.front = (tfind s.slots q).map Slot.front := by
  by_cases h : q = p
  · subst h
    rw [tfind_modSlot_same]
    cases tfind s.slots q with
    | none => rfl
    | some sl => exact congrArg some (hf sl)
  · rw [tfind_modSlot_ne s f h]

theorem frontsStay_modSlot (s : State) (p : Nat) {f : Slot → Slot} (hf : ∀ sl, (f sl).front = sl.front) : FrontsStay s (s.modSlot p f) :=
  ⟨fun q => front_modSlot s p q f hf, rfl, rfl, rfl⟩

theorem dreg_setReg_ne (s : State) {f g : Fld} {p i : Nat} (v : Nat) (h : g.key 0 0 ≠ f.key p i) : (s.setReg f p i v).dreg g = s.dreg g :=
  reg_setReg_ne _ _ h

theorem frontsStay_setReg (s : State) {f : Fld} {p i : Nat} (v : Nat) (h : rasHandoffsIn.key 0 0 ≠ f.key p i) :
    FrontsStay s (s.setReg f p i v) :=
  ⟨fun _ => rfl, rfl, rfl, dreg_setReg_ne s v h⟩

theorem frontsStay_bump2 (s : State) {lo hi : Fld} {p i n : Nat} (hlo : rasHandoffsIn.key 0 0 ≠ lo.key p i)
    (hhi : rasHandoffsIn.key 0 0 ≠ hi.key p i) : FrontsStay s (s.bump2 lo hi p i n) :=
  (frontsStay_setReg s _ hlo).trans (frontsStay_setReg _ _ hhi)

/-- Written completions change their slots behind the front, and what is sent. -/
theorem frontsStay_writeCompletions (p : Nat) (s : State) :
    FrontsStay s (writeCompletions p s) ∧ (writeCompletions p s).requests = s.requests := by
  unfold writeCompletions
  split
  · dsimp only
    rw [foldl_send]
    refine ⟨FrontsStay.trans ?_ (frontsStay_modSlot _ p (f := fun (sl : Slot) => { sl with completed := sl.completed + _, due := [] }) fun _ => rfl), rfl⟩
    exact .of_eq rfl rfl rfl rfl
  · exact ⟨.ite (frontsStay_modSlot s p fun _ => rfl) (.refl s), by split <;> rfl⟩
  · exact ⟨.refl s, rfl⟩

theorem frontsStay_complete (p : Nat) (x : Completion) (s : State) :
    FrontsStay s (complete p x s) ∧ (complete p x s).requests = s.requests := by
  have hslot : FrontsStay s (s.modSlot p fun sl => { sl with due := sl.due ++ [x] }) := frontsStay_modSlot s p fun _ => rfl
  obtain ⟨hfronts, hrequests⟩ := frontsStay_writeCompletions p (s.modSlot p fun sl => { sl with due := sl.due ++ [x] })
  exact ⟨hslot.trans hfronts, hrequests⟩

/-- Only what is queued differs. -/
def QueueOnly (s t : State) : Prop := t = { s with pending := t.pending }

theorem QueueOnly.trans {s t u : State} (h : QueueOnly s t) (h' : QueueOnly t u) : QueueOnly s u := by
  rw [QueueOnly, h', h]

theorem queueOnly_drainEvents (r : Request) (s : State) : QueueOnly s (drainEvents r s) := by
  have h : ∀ (c : Prop) [Decidable c] (i : Instr) (t : State), QueueOnly t (if c then t.enqueue i else t) := by
    intro c _ i t
    split <;> rfl
  exact (h _ _ s).trans ((h _ _ _).trans (h _ _ _))

theorem spendOnly_spendRequest (r : Request) (s : State) : SpendOnly s (spendRequest r s) := by
  unfold spendRequest
  split
  · rfl
  · next im _ =>
    refine spendOnly_foldl (fun s g => ?_) r.ranges s
    split
    · exact spendOnly_spendItems _ _ _ s
    · rfl

/-- A request as it commits at time `T`. -/
def Request.committedAt (T : Nat) (x : Request) : Request := { x with st := .committed, commitTime := T, repeats := [] }

/-- The commit of a request changes the requests of its session and sequence alone, and no front. -/
theorem commitNow_spec (r : Request) (s : State) : FrontsStay s (commitNow r s) ∧
    (commitNow r s).requests = (s.modRequest r.session r.seq (.committedAt s.now)).requests := by
  have hanswers : ∀ (l : List Nat) (t : State),
      FrontsStay t (l.foldl (fun s n => complete r.slot (r.completion n 2 s.now) s) t) ∧
      (l.foldl (fun s n => complete r.slot (r.completion n 2 s.now) s) t).requests = t.requests := fun l t =>
    foldl_rel (R := fun s t => FrontsStay s t ∧ t.requests = s.requests) (fun s => ⟨.refl s, rfl⟩)
      (fun h h' => ⟨h.1.trans h'.1, h'.2.trans h.2⟩) (fun s n => frontsStay_complete _ _ s) l t
  unfold commitNow
  extract_lets s1 s2 s3 mine s4 s5 s6
  have hbump : FrontsStay s s2 := by
    refine FrontsStay.trans (t := s1) (.of_eq rfl rfl rfl rfl) (frontsStay_bump2 s1 ?_ ?_) <;> decide
  have hspend : SpendOnly _ s4 := spendOnly_spendRequest r _
  have h4 : FrontsStay s s4 ∧ s4.requests = s1.requests := by
    rw [hspend]
    exact ⟨hbump.trans (.of_eq rfl rfl rfl rfl), rfl⟩
  obtain ⟨hfirst, hfirstReq⟩ := frontsStay_complete r.slot (r.completion r.ring 0 s.now) s4
  obtain ⟨hrest, hrestReq⟩ := hanswers r.repeats s5
  have h6 : FrontsStay s s6 ∧ s6.requests = s1.requests := ⟨h4.1.trans (hfirst.trans hrest), hrestReq.trans (hfirstReq.trans h4.2)⟩
  rw [queueOnly_drainEvents r s6]
  exact ⟨h6.1.trans (.of_eq rfl rfl rfl rfl), h6.2⟩

/-! ### Requests through commits (R376) -/

/-- A request of a list is found with the key of each request of the list. -/
theorem request_isSome {s : State} {x : Request} (hx : x ∈ s.requests) : (s.request x.session x.seq).isSome = true := by
  rw [State.request, List.find?_isSome]
  exact ⟨x, hx, by simp⟩

theorem request_modRequest (s : State) (a b se q : Nat) {f : Request → Request} (hf : ∀ x, (f x).session = x.session ∧ (f x).seq = x.seq) :
    (s.modRequest a b f).request se q = (s.request se q).map fun x => if x.session = a ∧ x.seq = b then f x else x := by
  unfold State.request State.modRequest
  rw [List.find?_map]
  congr 2
  funext x
  simp only [Function.comp]
  split
  · rw [(hf x).1, (hf x).2]
  · rfl

/-- The handed-off mark of every request stays. -/
def HandedStay (s t : State) : Prop := ∀ se q, (t.request se q).map (·.handedOff) = (s.request se q).map (·.handedOff)

theorem HandedStay.of_eq {s t : State} (h : t.requests = s.requests) : HandedStay s t := fun se q => by
  rw [State.request, h, State.request]

theorem HandedStay.trans {s t u : State} (h : HandedStay s t) (h' : HandedStay t u) : HandedStay s u :=
  fun se q => (h' se q).trans (h se q)

theorem handedStay_modRequest (s : State) (a b : Nat) {f : Request → Request}
    (hf : ∀ x, (f x).session = x.session ∧ (f x).seq = x.seq ∧ (f x).handedOff = x.handedOff) : HandedStay s (s.modRequest a b f) := by
  intro se q
  rw [request_modRequest s a b se q fun x => ⟨(hf x).1, (hf x).2.1⟩, Option.map_map]
  congr 1
  funext x
  simp only [Function.comp]
  split
  · exact (hf x).2.2
  · rfl

/-- What a chain of commits keeps: every front, and the handed-off mark of every request. -/
theorem advanceCommits_spec (se n : Nat) (s : State) :
    FrontsStay s (advanceCommits se n s) ∧ HandedStay s (advanceCommits se n s) := by
  induction n generalizing s with
  | zero => exact ⟨.refl s, .of_eq rfl⟩
  | succ n ih =>
    unfold advanceCommits
    extract_lets live low
    clear_value low
    cases low with
    | none => exact ⟨.refl s, .of_eq rfl⟩
    | some r =>
      dsimp only
      split
      · split
        · exact ⟨.of_eq rfl rfl rfl rfl, handedStay_modRequest _ se r.seq fun _ => ⟨rfl, rfl, rfl⟩⟩
        · generalize hu : ({ s with journal := s.journal ++ [.commit se r.seq] } : State) = u
          have hjournal : FrontsStay s u ∧ HandedStay s u := hu ▸ ⟨.of_eq rfl rfl rfl rfl, .of_eq rfl⟩
          obtain ⟨hcommit, hreq⟩ := commitNow_spec r u
          have hhanded : HandedStay u (commitNow r u) :=
            (handedStay_modRequest u r.session r.seq (f := .committedAt u.now) fun _ => ⟨rfl, rfl, rfl⟩).trans (.of_eq hreq)
          exact ⟨hjournal.1.trans (hcommit.trans (ih _).1), hjournal.2.trans (hhanded.trans (ih _).2)⟩
      · exact ⟨.refl s, .of_eq rfl⟩

theorem outputDone_spec (se q code : Nat) (s : State) :
    FrontsStay s (outputDone se q code s) ∧ HandedStay s (outputDone se q code s) := by
  unfold outputDone
  split
  · exact ⟨.refl s, .of_eq rfl⟩
  · next r _ =>
    split
    · have hmod : ∀ f : Request → Request, (∀ x, (f x).session = x.session ∧ (f x).seq = x.seq ∧ (f x).handedOff = x.handedOff) →
          FrontsStay s (advanceCommits se s.requests.length (s.modRequest se q f)) ∧
          HandedStay s (advanceCommits se s.requests.length (s.modRequest se q f)) := by
        intro f hf
        obtain ⟨hfronts, hhanded⟩ := advanceCommits_spec se s.requests.length (s.modRequest se q f)
        exact ⟨FrontsStay.trans (t := s.modRequest se q f) (.of_eq rfl rfl rfl rfl) hfronts, (handedStay_modRequest s se q hf).trans hhanded⟩
      exact hmod _ fun _ => ⟨rfl, rfl, rfl⟩
    · exact ⟨.refl s, .of_eq rfl⟩

theorem fixBatch_handed (k : Nat) (ws : List (Nat × Nat × Nat)) (at_ : Nat) (s : State) : HandedStay s (fixBatch k ws at_ s) := by
  have hrun : ∀ (l : List (Nat × Nat × Nat)) (u : State),
      HandedStay u (l.foldl (fun s w => s.modRequest w.1 w.2.1 fun r => { r with st := .running }) u) := fun l u =>
    foldl_rel (R := HandedStay) (fun _ => .of_eq rfl) HandedStay.trans
      (f := fun (s : State) (w : Nat × Nat × Nat) => s.modRequest w.1 w.2.1 fun r => { r with st := .running })
      (fun s w => handedStay_modRequest s _ _ fun _ => ⟨rfl, rfl, rfl⟩) l u
  have hspan : ∀ (f : Span → Span) (u : State), HandedStay u (u.modSpan k f) := fun f u => .of_eq (by rw [modSpan_frame])
  unfold fixBatch
  extract_lets tag start b s1 s2
  exact HandedStay.trans (t := s1) (.of_eq rfl) ((hrun ws s1).trans (hspan _ s2))

/-- A request admitted: it waits, its batch is fixed, or it ends at once; no front changes, and no handed-off mark. -/
theorem admitRequest_spec (r : Request) (s : State) : FrontsStay s (admitRequest r s) ∧ HandedStay s (admitRequest r s) := by
  unfold admitRequest
  split
  · exact outputDone_spec _ _ _ s
  · generalize hu : (s.modSpan r.span fun sp => { sp with waiting := sp.waiting ++ [(r.session, r.seq, s.now)] }) = u
    have hwaits : FrontsStay s u ∧ HandedStay s u := by
      rw [← hu, modSpan_frame]
      exact ⟨.of_eq rfl rfl rfl rfl, .of_eq rfl⟩
    have hfix := fixOnly_trySchedule r.span u
    refine ⟨hwaits.1.trans ?_, hwaits.2.trans ?_⟩
    · rw [hfix]
      exact .of_eq rfl rfl rfl rfl
    · unfold trySchedule
      dsimp only
      split
      · exact fixBatch_handed _ _ _ u
      · exact .of_eq rfl

/-! ### A mirrored request runs here (R474, R476) -/

theorem mirroredRequest_key {s : State} {m : MirrorRec} {r : Request} (h : mirroredRequest s m = some r) :
    r.session = m.session ∧ r.seq = m.seq ∧ r.handedOff = true := by
  unfold mirroredRequest at h
  split at h
  · dsimp only at h
    split at h
    · cases h
      exact ⟨rfl, rfl, rfl⟩
    · cases h
  · cases h

/-- The record of a mirrored request is gone with what it opened, the request runs here, and RAS.HANDOFFS_IN counts it. -/
theorem takeOver_spec (m : MirrorRec) (r : Request) (s : State) (hr : r.session = m.session ∧ r.seq = m.seq ∧ r.handedOff = true)
    (hnew : s.request m.session m.seq = none) :
    (takeOver m r s).mirrored = (s.mirrored.erase m).filter (fun y =>
      !(y.device == m.device && y.session == m.session && y.seq == m.seq && y.opening.isSome)) ∧
    (∃ x, (takeOver m r s).request m.session m.seq = some x ∧ x.handedOff = true) ∧
    (takeOver m r s).dreg rasHandoffsIn = satAdd rasHandoffsIn.w (s.dreg rasHandoffsIn) 1 := by
  obtain ⟨hse, hseq, hhanded⟩ := hr
  unfold takeOver
  extract_lets up1 up s1 restart ours openings s2
  generalize hu : s2.bump rasHandoffsIn 0 0 1 = u
  obtain ⟨hfronts, hmark⟩ := admitRequest_spec r u
  have hin : u.dreg rasHandoffsIn = satAdd rasHandoffsIn.w (s.dreg rasHandoffsIn) 1 := hu ▸ reg_bump_same s2 rasHandoffsIn 0 0 1
  have hreq : u.request m.session m.seq = some r := by
    have hmem : u.requests = s.requests ++ [r] := hu ▸ rfl
    rw [State.request] at hnew ⊢
    rw [hmem, List.find?_append, hnew]
    simp [hse, hseq]
  refine ⟨hfronts.mirrored.trans (hu ▸ rfl), ?_, hfronts.handoffsIn.trans hin⟩
  have hmarked := hmark m.session m.seq
  rw [hreq, Option.map_some, hhanded] at hmarked
  obtain ⟨x, hx, hxm⟩ := Option.map_eq_some_iff.1 hmarked
  exact ⟨x, hx, hxm⟩

/-! ### A descriptor accepted, a group settled (R370, R372) -/

theorem frontsStay_modSession (s : State) (se : Nat) (f : Session → Session) : FrontsStay s (s.modSession se f) :=
  .of_eq rfl rfl rfl rfl

theorem StoreOnly.frontsStay {s t : State} (h : StoreOnly s t) : FrontsStay s t :=
  .of_eq h.slots (by rw [h]) (by rw [h]) (by rw [h])

theorem frontsStay_addBundle (se : Nat) (e : MatEnt) (items : List Byte) (s : State) : FrontsStay s (addBundle se e items s) := by
  have hdef : addBundle = addBundle := rfl
  conv at hdef => rhs; delta addBundle
  rw [hdef]
  dsimp -zeta only
  cases h : allocObj items s with
  | none => exact .refl s
  | some a => exact (storeOnly_allocObj items s a h).frontsStay.trans (frontsStay_modSession a.2 se _)

theorem frontsStay_bump_refused (s : State) (p : Nat) : FrontsStay s (s.bump prtRefused 0 p 1) := by
  refine frontsStay_setReg s _ ?_
  simp only [Fld.key, rasHandoffsIn, prtRefused, Bool.false_eq_true, if_false]
  omega

/-- Behind the count of what is consumed, an accepted descriptor changes no front. -/
theorem acceptEnt_spec (g : GroupEnt) (s : State) :
    FrontsStay (s.modSlot g.slot fun sl => { sl with consumed := sl.consumed + 1 }) (acceptEnt g s) := by
  unfold acceptEnt
  extract_lets s1 se seq done
  have hdone : ∀ status kind t, FrontsStay t (done status kind t) := fun status kind t => (frontsStay_complete _ _ t).1
  change FrontsStay s1 _
  clear_value s1 done
  refine .ite ((frontsStay_bump_refused s1 g.slot).trans (hdone _ _ _)) (.ite ((frontsStay_bump_refused s1 g.slot).trans (hdone _ _ _)) ?_)
  refine .ite ?_ ?_
  · split
    · exact .ite (.of_eq rfl rfl rfl rfl) (frontsStay_complete _ _ s1).1
    · exact hdone _ _ s1
  · split
    · next r _ =>
      refine FrontsStay.trans ?_ (admitRequest_spec r _).1
      refine FrontsStay.trans ?_ (frontsStay_bump2 _ (by decide) (by decide))
      split
      · exact .of_eq rfl rfl rfl rfl
      · exact .of_eq rfl rfl rfl rfl
    · split
      · split
        · exact (frontsStay_addBundle _ _ _ s1).trans (hdone _ _ _)
        · exact hdone _ _ s1
      · exact hdone _ _ s1

/-- A front after `n` more of its descriptors were consumed. -/
def advanced (n : Nat) (f : Nat × Nat × Bool) : Nat × Nat × Bool := (f.1 + n, f.2)

/-- A front whose head waits for a buddy. -/
def headHeld (f : Nat × Nat × Bool) : Nat × Nat × Bool := (f.1, 3, f.2.2)

/-- How many descriptors of `l` are of slot `q`. -/
def countOf (l : List GroupEnt) (q : Nat) : Nat := (l.filter fun g => g.slot == q).length

theorem front_modSlot_map (s : State) (p q : Nat) {f : Slot → Slot} {g : Nat × Nat × Bool → Nat × Nat × Bool}
    (hf : ∀ sl, (f sl).front = g sl.front) : (tfind (s.modSlot p f).slots q).map Slot.front =
      ((tfind s.slots q).map Slot.front).map (if p = q then g else id) := by
  by_cases h : q = p
  · subst h
    rw [tfind_modSlot_same, if_pos rfl, Option.map_map, Option.map_map]
    exact congrFun (congrArg Option.map (funext hf)) _
  · rw [tfind_modSlot_ne s f h, if_neg (Ne.symm h), Option.map_id, id]

theorem foldl_acceptEnt_front (l : List GroupEnt) (s : State) :
    (l.foldl (fun s g => acceptEnt g s) s).group = s.group ∧ ∀ q,
      (tfind (l.foldl (fun s g => acceptEnt g s) s).slots q).map Slot.front =
        ((tfind s.slots q).map Slot.front).map (advanced (countOf l q)) := by
  induction l generalizing s with
  | nil => exact ⟨rfl, fun q => (congrFun Option.map_id _).symm⟩
  | cons g l ih =>
    obtain ⟨hgroup, hfront⟩ := ih (acceptEnt g s)
    refine ⟨hgroup.trans (acceptEnt_spec g s).group, fun q => ?_⟩
    rw [List.foldl_cons, hfront, (acceptEnt_spec g s).front q, front_modSlot_map s g.slot q (g := advanced 1) fun _ => rfl,
      Option.map_map]
    congr 1
    funext f
    by_cases h : g.slot = q
    · simp [advanced, countOf, h, Nat.add_assoc, Nat.add_comm]
    · simp [advanced, countOf, h]

theorem foldl_headHeld_front (l : List GroupEnt) (s : State) :
    (l.foldl (fun s g => s.modSlot g.slot fun sl => { sl with headWait := 3 }) s).group = s.group ∧ ∀ q,
      (tfind (l.foldl (fun s g => s.modSlot g.slot fun sl => { sl with headWait := 3 }) s).slots q).map Slot.front =
        ((tfind s.slots q).map Slot.front).map (if l.any (fun g => g.slot == q) then headHeld else id) := by
  induction l generalizing s with
  | nil => exact ⟨rfl, fun q => (congrFun Option.map_id _).symm⟩
  | cons g l ih =>
    obtain ⟨hgroup, hfront⟩ := ih (s.modSlot g.slot fun sl => { sl with headWait := 3 })
    refine ⟨hgroup, fun q => ?_⟩
    rw [List.foldl_cons, hfront, front_modSlot_map s g.slot q (g := headHeld) fun _ => rfl, Option.map_map]
    congr 1
    funext f
    by_cases h : g.slot = q <;> by_cases hl : l.any (fun g => g.slot == q) = true <;> simp [h, hl, headHeld]

/-- The group settled: of each slot the first `n` are consumed, and the rest wait for the buddy. -/
theorem settleGroup_spec (n : Nat) (s : State) : (settleGroup n s).group = [] ∧ ∀ q,
    (tfind (settleGroup n s).slots q).map Slot.front = (((tfind s.slots q).map Slot.front).map
      (if (s.group.drop n).any (fun g => g.slot == q) then headHeld else id)).map (advanced (countOf (s.group.take n) q)) := by
  unfold settleGroup
  extract_lets ok cut past drop s1 s2
  obtain ⟨hgroup, hfront⟩ := foldl_acceptEnt_front ok s2
  obtain ⟨hgroup2, hfront2⟩ := foldl_headHeld_front cut s1
  exact ⟨hgroup.trans hgroup2, fun q => (hfront q).trans (congrArg _ (hfront2 q))⟩

/-- A slot that is found by its front. -/
theorem slot_of_front {t : State} {q : Nat} {f : Nat × Nat × Bool} (h : (tfind t.slots q).map Slot.front = some f) :
    ∃ x, tfind t.slots q = some x ∧ x.consumed = f.1 ∧ x.headWait = f.2.1 ∧ x.overrun = f.2.2 := by
  obtain ⟨x, hx, rfl⟩ := Option.map_eq_some_iff.1 h
  exact ⟨x, hx, rfl, rfl, rfl⟩

theorem exec_mirrorAck (n : Nat) (s : State) (h : s.takesPeer 0) (hg : s.group ≠ []) :
    exec (.mirrorAck n) s = .next (settleGroup n s) := by
  change execMirrorAck n s = _
  rw [execMirrorAck, onPeer_takes 0 _ _ s _ h, if_neg (by simpa using hg)]

/-- What the buddy acknowledges of a group is consumed; the heads of the rest wait for it. -/
theorem settled_slot (n : Nat) (s : State) {q : Nat} {sl : Slot} (h : tfind s.slots q = some sl) :
    ∃ x, tfind (settleGroup n s).slots q = some x ∧ x.consumed = sl.consumed + ((s.group.take n).filter fun g => g.slot == q).length ∧
      ((∃ g ∈ s.group.drop n, g.slot = q) → x.headWait = 3) := by
  have hfront := (settleGroup_spec n s).2 q
  rw [h] at hfront
  obtain ⟨x, hx, hconsumed, hwait, _⟩ := slot_of_front hfront
  refine ⟨x, hx, hconsumed.trans ?_, fun ⟨g, hg, hq⟩ => hwait.trans ?_⟩
  · split <;> rfl
  · rw [if_pos (List.any_eq_true.2 ⟨g, hg, by simpa using hq⟩)]
    rfl

/-! ### The scan of one window (R370 to R372) -/

/-- What is entered, if anything, is of slot `p`. -/
def EntersFor (p : Nat) (e : Except Nat GroupEnt) : Prop := ∀ g, e = .ok g → g.slot = p

theorem entersFor_ok {p : Nat} {g : GroupEnt} (h : g.slot = p) : EntersFor p (.ok g) := fun _ hg => by
  cases hg
  exact h

theorem entersFor_error (p w : Nat) : EntersFor p (.error w) := fun _ hg => by cases hg

theorem EntersFor.ite {p : Nat} {a b : Except Nat GroupEnt} {c : Prop} [Decidable c] (ha : EntersFor p a) (hb : EntersFor p b) :
    EntersFor p (if c then a else b) := by
  split
  · exact ha
  · exact hb

/-- A descriptor that is not held back is entered for the slot that is scanned. -/
theorem checkDesc_slot (s : State) (p n : Nat) (d : List Byte) : EntersFor p (checkDesc s p n d) := by
  unfold checkDesc
  extract_lets kind se seq refuse pass
  have hrefuse : ∀ c, EntersFor p (refuse c) := fun _ => entersFor_ok rfl
  have hpass : ∀ r m, EntersFor p (pass r m) := fun _ _ => entersFor_ok rfl
  clear_value refuse pass
  refine .ite (hrefuse _) (.ite (hrefuse _) ?_)
  split
  · exact hrefuse _
  · refine .ite (hrefuse _) (.ite (hpass _ _) (.ite ?_ ?_))
    · split
      · exact hrefuse _
      · exact hpass _ _
    · split
      · exact hrefuse _
      · refine .ite (hrefuse _) (.ite (hrefuse _) (.ite (hrefuse _) (.ite (entersFor_ok rfl) (.ite (hrefuse _) ?_))))
        split
        · exact hpass _ _
        · exact entersFor_error p 1

theorem scanSlot_slot (p fuel n : Nat) (t : State) (acc : List GroupEnt) (hacc : ∀ g ∈ acc, g.slot = p) :
    ∀ g ∈ (scanSlot p fuel n t acc).1, g.slot = p := by
  induction fuel generalizing n t acc with
  | zero => exact hacc
  | succ fuel ih =>
    unfold scanSlot
    extract_lets d idx
    split
    · exact hacc
    · split
      · exact hacc
      · split
        · exact hacc
        · next g hg =>
          split
          · exact hacc
          · refine ih _ _ _ fun x hx => ?_
            obtain hx | hx := List.mem_append.1 hx
            · exact hacc x hx
            · exact List.mem_singleton.1 hx ▸ checkDesc_slot t p n _ g hg

/-- A pass over a list in which only `p` does something. -/
theorem foldl_one {α β : Type} {f : α → β → α} {l : List β} {p : β} {s t : α} (hp : p ∈ l) (hl : l.Nodup) (hs : ∀ q, q ≠ p → f s q = s)
    (hone : f s p = t) (ht : ∀ q, q ≠ p → f t q = t) : l.foldl f s = t := by
  have hrest : ∀ (l : List β) (u : α), (∀ q ∈ l, f u q = u) → l.foldl f u = u := by
    intro l
    induction l with
    | nil => exact fun _ _ => rfl
    | cons q l ih => exact fun u h => by rw [List.foldl_cons, h q (.head _), ih u fun x hx => h x (.tail _ hx)]
  obtain ⟨a, b, rfl⟩ := List.append_of_mem hp
  have hdisj := List.nodup_append.1 hl
  have hb := (List.nodup_cons.1 hdisj.2.1).1
  rw [List.foldl_append, hrest a s fun q hq => hs q (hdisj.2.2 q hq p (.head _)), List.foldl_cons, hone,
    hrest b t fun q hq => ht q fun hqp => hb (hqp ▸ hq)]

section scan
variable {p : Nat} {s : State} {sl : Slot} (hslots : s.slots = [(p, sl)])
include hslots

theorem slot_single : tfind s.slots p = some sl := by
  rw [hslots, tfind, if_pos rfl]

theorem slot_single_ne {q : Nat} (h : q ≠ p) : tfind s.slots q = none := by
  rw [hslots, tfind, if_neg h, tfind]

theorem modSlot_single (f : Slot → Slot) : s.modSlot p f = { s with slots := [(p, f sl)] } := by
  rw [State.modSlot, hslots]
  simp

/-- With nothing due, no completion is written. -/
theorem writeCompletions_idle (hclosing : sl.closing = false) (hdue : sl.due = []) : writeCompletions p s = s := by
  have hsl : ({ sl with completed := sl.completed + sl.due.length, due := [] } : Slot) = sl := by
    cases sl
    cases hdue
    rfl
  unfold writeCompletions
  rw [slot_single hslots]
  cases (if s.cutOff = true then none else s.compWindow p) with
  | none => exact if_neg (by rw [hclosing]; decide)
  | some w =>
    dsimp only
    rw [hdue, foldl_send, List.zipIdx_nil, List.map_nil, List.append_nil]
    refine (modSlot_single hslots _).trans ?_
    rw [hsl, ← hslots]

omit hslots in
theorem writeCompletions_absent {q : Nat} (h : tfind s.slots q = none) : writeCompletions q s = s := by
  unfold writeCompletions
  rw [h]

omit hslots in
theorem scanOne_absent {q : Nat} (h : tfind s.slots q = none) : scanOne q s = s := by
  unfold scanOne
  rw [h]

/-- The scan of slot `p` that finds the group `g`, the wait `w` and whether it overran. -/
theorem scanOne_spec (hclosing : sl.closing = false) :
    let r := scanSlot p 256 sl.consumed s []
    (scanOne p s).slots = [(p, { sl with overrun := sl.overrun || r.2.2, headWait := r.2.1 })] ∧
      (scanOne p s).group = s.group ++ r.1 ∧ (scanOne p s).hasBuddy = s.hasBuddy := by
  unfold scanOne
  rw [slot_single hslots]
  dsimp only
  rw [if_neg (by rw [hclosing]; decide)]
  generalize scanSlot p 256 sl.consumed s [] = r
  obtain ⟨u, hu, huslots, hugroup, hubuddy⟩ : ∃ u : State,
      (if r.2.2 = true ∧ ¬ sl.overrun = true then raise { code := 0x040C, action := 0, unit := 8 } s else s) = u ∧
      u.slots = [(p, sl)] ∧ u.group = s.group ∧ u.dreg prtBuddyNone = s.dreg prtBuddyNone := by
    refine ⟨_, rfl, ?_⟩
    split
    · exact ⟨by rw [raise_frame]; exact hslots, by rw [raise_frame],
        dreg_raise (rc := { code := 0x040C, action := 0, unit := 8 }) (by decide) (by decide) s⟩
    · exact ⟨hslots, rfl, rfl⟩
  rw [hu, modSlot_single huslots]
  split
  · refine ⟨rfl, congrArg (· ++ r.1) hugroup, ?_⟩
    rw [State.hasBuddy, State.hasBuddy, ← hubuddy]
    exact congrArg (· == 0) (dreg_setReg_ne _ _ (by decide))
  · exact ⟨rfl, congrArg (· ++ r.1) hugroup, congrArg (· == 0) hubuddy⟩

end scan

theorem frontsStay_credit (p : Nat) (s : State) : FrontsStay s (credit p s) := by
  unfold credit
  split
  · exact .refl s
  · next sl _ =>
    refine .ite (.refl s) ?_
    exact (frontsStay_modSlot s p (f := fun (x : Slot) => { x with credit := creditBody s p sl }) fun _ => rfl).trans (.of_eq rfl rfl rfl rfl)

/-- A scan of the one window of a device without a buddy consumes what it finds. -/
theorem exec_windowScan {p : Nat} {s : State} {sl : Slot} (hp : p < 8) (hslots : s.slots = [(p, sl)]) (hclosing : sl.closing = false)
    (hdue : sl.due = []) (hgroup : s.group = []) (hsync : s.dreg tbSyncState ≠ 0) (hboot : s.ks.boot = 1) (hcut : s.cutOff = false)
    (ha3 : s.pwr.state ≠ .a3) (ha4 : s.pwr.state ≠ .a4) (hreq : s.pwr.standbyReq = 0) (hbuddy : s.hasBuddy = false) :
    exec .windowScan s = .next ((List.range 8).foldl (fun s p => credit p s)
      (settleGroup (scanOne p s).group.length (scanOne p s))) := by
  have hmem : p ∈ List.range 8 := List.mem_range.2 hp
  have hwrites : (List.range 8).foldl (fun s p => writeCompletions p s) s = s :=
    foldl_one hmem List.nodup_range (fun q hq => writeCompletions_absent (slot_single_ne hslots hq))
      (writeCompletions_idle hslots hclosing hdue) fun q hq => writeCompletions_absent (slot_single_ne hslots hq)
  obtain ⟨hslots', _, hbuddy'⟩ := scanOne_spec hslots hclosing
  have hscan : (List.range 8).foldl (fun s p => scanOne p s) s = scanOne p s :=
    foldl_one hmem List.nodup_range (fun q hq => scanOne_absent (slot_single_ne hslots hq)) rfl
      fun q hq => scanOne_absent (slot_single_ne hslots' hq)
  change execWindowScan s = _
  rw [execWindowScan, if_neg (by simp [hsync, hboot, hcut, ha3, ha4])]
  dsimp only
  have hfree : s.group.isEmpty = true ∧ s.pwr.standbyReq = 0 := ⟨by rw [hgroup]; rfl, hreq⟩
  rw [hwrites, hscan]
  simp only [if_pos hfree]
  rw [hbuddy', hbuddy, if_neg (by decide)]

/-- The group of the one slot `p` settled and its credit sent: all of it is consumed, and no slot is added. -/
theorem settled_single {p : Nat} {u : State} {sl : Slot} (hslots : u.slots = [(p, sl)]) (hall : ∀ g ∈ u.group, g.slot = p) :
    ∃ (t : State) (x : Slot), (List.range 8).foldl (fun s p => credit p s) (settleGroup u.group.length u) = t ∧ t.group = [] ∧
      tfind t.slots p = some x ∧ x.consumed = sl.consumed + u.group.length ∧ x.headWait = sl.headWait ∧ x.overrun = sl.overrun ∧
      ∀ q, q ≠ p → tfind t.slots q = none := by
  have hcount : countOf u.group p = u.group.length := by
    rw [countOf, List.filter_eq_self.2 fun g hg => by simpa using hall g hg]
  obtain ⟨hempty, hfront⟩ := settleGroup_spec u.group.length u
  rw [List.drop_length, List.take_length] at hfront
  have hcredit := frontsStay_foldl (fun s p => frontsStay_credit p s) (List.range 8) (settleGroup u.group.length u)
  generalize (List.range 8).foldl (fun s p => credit p s) (settleGroup u.group.length u) = t at hcredit ⊢
  have hthis := (hcredit.front p).trans (hfront p)
  rw [slot_single hslots, hcount] at hthis
  obtain ⟨x, hx, hconsumed, hwait, hover⟩ := slot_of_front hthis
  refine ⟨t, x, rfl, hcredit.group.trans hempty, hx, hconsumed, hwait, hover, fun q hq => ?_⟩
  have hother := (hcredit.front q).trans (hfront q)
  rw [slot_single_ne hslots hq] at hother
  exact Option.map_eq_none_iff.1 hother

theorem windowScan_spec (p : Nat) (s : State) (sl : Slot) (hp : p < 8) (hslots : s.slots = [(p, sl)]) (hclosing : sl.closing = false)
    (hdue : sl.due = []) (hgroup : s.group = []) (hsync : s.dreg tbSyncState ≠ 0) (hboot : s.ks.boot = 1) (hcut : s.cutOff = false)
    (ha3 : s.pwr.state ≠ .a3) (ha4 : s.pwr.state ≠ .a4) (hreq : s.pwr.standbyReq = 0) (hbuddy : s.hasBuddy = false) :
    let r := scanSlot p 256 sl.consumed s []
    ∃ (t : State) (x : Slot), exec .windowScan s = .next t ∧ t.group = [] ∧ tfind t.slots p = some x ∧
      x.consumed = sl.consumed + r.1.length ∧ x.headWait = r.2.1 ∧ x.overrun = (sl.overrun || r.2.2) ∧
      ∀ q, q ≠ p → tfind t.slots q = none := by
  intro r
  obtain ⟨hscanned, hfound, -⟩ := scanOne_spec hslots hclosing
  rw [hgroup, List.nil_append] at hfound
  have hall : ∀ g ∈ (scanOne p s).group, g.slot = p := by
    rw [hfound]
    exact scanSlot_slot p 256 sl.consumed s [] (by simp)
  obtain ⟨t, x, ht, hempty, hx, hconsumed, hwait, hover, hother⟩ := settled_single hscanned hall
  rw [hfound] at hconsumed
  exact ⟨t, x, ht ▸ exec_windowScan hp hslots hclosing hdue hgroup hsync hboot hcut ha3 ha4 hreq hbuddy, hempty, hx,
    hconsumed, hwait, hover, hother⟩

/-! ### A commit acknowledged (R376) -/

/-- A request of that session and sequence is there, and each such request has committed at `T`. -/
def CommittedAt (se q T : Nat) (s : State) : Prop := (s.request se q).isSome = true ∧
  ∀ x ∈ s.requests, x.session = se → x.seq = q → x.st = .committed ∧ x.commitTime = T ∧ x.repeats = []

theorem CommittedAt.of_eq {se q T : Nat} {s t : State} (h : CommittedAt se q T s) (hreq : t.requests = s.requests) :
    CommittedAt se q T t := by
  rw [CommittedAt, State.request, hreq]
  exact h

theorem CommittedAt.find {se q T : Nat} {s : State} (h : CommittedAt se q T s) :
    ∃ x, s.request se q = some x ∧ x.st = .committed ∧ x.commitTime = T ∧ x.repeats = [] := by
  obtain ⟨hsome, hall⟩ := h
  obtain ⟨x, hx⟩ := Option.isSome_iff_exists.1 hsome
  have hkey := List.find?_some hx
  simp only [decide_eq_true_eq] at hkey
  exact ⟨x, hx, hall x (List.mem_of_find?_eq_some hx) hkey.1 hkey.2⟩

/-- A change of other requests leaves the committed ones. -/
theorem CommittedAt.modRequest {se q T : Nat} {s : State} (h : CommittedAt se q T s) {a b : Nat} {f : Request → Request}
    (hf : ∀ x, (f x).session = x.session ∧ (f x).seq = x.seq) (hne : ¬ (a = se ∧ b = q)) : CommittedAt se q T (s.modRequest a b f) := by
  obtain ⟨hsome, hall⟩ := h
  refine ⟨by rw [request_modRequest s a b se q hf, Option.isSome_map, hsome], fun x hx hse hq => ?_⟩
  obtain ⟨y, hy, rfl⟩ := List.mem_map.1 hx
  by_cases hkey : y.session = a ∧ y.seq = b
  · rw [if_pos hkey, (hf y).1] at hse
    rw [if_pos hkey, (hf y).2] at hq
    exact absurd ⟨hkey.1.symm.trans hse, hkey.2.symm.trans hq⟩ hne
  · rw [if_neg hkey] at hse hq ⊢
    exact hall y hy hse hq

/-- A search over a list finds one of its elements. -/
theorem mem_of_pick {α : Type} {f : Option α → α → Option α} (hf : ∀ m a, f m a = m ∨ f m a = some a) {l : List α} {a : α}
    (h : l.foldl f none = some a) : a ∈ l := by
  have hpick : ∀ (l : List α) (m : Option α), l.foldl f m = some a → m = some a ∨ a ∈ l := by
    intro l
    induction l with
    | nil => exact fun m h => .inl h
    | cons b l ih =>
      intro m h
      obtain hm | hmem := ih _ h
      · obtain hkeep | hnew := hf m b
        · exact .inl (hkeep ▸ hm)
        · exact .inr (Option.some.inj (hnew.symm.trans hm) ▸ .head _)
      · exact .inr (.tail _ hmem)
  exact (hpick l none h).resolve_left nofun

/-- What has committed stays so while further requests commit. -/
theorem CommittedAt.advanceCommits {se q T : Nat} (a n : Nat) {s : State} (h : CommittedAt se q T s) :
    CommittedAt se q T (advanceCommits a n s) := by
  induction n generalizing s with
  | zero => exact h
  | succ n ih =>
    unfold Machine.advanceCommits
    extract_lets live low
    have hlow : ∀ r, low = some r → r ∈ live := fun r => mem_of_pick fun m x => by
      cases m with
      | none => exact .inr rfl
      | some y =>
        dsimp only
        split
        · exact .inr rfl
        · exact .inl rfl
    clear_value low
    cases low with
    | none => exact h
    | some r =>
      obtain ⟨hr, hmine⟩ := List.mem_filter.1 (hlow r rfl)
      obtain ⟨hsession, hlive⟩ : r.session = a ∧ r.live = true := by simpa using hmine
      have hne : ¬ (a = se ∧ r.seq = q) := fun hkey => by
        have hst := (h.2 r hr (hsession.trans hkey.1) hkey.2).1
        rw [Request.live, hst] at hlive
        exact absurd hlive (by decide)
      dsimp only
      split
      · have hjournal : CommittedAt se q T { s with journal := s.journal ++ [.commit a r.seq] } := h.of_eq rfl
        split
        · exact (hjournal.modRequest (f := fun x => { x with st := .committing }) (fun _ => ⟨rfl, rfl⟩) hne).of_eq rfl
        · exact ih ((hjournal.modRequest (f := .committedAt s.now) (fun _ => ⟨rfl, rfl⟩) (hsession ▸ hne)).of_eq (commitNow_spec r _).2)
      · exact h

/-- The request of a key commits with every request of that key. -/
theorem committedAt_commitNow {se q : Nat} {s : State} {r : Request} (h : s.request se q = some r) :
    CommittedAt se q s.now (commitNow r s) := by
  have hkey := List.find?_some h
  simp only [decide_eq_true_eq] at hkey
  obtain ⟨rfl, rfl⟩ := hkey
  refine CommittedAt.of_eq (s := s.modRequest r.session r.seq (.committedAt s.now)) ⟨?_, ?_⟩ (commitNow_spec r s).2
  · rw [request_modRequest s _ _ _ _ (f := .committedAt s.now) fun _ => ⟨rfl, rfl⟩, h]
    rfl
  · intro x hx hse hq
    obtain ⟨y, _, rfl⟩ := List.mem_map.1 hx
    by_cases hkey : y.session = r.session ∧ y.seq = r.seq
    · rw [if_pos hkey]
      exact ⟨rfl, rfl, rfl⟩
    · rw [if_neg hkey] at hse hq
      exact absurd ⟨hse, hq⟩ hkey

theorem exec_commitAck (se q : Nat) (s : State) (r : Request) (h : s.takesPeer 0) (hr : s.request se q = some r)
    (hst : r.st = .committing) : exec (.commitAck se q) s = .next (advanceCommits se s.requests.length (commitNow r s)) := by
  change execCommitAck se q s = _
  rw [execCommitAck, onPeer_takes 0 _ _ s _ h, commitAcked, hr]
  dsimp only
  rw [if_pos hst]

/-! ### Mirrored records and handoffs (R106, R474, R475) -/

theorem exec_mirrorRecords (recs : List MirrorRec) (s : State) (h : s.takesPeer 0) :
    let ok := recs.takeWhile fun r => mayMirror s r
    exec (.mirrorRecords recs) s = .next { s with
      mirrored := s.mirrored ++ ok
      out := s.out ++ (if ok.isEmpty then [] else [.mirrorAck ((recs.head?.map (·.device)).getD 0) ok.length]) ++
        ((recs.drop ok.length).head?.map fun r => Out.mirrorRefuse r.device r.session r.seq).toList } := by
  intro ok
  change execMirrorRecords recs s = _
  rw [execMirrorRecords, onPeer_takes 0 _ _ s _ h]
  change Host.Outcome.next (
    let s1 : State := { s with mirrored := s.mirrored ++ ok }
    let s2 := if ok.isEmpty then s1 else s1.send (.mirrorAck ((recs.head?.map (·.device)).getD 0) ok.length)
    match recs.drop ok.length with
    | r :: _ => s2.send (.mirrorRefuse r.device r.session r.seq)
    | [] => s2) = _
  clear_value ok
  cases recs.drop ok.length <;> cases ok.isEmpty <;> simp [State.send]

/-- What the record that a handoff names does (R475): committed, it is answered; else it runs here where it is new. -/
theorem exec_handoff_absent {o : HandoffOp} {s : State} (h : s.takesPeer 0)
    (hm : s.mirrored.find? (fun m => m.device = o.device ∧ m.session = o.session ∧ m.seq = o.seq ∧ m.opening.isNone) = none) :
    exec (.handoff o) s = .next (s.send (.mirrorRefuse o.device o.session o.seq)) := by
  change execHandoff o s = _
  rw [execHandoff, onPeer_takes 0 _ _ s _ h, hm]

theorem exec_handoff_takeOver {o : HandoffOp} {s : State} {m : MirrorRec} {r : Request} (h : s.takesPeer 0)
    (hm : s.mirrored.find? (fun m => m.device = o.device ∧ m.session = o.session ∧ m.seq = o.seq ∧ m.opening.isNone) = some m)
    (ho : o.committed = none) (hr : mirroredRequest s { m with imageDigest := o.imageDigest } = some r)
    (hnew : s.request m.session m.seq = none) : exec (.handoff o) s = .next (takeOver m r s) := by
  change execHandoff o s = _
  rw [execHandoff, onPeer_takes 0 _ _ s _ h, hm]
  dsimp only
  rw [ho, hr]
  dsimp only
  rw [hnew]
  rfl

theorem exec_handoff_committed {o : HandoffOp} {s : State} {m : MirrorRec} {c : Nat} (h : s.takesPeer 0)
    (hm : s.mirrored.find? (fun m => m.device = o.device ∧ m.session = o.session ∧ m.seq = o.seq ∧ m.opening.isNone) = some m)
    (ho : o.committed = some c) : exec (.handoff o) s = .next (completeHanded m c s) := by
  change execHandoff o s = _
  rw [execHandoff, onPeer_takes 0 _ _ s _ h, hm]
  dsimp only
  rw [ho]

theorem completeHanded_spec (m : MirrorRec) (c : Nat) {s : State} {x : Session} (h : tfind s.sessions m.session = some x) :
    (completeHanded m c s).mirrored = s.mirrored.erase m ∧ (completeHanded m c s).requests = s.requests := by
  unfold completeHanded
  rw [h]
  obtain ⟨hfronts, hrequests⟩ := frontsStay_complete x.slot { ring := getLe m.desc 0 8, session := m.session, seq := m.seq, status := c, kind := 0, flags := 1, device := m.device, time := s.now }
    { s with mirrored := s.mirrored.erase m }
  exact ⟨hfronts.mirrored, hrequests⟩

/-! ### The loss of a buddy (R473, R476) -/

/-- Only spans, piers and links differ. -/
def BatchesOnly (s t : State) : Prop := t = { s with spans := t.spans, piers := t.piers, links := t.links }

theorem BatchesOnly.trans {s t u : State} (h : BatchesOnly s t) (h' : BatchesOnly t u) : BatchesOnly s u := by
  rw [BatchesOnly, h', h]

theorem batchesOnly_abortPiers (k : Nat) (fault : Bool) (s : State) :
    BatchesOnly s (abortPiers k fault s) ∧ (abortPiers k fault s).spans = s.spans := by
  rw [abortPiers_eq]
  exact foldl_rel (R := fun s t => BatchesOnly s t ∧ t.spans = s.spans) (fun _ => ⟨rfl, rfl⟩)
    (fun h h' => ⟨h.1.trans h'.1, h'.2.trans h.2⟩) (f := fun s p => s.modPier p (abortedPier fault)) (fun _ _ => ⟨rfl, rfl⟩) _ _
    |>.imp (fun h => BatchesOnly.trans (t := { s with links := s.links.filter fun f => !(s.span k).piers.contains f.pier }) rfl h) id

/-- A span that runs no batch. -/
def Span.idle (x : Span) : Prop := x.running = false ∧ x.batch = none

/-- A batch stopped and dropped: its span is idle, and an idle span stays idle. -/
theorem dropped_spec (k : Nat) (s : State) : BatchesOnly s (dropBatch k (abortPiers k true s)) ∧
    ((dropBatch k (abortPiers k true s)).span k).idle ∧ ∀ j, (s.span j).idle → ((dropBatch k (abortPiers k true s)).span j).idle := by
  obtain ⟨hframe, hspans⟩ := batchesOnly_abortPiers k true s
  generalize abortPiers k true s = u at hframe hspans ⊢
  have hself : ((dropBatch k u).span k).idle := by
    cases hk : tfind u.spans k with
    | none =>
      rw [dropBatch, modSpan_unloaded u k _ hk, State.span, tget_of_tfind_none _ hk]
      exact ⟨rfl, rfl⟩
    | some x =>
      rw [dropBatch, span_modSpan_same (Option.isSome_iff_exists.2 ⟨x, hk⟩)]
      exact ⟨rfl, rfl⟩
  refine ⟨hframe.trans (by rw [BatchesOnly, dropBatch, modSpan_frame]), hself, fun j hj => ?_⟩
  by_cases h : j = k
  · exact h ▸ hself
  · rw [dropBatch, span_modSpan_ne h, State.span, hspans]
    exact hj

/-- Every span's batch dropped. -/
theorem dropAll_idle (s : State) : BatchesOnly s (s.spans.foldl (fun s e => dropBatch e.1 (abortPiers e.1 true s)) s) ∧
    ∀ k, ((s.spans.foldl (fun s e => dropBatch e.1 (abortPiers e.1 true s)) s).span k).idle := by
  have hlisted : ∀ (l : List (Nat × Span)) (u : State), BatchesOnly u (l.foldl (fun s e => dropBatch e.1 (abortPiers e.1 true s)) u) ∧
      ∀ k, (∃ e ∈ l, e.1 = k) ∨ (u.span k).idle → ((l.foldl (fun s e => dropBatch e.1 (abortPiers e.1 true s)) u).span k).idle := by
    intro l
    induction l with
    | nil => exact fun u => ⟨rfl, fun k h => h.resolve_left (by simp)⟩
    | cons e l ih =>
      intro u
      obtain ⟨hframe, hself, hkeep⟩ := dropped_spec e.1 u
      obtain ⟨hframe', hrest⟩ := ih (dropBatch e.1 (abortPiers e.1 true u))
      refine ⟨hframe.trans hframe', fun k h => hrest k ?_⟩
      rcases h with ⟨e', he', rfl⟩ | hidle
      · obtain rfl | he' := List.mem_cons.1 he'
        · exact .inr hself
        · exact .inl ⟨e', he', rfl⟩
      · exact .inr (hkeep k hidle)
  obtain ⟨hframe, hidle⟩ := hlisted s.spans s
  refine ⟨hframe, fun k => hidle k ?_⟩
  cases hk : tfind s.spans k with
  | none =>
    rw [State.span, tget_of_tfind_none _ hk]
    exact .inr ⟨rfl, rfl⟩
  | some x => exact .inl ⟨(k, x), mem_of_tfind hk, rfl⟩

theorem buddyLoss_spec {s : State} (hbuddy : s.hasBuddy = true) (hcut : s.cutOff = false) (hgone : s.peerGone (s.dreg prtBuddyId) 1 = true) :
    ∃ t, exec .buddyLossTimeout s = .next t ∧
      t = { s with cutOff := true, spans := t.spans, piers := t.piers, links := t.links } ∧
      ∀ k, (t.span k).running = false ∧ (t.span k).batch = none := by
  obtain ⟨hframe, hidle⟩ := dropAll_idle { s with cutOff := true }
  refine ⟨_, ?_, hframe, hidle⟩
  change execBuddyLossTimeout s = _
  rw [execBuddyLossTimeout, if_neg (by simp [hbuddy, hcut, hgone])]

theorem exec_buddyTakeoverTimeout_one {s : State} {m : MirrorRec} {r : Request}
    (hm : s.mirrored.filter (fun m => m.work && m.opening.isNone && s.peerGone m.device 2) = [m])
    (hr : mirroredRequest s m = some r) (hnew : s.request m.session m.seq = none) :
    exec .buddyTakeoverTimeout s = .next (takeOver m r s) := by
  change execBuddyTakeoverTimeout s = _
  rw [execBuddyTakeoverTimeout, hm]
  change Host.Outcome.next (match mirroredRequest s m with
    | some r => if (s.request m.session m.seq).isSome then s else takeOver m r s
    | none => s) = _
  rw [hr]
  dsimp only
  rw [hnew]
  rfl

/-- Settles O48: the scan of a window, what a buddy acknowledges, mirrored records and handoffs, and a buddy's loss. -/
theorem submission : Obligations.Submission := by
  unfold Obligations.Submission
  intro joins
  have hjoins : ∀ (m : MirrorRec) (r : Request) (s : State), (r.session = m.session ∧ r.seq = m.seq ∧ r.handedOff = true) →
      s.request m.session m.seq = none → joins m s (takeOver m r s) := takeOver_spec
  refine ⟨fun p s sl hp hslots hclosing hdue hgroup hsync hboot hcut ha3 ha4 hreq hbuddy =>
      windowScan_spec p s sl hp hslots hclosing hdue hgroup hsync hboot hcut ha3 ha4 hreq hbuddy,
    fun n s h hg => ⟨_, exec_mirrorAck n s h hg, (settleGroup_spec n s).1, fun q sl hsl => settled_slot n s hsl⟩,
    fun se q s r h hr hst => ?_, exec_mirrorRecords, fun o s h => ⟨exec_handoff_absent h, fun m hm => ⟨?_, ?_⟩⟩, fun s => buddyLoss_spec,
    fun s => ⟨fun hgone => ?_, fun m r hm hr hnew => ⟨_, exec_buddyTakeoverTimeout_one hm hr hnew, hjoins m r s (mirroredRequest_key hr) hnew⟩⟩⟩
  · obtain ⟨x, hx, hdone⟩ := ((committedAt_commitNow hr).advanceCommits se s.requests.length).find
    exact ⟨_, x, exec_commitAck se q s r h hr hst, hx, hdone⟩
  · exact fun r ho hr hnew => ⟨_, exec_handoff_takeOver h hm ho hr hnew, hjoins m r s (mirroredRequest_key (m := { m with imageDigest := o.imageDigest }) hr) hnew⟩
  · exact fun c x ho hx => ⟨_, exec_handoff_committed h hm ho, completeHanded_spec m c hx⟩
  · change execBuddyTakeoverTimeout s = _
    rw [execBuddyTakeoverTimeout, hgone]
    rfl

end Sys2Proof.Machine

/-! The events of the scoreboard and of chucks (R152, R154, R181, R182, R184, R185, R352). -/
namespace Sys2Proof.Machine

/-! ### Holds that a scoreboard entry ends (Table 6-4, R152) -/

/-- Only spans and pier `p` differ, and of the spans only `k`. -/
def Releases (k p : Nat) (s t : State) : Prop := t = { s with spans := t.spans, piers := t.piers } ∧ spansBut k s t ∧ piersBut p s t

theorem Releases.refl (k p : Nat) (s : State) : Releases k p s s := ⟨rfl, fun _ _ => rfl, fun _ _ => rfl⟩

theorem Releases.trans {k p : Nat} {s t u : State} (h : Releases k p s t) (h' : Releases k p t u) : Releases k p s u := by
  obtain ⟨hframe, hspans, hpiers⟩ := h
  obtain ⟨hframe', hspans', hpiers'⟩ := h'
  refine ⟨by rw [hframe', hframe], fun j hj => (hspans' j hj).trans (hspans j hj), fun q hq => (hpiers' q hq).trans (hpiers q hq)⟩

theorem releases_modSpan (k p : Nat) (f : Span → Span) (s : State) : Releases k p s (s.modSpan k f) :=
  ⟨by rw [modSpan_frame], fun j hj => span_modSpan_ne hj, fun q _ => by rw [modSpan_frame]; rfl⟩

theorem releases_modPier (k p : Nat) (f : Pier → Pier) (s : State) : Releases k p s (s.modPier p f) :=
  ⟨rfl, fun _ _ => rfl, fun q hq => pier_setPier_ne s _ hq⟩

/-- What a hold's end does: nothing, or a change of its pier behind the chucks. -/
theorem holdEffect_spec (k : Nat) (h : Hold) (s : State) : Releases k h.pier s (holdEffect h s) ∧ (holdEffect h s).spans = s.spans ∧
    ((holdEffect h s).pier h.pier).chucks = (s.pier h.pier).chucks := by
  have hmod : ∀ f : Pier → Pier, (∀ x, (f x).chucks = x.chucks) →
      Releases k h.pier s (s.modPier h.pier f) ∧ (s.modPier h.pier f).spans = s.spans ∧
        ((s.modPier h.pier f).pier h.pier).chucks = (s.pier h.pier).chucks := fun f hf =>
    ⟨releases_modPier k _ f s, rfl, by rw [modPier_eq, pier_setPier_same, hf]⟩
  unfold holdEffect
  cases h.after with
  | nothing => exact ⟨.refl k _ s, rfl, rfl⟩
  | arm e row n => exact hmod _ fun _ => rfl
  | rel e => exact hmod _ fun _ => rfl
  | launch a => exact hmod _ fun _ => rfl

/-- The holds that wait on entry `e` of pier `p`, without it. -/
def loseEntry (p e : Nat) (h : Hold) : Hold :=
  if decide (h.pier = p) && (h.src == .scoreboard || h.src == .armRel) && h.waits.contains e then { h with waits := h.waits.erase e } else h

/-- A hold of pier `p` on its scoreboard that waits for nothing more. -/
def endedSb (p : Nat) (h : Hold) : Bool := decide (h.pier = p) && (h.src == .scoreboard || h.src == .armRel) && h.waits.isEmpty

/-- The holds of span `k` lose the entry, and those that wait for nothing more end. -/
def releasedHolds (k p e : Nat) (s : State) : State :=
  endHolds k (endedSb p) (s.modSpan k fun sp => { sp with holds := sp.holds.map (loseEntry p e) })

section release
variable {k p e : Nat} {s : State} (hk : (tfind s.spans k).isSome = true)
include hk

theorem releasedHolds_span : (releasedHolds k p e s).span k =
    { s.span k with holds := ((s.span k).holds.map (loseEntry p e)).filter fun h => !endedSb p h } := by
  rw [releasedHolds, endHolds, span_modSpan_same (modSpan_isSome hk), span_modSpan_same hk]

theorem sbRelease_eq : sbRelease k p e s =
    (((s.span k).holds.map (loseEntry p e)).filter (endedSb p)).foldl (fun s h => holdEffect h s) (releasedHolds k p e s) := by
  have hspan := span_modSpan_same (s := s) (k := k) (f := fun sp => { sp with holds := sp.holds.map (loseEntry p e) }) hk
  unfold sbRelease
  change (((s.modSpan k fun sp => { sp with holds := sp.holds.map (loseEntry p e) }).span k).holds.filter (endedSb p)).foldl
    (fun s h => holdEffect h s) (releasedHolds k p e s) = _
  rw [hspan]

theorem sbRelease_spec : Releases k p s (sbRelease k p e s) ∧ ((sbRelease k p e s).pier p).chucks = (s.pier p).chucks ∧
    (sbRelease k p e s).span k =
      { s.span k with holds := ((s.span k).holds.map (loseEntry p e)).filter fun h => !endedSb p h } := by
  have hheld : Releases k p s (releasedHolds k p e s) := by
    rw [releasedHolds, endHolds]
    exact (releases_modSpan k p _ s).trans (releases_modSpan k p _ _)
  have hpiers : (releasedHolds k p e s).piers = s.piers := by rw [releasedHolds, endHolds, modSpan_frame, modSpan_frame]
  have heffects : ∀ (l : List Hold), (∀ h ∈ l, h.pier = p) → ∀ u : State, let t := l.foldl (fun s h => holdEffect h s) u
      Releases k p u t ∧ (t.pier p).chucks = (u.pier p).chucks ∧ t.spans = u.spans := by
    intro l
    induction l with
    | nil => exact fun _ u => ⟨.refl k p u, rfl, rfl⟩
    | cons h l ih =>
      intro hl u
      have hp : h.pier = p := hl h (.head _)
      obtain ⟨hone, hspans, hchucks⟩ := hp ▸ holdEffect_spec k h u
      obtain ⟨hrest, hchucks', hspans'⟩ := ih (fun x hx => hl x (.tail _ hx)) (holdEffect h u)
      exact ⟨hone.trans hrest, hchucks'.trans hchucks, hspans'.trans hspans⟩
  rw [sbRelease_eq hk]
  obtain ⟨hrest, hchucks, hspans⟩ := heffects (((s.span k).holds.map (loseEntry p e)).filter (endedSb p)) (fun h hh => by
    have hended := (List.mem_filter.1 hh).2
    simp only [endedSb, Bool.and_eq_true, decide_eq_true_eq] at hended
    exact hended.1.1) (releasedHolds k p e s)
  refine ⟨hheld.trans hrest, hchucks.trans ?_, ?_⟩
  · rw [State.pier, hpiers]
    rfl
  · rw [State.span, hspans]
    exact releasedHolds_span hk

/-- Where no hold of the pier has anything to do at its end, only the holds change. -/
theorem sbRelease_noThen (hthen : ∀ h ∈ (s.span k).holds, h.pier = p → h.after = .nothing) :
    (sbRelease k p e s).piers = s.piers := by
  have heffects : ∀ (l : List Hold), (∀ h ∈ l, h.after = .nothing) → ∀ u : State, l.foldl (fun s h => holdEffect h s) u = u := by
    intro l
    induction l with
    | nil => exact fun _ _ => rfl
    | cons h l ih =>
      intro hl u
      rw [List.foldl_cons, holdEffect, hl h (.head _)]
      exact ih (fun x hx => hl x (.tail _ hx)) u
  rw [sbRelease_eq hk, heffects _ fun h hh => ?_]
  · rw [releasedHolds, endHolds, modSpan_frame, modSpan_frame]
  · obtain ⟨hmem, hended⟩ := List.mem_filter.1 hh
    obtain ⟨x, hx, rfl⟩ := List.mem_map.1 hmem
    simp only [endedSb, Bool.and_eq_true, decide_eq_true_eq] at hended
    have hlose : (loseEntry p e x).pier = x.pier ∧ (loseEntry p e x).after = x.after := by
      unfold loseEntry
      split <;> exact ⟨rfl, rfl⟩
    exact hlose.2.trans (hthen x hx (hlose.1.symm.trans hended.1.1))

theorem sbRelease_ended : ∀ h ∈ ((sbRelease k p e s).span k).holds, ¬ (h.pier = p ∧ h.src = .scoreboard ∧ h.waits = []) := by
  rintro h hh ⟨hp, hsrc, hwaits⟩
  rw [sbRelease_spec hk |>.2.2] at hh
  have hnot := (List.mem_filter.1 hh).2
  rw [endedSb, hp, hsrc, hwaits] at hnot
  simp at hnot

end release

/-! ### Entries that become FULL or free (R152, R181) -/

/-- A change of pier `p` alone, behind its scoreboard. -/
def SameSb (p : Nat) (s t : State) : Prop := t = { s with piers := t.piers } ∧ piersBut p s t ∧ (t.pier p).sb = (s.pier p).sb

theorem sameSb_markSettled (p id : Nat) (s : State) : SameSb p s (markSettled p id s) := by
  refine ⟨rfl, fun q hq => pier_setPier_ne s _ hq, ?_⟩
  rw [markSettled, modPier_eq, pier_setPier_same]

/-- The entry as a FULL one. -/
def Pier.filled (x : Pier) (e row n : Nat) : Pier :=
  { x with sb := tput x.sb e (.full row n), chucks := tmap (fun _ c => c.filled e) x.chucks }

theorem sbFull_eq {p e row n k st : Nat} {s : State} (he : (s.pier p).sbAt e = some (.filling row n)) (hspan : s.spanOf p = some (k, st)) :
    sbFull p e s = sbRelease k p e (s.modPier p fun x => x.filled e row n) := by
  have hspan' : (s.modPier p fun x => x.filled e row n).spanOf p = some (k, st) := hspan
  unfold sbFull
  rw [he]
  change (match (s.modPier p fun x => x.filled e row n).spanOf p with
    | some (k, _) => sbRelease k p e (s.modPier p fun x => x.filled e row n)
    | none => s.modPier p fun x => x.filled e row n) = _
  rw [hspan']

theorem sbReaderDone_eq {p e row n r k st : Nat} {s : State} (he : (s.pier p).sbAt e = some (.draining row n r)) (hr : r ≤ 1)
    (hspan : s.spanOf p = some (k, st)) :
    sbReaderDone p e s = sbRelease k p e (s.modPier p fun x => { x with sb := tdel x.sb e }) := by
  have hspan' : (s.modPier p fun x => { x with sb := tdel x.sb e }).spanOf p = some (k, st) := hspan
  unfold sbReaderDone
  rw [he]
  dsimp only
  rw [if_pos hr, hspan']

section entry
variable {p k st e row n : Nat} {s : State} (hspan : s.spanOf p = some (k, st))
include hspan

/-- An entry that changes, and the holds that it ends. -/
theorem released_spec {u : State} (hu : SameSb p s u) (f : Pier → Pier) {b : Option Sb}
    (hself : ∀ x : Pier, x.sb = (s.pier p).sb → (f x).sbAt e = b) (hother : ∀ (x : Pier) d, d ≠ e → (f x).sbAt d = x.sbAt d)
    (hthen : ∀ h ∈ (s.span k).holds, h.pier = p → h.after = .nothing) :
    let t := sbRelease k p e (u.modPier p f)
    (t.pier p).sbAt e = b ∧ (∀ d, d ≠ e → (t.pier p).sbAt d = (s.pier p).sbAt d) ∧ spansBut k s t ∧ piersBut p s t ∧ t.mem = s.mem ∧
      ∀ h ∈ (t.span k).holds, ¬ (h.pier = p ∧ h.src = .scoreboard ∧ h.waits = []) := by
  obtain ⟨huframe, hupiers, husb⟩ := hu
  have hspans : (u.modPier p f).spans = s.spans := by rw [modPier_eq, huframe]; rfl
  have hk : (tfind (u.modPier p f).spans k).isSome = true := by rw [hspans]; exact spanOf_loaded s p hspan
  have hspanEq : ∀ j, (u.modPier p f).span j = s.span j := fun j => by rw [State.span, hspans]; rfl
  have hpier : (u.modPier p f).pier p = f (u.pier p) := pier_setPier_same u p _
  obtain ⟨⟨hframe, hspansBut, hpiersBut⟩, -, -⟩ := sbRelease_spec (p := p) (e := e) hk
  have hpiers := sbRelease_noThen (p := p) (e := e) hk (by rw [hspanEq]; exact hthen)
  have hthis : (sbRelease k p e (u.modPier p f)).pier p = f (u.pier p) := by
    rw [State.pier, hpiers]
    exact hpier
  refine ⟨?_, fun d hd => ?_, fun j hj => (hspansBut j hj).trans (hspanEq j), fun q hq => ?_, ?_, sbRelease_ended hk⟩
  · rw [hthis, hself _ husb]
  · rw [hthis, hother _ d hd, Pier.sbAt, husb, Pier.sbAt]
  · exact (hpiersBut q hq).trans ((pier_setPier_ne u _ hq).trans (hupiers q hq))
  · rw [hframe, modPier_eq, huframe]
    rfl

theorem spanOf_sameSb {u : State} (hu : SameSb p s u) : u.spanOf p = some (k, st) := by
  rw [hu.1]
  exact hspan

/-- The state in which an entry that has its rows becomes FULL. -/
theorem exec_sbRangeFull (hp : p < 192) (he : (s.pier p).sbAt e = some (.filling row n))
    (hstored : (s.pier p).ripe e false s.clk.fc ≠ [] ∨ (s.pier p).heldBy e false = false) :
    ∃ u, SameSb p s u ∧ exec (.sbRangeFull p e) s = .next (sbRelease k p e (u.modPier p fun x => x.filled e row n)) := by
  have hfull : ∀ u, SameSb p s u → sbFull p e u = sbRelease k p e (u.modPier p fun x => x.filled e row n) := fun u hu =>
    sbFull_eq (by rw [Pier.sbAt, hu.2.2]; exact he) (spanOf_sameSb hspan hu)
  change ∃ u, _ ∧ execSbRangeFull p e s = _
  rw [execSbRangeFull, if_neg (by omega), he]
  dsimp only
  cases hripe : (s.pier p).ripe e false s.clk.fc with
  | nil =>
    have hsame : SameSb p s s := ⟨rfl, fun _ _ => rfl, rfl⟩
    have hfree := hstored.resolve_left (fun h => h hripe)
    refine ⟨s, hsame, ?_⟩
    dsimp only
    rw [hfree, if_neg (by decide), hfull s hsame]
  | cons x r => exact ⟨_, sameSb_markSettled p x.id s, congrArg _ (hfull _ (sameSb_markSettled p x.id s))⟩

omit hspan in
theorem sbAt_filled (x : Pier) : (x.filled e row n).sbAt e = some (.full row n) := tfind_tput_same _ _ _

omit hspan in
theorem sbAt_filled_ne (x : Pier) {d : Nat} (h : d ≠ e) : (x.filled e row n).sbAt d = x.sbAt d := tfind_tput_ne _ _ h

theorem sbRangeFull_spec (hp : p < 192) (he : (s.pier p).sbAt e = some (.filling row n))
    (hstored : (s.pier p).ripe e false s.clk.fc ≠ [] ∨ (s.pier p).heldBy e false = false)
    (hthen : ∀ h ∈ (s.span k).holds, h.pier = p → h.after = .nothing) :
    ∃ t, exec (.sbRangeFull p e) s = .next t ∧ (t.pier p).sbAt e = some (.full row n) ∧
      (∀ d, d ≠ e → (t.pier p).sbAt d = (s.pier p).sbAt d) ∧ spansBut k s t ∧ piersBut p s t ∧ t.mem = s.mem ∧
      ∀ h ∈ (t.span k).holds, ¬ (h.pier = p ∧ h.src = .scoreboard ∧ h.waits = []) := by
  obtain ⟨u, hu, hexec⟩ := exec_sbRangeFull hspan hp he hstored
  exact ⟨_, hexec, released_spec hspan hu _ (fun x _ => sbAt_filled x) (fun x d hd => sbAt_filled_ne x hd) hthen⟩

theorem sbRangeFull_held (hp : p < 192) (he : (s.pier p).sbAt e = some (.filling row n))
    (hstored : ¬ ((s.pier p).ripe e false s.clk.fc ≠ [] ∨ (s.pier p).heldBy e false = false)) :
    exec (.sbRangeFull p e) s = .next s := by
  obtain ⟨hripe, hheld⟩ := not_or.1 hstored
  change execSbRangeFull p e s = _
  rw [execSbRangeFull, if_neg (by omega), he]
  dsimp only
  rw [Classical.not_not.1 hripe]
  exact if_pos (by simpa using hheld)

/-- The hold of an ARM that waits on the entry arms it once the entry is FULL. -/
theorem sbRangeFull_arms (hp : p < 192) (he : (s.pier p).sbAt e = some (.filling row n))
    (hstored : (s.pier p).ripe e false s.clk.fc ≠ [] ∨ (s.pier p).heldBy e false = false) {r2 n2 since : Nat}
    (hholds : (s.span k).holds = [{ src := .armRel, pier := p, waits := [e], since := since, after := .arm e r2 n2 }]) :
    ∃ t, exec (.sbRangeFull p e) s = .next t ∧ (t.pier p).sbAt e = some (.filling r2 n2) ∧ (t.span k).holds = [] := by
  obtain ⟨u, hu, hexec⟩ := exec_sbRangeFull hspan hp he hstored
  have hspans : (u.modPier p fun x => x.filled e row n).spans = s.spans := by rw [modPier_eq, hu.1]; rfl
  have hk : (tfind (u.modPier p fun x => x.filled e row n).spans k).isSome = true := by rw [hspans]; exact spanOf_loaded s p hspan
  have hspanEq : (u.modPier p fun x => x.filled e row n).span k = s.span k := by rw [State.span, hspans]; rfl
  have hlose : loseEntry p e { src := .armRel, pier := p, waits := [e], since := since, after := .arm e r2 n2 } =
      { src := .armRel, pier := p, waits := [], since := since, after := .arm e r2 n2 } := by
    simp [loseEntry]
  have hended : endedSb p { src := .armRel, pier := p, waits := [], since := since, after := .arm e r2 n2 } = true := by
    simp [endedSb]
  refine ⟨_, hexec, ?_, ?_⟩
  · rw [sbRelease_eq hk, hspanEq, hholds, List.map_singleton, hlose, List.filter_cons_of_pos hended, List.filter_nil, List.foldl_cons,
      List.foldl_nil]
    generalize releasedHolds k p e (u.modPier p fun x => x.filled e row n) = v
    change ((v.modPier p fun x => { x with sb := tput x.sb e (.filling r2 n2) }).pier p).sbAt e = _
    rw [modPier_eq, pier_setPier_same]
    exact tfind_tput_same _ _ _
  · rw [(sbRelease_spec hk).2.2, hspanEq, hholds, List.map_singleton, hlose]
    simp [hended]

theorem sbDrainDone_spec (hp : p < 192) (he : (s.pier p).sbAt e = some (.draining row n 1))
    (hripe : (s.pier p).ripe e true s.clk.fc ≠ []) (hthen : ∀ h ∈ (s.span k).holds, h.pier = p → h.after = .nothing) :
    ∃ t, exec (.sbDrainDone p e) s = .next t ∧ (t.pier p).sbAt e = none ∧
      (∀ d, d ≠ e → (t.pier p).sbAt d = (s.pier p).sbAt d) ∧ spansBut k s t ∧ piersBut p s t ∧ t.mem = s.mem ∧
      ∀ h ∈ (t.span k).holds, ¬ (h.pier = p ∧ h.src = .scoreboard ∧ h.waits = []) := by
  obtain ⟨x, r, hx⟩ := List.exists_cons_of_ne_nil hripe
  have hu := sameSb_markSettled p x.id s
  refine ⟨_, ?_, released_spec hspan hu (fun x => { x with sb := tdel x.sb e }) (fun x _ => tfind_tdel_same _ _)
    (fun x d hd => tfind_tdel_ne _ hd) hthen⟩
  change execSbDrainDone p e s = _
  rw [execSbDrainDone, if_neg (by omega), he, hx]
  dsimp only
  rw [sbReaderDone_eq (by rw [Pier.sbAt, hu.2.2]; exact he) (Nat.le_refl 1) (spanOf_sameSb hspan hu)]

end entry

theorem sbDrainDone_idle {p e : Nat} {s : State} (hp : p < 192) (hripe : (s.pier p).ripe e true s.clk.fc = []) :
    exec (.sbDrainDone p e) s = .next s := by
  change execSbDrainDone p e s = _
  rw [execSbDrainDone, if_neg (by omega), hripe]
  cases (s.pier p).sbAt e with
  | none => rfl
  | some b => cases b <;> rfl

/-! ### A transfer that its entry admits (R154, R181) -/

theorem setXfer_spec (p j : Nat) (y : Xfer) (s : State) : s.setXfer p j y = { s with piers := (s.setXfer p j y).piers } ∧
    piersBut p s (s.setXfer p j y) ∧
    (s.setXfer p j y).pier p = { s.pier p with
      chucks := tput (s.pier p).chucks j { (s.pier p).chuck j with xfers := ((s.pier p).chuck j).xfers.map fun z => if z.id = y.id then y else z } } :=
  ⟨rfl, fun _ hq => pier_setPier_ne s _ hq, by rw [State.setXfer, State.modChuck, modPier_eq, pier_setPier_same]⟩

theorem setXfer_xfers (p j : Nat) (y : Xfer) (s : State) : (((s.setXfer p j y).pier p).chuck j).xfers =
    ((s.pier p).chuck j).xfers.map fun z => if z.id = y.id then y else z := by
  rw [(setXfer_spec p j y s).2.2, Pier.chuck, tget_tput_same]

theorem startPhase_ne (x : Xfer) (now : Nat) : x.startPhase now ≠ .entryWait := by
  unfold Xfer.startPhase
  split
  · nofun
  · split
    · split <;> nofun
    · nofun

/-- A transfer that can move does, or waits for a page: only its phase differs, and registers. -/
theorem tryMove_spec (p : Nat) (x : Xfer) (s : State) : (tryMove p x s).1 = { x with phase := (tryMove p x s).1.phase } ∧
    (tryMove p x s).2 = { s with regs := (tryMove p x s).2.regs } ∧ (x.phase ≠ .entryWait → (tryMove p x s).1.phase ≠ .entryWait) := by
  unfold tryMove
  split
  · exact ⟨rfl, rfl, fun _ => nofun⟩
  · exact ⟨rfl, rfl, id⟩

theorem chuckResume_admits {p j : Nat} {s : State} {x : Xfer} (hp : p < 192) (hx : ((s.pier p).chuck j).xfers = [x])
    (hphase : x.phase = .entryWait) (hdir : x.d.dir = false) (hfree : (s.pier p).sbAt x.d.sbEntry = none) :
    ∃ (t : State) (y : Xfer), exec (.chuckResume p j) s = .next t ∧
      ((t.pier p).chuck j).xfers = [y] ∧ y.phase ≠ .entryWait ∧
      y = { x with phase := y.phase, storedAt := s.clk.fc + 1, readAt := s.clk.fc, after := (s.pier p).fillings } ∧
      (∃ r n, (t.pier p).sbAt x.d.sbEntry = some (.filling r n)) ∧ piersBut p s t ∧ t.mem = s.mem := by
  let f := if x.zero then (x.d.benchRow, 0) else x.d.footprint x.outRows
  let pr : Pier := { s.pier p with sb := tput (s.pier p).sb x.d.sbEntry (.filling f.1 f.2) }
  have henter : enterSb x (s.pier p) = (pr, true) := by
    unfold enterSb
    rw [hdir, hfree]
    rfl
  have hwaits : (s.pier p).readerWaits x = (s.pier p).fillings := by
    unfold Pier.readerWaits
    rw [hfree]
  obtain ⟨hy, hu, hmoves⟩ := tryMove_spec p (x.admitted (s.pier p) s.now s.clk.fc) (s.setPier p pr)
  have hexec : exec (.chuckResume p j) s = .next
      ((tryMove p (x.admitted (s.pier p) s.now s.clk.fc) (s.setPier p pr)).2.setXfer p j
        (tryMove p (x.admitted (s.pier p) s.now s.clk.fc) (s.setPier p pr)).1) := by
    change execChuckResume p j s = _
    rw [execChuckResume, if_neg (by omega), hx, List.foldl_cons, List.foldl_nil, resumeOne, if_pos hphase]
    dsimp only
    rw [henter]
    rfl
  generalize tryMove p (x.admitted (s.pier p) s.now s.clk.fc) (s.setPier p pr) = m at hy hu hmoves hexec
  obtain ⟨y, u⟩ := m
  dsimp only at hy hu hmoves
  have hpier : u.pier p = pr := by
    rw [hu]
    exact pier_setPier_same s p pr
  have hchuck : ((u.pier p).chuck j).xfers = [x] := by
    rw [hpier]
    exact hx
  have hid : x.id = y.id := by
    rw [hy]
    rfl
  obtain ⟨hframe, hothers, hself⟩ := setXfer_spec p j y u
  refine ⟨_, y, hexec, ?_, hmoves (startPhase_ne x s.now), ?_, ⟨f.1, f.2, ?_⟩, fun q hq => (hothers q hq).trans ?_, ?_⟩
  · rw [setXfer_xfers, hchuck, List.map_singleton, if_pos hid]
  · rw [← hwaits]
    exact hy
  · rw [hself, hpier]
    exact tfind_tput_same _ _ _
  · rw [hu]
    exact pier_setPier_ne s pr hq
  · rw [hframe, hu]
    rfl

theorem chuckResume_waits {p j r n : Nat} {s : State} {x : Xfer} (hp : p < 192) (hx : ((s.pier p).chuck j).xfers = [x])
    (hphase : x.phase = .entryWait) (hdir : x.d.dir = false) (hfull : (s.pier p).sbAt x.d.sbEntry = some (.filling r n)) :
    exec (.chuckResume p j) s = .next s := by
  have henter : (enterSb x (s.pier p)).2 = false := by
    unfold enterSb
    rw [hdir, hfull]
    rfl
  change execChuckResume p j s = _
  rw [execChuckResume, if_neg (by omega), hx, List.foldl_cons, List.foldl_nil, resumeOne, if_pos hphase]
  dsimp only
  rw [henter, if_neg (by decide)]

/-! ### The oldest transfer completes (R181) -/

/-- What of a chuck stays as other transfers settle: its transfers but for the entries that they wait behind, and those that wait. -/
def Chuck.queues (c : Chuck) : List Xfer × List Xfer := (c.xfers.map fun y => { y with after := [] }, c.waiting)

/-- Memory and other piers stay, and every chuck of pier `p` but for what its transfers wait behind. -/
def ChucksStay (p : Nat) (s t : State) : Prop := piersBut p s t ∧ t.mem = s.mem ∧
  ∀ i, ((t.pier p).chuck i).queues = ((s.pier p).chuck i).queues

theorem ChucksStay.refl (p : Nat) (s : State) : ChucksStay p s s := ⟨fun _ _ => rfl, rfl, fun _ => rfl⟩

theorem ChucksStay.trans {p : Nat} {s t u : State} (h : ChucksStay p s t) (h' : ChucksStay p t u) : ChucksStay p s u := by
  obtain ⟨hpiers, hmem, hchucks⟩ := h
  obtain ⟨hpiers', hmem', hchucks'⟩ := h'
  exact ⟨fun q hq => (hpiers' q hq).trans (hpiers q hq), hmem'.trans hmem, fun i => (hchucks' i).trans (hchucks i)⟩

theorem ChucksStay.of_piers {p : Nat} {s t : State} (hpiers : t.piers = s.piers) (hmem : t.mem = s.mem) : ChucksStay p s t := by
  have hpier : ∀ q, t.pier q = s.pier q := fun q => by rw [State.pier, hpiers]; rfl
  exact ⟨fun q _ => hpier q, hmem, fun i => by rw [hpier]⟩

theorem chucksStay_modPier (p : Nat) {f : Pier → Pier} (hf : ∀ x i, ((f x).chuck i).queues = (x.chuck i).queues) (s : State) :
    ChucksStay p s (s.modPier p f) :=
  ⟨fun q hq => pier_setPier_ne s _ hq, rfl, fun i => by rw [modPier_eq, pier_setPier_same, hf]⟩

theorem chucksStay_setSb (p : Nat) (f : List (Nat × Sb) → List (Nat × Sb)) (s : State) :
    ChucksStay p s (s.modPier p fun x => { x with sb := f x.sb }) :=
  chucksStay_modPier p (f := fun x => { x with sb := f x.sb }) (fun _ _ => rfl) s

theorem ChucksStay.ite {p : Nat} {s t u : State} {c : Prop} [Decidable c] (ht : ChucksStay p s t) (hu : ChucksStay p s u) :
    ChucksStay p s (if c then t else u) := by
  split
  · exact ht
  · exact hu

theorem chucksStay_sbRelease {k p : Nat} (e : Nat) {s : State} (hk : (tfind s.spans k).isSome = true) :
    ChucksStay p s (sbRelease k p e s) := by
  obtain ⟨⟨hframe, -, hpiers⟩, hchucks, -⟩ := sbRelease_spec (p := p) (e := e) hk
  exact ⟨hpiers, by rw [hframe], fun i => by rw [Pier.chuck, hchucks]; rfl⟩

theorem queues_filled (c : Chuck) (e : Nat) : (c.filled e).queues = c.queues := by
  simp [Chuck.queues, Chuck.filled]

theorem chucksStay_sbFull (p e : Nat) (s : State) : ChucksStay p s (sbFull p e s) := by
  unfold sbFull
  split
  · next row n _ =>
    have hfilled : ChucksStay p s (s.modPier p fun x => x.filled e row n) := chucksStay_modPier p (fun x i => by
      rw [Pier.chuck, Pier.filled]
      exact tget_map {} x.chucks (fun c => c.filled e) i Chuck.queues (queues_filled _ e) |>.trans (queues_filled _ e)) s
    change ChucksStay p s (match (s.modPier p fun x => x.filled e row n).spanOf p with
      | some (k, _) => sbRelease k p e (s.modPier p fun x => x.filled e row n)
      | none => s.modPier p fun x => x.filled e row n)
    split
    · next k st hspan => exact hfilled.trans (chucksStay_sbRelease e (spanOf_loaded _ p hspan))
    · exact hfilled
  · exact .refl p s

theorem chucksStay_sbReaderDone (p e : Nat) (s : State) : ChucksStay p s (sbReaderDone p e s) := by
  unfold sbReaderDone
  split
  · next row n r _ =>
    split
    · have hfreed : ChucksStay p s (s.modPier p fun x => { x with sb := tdel x.sb e }) := chucksStay_setSb p (tdel · e) s
      dsimp only
      split
      · next k st hspan => exact hfreed.trans (chucksStay_sbRelease e (spanOf_loaded _ p hspan))
      · exact hfreed
    · exact chucksStay_setSb p (tput · e (.draining row n (r - 1))) s
  · exact .refl p s

theorem chucksStay_settle (p : Nat) (x : Xfer) (s : State) : ChucksStay p s (settle p x s) := by
  unfold settle
  split
  · exact .refl p s
  · split
    · exact chucksStay_sbReaderDone p _ s
    · exact chucksStay_sbFull p _ s

theorem chucksStay_exchangeDone (p : Nat) (x : Xfer) (s : State) : ChucksStay p s (exchangeDone p x s) := by
  unfold exchangeDone
  split
  · exact .refl p s
  · split
    · exact .refl p s
    · exact .ite (.of_piers rfl rfl) (.of_piers rfl rfl)

theorem chucksStay_waitcRelease (k p j : Nat) (s : State) : ChucksStay p s (waitcRelease k p j s) := by
  unfold waitcRelease
  split
  · exact .refl p s
  · dsimp only
    rw [endHolds, modSpan_frame, modSpan_frame]
    exact .of_piers rfl rfl

theorem admitWaiting_idle {p j : Nat} (k : Nat) {s : State} (h : ((s.pier p).chuck j).waiting = []) : admitWaiting p k j s = s := by
  unfold admitWaiting
  rw [h]

theorem chuckTransferDone_spec {p k st j : Nat} {s : State} {x : Xfer} {r : List Xfer} (hp : p < 192) (hspan : s.spanOf p = some (k, st))
    (hx : ((s.pier p).chuck j).xfers = x :: r) (hdone : x.complete s.clk.fc = true) (hwaiting : ((s.pier p).chuck j).waiting = []) :
    ∃ u t, exec (.chuckTransferDone p j) s = .next t ∧ u = s.modChuck p j (fun c => { c with xfers := r }) ∧ ChucksStay p u t := by
  generalize hu : s.modChuck p j (fun c => { c with xfers := r }) = u
  have hupier : ((u.pier p).chuck j).waiting = [] := by
    rw [← hu, State.modChuck, modPier_eq, pier_setPier_same, Pier.chuck, tget_tput_same]
    exact hwaiting
  have hstay := (chucksStay_settle p x u).trans (chucksStay_exchangeDone p x (settle p x u))
  have hidle : admitWaiting p k j (exchangeDone p x (settle p x u)) = exchangeDone p x (settle p x u) :=
    admitWaiting_idle k ((congrArg Prod.snd (hstay.2.2 j)).trans hupier)
  refine ⟨u, _, ?_, rfl, hstay.trans (chucksStay_waitcRelease k p j _)⟩
  change execChuckTransferDone p j s = _
  rw [execChuckTransferDone, if_neg (by omega), hspan, hx]
  dsimp only
  rw [if_pos hdone, hu, hidle]

theorem chuckTransferDone_queues {p k st j : Nat} {s : State} {x : Xfer} {r : List Xfer} (hp : p < 192) (hspan : s.spanOf p = some (k, st))
    (hx : ((s.pier p).chuck j).xfers = x :: r) (hdone : x.complete s.clk.fc = true) (hwaiting : ((s.pier p).chuck j).waiting = []) :
    let moves := fun (xs : List Xfer) => xs.map fun y => { y with after := [] }
    ∃ t, exec (.chuckTransferDone p j) s = .next t ∧ moves ((t.pier p).chuck j).xfers = moves r ∧ piersBut p s t ∧
      t.mem = s.mem ∧ (∀ i, i ≠ j → moves ((t.pier p).chuck i).xfers = moves ((s.pier p).chuck i).xfers ∧
        ((t.pier p).chuck i).waiting = ((s.pier p).chuck i).waiting) := by
  obtain ⟨u, t, hexec, rfl, hpiers, hmem, hchucks⟩ := chuckTransferDone_spec hp hspan hx hdone hwaiting
  have hchuck : ∀ i, ((s.modChuck p j fun c => { c with xfers := r }).pier p).chuck i =
      tget {} (tput (s.pier p).chucks j { (s.pier p).chuck j with xfers := r }) i := fun i => by
    rw [State.modChuck, modPier_eq, pier_setPier_same]
    rfl
  refine ⟨t, hexec, ?_, fun q hq => (hpiers q hq).trans (pier_setPier_ne s _ hq), hmem, fun i hi => ?_⟩
  · have hj := congrArg Prod.fst (hchucks j)
    rw [hchuck, tget_tput_same] at hj
    exact hj
  · have hother := hchucks i
    rw [hchuck, tget_tput_ne _ _ _ hi] at hother
    exact ⟨congrArg Prod.fst hother, congrArg Prod.snd hother⟩

/-! ### Data that GDDR answers (R31, R182, R352) -/

/-- Only registers and the LLM's unpinned cache differ. -/
def CacheOnly (s t : State) : Prop := t = { s with regs := t.regs, llmCache := t.llmCache }

theorem cacheOnly_lineTouch (line : Nat) (s : State) : CacheOnly s (s.lineTouch line) := by
  unfold State.lineTouch
  split
  · unfold llmTouch
    dsimp only
    split
    · rfl
    · split <;> rfl
  · rfl

theorem cacheOnly_touchLines (x : Xfer) (f : FarMap) (n : Nat) (s : State) : CacheOnly s (touchLines x f n s) := by
  unfold touchLines
  split
  · exact foldl_rel (R := CacheOnly) (fun _ => rfl) (fun h h' => by rw [CacheOnly, h', h]) (fun s l => cacheOnly_lineTouch l s) _ s
  · rfl

/-- A flit that waits at the IO link for transfer `x` of chuck `j` of pier `p` (R31). -/
def Flit.waitsFor (p j : Nat) (x : Xfer) (now : Nat) (f : Flit) : Prop :=
  f.pier = p ∧ f.chuck = j ∧ f.xfer = x.id ∧ f.inb = true ∧ f.due = 0 ∧ f.offered = now

/-- The transfer `y` is `x` moved on by `m` elements, whose flits wait at the IO link of `t`. -/
structure Brought (p j m : Nat) (x : Xfer) (s : State) (y : Xfer) (t : State) : Prop where
  transfer : y.id = x.id ∧ y.d = x.d ∧ y.cursor = x.cursor + m ∧ y.phase = x.phase ∧ y.index = x.index
  frame : t = { s with regs := t.regs, llmCache := t.llmCache, links := t.links }
  links : ∃ fs, t.links = s.links ++ fs ∧ ∀ f ∈ fs, f.waitsFor p j x s.clk.fc

/-- Items sent in are flits that wait at the IO link. -/
theorem brought_sendIn {p j m : Nat} {x y : Xfer} {s u : State} (is : List FarItem)
    (hy : y.id = x.id ∧ y.d = x.d ∧ y.cursor = x.cursor + m ∧ y.phase = x.phase ∧ y.index = x.index) (hu : CacheOnly s u) :
    Brought p j m x s (sendIn p j y is u).1 (sendIn p j y is u).2 := by
  obtain ⟨hid, hd, hcursor, hphase, hindex⟩ := hy
  refine ⟨⟨hid, hd, hcursor, hphase, hindex⟩, ?_, ?_⟩
  · unfold sendIn
    dsimp only
    rw [hu]
  · refine ⟨_, by rw [hu]; rfl, fun f hf => ?_⟩
    obtain ⟨i, hi, rfl⟩ := List.mem_mapIdx.1 hf
    exact ⟨rfl, rfl, hid, rfl, rfl, by rw [hu]⟩

theorem brought_bringElems (p j : Nat) (x : Xfer) (f : FarMap) (hdrs : List FarItem) (m : Nat) (value : State → Nat → Nat) (s : State) :
    Brought p j m x s (bringElems p j x f hdrs m value s).1 (bringElems p j x f hdrs m value s).2 := by
  unfold bringElems
  dsimp only
  split
  · exact brought_sendIn _ ⟨rfl, rfl, rfl, rfl, rfl⟩ rfl
  · split
    · exact brought_sendIn _ ⟨rfl, rfl, rfl, rfl, rfl⟩ rfl
    · exact brought_sendIn _ ⟨rfl, rfl, rfl, rfl, rfl⟩ (cacheOnly_touchLines x f m s)

/-- A transfer from GDDR that moves, past its headers, and whose offsets are at hand. -/
structure FromGddr (x : Xfer) : Prop where
  dir : x.d.dir = false
  far : x.d.farKind = 2
  phase : x.phase = .moving
  index : x.index = none

theorem accessOk_local {s : State} {p : Nat} {x : Xfer} (h : x.d.farKind ≠ 3) : accessOk s p x = true := by
  unfold accessOk
  rw [if_pos h]

/-- A transfer from GDDR takes what has come for it. -/
theorem arrive_gddr (p k j n : Nat) (data : List Byte) (s : State) {x : Xfer} (hx : FromGddr x)
    (hhdr : x.d.headers = false ∨ x.hdrDone = true) : ∃ u y, arrive p k j x n data s = u.setXfer p j y ∧
      Brought p j (min n (x.d.elems - x.cursor)) x s y u := by
  have hf : s.farMap p x = .lin x.d.farBase := by
    unfold State.farMap
    rw [hx.far]
    rfl
  have hreach : ∀ n, x.reach s p n = n := fun n => by
    unfold Xfer.reach
    rw [if_pos (by rw [hx.far]; decide)]
  have hready : rxReady s k x (min n (x.d.elems - x.cursor)) = min n (x.d.elems - x.cursor) := by
    unfold rxReady
    rw [if_pos (by rw [hx.far]; decide)]
  have hhdrs : bringHdrs p x data s = ([], { x with hdrDone := true }, s) := by
    unfold bringHdrs
    rw [if_neg (by rcases hhdr with h | h <;> simp [h])]
  have hok : ∀ (y : Xfer) (u : State), y.d = x.d → accessOk u p y = true := fun y u hy =>
    accessOk_local (by rw [hy, hx.far]; decide)
  have hmove : ∀ (y : Xfer) (u : State), y.d = x.d → tryMove p y u = (y, u) := fun y u hy => by
    rw [tryMove, if_neg (by rw [hok y u hy]; simp)]
  unfold arrive
  rw [hf]
  dsimp only
  rw [hready, hreach, if_neg (by simp [hx.far]), hok x s rfl, if_neg (by decide), if_neg (by simp [hx.far]), hhdrs]
  dsimp only
  rw [if_neg (by decide), Nat.min_eq_left (Nat.min_le_right _ _)]
  generalize (fun (s : State) (i : Nat) => _ : State → Nat → Nat) = value
  obtain ⟨htransfer, hframe, hlinks⟩ :=
    brought_bringElems p j { x with hdrDone := true } (.lin x.d.farBase) [] (min n (x.d.elems - x.cursor)) value s
  rw [hmove _ _ htransfer.2.1]
  exact ⟨_, _, rfl, htransfer, hframe, hlinks⟩

theorem exec_chuckDataArrival {p k st j xi n failed : Nat} {data : List Byte} {s : State} {x : Xfer} (hp : p < 192)
    (hspan : s.spanOf p = some (k, st)) (hxi : ((s.pier p).chuck j).xfers[xi]? = some x) (hx : FromGddr x) :
    exec (.chuckDataArrival p j xi n failed data) s = .next (arriveBurst p k j x n failed data s) := by
  change execChuckDataArrival p j xi n failed data s = _
  rw [execChuckDataArrival, if_neg (by omega), hspan, hxi]
  dsimp only
  rw [if_neg (by rw [hx.dir, hx.far, hx.index]; decide), hx.phase]

/-- What a transfer that has been brought on makes of its pier. -/
theorem setXfer_brought {p j xi m : Nat} {x y : Xfer} {s u : State} (h : Brought p j m x s y u)
    (hxi : ((s.pier p).chuck j).xfers[xi]? = some x) : (((u.setXfer p j y).pier p).chuck j).xfers[xi]? = some y ∧
    piersBut p s (u.setXfer p j y) := by
  have hpier : ∀ q, u.pier q = s.pier q := fun q => by
    rw [State.pier, h.frame]
    rfl
  refine ⟨?_, fun q hq => ((setXfer_spec p j y u).2.1 q hq).trans (hpier q)⟩
  rw [setXfer_xfers, hpier, List.getElem?_map, hxi, Option.map_some, if_pos h.transfer.1.symm]

theorem chuckDataArrival_spec {p k st j xi n failed : Nat} {data : List Byte} {s : State} {x : Xfer} (hp : p < 192)
    (hspan : s.spanOf p = some (k, st)) (hxi : ((s.pier p).chuck j).xfers[xi]? = some x) (hx : FromGddr x) (hfailed : failed ≤ 8)
    (hhdr : x.d.headers = false ∨ x.hdrDone = true) :
    ∃ (t : State) (y : Xfer), exec (.chuckDataArrival p j xi n failed data) s = .next t ∧
      ((t.pier p).chuck j).xfers[xi]? = some y ∧ y.id = x.id ∧ y.d = x.d ∧
      y.cursor = x.cursor + min n (x.d.elems - x.cursor) ∧ piersBut p s t ∧ t.mem = s.mem ∧ t.spans = s.spans ∧
      ∃ fs, t.links = s.links ++ fs ∧ ∀ f ∈ fs, f.pier = p ∧ f.chuck = j ∧ f.xfer = x.id ∧ f.inb = true ∧ f.due = 0 ∧
        f.offered = s.clk.fc := by
  have harrive : ∀ v : State, v = { s with regs := v.regs } → ∃ u y, arrive p k j x n data v = u ∧
      ((u.pier p).chuck j).xfers[xi]? = some y ∧ y.id = x.id ∧ y.d = x.d ∧
      y.cursor = x.cursor + min n (x.d.elems - x.cursor) ∧ piersBut p s u ∧ u.mem = s.mem ∧ u.spans = s.spans ∧
      ∃ fs, u.links = s.links ++ fs ∧ ∀ f ∈ fs, f.waitsFor p j x s.clk.fc := by
    intro v hv
    obtain ⟨u, y, harrive, hbrought⟩ := arrive_gddr p k j n data v hx hhdr
    have hvpier : ∀ q, v.pier q = s.pier q := fun q => by
      rw [State.pier, hv]
      rfl
    obtain ⟨hself, hothers⟩ := setXfer_brought hbrought (by rw [hvpier]; exact hxi)
    obtain ⟨⟨hid, hd, hcursor, -, -⟩, hframe, fs, hlinks, hfs⟩ := hbrought
    refine ⟨_, y, harrive, hself, hid, hd, hcursor, fun q hq => (hothers q hq).trans (hvpier q), ?_, ?_, fs, ?_, ?_⟩
    · rw [(setXfer_spec p j y u).1, hframe, hv]
    · rw [(setXfer_spec p j y u).1, hframe, hv]
    · rw [(setXfer_spec p j y u).1]
      rw [hv] at hlinks
      exact hlinks
    · rw [hv] at hfs
      exact hfs
  have hexec := exec_chuckDataArrival (n := n) (failed := failed) (data := data) hp hspan hxi hx
  unfold arriveBurst at hexec
  cases hb : x.burstAt s p with
  | none =>
    rw [hb] at hexec
    obtain ⟨u, y, rfl, hu⟩ := harrive s rfl
    exact ⟨_, y, hexec, hu⟩
  | some b =>
    obtain ⟨d, c⟩ := b
    rw [hb] at hexec
    dsimp only at hexec
    rw [if_pos hfailed] at hexec
    obtain ⟨u, y, hu, hrest⟩ := harrive (s.bump mcCrcRetries 0 d (min failed 8)) rfl
    rw [hu] at hexec
    exact ⟨_, y, hexec, hrest⟩

theorem burstAt_lt {s : State} {p d c : Nat} {x : Xfer} (h : x.burstAt s p = some (d, c)) : d < 16 := by
  unfold Xfer.burstAt at h
  split at h
  · cases h
  · obtain ⟨a, -, ha⟩ := Option.bind_eq_some_iff.1 h
    unfold gddrPlace at ha
    split at ha
    · next hrange =>
      cases ha
      simp only [gddrBase] at hrange ⊢
      omega
    · cases ha

/-- The record of a GDDR burst that failed after its last reissue (R352). -/
def burstRecord (k d c : Nat) : Rec := { code := 0x0605, action := 2, unit := 3, span := k, detail := leBytes 1 d ++ leBytes 1 c }

theorem chuckDataArrival_fails {p k st j xi n failed d c : Nat} {data : List Byte} {s : State} {x : Xfer} (hp : p < 192)
    (hspan : s.spanOf p = some (k, st)) (hxi : ((s.pier p).chuck j).xfers[xi]? = some x) (hx : FromGddr x) (hfailed : 8 < failed)
    (hb : x.burstAt s p = some (d, c)) (hstop : (s.span k).stop = none) :
    ∃ t, exec (.chuckDataArrival p j xi n failed data) s = .next t ∧ (t.span k).stop = some (.replay 0x0605 none) ∧
      t.reg mcCrcRetries 0 d = satAdd mcCrcRetries.w (s.reg mcCrcRetries 0 d) 8 ∧
      t.reg mcLinkFails 0 d = satAdd mcLinkFails.w (s.reg mcLinkFails 0 d) 1 ∧ t.piers = s.piers ∧ spansBut k s t ∧
      Recorded (burstRecord k d c) s t := by
  have hd := burstAt_lt hb
  let u := (s.bump mcCrcRetries 0 d 8).bump mcLinkFails 0 d 1
  have hexec : exec (.chuckDataArrival p j xi n failed data) s = .next (halted (burstRecord k d c) k (.replay 0x0605 none) u) := by
    rw [exec_chuckDataArrival hp hspan hxi hx, arriveBurst, hb]
    dsimp only
    rw [if_neg (by omega), Nat.min_eq_right (by omega)]
    rfl
  have hloaded : (tfind u.spans k).isSome = true := spanOf_loaded s p hspan
  have hkeys : mcCrcRetries.key 0 d ≠ mcLinkFails.key 0 d ∧ mcCrcRetries.key 0 d ≠ rasFaultWritten.key 0 0 ∧
      mcLinkFails.key 0 d ≠ rasFaultWritten.key 0 0 ∧ mcCrcRetries.key 0 d ≠ tbDeviceId.key 0 0 ∧ mcLinkFails.key 0 d ≠ tbDeviceId.key 0 0 := by
    simp only [Fld.key, mcCrcRetries, mcLinkFails, rasFaultWritten, tbDeviceId, Bool.false_eq_true, if_false]
    omega
  obtain ⟨hne, hcrc, hlink, hcrcId, hlinkId⟩ := hkeys
  have hkept := halted_regsBut (k := k) (st := Stop.replay 0x0605 none) (s := u) (rc := burstRecord k d c) (by change 2 < 4; decide)
  have hregs : regsBut [mcCrcRetries.key 0 d, mcLinkFails.key 0 d] s u :=
    ((regsBut_refl _ s).setReg _ (.head _)).setReg _ (.tail _ (.head _))
  refine ⟨_, hexec, ?_, ?_, ?_, ?_, ?_, ?_⟩
  · rw [halted_span hloaded hstop]
  · rw [hkept.reg_eq (by simpa using hcrc), reg_bump_ne _ 1 hne, reg_bump_same]
  · rw [hkept.reg_eq (by simpa using hlink), reg_bump_same, reg_bump_ne _ 8 hne.symm]
  · rw [halted_piers]
    rfl
  · exact fun i hi => halted_spansBut _ i hi
  · exact Recorded.of_regs (halted_recorded _) rfl hregs (by simp [hcrc, hlink, hcrcId, hlinkId])

/-! ### Pages that are not resident (R184, R185) -/

theorem flushPart_id (x : Xfer) : (flushPart x).id = x.id := by
  unfold flushPart
  split <;> rfl

section remote
variable {p j : Nat} {s : State} {x : Xfer} (hp : p < 192) (hx : (s.pier p).remoteXfer j = some x)
include hp hx

theorem exec_chuckPageStop (hphase : x.phase = .moving ∨ x.phase = .rowWait) : exec (.chuckPageStop p j) s = .next
    ((s.bump ckPageWaits p 0 1).setXfer p j { flushPart x with phase := .pageWait s.now (s.now + 1000 * s.reg ckRetryUs p 0) }) := by
  change execChuckPageStop p j s = _
  rw [execChuckPageStop, if_neg (by omega), hx]
  dsimp only
  rcases hphase with h | h
  · rw [h]
    rfl
  · rw [h]
    rfl

theorem chuckPageStop_spec (hphase : x.phase = .moving ∨ x.phase = .rowWait) : ∃ t, exec (.chuckPageStop p j) s = .next t ∧
    ((t.pier p).chuck j).xfers = ((s.pier p).chuck j).xfers.map (fun y => if y.id = x.id then
      { flushPart x with phase := .pageWait s.now (s.now + 1000 * s.reg ckRetryUs p 0) } else y) ∧
    t.reg ckPageWaits p 0 = satAdd ckPageWaits.w (s.reg ckPageWaits p 0) 1 ∧ piersBut p s t ∧
    t = { s with piers := t.piers, regs := t.regs } := by
  refine ⟨_, exec_chuckPageStop hp hx hphase, ?_, reg_bump_same s ckPageWaits p 0 1, (setXfer_spec p j _ _).2.1, rfl⟩
  rw [setXfer_xfers]
  exact congrArg (fun i => ((s.pier p).chuck j).xfers.map fun y => if y.id = i then _ else y) (flushPart_id x)

variable {since next : Nat} (hphase : x.phase = .pageWait since next)
include hphase

theorem exec_chuckRetry : exec (.chuckRetry p j) s = .next
    (if (((s.channelOf (windowOf x.d.farBase)).isSome || (s.win (windowOf x.d.farBase)).residency) = true ∨ x.d.dir = true) ∧
        accessOk s p x = true then
      (s.bump ckPageWaitUs p 0 ((s.now - since) / 1000)).setXfer p j { x with phase := .moving }
    else s.setXfer p j { x with phase := .pageWait since (s.now + 1000 * s.reg ckRetryUs p 0) }) := by
  change execChuckRetry p j s = _
  rw [execChuckRetry, if_neg (by omega), hx]
  dsimp only
  rw [hphase]
  dsimp only
  split
  · rw [pageResume, hphase]
  · rfl

theorem chuckRetry_resumes (hknown : ((s.channelOf (windowOf x.d.farBase)).isSome || (s.win (windowOf x.d.farBase)).residency) = true ∨
    x.d.dir = true) (hok : accessOk s p x = true) : ∃ t, exec (.chuckRetry p j) s = .next t ∧
    ((t.pier p).chuck j).xfers = ((s.pier p).chuck j).xfers.map (fun y => if y.id = x.id then { x with phase := .moving } else y) ∧
    piersBut p s t ∧ t = { s with piers := t.piers, regs := t.regs } := by
  refine ⟨_, (exec_chuckRetry hp hx hphase).trans (congrArg _ (if_pos ⟨hknown, hok⟩)), ?_, (setXfer_spec p j _ _).2.1, rfl⟩
  rw [setXfer_xfers]
  rfl

theorem chuckRetry_waits (hnot : (((s.channelOf (windowOf x.d.farBase)).isSome || (s.win (windowOf x.d.farBase)).residency) = false ∧
    x.d.dir = false) ∨ accessOk s p x = false) : ∃ t, exec (.chuckRetry p j) s = .next t ∧
    ((t.pier p).chuck j).xfers = ((s.pier p).chuck j).xfers.map (fun y => if y.id = x.id then
      { x with phase := .pageWait since (s.now + 1000 * s.reg ckRetryUs p 0) } else y) ∧
    piersBut p s t ∧ t = { s with piers := t.piers } := by
  refine ⟨_, (exec_chuckRetry hp hx hphase).trans (congrArg _ (if_neg ?_)), ?_, (setXfer_spec p j _ _).2.1, rfl⟩
  · rintro ⟨hknown, hok⟩
    rcases hnot with ⟨hwin, hdir⟩ | hbad
    · rw [hwin, hdir] at hknown
      exact absurd hknown (by decide)
    · rw [hbad] at hok
      exact absurd hok (by decide)
  · rw [setXfer_xfers]

end remote

/-- The record of a remote access that a stream gives up (R185). -/
def streamRecord (code p k j : Nat) (x : Xfer) : Rec :=
  { code := code, action := 3, unit := 1, pier := p, span := k, detail := streamDetail j x x.cursor }

section abort
variable {p k st j : Nat} {s : State} {x : Xfer} (hp : p < 192) (hspan : s.spanOf p = some (k, st))
include hp hspan

/-- What a stream that is given up does to its span. -/
theorem streamFault_spec (code : Nat) (x : Xfer) (hstop : (s.span k).stop = none) : let t := streamFault code p k j x x.cursor s
    t.piers = s.piers ∧ spansBut k s t ∧ t.span k = { s.span k with stop := some (.abort code) } ∧
      Recorded (streamRecord code p k j x) s t :=
  ⟨halted_piers (rc := streamRecord code p k j x) _, halted_spansBut (rc := streamRecord code p k j x) _,
    halted_span (rc := streamRecord code p k j x) (spanOf_loaded s p hspan) hstop _, halted_recorded (rc := streamRecord code p k j x) _⟩

variable (hx : (s.pier p).remoteXfer j = some x)
include hx

theorem exec_streamRemoteError : exec (.streamRemoteError p j) s = .next (streamFault 0x0304 p k j x x.cursor s) := by
  change execStreamRemoteError p j s = _
  rw [execStreamRemoteError, if_neg (by omega), hspan, hx]

theorem exec_chuckRemoteTimeout {since next : Nat} (hphase : x.phase = .pageWait since next)
    (hlate : since + 1000 * s.reg ckRemoteTimeoutUs p 0 ≤ s.now) :
    exec (.chuckRemoteTimeout p j) s = .next (streamFault 0x0302 p k j x x.cursor s) := by
  change execChuckRemoteTimeout p j s = _
  rw [execChuckRemoteTimeout, if_neg (by omega), hspan, hx]
  dsimp only
  rw [hphase]
  dsimp only
  rw [if_pos hlate]

end abort

/-- Settles O51: the events of the scoreboard and of chucks. -/
theorem transfers : Obligations.Transfers := by
  unfold Obligations.Transfers
  refine ⟨fun p k st e row n s hp hspan => ⟨fun he hstored hthen => sbRangeFull_spec hspan hp he hstored hthen,
      fun he hstored => sbRangeFull_held hspan hp he hstored,
      fun r2 n2 since he hstored hholds => sbRangeFull_arms hspan hp he hstored hholds,
      fun he hripe hthen => sbDrainDone_spec hspan hp he hripe hthen, sbDrainDone_idle hp⟩,
    fun p j s x hp hx hphase hdir => ⟨chuckResume_admits hp hx hphase hdir, fun r n => chuckResume_waits hp hx hphase hdir⟩,
    fun p k st j s x r hp hspan hx hdone hwaiting => chuckTransferDone_queues hp hspan hx hdone hwaiting,
    fun p k st j xi n failed data s x hp hspan hxi hdir hfar hphase hindex =>
      ⟨fun hfailed _ hhdr => chuckDataArrival_spec hp hspan hxi ⟨hdir, hfar, hphase, hindex⟩ hfailed hhdr,
        fun d c hfailed hb hstop => chuckDataArrival_fails hp hspan hxi ⟨hdir, hfar, hphase, hindex⟩ hfailed hb hstop⟩,
    fun p j s x hp hx => ⟨chuckPageStop_spec hp hx, fun since next hphase =>
      ⟨chuckRetry_resumes hp hx hphase, chuckRetry_waits hp hx hphase⟩⟩,
    fun p k st j s x hp hspan hx hstop => ⟨?_, fun since next hphase hlate => ?_⟩⟩
  · exact ⟨_, exec_streamRemoteError hp hspan hx, streamFault_spec hp hspan 0x0304 x hstop⟩
  · exact ⟨_, exec_chuckRemoteTimeout hp hspan hx hphase hlate, streamFault_spec hp hspan 0x0302 x hstop⟩

end Sys2Proof.Machine

/-! The four messages of a handshake (R399, R407, R421, R422, R424). -/
namespace Sys2Proof.Machine

/-! ### What a packet's count leaves unchanged -/

theorem Recorded.of_packet {rc : Rec} {k : Nat} (hk : k < 8) {s t : State} (h : Recorded rc (s.bump prtRxPackets 0 k 1) t) :
    Recorded rc s t := by
  refine h.of_regs (ks := [prtRxPackets.key 0 k]) rfl ((regsBut_refl _ s).setReg _ (.head _)) fun a ha => ?_
  obtain rfl := List.mem_singleton.1 ha
  simp only [Fld.key, prtRxPackets, rasFaultWritten, tbDeviceId, Bool.false_eq_true, if_false]
  omega

theorem peerIds_packet (k : Nat) (s : State) : (s.bump prtRxPackets 0 k 1).peerIds = s.peerIds := by
  unfold State.peerIds
  rw [dreg_packet (by decide)]
  rfl

theorem peerOk_packet (k : Nat) (s : State) (m : PeerMsg) : peerOk (s.bump prtRxPackets 0 k 1) m = peerOk s m := by
  rw [peerOk, peerIds_packet, peerOk]
  rfl

theorem oper_packet (k : Nat) (s : State) : (s.bump prtRxPackets 0 k 1).oper = s.oper := by
  rw [State.oper, dreg_packet (by decide), State.oper]
  rfl

theorem versionsOk_packet (k : Nat) (s : State) (m : PeerMsg) : versionsOk (s.bump prtRxPackets 0 k 1) m = versionsOk s m := by
  rw [versionsOk, oper_packet, versionsOk]
  rfl

/-! ### A handshake that fails (R421, R422) -/

/-- The record of a handshake that fails. -/
def authRecord (who : Option Nat) : Rec := { code := 0x0708, action := 0, unit := 6, detail := (who.map (leBytes 2)).getD [] }

/-- A failed handshake is counted and recorded, and nothing is answered. -/
def AuthFailed (who : Option Nat) (s t : State) : Prop := t.out = s.out ∧ t.slots = s.slots ∧
  t.dreg ksnAuthFails = satAdd ksnAuthFails.w (s.dreg ksnAuthFails) 1 ∧ Recorded (authRecord who) s t

/-- The peer whose handshake failed is in PEER_STATE 2. -/
def markFailed (who : Option Nat) (s : State) : State := match who with
  | some d => { s with peers := s.peers.map fun e => if e.1 = d then (d, { e.2 with state := 2 }) else e }
  | none => s

theorem markFailed_frame (who : Option Nat) (s : State) : markFailed who s = { s with peers := (markFailed who s).peers } := by
  cases who <;> rfl

theorem authFail_eq (who : Option Nat) (s : State) :
    authFail who s = markFailed who (raise (authRecord who) (s.bump ksnAuthFails 0 0 1)) := by
  cases who <;> rfl

theorem authFail_spec (who : Option Nat) (s : State) : AuthFailed who s (authFail who s) ∧ (authFail who s).ks = s.ks := by
  generalize hv : raise (authRecord who) (s.bump ksnAuthFails 0 0 1) = v
  have hframe := raise_frame (s.bump ksnAuthFails 0 0 1) (authRecord who)
  rw [hv] at hframe
  have hfails : v.dreg ksnAuthFails = satAdd ksnAuthFails.w (s.dreg ksnAuthFails) 1 := by
    rw [← hv, dreg_raise (rc := authRecord who) (by change 0 < 4; decide) (by decide)]
    exact reg_bump_same s ksnAuthFails 0 0 1
  have hrec : Recorded (authRecord who) s v := by
    rw [← hv]
    exact Recorded.of_regs (ks := [ksnAuthFails.key 0 0]) (raise_spec _ _).1 rfl ((regsBut_refl _ s).setReg _ (.head _)) (by decide)
  have hout : v.out = s.out ∧ v.slots = s.slots ∧ v.ks = s.ks := by
    rw [hframe]
    exact ⟨rfl, rfl, rfl⟩
  obtain ⟨hout, hslots, hks⟩ := hout
  rw [authFail_eq, hv, markFailed_frame]
  exact ⟨⟨hout, hslots, hfails, hrec.congr rfl rfl rfl rfl rfl rfl⟩, hks⟩

theorem AuthFailed.of_packet {who : Option Nat} {k : Nat} (hk : k < 8) {s t : State}
    (h : AuthFailed who (s.bump prtRxPackets 0 k 1) t) : AuthFailed who s t := by
  obtain ⟨hout, hslots, hfails, hrec⟩ := h
  have hkey : ksnAuthFails.key 0 0 ≠ prtRxPackets.key 0 k := by
    simp only [Fld.key, prtRxPackets, ksnAuthFails, Bool.false_eq_true, if_false]
    omega
  refine ⟨hout, hslots, ?_, hrec.of_packet hk⟩
  rw [hfails]
  exact congrArg (satAdd _ · 1) (reg_bump_ne s 1 hkey)

theorem AuthFailed.of_drop {who : Option Nat} {id : Nat} {s t : State} (h : AuthFailed who (dropHandshake id s) t) : AuthFailed who s t := by
  obtain ⟨hout, hslots, hfails, hrec⟩ := h
  exact ⟨hout, hslots, hfails, hrec.congr rfl rfl rfl rfl rfl rfl⟩

/-! ### HELLO (R421, R424) -/

/-- The secret that a HELLO and this device's next key share. -/
def helloShared (o : HelloOp) (s : State) : Nat := x25519 s.draw.1 (leNat o.x25519 % 2 ^ 255 % p25519)

/-- The handshake that a HELLO opens and the reply to it. -/
structure Replied (o : HelloOp) (device : Option Nat) (net : Nat) (s t : State) (hs : Handshake) (reply : List Byte) : Prop where
  ks : t.ks = { s.ks with handshakes := s.ks.handshakes ++ [hs] }
  id : hs.id = s.nextId
  port : hs.port = o.port
  partnerKey : hs.partnerKey = o.partnerKey
  claim : hs.claim = o.claim
  device : hs.device = device
  net : hs.net = net
  transcript : hs.transcript = sha3 (o.raw ++ reply)
  keys : hs.keys = sessionKeys (Config.kemEncap s.free o.mlkem).2 (helloShared o s) hs.transcript
  out : t.out = s.out ++ [.handshake o.port 2 reply]
  slots : t.slots = s.slots
  mem : t.mem = s.mem

theorem replyTo_spec (o : HelloOp) (device : Option Nat) (net : Nat) {s : State} (hshared : helloShared o s ≠ 0) :
    ∃ hs reply, Replied o device net s (replyTo o device net s) hs reply := by
  unfold replyTo
  extract_lets d d2 n pub ss kem h1 fields unsigned signed reply h2
  have hss : ss ≠ 0 := hshared
  rw [if_neg hss]
  exact ⟨{ id := s.nextId, port := o.port, partnerKey := o.partnerKey, claim := o.claim, operatorKey := o.operatorKey
           transcript := h2, keys := sessionKeys kem.2 ss h2, device := device, net := net, draw := n }, reply,
    rfl, rfl, rfl, rfl, rfl, rfl, rfl, rfl, rfl, rfl, rfl, rfl⟩

theorem replyTo_weak (o : HelloOp) (device : Option Nat) (net : Nat) {s : State} (hshared : helloShared o s = 0) :
    replyTo o device net s = authFail device s := by
  unfold replyTo
  extract_lets d d2 n pub ss kem h1 fields unsigned signed reply h2
  have hss : ss = 0 := hshared
  rw [if_pos hss]

/-- What a HELLO must pass (R421, R424). -/
def helloGood (o : HelloOp) (s : State) : Bool := match o.peer with
  | some m => peerOk s m && decide (m.device < s.dreg tbDeviceId)
  | none => credentialOk s o

theorem exec_hello {o : HelloOp} {s : State} (h : s.takes o.port) : exec (.hello o) s = .next
    (if s.ks.rngOk = false then s.bump prtRxPackets 0 o.port 1
    else if helloGood o s then replyTo o (o.peer.map (·.device)) ((o.peer.map (·.net)).getD 0) (s.bump prtRxPackets 0 o.port 1)
    else authFail (o.peer.map (·.device)) (s.bump prtRxPackets 0 o.port 1)) := by
  change execHello o s = _
  rw [execHello, onPort_takes o.port _ _ s _ h, helloGood]
  have hrng : (s.bump prtRxPackets 0 o.port 1).ks.rngOk = s.ks.rngOk := rfl
  rw [hrng]
  cases s.ks.rngOk with
  | false => rfl
  | true =>
    cases hpeer : o.peer with
    | none => rfl
    | some m =>
      dsimp only
      rw [peerOk_packet, dreg_packet (by decide)]
      simp

theorem hello_spec (o : HelloOp) (s : State) (h : s.takes o.port) (hrng : s.ks.rngOk = true) : ∃ t, exec (.hello o) s = .next t ∧
    if helloGood o s = true ∧ helloShared o s ≠ 0 then
      ∃ hs reply, Replied o (o.peer.map (·.device)) ((o.peer.map (·.net)).getD 0) s t hs reply
    else t.ks = s.ks ∧ AuthFailed (o.peer.map (·.device)) s t := by
  have hfail : (authFail (o.peer.map (·.device)) (s.bump prtRxPackets 0 o.port 1)).ks = s.ks ∧
      AuthFailed (o.peer.map (·.device)) s (authFail (o.peer.map (·.device)) (s.bump prtRxPackets 0 o.port 1)) := by
    obtain ⟨hfailed, hks⟩ := authFail_spec (o.peer.map (·.device)) (s.bump prtRxPackets 0 o.port 1)
    exact ⟨hks, hfailed.of_packet h.1⟩
  have hexec := exec_hello h
  rw [hrng, if_neg (by decide)] at hexec
  by_cases hgood : helloGood o s = true
  · rw [if_pos hgood] at hexec
    refine ⟨_, hexec, ?_⟩
    by_cases hshared : helloShared o s = 0
    · rw [if_neg (by simp [hshared]), replyTo_weak o _ _ (s := s.bump prtRxPackets 0 o.port 1) hshared]
      exact hfail
    · rw [if_pos ⟨hgood, hshared⟩]
      obtain ⟨hs, reply, r⟩ := replyTo_spec o (o.peer.map (·.device)) ((o.peer.map (·.net)).getD 0)
        (s := s.bump prtRxPackets 0 o.port 1) hshared
      exact ⟨hs, reply, r.ks, r.id, r.port, r.partnerKey, r.claim, r.device, r.net, r.transcript, r.keys, r.out, r.slots, r.mem⟩
  · rw [if_neg hgood] at hexec
    refine ⟨_, hexec, ?_⟩
    rw [if_neg (by simp [hgood])]
    exact hfail

/-! ### A peer connection that comes up (R399, R424) -/

/-- The peer of a message is up on its network, with its version. -/
def PeerUp (m : PeerMsg) (s t : State) : Prop := ∀ p, tfind s.peers m.device = some p → tfind t.peers m.device =
  some { p with state := 1, version := m.fwVersion, upA := p.upA || m.net == 0, upB := p.upB || m.net != 0 }

theorem connect_up {m : PeerMsg} {s : State} (hv : versionsOk s m = true) : PeerUp m s (connect m s) ∧
    (connect m s).out = s.out ∧ (connect m s).mem = s.mem ∧ (connect m s).ks = s.ks := by
  unfold connect
  rw [if_pos hv]
  dsimp only
  have hup : PeerUp m s (s.modPeer m.device fun p =>
      if m.net = 0 then { p with state := 1, version := m.fwVersion, upA := true }
      else { p with state := 1, version := m.fwVersion, upB := true }) := fun p hp => by
    rw [tfind_modPeer_same, hp]
    by_cases hnet : m.net = 0 <;> simp [hnet]
  have hframe : (s.modPeer m.device fun p =>
      if m.net = 0 then { p with state := 1, version := m.fwVersion, upA := true }
      else { p with state := 1, version := m.fwVersion, upB := true }) = { s with peers := _ } := rfl
  generalize (s.modPeer m.device fun p =>
      if m.net = 0 then { p with state := 1, version := m.fwVersion, upA := true }
      else { p with state := 1, version := m.fwVersion, upB := true }) = u at hup hframe ⊢
  have hrest : u.out = s.out ∧ u.mem = s.mem ∧ u.ks = s.ks := by
    rw [hframe]
    exact ⟨rfl, rfl, rfl⟩
  split
  · exact ⟨hup, hrest⟩
  · exact ⟨hup, hrest⟩

/-- The record of a peer whose versions differ too far. -/
def versionRecord (m : PeerMsg) : Rec := { code := 0x0801, action := 0, unit := 6, detail := leBytes 2 m.device }

theorem connect_apart {m : PeerMsg} {s : State} (hv : versionsOk s m = false) : Recorded (versionRecord m) s (connect m s) ∧
    (∀ p, tfind s.peers m.device = some p → tfind (connect m s).peers m.device = some { p with state := 3 }) ∧
    (connect m s).ks = s.ks := by
  unfold connect
  rw [hv, if_neg (by decide)]
  dsimp only
  generalize hu : s.modPeer m.device (fun p => { p with state := 3 }) = u
  have hrec : Recorded (versionRecord m) s (raise (versionRecord m) u) :=
    (raise_spec (versionRecord m) u).1.congr (hu ▸ rfl) (hu ▸ rfl) (hu ▸ rfl) (hu ▸ rfl) rfl rfl
  have hframe := raise_frame u (versionRecord m)
  have hpeers : (raise (versionRecord m) u).peers = u.peers ∧ (raise (versionRecord m) u).ks = u.ks := by
    rw [hframe]
    exact ⟨rfl, rfl⟩
  have hstate : ∀ p, tfind s.peers m.device = some p → tfind u.peers m.device = some { p with state := 3 } := fun p hp => by
    rw [← hu, tfind_modPeer_same, hp]
    rfl
  change Recorded _ s (if (raise (versionRecord m) u).isBuddy m.device then (raise (versionRecord m) u).setDreg prtBuddyState 2
    else raise (versionRecord m) u) ∧ (∀ p, _ → tfind (if (raise (versionRecord m) u).isBuddy m.device then
      (raise (versionRecord m) u).setDreg prtBuddyState 2 else raise (versionRecord m) u).peers _ = _) ∧
    (if (raise (versionRecord m) u).isBuddy m.device then (raise (versionRecord m) u).setDreg prtBuddyState 2
      else raise (versionRecord m) u).ks = _
  generalize raise (versionRecord m) u = v at hrec hframe hpeers ⊢
  have hks : v.ks = s.ks := hpeers.2.trans (hu ▸ rfl)
  split
  · exact ⟨hrec.setDreg 2 (by decide), fun p hp => (congrArg (tfind · _) hpeers.1).trans (hstate p hp), hks⟩
  · exact ⟨hrec, fun p hp => (congrArg (tfind · _) hpeers.1).trans (hstate p hp), hks⟩

/-! ### REPLY and ACCEPT (R424) -/

section peer
variable {m : PeerMsg} {s : State} {h : Handshake} (hs : s.takesPeer m.net)
include hs

theorem reply_spec (hh : s.peerHandshake m false = some h) :
    let shared := x25519 (Config.draw h.draw) (getLe m.raw 48 32 % 2 ^ 255 % p25519)
    ∃ t, exec (.reply m) s = .next t ∧
      if peerOk s m = true ∧ shared ≠ 0 then ∃ (x : Handshake) (b : List Byte),
        t.ks.handshakes = (s.ks.handshakes.filter fun y => y.id != h.id) ++ [x] ∧
        x = { h with transcript := sha3 (h.transcript ++ m.raw)
                     keys := sessionKeys (Config.kemDecap h.draw (slice m.raw 80 1088)) shared (sha3 (h.transcript ++ m.raw)) } ∧
        t.out = s.out ++ [.handshake (4 * m.net) 3 b]
      else t.ks.handshakes = (s.ks.handshakes.filter fun y => y.id != h.id) ∧ AuthFailed (some m.device) s t := by
  intro shared
  have hexec : exec (.reply m) s = execReply m s := rfl
  rw [hexec, execReply, onPeer_takes m.net _ _ s _ hs, hh]
  dsimp only
  by_cases hgood : peerOk s m = true ∧ shared ≠ 0
  · rw [if_neg (not_or.2 ⟨by simp [hgood.1], hgood.2⟩)]
    refine ⟨_, rfl, ?_⟩
    rw [if_pos hgood]
    exact ⟨_, _, rfl, rfl, rfl⟩
  · have hbad : (!peerOk s m) = true ∨ shared = 0 := by
      rcases Decidable.not_and_iff_not_or_not.1 hgood with hpeer | hzero
      · exact .inl (by simpa using hpeer)
      · exact .inr (Classical.not_not.1 hzero)
    rw [if_pos hbad]
    refine ⟨_, rfl, ?_⟩
    rw [if_neg hgood]
    obtain ⟨hfailed, hks⟩ := authFail_spec (some m.device) (dropHandshake h.id s)
    exact ⟨by rw [hks]; rfl, hfailed.of_drop⟩

theorem exec_accept (hh : s.peerHandshake m true = some h) :
    exec (.accept m) s = .next (if m.sigOk then connect m (dropHandshake h.id s) else s) := by
  change execAccept m s = _
  rw [execAccept, onPeer_takes m.net _ _ s _ hs, hh]

theorem accept_spec (hh : s.peerHandshake m true = some h) (hsig : m.sigOk = true) : ∃ t, exec (.accept m) s = .next t ∧
    t.ks.handshakes = (s.ks.handshakes.filter fun y => y.id != h.id) ∧
    (versionsOk s m = true → PeerUp m s t ∧ t.mem = s.mem) ∧
    (versionsOk s m = false → Recorded (versionRecord m) s t ∧
      ∀ p, tfind s.peers m.device = some p → tfind t.peers m.device = some { p with state := 3 }) := by
  refine ⟨_, (exec_accept hs hh).trans (congrArg _ (if_pos hsig)), ?_, fun hv => ?_, fun hv => ?_⟩
  · have hks : (connect m (dropHandshake h.id s)).ks = (dropHandshake h.id s).ks := by
      cases hv : versionsOk (dropHandshake h.id s) m with
      | true => exact (connect_up hv).2.2.2
      | false => exact (connect_apart hv).2.2
    rw [hks]
    rfl
  · obtain ⟨hup, -, hmem, -⟩ := connect_up (s := dropHandshake h.id s) (m := m) hv
    exact ⟨hup, hmem⟩
  · obtain ⟨hrec, hstate, -⟩ := connect_apart (s := dropHandshake h.id s) (m := m) hv
    exact ⟨hrec.congr rfl rfl rfl rfl rfl rfl, hstate⟩

end peer

/-! ### FINISH (R421, R422) -/

/-- Queue pairs added for slot `p` follow those there are; they take random numbers and nothing else. -/
theorem addQps_spec (p : Nat) (f : Nat → Nat × Nat) (l : List Nat) (s : State) : let t := l.foldl (fun s i => addQp p i (f i) s) s
    t = { s with qps := t.qps, free := t.free } ∧ ∃ qs, t.qps = s.qps ++ qs ∧ qs.length = l.length ∧ ∀ q ∈ qs, q.slot = p := by
  induction l generalizing s with
  | nil => exact ⟨rfl, [], (List.append_nil _).symm, rfl, nofun⟩
  | cons i l ih =>
    obtain ⟨hframe, qs, hqs, hlen, hslot⟩ := ih (addQp p i (f i) s)
    have hone : ∃ q : Qp, q.slot = p ∧ (addQp p i (f i) s).qps = s.qps ++ [q] := ⟨_, rfl, rfl⟩
    obtain ⟨q, hq, hadd⟩ := hone
    refine ⟨hframe.trans rfl, q :: qs, ?_, congrArg (· + 1) hlen, fun x hx => ?_⟩
    · rw [List.foldl_cons, hqs, hadd, List.append_assoc]
      rfl
    · obtain rfl | hx := List.mem_cons.1 hx
      · exact hq
      · exact hslot x hx

/-- The two system windows of slot `p` open. -/
theorem openSystem_spec (w v p a b n m : Nat) (hne : w ≠ v) (s : State) : let t := openSystem w p a n (openSystem v p b m s)
    t = { s with windows := t.windows } ∧
      t.win w = { s.win w with st := .opened, owner := p, remote := false, base := a, length := n } ∧
      t.win v = { s.win v with st := .opened, owner := p, remote := false, base := b, length := m } := by
  refine ⟨rfl, ?_, ?_⟩
  · rw [openSystem, win_setWin_same, openSystem, win_setWin_ne _ _ hne]
  · rw [openSystem, win_setWin_ne _ _ hne.symm, openSystem, win_setWin_same]

/-- The slot of a partner that has just attached. -/
def attachedSlot (h : Handshake) (now : Nat) : Slot :=
  { partnerKey := h.partnerKey, keys := h.keys, ctrIn := 0, ctrOut := 1, home := h.port, standby := (h.port + 4) % 8, lastMgmt := now }

/-- What a partner that attaches in slot `p` gets: the slot, six queue pairs and two open windows. -/
structure AttachedAt (h : Handshake) (p : Nat) (s t : State) : Prop where
  out : ∃ b, t.out = s.out ++ [.handshake h.port 4 b]
  mem : t.mem = s.mem
  handshakes : t.ks.handshakes = s.ks.handshakes
  slots : t.slots = tput s.slots p (attachedSlot h s.now)
  qps : ∃ qs, t.qps = s.qps ++ qs ∧ qs.length = 6 ∧ ∀ q ∈ qs, q.slot = p
  submission : t.win (2 * p) = { s.win (2 * p) with
    st := .opened, owner := p, remote := false, base := llmBase + 0x100000 * (p + 1), length := 0x100000 }
  credit : t.win (2 * p + 1) = { s.win (2 * p + 1) with
    st := .opened, owner := p, remote := false, base := llmBase + 0x10000 + 0x1000 * p, length := 0x1000 }

/-- The device with the slot, queue pairs and windows of a new partner. -/
def newPartner (h : Handshake) (p : Nat) (qps : List (Nat × Nat)) (s : State) : State :=
  openSystem (2 * p) p (llmBase + 0x100000 + p * 0x100000) 0x100000
    (openSystem (2 * p + 1) p (llmBase + 0x10000 + p * 0x1000) 0x1000
      ((List.range 6).foldl (fun s i => addQp p i (qps.getD i (0, 0)) s) { s with slots := tput s.slots p (attachedSlot h s.now) }))

/-- A device without an operator is the one's whose partner claims it. -/
def claimedBy (h : Handshake) (s : State) : State :=
  if s.ks.operatorHash.isEmpty && h.claim then { s with ks := { s.ks with operatorHash := sha3 h.operatorKey } } else s

theorem claimedBy_frame (h : Handshake) (s : State) : claimedBy h s = { s with ks := (claimedBy h s).ks } ∧
    (claimedBy h s).ks.handshakes = s.ks.handshakes := by
  unfold claimedBy
  split <;> exact ⟨rfl, rfl⟩

theorem attach_some {h : Handshake} {p : Nat} (qps : List (Nat × Nat)) {s : State} (hp : lowestFree s.slots 0 8 = some p) :
    ∃ b, attach h qps s = (claimedBy h (newPartner h p qps s)).send (.handshake h.port 4 b) := by
  unfold attach
  split
  · next hnone => exact nomatch hp.symm.trans hnone
  · next p' hsome =>
    obtain rfl := Option.some.inj (hp.symm.trans hsome)
    exact ⟨_, rfl⟩

/-- What the slot, queue pairs and windows of a new partner leave, and what they are. -/
theorem newPartner_spec (h : Handshake) (p : Nat) (qps : List (Nat × Nat)) (s : State) : let t := newPartner h p qps s
    t = { s with slots := t.slots, qps := t.qps, free := t.free, windows := t.windows } ∧
      t.slots = tput s.slots p (attachedSlot h s.now) ∧ (∃ qs, t.qps = s.qps ++ qs ∧ qs.length = 6 ∧ ∀ q ∈ qs, q.slot = p) ∧
      t.win (2 * p) = { s.win (2 * p) with
        st := .opened, owner := p, remote := false, base := llmBase + 0x100000 * (p + 1), length := 0x100000 } ∧
      t.win (2 * p + 1) = { s.win (2 * p + 1) with
        st := .opened, owner := p, remote := false, base := llmBase + 0x10000 + 0x1000 * p, length := 0x1000 } := by
  obtain ⟨hframe, qs, hqs, hlen, hslot⟩ := addQps_spec p (fun i => qps.getD i (0, 0)) (List.range 6)
    { s with slots := tput s.slots p (attachedSlot h s.now) }
  rw [newPartner]
  generalize (List.range 6).foldl (fun s i => addQp p i (qps.getD i (0, 0)) s) { s with slots := tput s.slots p (attachedSlot h s.now) } = u
    at hframe hqs ⊢
  obtain ⟨hframe', hwin, hwin'⟩ := openSystem_spec (2 * p) (2 * p + 1) p (llmBase + 0x100000 + p * 0x100000)
    (llmBase + 0x10000 + p * 0x1000) 0x100000 0x1000 (by omega) u
  have hbase : llmBase + 0x100000 + p * 0x100000 = llmBase + 0x100000 * (p + 1) ∧
      llmBase + 0x10000 + p * 0x1000 = llmBase + 0x10000 + 0x1000 * p := by omega
  have hwins : ∀ w, u.win w = s.win w := fun w => by
    rw [State.win, hframe]
    rfl
  refine ⟨?_, ?_, ⟨qs, hqs, hlen, hslot⟩, ?_, ?_⟩
  · rw [hframe', hframe]
  · rw [hframe', hframe]
  · rw [hwin, hwins, hbase.1]
  · rw [hwin', hwins, hbase.2]

theorem attach_spec {h : Handshake} {p : Nat} (qps : List (Nat × Nat)) {s : State} (hp : lowestFree s.slots 0 8 = some p) :
    AttachedAt h p s (attach h qps s) := by
  obtain ⟨b, hb⟩ := attach_some (h := h) qps hp
  obtain ⟨hframe, hslots, hqps, hsub, hcredit⟩ := newPartner_spec h p qps s
  rw [hb]
  generalize newPartner h p qps s = u at *
  obtain ⟨hclaim, hhs⟩ := claimedBy_frame h u
  generalize claimedBy h u = v at *
  have hwins : ∀ w, v.win w = u.win w := fun w => by
    rw [State.win, hclaim]
    rfl
  have hfields : v.out = s.out ∧ v.mem = s.mem ∧ u.ks = s.ks := by
    rw [hclaim, hframe]
    exact ⟨rfl, rfl, rfl⟩
  obtain ⟨hout, hmem, hks⟩ := hfields
  refine ⟨⟨b, congrArg (· ++ [_]) hout⟩, hmem, hhs.trans (congrArg Keystone.handshakes hks), ?_, ?_, ?_, ?_⟩
  · refine Eq.trans ?_ hslots
    rw [hclaim]
    rfl
  · obtain ⟨qs, hqs, hrest⟩ := hqps
    refine ⟨qs, Eq.trans ?_ hqs, hrest⟩
    rw [hclaim]
    rfl
  · exact (hwins _).trans hsub
  · exact (hwins _).trans hcredit

theorem attach_full {h : Handshake} (qps : List (Nat × Nat)) {s : State} (hfull : lowestFree s.slots 0 8 = none) :
    ∃ b, attach h qps s = s.send (.handshake h.port 4 b) := by
  unfold attach
  rw [hfull]
  exact ⟨_, rfl⟩

section finish
variable {o : FinishOp} {s : State} {h : Handshake} (hh : s.ks.handshakes.find? (fun h => h.id = o.hs) = some h) (ht : s.takes h.port)
include hh ht

theorem exec_finish_refused (hbad : o.aeadOk = false ∨ h.keys = []) : exec (.finish o) s = .next (s.bump prtRxPackets 0 h.port 1) := by
  change execFinish o s = _
  rw [execFinish, hh]
  dsimp only
  rw [onPort_takes h.port _ _ s _ ht, if_pos]
  rcases hbad with haead | hkeys
  · exact .inl (by simp [haead])
  · exact .inr (by simp [hkeys])

variable (haead : o.aeadOk = true) (hkeys : h.keys ≠ [])
include haead hkeys

theorem exec_finish_partner (hd : h.device = none) (hpeer : o.peer = none) : exec (.finish o) s = .next
    (if Config.mldsaVerify h.partnerKey h.transcript o.signature then attach h o.qps (dropHandshake h.id (s.bump prtRxPackets 0 h.port 1))
      else authFail none (dropHandshake h.id (s.bump prtRxPackets 0 h.port 1))) := by
  change execFinish o s = _
  rw [execFinish, hh]
  dsimp only
  rw [onPort_takes h.port _ _ s _ ht, if_neg (by simp [haead, hkeys]), hd, hpeer]

theorem exec_finish_peer {d : Nat} {m : PeerMsg} (hd : h.device = some d) (hpeer : o.peer = some m) : ∃ b, exec (.finish o) s = .next
    (if m.sigOk then (connect m (dropHandshake h.id (s.bump prtRxPackets 0 h.port 1))).send (.handshake h.port 4 b)
      else authFail (some m.device) (dropHandshake h.id (s.bump prtRxPackets 0 h.port 1))) := by
  have hexec : exec (.finish o) s = execFinish o s := rfl
  rw [hexec, execFinish, hh]
  dsimp only
  rw [onPort_takes h.port _ _ s _ ht, if_neg (by simp [haead, hkeys]), hd, hpeer]
  exact ⟨_, rfl⟩

omit haead hkeys in
theorem finish_id : h.id = o.hs := by simpa using List.find?_some hh

omit haead hkeys in
/-- A failed FINISH as a failed handshake of the state before. -/
theorem finish_failed (who : Option Nat) : AuthFailed who s (authFail who (dropHandshake h.id (s.bump prtRxPackets 0 h.port 1))) ∧
    (authFail who (dropHandshake h.id (s.bump prtRxPackets 0 h.port 1))).ks.handshakes =
      s.ks.handshakes.filter fun y => y.id != o.hs := by
  obtain ⟨hfailed, hks⟩ := authFail_spec who (dropHandshake h.id (s.bump prtRxPackets 0 h.port 1))
  refine ⟨hfailed.of_drop.of_packet ht.1, ?_⟩
  rw [hks, ← finish_id hh ht]
  rfl

theorem finish_attaches (hd : h.device = none) (hpeer : o.peer = none)
    (hsig : Config.mldsaVerify h.partnerKey h.transcript o.signature = true) :
    ∃ t, exec (.finish o) s = .next t ∧ t.ks.handshakes = (s.ks.handshakes.filter fun y => y.id != o.hs) ∧
      (∃ b, t.out = s.out ++ [.handshake h.port 4 b]) ∧ t.mem = s.mem ∧
      (∀ p, lowestFree s.slots 0 8 = some p → AttachedAt h p (dropHandshake h.id (s.bump prtRxPackets 0 h.port 1)) t) ∧
      (lowestFree s.slots 0 8 = none → t.slots = s.slots ∧ t.qps = s.qps ∧ t.windows = s.windows) := by
  have hexec := exec_finish_partner hh ht haead hkeys hd hpeer
  rw [if_pos hsig] at hexec
  refine ⟨_, hexec, ?_⟩
  have hid := finish_id hh ht
  cases hfree : lowestFree s.slots 0 8 with
  | none =>
    obtain ⟨b, hb⟩ := attach_full (h := h) o.qps (s := dropHandshake h.id (s.bump prtRxPackets 0 h.port 1)) hfree
    rw [hb]
    exact ⟨by rw [← hid]; rfl, ⟨b, rfl⟩, rfl, nofun, fun _ => ⟨rfl, rfl, rfl⟩⟩
  | some p =>
    have ha := attach_spec (h := h) o.qps (s := dropHandshake h.id (s.bump prtRxPackets 0 h.port 1)) hfree
    refine ⟨ha.handshakes.trans (by rw [← hid]; rfl), ha.out, ha.mem, fun q hq => Option.some.inj hq ▸ ha, nofun⟩

theorem finish_peer_spec {d : Nat} {m : PeerMsg} (hd : h.device = some d) (hpeer : o.peer = some m) :
    ∃ t, exec (.finish o) s = .next t ∧ t.ks.handshakes = (s.ks.handshakes.filter fun y => y.id != o.hs) ∧
      (m.sigOk = true → versionsOk s m = true → PeerUp m s t ∧ ∃ b, t.out = s.out ++ [.handshake h.port 4 b]) ∧
      (m.sigOk = false → AuthFailed (some m.device) s t) := by
  obtain ⟨b, hexec⟩ := exec_finish_peer hh ht haead hkeys hd hpeer
  have hid := finish_id hh ht
  cases hsig : m.sigOk with
  | false =>
    rw [hsig, if_neg (by decide)] at hexec
    obtain ⟨hfailed, hhs⟩ := finish_failed hh ht (some m.device)
    exact ⟨_, hexec, hhs, nofun, fun _ => hfailed⟩
  | true =>
    rw [hsig, if_pos rfl] at hexec
    have hversions : versionsOk (dropHandshake h.id (s.bump prtRxPackets 0 h.port 1)) m = versionsOk s m := versionsOk_packet h.port s m
    generalize hu : dropHandshake h.id (s.bump prtRxPackets 0 h.port 1) = u at hexec hversions
    have hfields : u.ks.handshakes = (s.ks.handshakes.filter fun y => y.id != o.hs) ∧ u.out = s.out ∧ u.peers = s.peers := by
      rw [← hu, ← hid]
      exact ⟨rfl, rfl, rfl⟩
    obtain ⟨hhs, hout, hpeers⟩ := hfields
    refine ⟨_, hexec, ?_, fun _ hv => ?_, nofun⟩
    · have hks : (connect m u).ks = u.ks := by
        cases hv : versionsOk u m with
        | true => exact (connect_up hv).2.2.2
        | false => exact (connect_apart hv).2.2
      exact (congrArg Keystone.handshakes hks).trans hhs
    · obtain ⟨hup, hsent, -, -⟩ := connect_up (hversions.trans hv)
      refine ⟨fun p hp => hup p (hpeers ▸ hp), b, ?_⟩
      exact congrArg (· ++ [_]) (hsent.trans hout)

end finish

/-- Settles O55: HELLO, FINISH, REPLY and ACCEPT. -/
theorem handshakes : Obligations.Handshakes := by
  unfold Obligations.Handshakes
  refine ⟨fun o s h => ⟨fun hrng => ⟨_, (exec_hello h).trans (congrArg _ (if_pos hrng)), rfl, (regsBut_refl _ s).setReg _ (.head _)⟩, fun hrng => ?_⟩,
    fun o s h hh ht => ⟨fun hbad => ⟨_, exec_finish_refused hh ht hbad, rfl⟩, fun haead hkeys hd hpeer => ?_,
      fun d m haead hkeys hd hpeer => finish_peer_spec hh ht haead hkeys hd hpeer⟩,
    fun m s h hs => ⟨reply_spec hs, accept_spec hs, fun hh hsig => (exec_accept hs hh).trans (congrArg _ (if_neg (by simp [hsig])))⟩⟩
  · obtain ⟨t, hexec, hspec⟩ := hello_spec o s h hrng
    refine ⟨t, hexec, ?_⟩
    by_cases hgood : helloGood o s = true ∧ helloShared o s ≠ 0
    · rw [if_pos hgood] at hspec
      obtain ⟨hs, reply, r⟩ := hspec
      refine (if_pos hgood).mpr ⟨hs, reply, r.ks, r.id, r.port, r.partnerKey, r.claim, r.device, r.net, r.transcript, r.keys, r.out,
        r.slots, r.mem⟩
    · rw [if_neg hgood] at hspec
      exact (if_neg hgood).mpr hspec
  · by_cases hsig : Config.mldsaVerify h.partnerKey h.transcript o.signature = true
    · obtain ⟨t, hexec, hhs, hout, hmem, hattached, hfull⟩ := finish_attaches hh ht haead hkeys hd hpeer hsig
      refine ⟨t, hexec, hhs, ?_⟩
      rw [if_pos hsig]
      refine ⟨hout, hmem, fun p hp => ?_, hfull⟩
      obtain ⟨-, -, -, hslots, ⟨qs, hqs, hlen, hslot⟩, hsub, hcredit⟩ := hattached p hp
      refine ⟨attachedSlot h s.now, qs, by rw [hslots, tfind_tput_same]; rfl, rfl, rfl, rfl, rfl, rfl, rfl, rfl, rfl, fun q hq => ?_,
        hqs, hlen, hslot, hsub, hcredit⟩
      rw [hslots, tfind_tput_ne _ _ hq]
      rfl
    · have hexec := exec_finish_partner hh ht haead hkeys hd hpeer
      rw [if_neg hsig] at hexec
      obtain ⟨hfailed, hhs⟩ := finish_failed hh ht none
      refine ⟨_, hexec, hhs, ?_⟩
      rw [if_neg hsig]
      exact hfailed

end Sys2Proof.Machine

/-! A new system image (R396 to R399, Table 15-2). -/
namespace Sys2Proof.Machine

/-! ### What an install changes (R397, R399, R400) -/

/-- Only random numbers, memory and the system image differ. -/
def PlaceOnly (s t : State) : Prop := t = { s with free := t.free, mem := t.mem, sys := t.sys }

theorem PlaceOnly.trans {s t u : State} (h : PlaceOnly s t) (h' : PlaceOnly t u) : PlaceOnly s u := by
  rw [PlaceOnly, h', h]

theorem placeOnly_stamp (s : State) (a : Nat) (bs : List Byte) : PlaceOnly s (s.draw.2.wr a bs) := rfl

theorem placeOnly_placeChannel {me : Nat} {c : Channel} {acc : Option (State × List Channel)} {e : State × List Channel}
    (h : placeChannel me c acc = some e) : ∃ a, acc = some a ∧ PlaceOnly a.1 e.1 := by
  obtain ⟨⟨u, done⟩, hacc, hplace⟩ := Option.bind_eq_some_iff.1 h
  dsimp only at hplace
  obtain ⟨b, -, hstamp⟩ := Option.bind_eq_some_iff.1 hplace
  obtain ⟨a, -, he⟩ := Option.map_eq_some_iff.1 hstamp
  have hu := congrArg Prod.fst he
  exact ⟨(u, done), hacc, hu ▸ placeOnly_stamp u _ _⟩

theorem placeOnly_placeChannels {me : Nat} (cs : List Channel) {acc : Option (State × List Channel)} {e : State × List Channel}
    (h : cs.foldl (fun a c => placeChannel me c a) acc = some e) : ∃ a, acc = some a ∧ PlaceOnly a.1 e.1 := by
  induction cs generalizing acc with
  | nil => exact ⟨e, h, rfl⟩
  | cons c cs ih =>
    obtain ⟨a, hone, hrest⟩ := ih h
    obtain ⟨a0, hacc, hfirst⟩ := placeOnly_placeChannel hone
    exact ⟨a0, hacc, hfirst.trans hrest⟩

/-- Only what a HELLO to a peer takes and leaves differs. -/
def HelloOnly (s t : State) : Prop := t = { s with free := t.free, nextId := t.nextId, ks := t.ks, lie := t.lie, out := t.out }

theorem HelloOnly.trans {s t u : State} (h : HelloOnly s t) (h' : HelloOnly t u) : HelloOnly s u := by
  rw [HelloOnly, h', h]

theorem helloOnly_helloPeer (d n : Nat) (s : State) : HelloOnly s (helloPeer d n s) := by
  unfold helloPeer
  dsimp only
  split <;> rfl

/-- The registers of an installed system image. -/
def sysRegs (me : SysDev) (bs : List Byte) : List (Fld × Nat) :=
  [(tbDeviceId, me.id), (tbIdValid, 1), (tbSysimgGen, getLe bs 0x10 4), (tbOperVersion, getLe bs 6 1),
    (prtBuddyId, me.buddy.getD 0), (prtBuddyNone, if me.buddy.isNone then 1 else 0), (prtBuddyState, if me.buddy.isNone then 0 else 2)]

/-- The registers of an image as they read after its install. -/
structure Installed (me : SysDev) (bs : List Byte) (t : State) : Prop where
  deviceId : t.dreg tbDeviceId = me.id % 4096
  idValid : t.dreg tbIdValid = 1
  gen : t.dreg tbSysimgGen = getLe bs 0x10 4 % 2 ^ 32
  oper : t.dreg tbOperVersion = getLe bs 6 1 % 2 ^ 8
  buddyNone : t.dreg prtBuddyNone = if me.buddy.isNone then 1 else 0
  buddyId : t.dreg prtBuddyId = me.buddy.getD 0 % 4096
  buddyState : t.dreg prtBuddyState = if me.buddy.isNone then 0 else 2

/-- Of registers set one by one, each reads as it was set. -/
theorem dreg_setAll {l : List (Fld × Nat)} (hl : (l.map fun r => r.1.key 0 0).Nodup) {f : Fld} {v : Nat} (h : (f, v) ∈ l) (s : State) :
    (l.foldl (fun s r => s.setDreg r.1 r.2) s).dreg f = v % 2 ^ f.w := by
  have hkept : ∀ (l : List (Fld × Nat)) (s : State), f.key 0 0 ∉ l.map (fun r => r.1.key 0 0) →
      (l.foldl (fun s r => s.setDreg r.1 r.2) s).dreg f = s.dreg f := by
    intro l
    induction l with
    | nil => exact fun _ _ => rfl
    | cons r l ih =>
      intro s hf
      rw [List.map_cons, List.mem_cons, not_or] at hf
      rw [List.foldl_cons, ih _ hf.2, dreg_setDreg_ne s _ hf.1]
  induction l generalizing s with
  | nil => exact nomatch h
  | cons r l ih =>
    obtain ⟨hr, hl⟩ := List.nodup_cons.1 hl
    obtain rfl | h := List.mem_cons.1 h
    · rw [List.foldl_cons, hkept l _ hr, dreg_setDreg_same]
    · exact ih hl h _

theorem installed_sysRegs (me : SysDev) (bs : List Byte) (s : State) :
    Installed me bs ((sysRegs me bs).foldl (fun s r => s.setDreg r.1 r.2) s) := by
  have hkeys : (sysRegs me bs).map (fun r => r.1.key 0 0) = [tbDeviceId.key 0 0, tbIdValid.key 0 0, tbSysimgGen.key 0 0,
      tbOperVersion.key 0 0, prtBuddyId.key 0 0, prtBuddyNone.key 0 0, prtBuddyState.key 0 0] := rfl
  have hnodup : ((sysRegs me bs).map fun r => r.1.key 0 0).Nodup := by
    rw [hkeys]
    decide
  have hread : ∀ {f : Fld} {v : Nat}, (f, v) ∈ sysRegs me bs → ((sysRegs me bs).foldl (fun s r => s.setDreg r.1 r.2) s).dreg f = v % 2 ^ f.w :=
    fun h => dreg_setAll hnodup h s
  exact
    { deviceId := hread (by simp [sysRegs])
      idValid := hread (f := tbIdValid) (v := 1) (by simp [sysRegs])
      gen := hread (by simp [sysRegs])
      oper := hread (by simp [sysRegs])
      buddyNone := (hread (f := prtBuddyNone) (v := if me.buddy.isNone then 1 else 0) (by simp [sysRegs])).trans (by split <;> rfl)
      buddyId := hread (by simp [sysRegs])
      buddyState := (hread (f := prtBuddyState) (v := if me.buddy.isNone then 0 else 2) (by simp [sysRegs])).trans (by split <;> rfl) }

/-- The peers that a device with the image has, each unreachable from the start. -/
def unreachable (now : Nat) (u : State) : State := { u with peers := u.peerIds.map fun d => (d, { state := 2, downAt := now }) }

/-- A device that has its image and its peers opens the connections that are its own to open (R399). -/
def openConnections (me : Nat) (u v : State) : State :=
  (u.peerIds.filter fun d => me < d).foldl (fun s d => helloPeer d 1 (helloPeer d 0 s)) v

theorem helloOnly_openConnections (me : Nat) (u v : State) : HelloOnly v (openConnections me u v) :=
  foldl_rel (R := HelloOnly) (fun _ => rfl) HelloOnly.trans (f := fun (s : State) (d : Nat) => helloPeer d 1 (helloPeer d 0 s))
    (fun s d => (helloOnly_helloPeer d 0 s).trans (helloOnly_helloPeer d 1 _)) _ v

/-- The image in force, with its registers. -/
def inForce (i : SysImg) (me : SysDev) (bs : List Byte) (cs : List Channel) (s : State) : State :=
  (sysRegs me bs).foldl (fun s r => s.setDreg r.1 r.2) { s with sys := some { i with channels := cs } }

theorem inForce_frame (i : SysImg) (me : SysDev) (bs : List Byte) (cs : List Channel) (s : State) :
    inForce i me bs cs s = { s with sys := some { i with channels := cs }, regs := (inForce i me bs cs s).regs } :=
  foldl_rel (R := fun s t => t = { s with regs := t.regs }) (fun _ => rfl) (fun h h' => by rw [h', h])
    (f := fun (s : State) (r : Fld × Nat) => s.setDreg r.1 r.2) (fun _ _ => rfl) (sysRegs me bs) { s with sys := some { i with channels := cs } }

theorem installSys_eq (i : SysImg) (me : SysDev) (bs : List Byte) (cs : List Channel) (s : State) :
    installSys i me bs cs s = openConnections me.id (inForce i me bs cs s) (unreachable s.now (inForce i me bs cs s)) := rfl

/-- What an install leaves: the registers, the peers and the image; memory, slots, windows and sessions as they were. -/
theorem installSys_spec (i : SysImg) (me : SysDev) (bs : List Byte) (cs : List Channel) (s : State) : let t := installSys i me bs cs s
    Installed me bs t ∧ (t.sys = some { i with channels := cs } ∧ t.mem = s.mem ∧ t.slots = s.slots ∧ t.windows = s.windows ∧
      t.sessions = s.sessions) ∧ ∀ e ∈ t.peers, e.2.state = 2 := by
  have hregs : Installed me bs (inForce i me bs cs s) := installed_sysRegs me bs _
  have hframe := inForce_frame i me bs cs s
  have hhello := helloOnly_openConnections me.id (inForce i me bs cs s) (unreachable s.now (inForce i me bs cs s))
  rw [installSys_eq]
  generalize openConnections me.id (inForce i me bs cs s) (unreachable s.now (inForce i me bs cs s)) = t at *
  generalize inForce i me bs cs s = u at *
  have hkept : t.regs = u.regs ∧ t.peers = (unreachable s.now u).peers ∧ t.sys = some { i with channels := cs } ∧ t.mem = s.mem ∧
      t.slots = s.slots ∧ t.windows = s.windows ∧ t.sessions = s.sessions := by
    rw [hhello, unreachable, hframe]
    exact ⟨rfl, rfl, rfl, rfl, rfl, rfl, rfl⟩
  obtain ⟨htregs, htpeers, hrest⟩ := hkept
  have hdreg : ∀ f, t.dreg f = u.dreg f := fun f => by rw [State.dreg, State.reg, htregs]; rfl
  refine ⟨⟨?_, ?_, ?_, ?_, ?_, ?_, ?_⟩, hrest, fun e he => ?_⟩
  · rw [hdreg, hregs.deviceId]
  · rw [hdreg, hregs.idValid]
  · rw [hdreg, hregs.gen]
  · rw [hdreg, hregs.oper]
  · rw [hdreg, hregs.buddyNone]
  · rw [hdreg, hregs.buddyId]
  · rw [hdreg, hregs.buddyState]
  · rw [htpeers] at he
    obtain ⟨d, -, rfl⟩ := List.mem_map.1 he
    rfl

/-- A little-endian field of `n` bytes is below `256 ^ n`. -/
theorem leNat_lt (bs : List Byte) : leNat bs < 256 ^ bs.length := by
  induction bs with
  | nil => exact Nat.one_pos
  | cons b bs ih =>
    have hb : b.toNat < 256 := b.isLt
    rw [leNat, List.length_cons, Nat.pow_succ]
    omega

theorem getLe_lt (bs : List Byte) (o n : Nat) : getLe bs o n < 256 ^ n :=
  Nat.lt_of_lt_of_le (leNat_lt _) (Nat.pow_le_pow_right (by decide) (by rw [slice, List.length_take]; exact Nat.min_le_left _ _))

/-! ### SYS_COMMAND (R396) -/

/-- The bytes that SYS_COMMAND of slot `p` finds. -/
def sysBytes (p : Nat) (remote : List Byte) (s : State) : List Byte :=
  (readRange s p { window := s.dreg tbSysWindow, offset := s.dreg tbSysOffset, length := s.dreg tbSysLength, remote := remote }).getD []

/-- The record of bytes that are no system image. -/
def sysRecord : Rec := { code := 0x0804, action := 0, unit := 8 }

section command
variable {p : Nat} {remote : List Byte} {s : State} (hp : p < 8) (hwide : s.wideOther p = false)
include hp hwide

/-- SYS_COMMAND runs the checks and answers their code. -/
theorem exec_sysCommand {c : Nat} {u : State} (hchecks : installChecks (sysBytes p remote s) (s.dreg tbSysLength) s = (c, u)) :
    exec (.sysCommand p remote) s = .next
      ((if c = 0x0801 ∨ c = 0x0804 then raise { code := c, action := 0, unit := 8 } u else u).setDreg tbSysResult c) := by
  change execSysCommand p remote s = _
  rw [execSysCommand, if_neg (by omega), sysCommand, if_neg (by rw [hwide]; decide)]
  dsimp only
  change Host.Outcome.next (let r := installChecks (sysBytes p remote s) (s.dreg tbSysLength) s
    let s1 := if r.1 = 0x0801 ∨ r.1 = 0x0804 then raise { code := r.1, action := 0, unit := 8 } r.2 else r.2
    s1.setDreg tbSysResult r.1) = _
  rw [hchecks]

theorem sysCommand_malformed (hform : sysFormOk (sysBytes p remote s) (s.dreg tbSysLength) = false) :
    ∃ t, exec (.sysCommand p remote) s = .next t ∧ t = { s with regs := t.regs, mem := t.mem } ∧
      t.dreg tbSysResult = 0x0804 ∧ Recorded sysRecord s t ∧ regsBut [tbSysResult.key 0 0, rasFaultWritten.key 0 0] s t := by
  have hchecks : installChecks (sysBytes p remote s) (s.dreg tbSysLength) s = (0x0804, s) := by
    unfold installChecks
    dsimp only
    rw [hform]
    rfl
  have hexec := exec_sysCommand hp hwide hchecks
  rw [if_pos (.inr rfl)] at hexec
  have hframe := raise_frame s sysRecord
  have hrec := (raise_spec sysRecord s).1
  have hregs : regsBut [rasFaultWritten.key 0 0] s (raise sysRecord s) := raise_regsBut (by decide) s
  change _ = Host.Outcome.next ((raise sysRecord s).setDreg tbSysResult 0x0804) at hexec
  generalize raise sysRecord s = v at hexec hframe hrec hregs
  refine ⟨_, hexec, ?_, dreg_setDreg_same v tbSysResult 0x0804, hrec.setDreg 0x0804 (by decide), ?_⟩
  · rw [hframe]
    rfl
  · have hboth : regsBut [tbSysResult.key 0 0, rasFaultWritten.key 0 0] s v := fun k hk d =>
      hregs k (fun h => hk (List.mem_cons_of_mem _ h)) d
    exact hboth.setReg (f := tbSysResult) (p := 0) (i := 0) 0x0804 (.head _)

omit hp hwide in
/-- The checks pass on a new image of a device with nothing loaded and no accepted work. -/
theorem installChecks_new {bs : List Byte} {n : Nat} {me : SysDev} {s1 : State} {cs : List Channel} (hform : sysFormOk bs n = true)
    (hoper : getLe bs 6 1 = s.fwVersion ∨ getLe bs 6 1 + 1 = s.fwVersion) (hgen : s.dreg tbSysimgGen < getLe bs 0x10 4)
    (hdevices : sysDevicesOk s (parseSys bs) = true) (hchannels : sysChannelsOk (parseSys bs) = true) (himages : s.images = [])
    (hworking : s.working = false) (hme : s.sysEntry (parseSys bs) = [me])
    (hplace : placeChannels me.id ((parseSys bs).channels.filter fun c => c.src == me.id || c.dst == me.id)
      { s with sys := some { parseSys bs with channels := [] } } = some (s1, cs)) :
    installChecks bs n s = (0, installSys (parseSys bs) me bs cs s1) := by
  unfold installChecks
  dsimp only
  rw [if_neg (by simp [hform]), if_neg (by omega), if_neg (by omega), if_neg (by simp [hdevices, hchannels]),
    if_neg (by simp [himages, hworking]), if_neg (by simp [himages, hworking]), hme]
  dsimp only
  rw [hplace]

end command

/-- The device entry of a system image has an id of 12 bits. -/
theorem sysEntry_id_lt {s : State} {bs : List Byte} {me : SysDev} (h : s.sysEntry (parseSys bs) = [me]) : me.id < 4096 := by
  have hmem : me ∈ s.sysEntry (parseSys bs) := by
    rw [h]
    exact .head _
  obtain ⟨hdev, -⟩ := List.mem_filter.1 hmem
  obtain ⟨i, -, rfl⟩ := List.mem_map.1 hdev
  exact Nat.mod_lt _ (by decide)

/-- Settles O37: a malformed system image, and the install of a new one. -/
theorem systemImage : Obligations.SystemImage := by
  unfold Obligations.SystemImage
  refine fun p remote s hp hwide => ⟨sysCommand_malformed hp hwide,
    fun me s1 cs hform hoper hgen hdevices hchannels _ himages hworking hme hplace => ?_⟩
  have hexec := exec_sysCommand hp hwide (installChecks_new hform hoper hgen hdevices hchannels himages hworking hme hplace)
  rw [if_neg (by decide)] at hexec
  obtain ⟨a, ha, hplaced⟩ := placeOnly_placeChannels _ hplace
  obtain rfl := Option.some.inj ha
  dsimp only at hplaced
  obtain ⟨hregs, ⟨hsys, hmem, hslots, hwindows, hsessions⟩, hpeers⟩ := installSys_spec
    (parseSys (sysBytes p remote s)) me (sysBytes p remote s) cs s1
  have hkept : s1.slots = s.slots ∧ s1.windows = s.windows ∧ s1.sessions = s.sessions := by
    rw [hplaced]
    exact ⟨rfl, rfl, rfl⟩
  obtain ⟨hslots1, hwindows1, hsessions1⟩ := hkept
  generalize installSys (parseSys (sysBytes p remote s)) me (sysBytes p remote s) cs s1 = v at *
  have hdreg : ∀ {f : Fld}, f.key 0 0 ≠ tbSysResult.key 0 0 → (v.setDreg tbSysResult 0).dreg f = v.dreg f :=
    fun h => dreg_setDreg_ne v 0 h
  refine ⟨_, hexec, hsys, hmem, dreg_setDreg_same v tbSysResult 0, ?_, ?_, ?_, ?_, ?_, ?_, ?_, hpeers, hslots.trans hslots1,
    hwindows.trans hwindows1, hsessions.trans hsessions1⟩
  · rw [hdreg (by decide), hregs.deviceId, Nat.mod_eq_of_lt (sysEntry_id_lt hme)]
  · rw [hdreg (by decide), hregs.idValid]
  · rw [hdreg (by decide), hregs.gen]
    exact Nat.mod_eq_of_lt (getLe_lt _ 0x10 4)
  · rw [hdreg (by decide), hregs.oper]
    exact Nat.mod_eq_of_lt (getLe_lt _ 6 1)
  · rw [hdreg (by decide), hregs.buddyNone]
  · rw [hdreg (by decide), hregs.buddyId]
  · rw [hdreg (by decide), hregs.buddyState]

end Sys2Proof.Machine

/-! Power-on reset and the falls of PWR_GOOD and RESET_N (R410, R451, R485, R490 to R492, Table 17-7). -/
namespace Sys2Proof.Machine

/-! ### What a full reset leaves (Table 17-7) -/

/-- Stores, tables and queues of `t` are empty, and OTP is that of `s`. -/
def Emptied (s t : State) : Prop := t.piers = [] ∧ t.spans = [] ∧ t.images = [] ∧ t.keysets = [] ∧ t.sessions = [] ∧
  t.requests = [] ∧ t.slots = [] ∧ t.windows = [] ∧ t.qps = [] ∧ t.journal = [] ∧ t.sys = none ∧ t.out = s.out ∧
  t.pending = s.pending ∧ (∀ a, a < llmBase ∨ llmBase + 16384 ≤ a → mget t.mem a = 0) ∧
  t.ks.fwSvn = s.ks.fwSvn ∧ t.ks.serial = s.ks.serial ∧ t.ks.fused = s.ks.fused ∧ t.ks.retired = s.ks.retired ∧
  t.ks.operatorHash = s.ks.operatorHash ∧ t.ks.bankA = s.ks.bankA ∧ t.ks.bankB = s.ks.bankB ∧
  ∀ f ∈ devPwrFields ++ devLlmFields ++ devLieFields, f.home = .stored → t.dreg f = f.reset

/-- POR and PIN clear every stored register of power, LLM and LIE. -/
theorem fields_cleared : ∀ e < 2, ∀ f ∈ devPwrFields ++ devLlmFields ++ devLieFields, f.home = .stored →
    ((devFields ++ pierFields).filter (fun g => !bit g.kept e)).any (fun g => g.owns (f.key 0 0)) = true := by
  decide +kernel

/-- No fault record is kept in a register of power, LLM or LIE. -/
theorem fields_unrecorded : ∀ f ∈ devPwrFields ++ devLlmFields ++ devLieFields,
    f.key 0 0 ≠ rasFaultWritten.key 0 0 ∧ f.key 0 0 ≠ rasFaultLatch.key 0 0 := by
  decide +kernel

theorem emptied_fullReset {e : Nat} (he : e < 2) (s : State) : Emptied s (fullReset e s) := by
  refine ⟨rfl, rfl, rfl, rfl, rfl, rfl, rfl, rfl, rfl, rfl, rfl, rfl, rfl, fun _ _ => rfl, rfl, rfl, rfl, rfl, rfl, rfl, rfl,
    fun f hf hstored => ?_⟩
  have hcleared := fields_cleared e he f hf hstored
  change tget f.reset (s.resetRegs e).regs (f.key 0 0) = f.reset
  exact tget_filter_dropped f.reset s.regs fun v => by simp only [hcleared, Bool.not_true]

/-! ### Boot (R410, R473) -/

/-- The record of a device that is Degraded. -/
def degradedRecord : Rec := { code := 0x060B, action := 5 }

/-- With no span and no request, nothing is handed over. -/
theorem handAll_idle {s : State} (hspans : s.spans = []) (hrequests : s.requests = []) : handAll s = s := by
  unfold handAll
  rw [hspans]
  dsimp only [List.foldl_nil]
  rw [hrequests]
  split <;> rfl

/-- With no span and no request, Degraded is derived with at most its record. -/
theorem reviseDegraded_eq {s : State} (hspans : s.spans = []) (hrequests : s.requests = []) : ∃ u : State,
    u = { s with placementFailed := u.placementFailed, degraded := u.degraded } ∧
      (reviseDegraded s = u ∨ reviseDegraded s = raise degradedRecord u) := by
  have hhand : handAll (raise degradedRecord { s with placementFailed := false, degraded := true }) =
      raise degradedRecord { s with placementFailed := false, degraded := true } :=
    handAll_idle (by rw [raise_frame]; exact hspans) (by rw [raise_frame]; exact hrequests)
  unfold reviseDegraded
  dsimp only
  split
  · unfold checkDegraded
    split
    · exact ⟨{ s with placementFailed := false, degraded := true }, rfl, .inr hhand⟩
    · exact ⟨{ s with placementFailed := false }, rfl, .inl rfl⟩
  · exact ⟨{ s with placementFailed := false, degraded := false }, rfl, .inl rfl⟩

/-- A record, of whatever action, is in no register but its own two. -/
theorem dreg_raise_any (rc : Rec) {f : Fld} (h : f.key 0 0 ≠ rasFaultWritten.key 0 0 ∧ f.key 0 0 ≠ rasFaultLatch.key 0 0) (s : State) :
    (raise rc s).dreg f = s.dreg f := by
  have hwr : ∀ a bs, (s.wr a bs).dreg f = s.dreg f := fun _ _ => rfl
  unfold raise
  dsimp only
  split
  · rw [dreg_setDreg_ne _ _ h.2, dreg_setDreg_ne _ _ h.1, hwr]
  · rw [dreg_setDreg_ne _ _ h.1, hwr]

/-- A device that has been emptied stays so as Degraded is derived. -/
theorem emptied_raise (rc : Rec) {r s : State} (h : Emptied r s) : Emptied r (raise rc s) := by
  obtain ⟨h1, h2, h3, h4, h5, h6, h7, h8, h9, h10, h11, h12, h13, hmem, h14, h15, h16, h17, h18, h19, h20, hregs⟩ := h
  have hring : ∀ a, a < llmBase ∨ llmBase + 16384 ≤ a → mget (raise rc s).mem a = 0 := fun a ha => (mget_raise ha).trans (hmem a ha)
  have hread : ∀ f ∈ devPwrFields ++ devLlmFields ++ devLieFields, f.home = .stored → (raise rc s).dreg f = f.reset :=
    fun f hf hstored => (dreg_raise_any rc (fields_unrecorded f hf) s).trans (hregs f hf hstored)
  have hframe := raise_frame s rc
  generalize raise rc s = t at hring hread hframe
  refine ⟨?_, ?_, ?_, ?_, ?_, ?_, ?_, ?_, ?_, ?_, ?_, ?_, ?_, hring, ?_, ?_, ?_, ?_, ?_, ?_, ?_, hread⟩ <;> (rw [hframe]; assumption)

/-- The keystone as boot finds it. -/
def bootKeystone (s : State) : Keystone := { s.ks with romDigest := Config.romDigest, rngOk := true }

/-- The keystone as boot leaves it: BOOT_NEXT holds for one boot at POR. -/
def bootedKeystone (e : Nat) (s : State) : Keystone :=
  let b := bootFrom ((bootKeystone s).flash s.pwr.bootsel) (bootKeystone s)
  if e = 0 then { b with bootFirst := none } else b

/-- What boot takes from OTP and flash, it leaves there. -/
structure SameOtp (k b : Keystone) : Prop where
  fwSvn : b.fwSvn = k.fwSvn
  serial : b.serial = k.serial
  fused : b.fused = k.fused
  retired : b.retired = k.retired
  operatorHash : b.operatorHash = k.operatorHash
  bankA : b.bankA = k.bankA
  bankB : b.bankB = k.bankB

theorem bootFrom_spec (cs : List (Nat × Bundle)) (k : Keystone) : SameOtp k (bootFrom cs k) ∧
    (bootFrom cs k).boot = if cs.any fun c => k.accepts c.2 then 1 else 3 := by
  unfold bootFrom
  cases hfind : cs.find? fun c => k.accepts c.2 with
  | none =>
    have hnone : (cs.any fun c => k.accepts c.2) = false := by
      rw [List.any_eq_false]
      exact fun c hc => List.find?_eq_none.1 hfind c hc
    exact ⟨⟨rfl, rfl, rfl, rfl, rfl, rfl, rfl⟩, by rw [hnone]; rfl⟩
  | some c =>
    have hsome : (cs.any fun c => k.accepts c.2) = true :=
      List.any_eq_true.2 ⟨c, List.mem_of_find?_eq_some hfind, List.find?_some (p := fun c : Nat × Bundle => k.accepts c.2) hfind⟩
    exact ⟨⟨rfl, rfl, rfl, rfl, rfl, rfl, rfl⟩, by rw [hsome]; rfl⟩

theorem bootedKeystone_spec (e : Nat) (s : State) : SameOtp s.ks (bootedKeystone e s) ∧
    (bootedKeystone e s).boot = if (s.ks.flash s.pwr.bootsel).any fun c => s.ks.accepts c.2 then 1 else 3 := by
  obtain ⟨⟨h1, h2, h3, h4, h5, h6, h7⟩, hboot⟩ := bootFrom_spec ((bootKeystone s).flash s.pwr.bootsel) (bootKeystone s)
  unfold bootedKeystone
  dsimp only
  split
  · exact ⟨⟨h1, h2, h3, h4, h5, h6, h7⟩, hboot⟩
  · exact ⟨⟨h1, h2, h3, h4, h5, h6, h7⟩, hboot⟩

/-- Boot of a device that has been emptied: keystone runs or has failed, and at most the record of Degraded is written. -/
theorem boot_eq (e : Nat) {s : State} (hspans : s.spans = []) (hrequests : s.requests = []) : ∃ u : State,
    u = { s with ks := bootedKeystone e s, placementFailed := u.placementFailed, degraded := u.degraded } ∧
      ∃ tests, boot e s = { u with spareTests := tests } ∨ boot e s = { raise degradedRecord u with spareTests := tests } := by
  obtain ⟨u, hu, hrevise⟩ := reviseDegraded_eq (s := { s with ks := bootedKeystone e s }) hspans hrequests
  have hboot : boot e s = if (bootFrom ((bootKeystone s).flash s.pwr.bootsel) (bootKeystone s)).boot = 1 then
      startSpareTests (reviseDegraded { s with ks := bootedKeystone e s }) else { s with ks := bootedKeystone e s } := rfl
  rw [hboot]
  split
  · refine ⟨u, hu, (reviseDegraded { s with ks := bootedKeystone e s }).piersIn 2, ?_⟩
    rcases hrevise with h | h
    · rw [h]
      exact .inl rfl
    · rw [h]
      exact .inr rfl
  · exact ⟨{ s with ks := bootedKeystone e s }, rfl, s.spareTests, .inl rfl⟩

/-- What boot leaves of a device that has been emptied. -/
structure Booted (s t : State) : Prop where
  pwr : t.pwr = s.pwr
  pins : t.pins = s.pins
  emptied : ∀ r, Emptied r s → Emptied r t
  boot : t.ks.boot = if (s.ks.flash s.pwr.bootsel).any fun c => s.ks.accepts c.2 then 1 else 3

theorem boot_spec (e : Nat) {s : State} (hspans : s.spans = []) (hrequests : s.requests = []) : Booted s (boot e s) := by
  obtain ⟨u, hu, tests, hboot⟩ := boot_eq e hspans hrequests
  obtain ⟨⟨k1, k2, k3, k4, k5, k6, k7⟩, hb⟩ := bootedKeystone_spec e s
  have hfields : u.pwr = s.pwr ∧ u.pins = s.pins ∧ u.ks = bootedKeystone e s := by
    rw [hu]
    exact ⟨rfl, rfl, rfl⟩
  obtain ⟨hpwr, hpins, hks⟩ := hfields
  have hemptied : ∀ r, Emptied r s → Emptied r u := by
    rintro r ⟨h1, h2, h3, h4, h5, h6, h7, h8, h9, h10, h11, h12, h13, hmem, h14, h15, h16, h17, h18, h19, h20, hregs⟩
    rw [hu]
    exact ⟨h1, h2, h3, h4, h5, h6, h7, h8, h9, h10, h11, h12, h13, hmem, k1.trans h14, k2.trans h15, k3.trans h16, k4.trans h17,
      k5.trans h18, k6.trans h19, k7.trans h20, hregs⟩
  rcases hboot with h | h
  · rw [h]
    exact ⟨hpwr, hpins, hemptied, (congrArg Keystone.boot hks).trans hb⟩
  · have hraised : ∀ r, Emptied r s → Emptied r (raise degradedRecord u) := fun r hr => emptied_raise degradedRecord (hemptied r hr)
    have hframe := raise_frame u degradedRecord
    rw [h]
    generalize raise degradedRecord u = v at hraised hframe
    have hkept : v.pwr = u.pwr ∧ v.pins = u.pins ∧ v.ks = u.ks := by
      rw [hframe]
      exact ⟨rfl, rfl, rfl⟩
    obtain ⟨hvpwr, hvpins, hvks⟩ := hkept
    exact ⟨hvpwr.trans hpwr, hvpins.trans hpins, hraised, (congrArg Keystone.boot (hvks.trans hks)).trans hb⟩

/-! ### POR and PIN (R451, R490, R491) -/

/-- The POR sequence empties the device, and boots it where RESET_N is high. -/
theorem startPor_spec (s : State) : Emptied s (startPor s) ∧
    (startPor s).pwr = { bootsel := s.pwr.bootsel, nodeId := s.pwr.nodeId, netSplit := s.pwr.netSplit, g7rate := s.pwr.g7rate, lastReset := 0 } ∧
    (startPor s).pins = { s.pins with pwrGood := true, porTries := 0, porDead := false } ∧
    (s.pins.resetN = true → (startPor s).ks.boot = if (s.ks.flash s.pwr.bootsel).any fun c => s.ks.accepts c.2 then 1 else 3) ∧
    (s.pins.resetN = false → (startPor s).ks.boot = 0) := by
  generalize hv : fullReset 0 { s with pins := { s.pins with pwrGood := true, porTries := 0, porDead := false } } = v
  have hempty : Emptied s v := by
    rw [← hv]
    exact emptied_fullReset (by decide) { s with pins := { s.pins with pwrGood := true, porTries := 0, porDead := false } }
  have hfields : v.pwr = { bootsel := s.pwr.bootsel, nodeId := s.pwr.nodeId, netSplit := s.pwr.netSplit, g7rate := s.pwr.g7rate, lastReset := 0 } ∧
      v.pins = { s.pins with pwrGood := true, porTries := 0, porDead := false } ∧ v.ks.boot = 0 ∧
      (v.ks.flash v.pwr.bootsel).any (fun c => v.ks.accepts c.2) = (s.ks.flash s.pwr.bootsel).any (fun c => s.ks.accepts c.2) := by
    rw [← hv]
    exact ⟨rfl, rfl, rfl, rfl⟩
  obtain ⟨hpwr, hpins, hboot, hflash⟩ := hfields
  have hstart : startPor s = if v.pins.resetN then boot 0 v else v := by
    rw [← hv]
    rfl
  have hresetN : v.pins.resetN = s.pins.resetN := by rw [hpins]
  rw [hstart, hresetN]
  cases s.pins.resetN with
  | false => exact ⟨hempty, hpwr, hpins, nofun, fun _ => hboot⟩
  | true =>
    have ⟨_, hspans, _, _, _, hrequests, _⟩ := hempty
    have hb := boot_spec 0 hspans hrequests
    rw [if_pos rfl]
    exact ⟨hb.emptied s hempty, hb.pwr.trans hpwr, hb.pins.trans hpins, fun _ => hb.boot.trans (by rw [hflash]), nofun⟩

/-- PIN empties the device and boots it. -/
theorem pin_spec (s : State) : Emptied s (boot 1 (fullReset 1 s)) ∧ (boot 1 (fullReset 1 s)).pwr =
    { bootsel := s.pwr.bootsel, nodeId := s.pwr.nodeId, netSplit := s.pwr.netSplit, g7rate := s.pwr.g7rate, lastReset := 1 } ∧
    (boot 1 (fullReset 1 s)).pins = s.pins ∧
    (boot 1 (fullReset 1 s)).ks.boot = if (s.ks.flash s.pwr.bootsel).any fun c => s.ks.accepts c.2 then 1 else 3 := by
  have hempty : Emptied s (fullReset 1 s) := emptied_fullReset (by decide) s
  have hb := boot_spec 1 (s := fullReset 1 s) rfl rfl
  exact ⟨hb.emptied s hempty, hb.pwr, hb.pins, hb.boot⟩

/-- Settles O39: POR with and without its checks passed, PIN, and the falls of RESET_N and PWR_GOOD. -/
theorem powerOnAndReset : Obligations.PowerOnAndReset := by
  unfold Obligations.PowerOnAndReset
  refine ⟨fun st s => ?_, fun st s => ?_, fun s htries => ⟨?_, ?_⟩, fun st s hgood htries hdead => ?_, fun s => ?_, fun s => ?_⟩
  · obtain ⟨hempty, hpwr, hpins, hboot, hheld⟩ := startPor_spec (latchStraps st s)
    refine ⟨startPor (latchStraps st s), rfl, hempty, ?_, ?_, ?_, hboot, hheld⟩
    · dsimp only
      rw [hpwr]
      exact ⟨rfl, rfl, rfl, rfl⟩
    · rw [hpwr]
    · rw [hpins]
  · exact ⟨_, rfl, emptied_fullReset (by decide) _, rfl, rfl⟩
  · change execPorCheckRetry false s = _
    rw [execPorCheckRetry, if_neg htries, if_neg (by decide)]
  · obtain ⟨hempty, hpwr, hpins, hboot, -⟩ := startPor_spec s
    refine ⟨startPor s, ?_, hempty, ?_, hboot⟩
    · change execPorCheckRetry true s = _
      rw [execPorCheckRetry, if_neg htries, if_pos rfl]
    · rw [hpins]
  · obtain ⟨hempty, hpwr, hpins, hboot⟩ := pin_spec (latchStraps st { s with pins := { s.pins with resetN := true, extest := false } })
    refine ⟨_, ?_, hempty, ?_, ?_, ?_, hboot⟩
    · have hlive : (latchStraps st { s with pins := { s.pins with resetN := true, extest := false } }).live = true := by
        simp [State.live, latchStraps, hgood, htries, hdead]
      change execPin st s = _
      rw [execPin]
      dsimp only
      rw [if_pos hlive]
    · dsimp only
      rw [hpwr]
      exact ⟨rfl, rfl, rfl, rfl⟩
    · rw [hpwr]
    · rw [hpins]
      rfl
  · exact ⟨_, rfl, emptied_fullReset (by decide) _, rfl, rfl⟩
  · exact ⟨_, rfl, emptied_fullReset (by decide) _, rfl, rfl⟩

end Sys2Proof.Machine

/-! Images: LOAD_IMAGE, the end of a replaced image, EXPORT_WEIGHTS and its steps (R85, R87 to R89, R284, R299 to R301). -/
namespace Sys2Proof.Machine

/-! ### An image that is replaced (R284, R301) -/

section verb
variable {r : VerbReq} {o : LoadOp} {s : State} {sl : Slot} {h : Nat} (hadm : Admitted r true s sl) (hgddr : s.gddrOk = true)
include hadm hgddr

theorem exec_loadImage_replace {im : Image} (hrep : o.replace = some h) (hlen : o.src.length = 0) (him : tfind s.images h = some im) :
    exec (.loadImage r o) s = .next (replaceImage r.slot r.tag h o [] (admitted r 1 sl s)) := by
  have hgddr' : (admitted r 1 sl s).gddrOk = true := hgddr
  have him' : tfind (admitted r 1 sl s).images h = some im := him
  have hthere : (o.replace.any fun h => (tfind (admitted r 1 sl s).images h).isNone) = false := by
    rw [hrep, Option.any_some, him']
    rfl
  change execLoadImage r o s = _
  rw [execLoadImage, onVerb_admitted r 1 _ true _ s sl _ hadm, hgddr', hthere, if_neg (by decide), if_neg (by decide), hrep, hlen]
  rfl

/-- The wait of a LOAD_IMAGE for the requests of the image that it replaces. -/
def replaceWait (r : VerbReq) (o : LoadOp) (h : Nat) : WaitVerb := { slot := r.slot, tag := r.tag, verb := 1, key := h, load := some o }

omit hgddr in
/-- An image that is not being exported closes its acceptance; the verb waits for its requests. -/
theorem replaceImage_waits (hfree : s.exporting h = false) : replaceImage r.slot r.tag h o [] (admitted r 1 sl s) =
    { admitted r 1 sl s with
      images := s.images.map fun e => if e.1 = h then (e.1, { e.2 with replacing := true }) else e
      waits := s.waits ++ [replaceWait r o h]
      pending := s.pending ++ if s.requests.any (fun q => q.handle == h && q.live) then [] else [.loadImageReplaceDrained h] } := by
  have hfree' : (admitted r 1 sl s).exporting h = false := hfree
  unfold replaceImage
  rw [hfree', if_neg (by decide)]
  dsimp only
  have hreq : ((admitted r 1 sl s).modImage h fun im => { im with replacing := true }).requests = s.requests := rfl
  rw [hreq]
  split
  · rw [List.append_nil]
    rfl
  · rfl

theorem loadImage_replaces {im : Image} (hrep : o.replace = some h) (hlen : o.src.length = 0) (him : tfind s.images h = some im) :
    ∃ t, exec (.loadImage r o) s = .next t ∧ (s.exporting h = true → AnswerOnly r 0x0402 [] sl s t) ∧ (s.exporting h = false →
      VerbWaits r 1 sl s { s with images := t.images, waits := t.waits, pending := t.pending } t ∧
      tfind t.images h = some { im with replacing := true } ∧ (∀ g, g ≠ h → tfind t.images g = tfind s.images g) ∧
      t.waits = s.waits ++ [replaceWait r o h] ∧
      t.pending = s.pending ++ (if s.requests.any (fun q => q.handle == h && q.live) then [] else [.loadImageReplaceDrained h])) := by
  refine ⟨_, exec_loadImage_replace hadm hgddr hrep hlen him, fun hbusy => ?_, fun hfree => ?_⟩
  · have hbusy' : (admitted r 1 sl s).exporting h = true := hbusy
    rw [replaceImage, if_pos hbusy']
    exact answerOnly_admitted hadm 1 0x0402 []
  · rw [replaceImage_waits hadm hfree]
    refine ⟨((verbRuns_admitted hadm 1).update rfl).waits rfl, ?_, fun g hg => ?_, rfl, rfl⟩
    · exact (tfind_update_same s.images h fun im => { im with replacing := true }).trans (by rw [him]; rfl)
    · exact tfind_update_ne s.images (fun im => { im with replacing := true }) hg

end verb

/-! ### An image that leaves (R284) -/

/-- Spans that leave with their programs. -/
def unloadSpans (ks : List Nat) (s : State) : State :=
  ks.foldl (fun s k => { (abortPiers k false s) with spans := tdel s.spans k }) s

theorem unloadSpans_spec (ks : List Nat) (s : State) : BatchesOnly s (unloadSpans ks s) ∧
    (∀ k ∈ ks, tfind (unloadSpans ks s).spans k = none) ∧ ∀ k, k ∉ ks → (unloadSpans ks s).span k = s.span k := by
  have hone : ∀ (s : State) (k : Nat), BatchesOnly s { (abortPiers k false s) with spans := tdel s.spans k } := fun s k =>
    (batchesOnly_abortPiers k false s).1.trans rfl
  have hgone : ∀ (ks : List Nat) (s : State) (k : Nat), k ∈ ks ∨ tfind s.spans k = none → tfind (unloadSpans ks s).spans k = none := by
    intro ks
    induction ks with
    | nil => exact fun s k h => h.resolve_left (by simp)
    | cons j ks ih =>
      intro s k h
      refine ih _ k ?_
      by_cases hk : k = j
      · exact .inr (hk ▸ tfind_tdel_same s.spans k)
      · refine h.imp (fun hmem => (List.mem_cons.1 hmem).resolve_left hk) fun hnone => (tfind_tdel_ne s.spans hk).trans hnone
  refine ⟨foldl_rel (R := BatchesOnly) (fun _ => rfl) BatchesOnly.trans hone ks s, fun k hk => hgone ks s k (.inl hk), ?_⟩
  induction ks generalizing s with
  | nil => exact fun _ _ => rfl
  | cons j ks ih =>
    intro k hk
    rw [List.mem_cons, not_or] at hk
    refine (ih _ k hk.2).trans ?_
    exact tget_filter_kept noSpan s.spans fun v => by simpa using hk.1

/-- What leaves with the spans of an image. -/
def unloadRest (h : Nat) (im : Image) (u : State) : State :=
  { u with
    images := tdel u.images h
    objs := u.objs.filter fun o => !(im.backing.any fun b => b.2 == o.id)
    keysets := u.keysets.map fun k => { k with images := k.images.filter (· != h) }
    llmCache := if im.pinMib = 0 then u.llmCache else [] }

theorem unloadImage_eq {h : Nat} {s : State} {im : Image} (him : tfind s.images h = some im) :
    unloadImage h s = unloadRest h im (unloadSpans im.spans s) := by
  unfold unloadImage
  rw [him]
  rfl

theorem unloadImage_spec {h : Nat} {s : State} {im : Image} (him : tfind s.images h = some im) : let t := unloadImage h s
    tfind t.images h = none ∧ (∀ g, g ≠ h → tfind t.images g = tfind s.images g) ∧ (∀ k ∈ im.spans, tfind t.spans k = none) ∧
      (∀ k, k ∉ im.spans → t.span k = s.span k) ∧ t.mem = s.mem ∧ t.sessions = s.sessions ∧ t.windows = s.windows ∧ t.slots = s.slots := by
  obtain ⟨hframe, hgone, hkept⟩ := unloadSpans_spec im.spans s
  rw [unloadImage_eq him]
  generalize unloadSpans im.spans s = u at *
  have hfields : u.images = s.images ∧ u.mem = s.mem ∧ u.sessions = s.sessions ∧ u.windows = s.windows ∧ u.slots = s.slots := by
    rw [hframe]
    exact ⟨rfl, rfl, rfl, rfl, rfl⟩
  obtain ⟨himages, hrest⟩ := hfields
  exact ⟨tfind_tdel_same _ _, fun g hg => (tfind_tdel_ne _ hg).trans (by rw [himages]), hgone, hkept, hrest⟩

theorem loadImageReplaceDrained_spec {h : Nat} {s : State} {w : WaitVerb} {o : LoadOp} {im : Image}
    (hw : s.waits.find? (fun w => w.verb = 1 ∧ w.key = h) = some w) (hquiet : ∀ q ∈ s.requests, q.handle = h → q.live = false)
    (ho : w.load = some o) (hraw : w.raw = []) (him : tfind s.images h = some im) :
    ∃ t, exec (.loadImageReplaceDrained h) s = .next t ∧ tfind t.images h = none ∧
      (∀ g, g ≠ h → tfind t.images g = tfind s.images g) ∧ (∀ k ∈ im.spans, tfind t.spans k = none) ∧
      (∀ k, k ∉ im.spans → t.span k = s.span k) ∧ t.mem = s.mem ∧ t.sessions = s.sessions ∧ t.windows = s.windows ∧
      AnswersWait w 0 [] s t := by
  have hlive : (s.requests.any fun r => r.handle == h && r.live) = false := by
    rw [List.any_eq_false]
    intro q hq
    by_cases hk : q.handle = h
    · simp [hquiet q hq hk]
    · simp [hk]
  have hexec : exec (.loadImageReplaceDrained h) s =
      .next (respond w.slot w.tag 0 [] (unloadImage h { s with waits := s.waits.erase w })) := by
    change execLoadImageReplaceDrained h s = _
    rw [execLoadImageReplaceDrained, hw]
    dsimp only
    rw [hlive, if_neg (by decide), ho]
    dsimp only
    rw [hraw]
    rfl
  obtain ⟨hgone, hothers, hspans, hkept, hmem, hsessions, hwindows, hslots⟩ :=
    unloadImage_spec (s := { s with waits := s.waits.erase w }) him
  generalize unloadImage h { s with waits := s.waits.erase w } = u at *
  have hframe := respond_frame w.slot w.tag 0 [] u
  have hanswer := answersWait_respond w 0 [] (s := s) (s' := u) hslots
  generalize respond w.slot w.tag 0 [] u = t at *
  have hfields : t.images = u.images ∧ t.spans = u.spans ∧ t.mem = u.mem ∧ t.sessions = u.sessions ∧ t.windows = u.windows := by
    rw [hframe]
    exact ⟨rfl, rfl, rfl, rfl, rfl⟩
  obtain ⟨himages, htspans, htmem, htsessions, htwindows⟩ := hfields
  refine ⟨t, hexec, himages ▸ hgone, fun g hg => himages ▸ hothers g hg, fun k hk => htspans ▸ hspans k hk, fun k hk => ?_,
    htmem.trans hmem, htsessions.trans hsessions, htwindows.trans hwindows, hanswer⟩
  refine Eq.trans ?_ (hkept k hk)
  rw [State.span, htspans]
  rfl

/-! ### A step of EXPORT_WEIGHTS (R87 to R89) -/

/-- The end of EXPORT_WEIGHTS with a code. -/
def exportEnds (w : WaitVerb) (code : Nat) (s : State) : State := respond w.slot w.tag code [] { s with waits := s.waits.erase w }

theorem exportStep_stale {w : WaitVerb} {s : State} {e : Nat × Nat × Nat} (he : e ∈ w.places) (hne : e.2.2 ≠ (s.win e.1).epoch) :
    exportStep w s = exportEnds w 0x0401 s := by
  have hany : (w.places.any fun e => (s.win e.1).epoch != e.2.2) = true := List.any_eq_true.2 ⟨e, he, by simpa using hne.symm⟩
  unfold exportStep
  dsimp only
  rw [hany]
  rfl

section step
variable {w : WaitVerb} {s : State} {id off ep : Nat} {l : List (Nat × Nat × Nat)} (hplaces : w.places = (id, off, ep) :: l)
  (hepochs : ∀ e ∈ w.places, e.2.2 = (s.win e.1).epoch) (hroom : off < (s.win id).length) (hremote : (s.win id).remote = true)
  (hraw : w.raw ≠ [])
include hplaces hepochs hroom hremote hraw

/-- The bytes that a step sends, 64 at most, and the wait that goes on behind them. -/
def exportRest (w : WaitVerb) (id off ep n : Nat) : WaitVerb :=
  { w with raw := w.raw.drop n, places := w.places.map fun e => if e = (id, off, ep) then (id, off + n, ep) else e }

theorem exportStep_eq {n : Nat} (hn : n = (w.raw.take (min 64 ((s.win id).length - off))).length) : exportStep w s =
    if (w.raw.drop n).isEmpty then exportEnds w 0 (s.send (.remoteWrite id off (w.raw.take (min 64 ((s.win id).length - off)))))
    else { s.send (.remoteWrite id off (w.raw.take (min 64 ((s.win id).length - off)))) with
      waits := s.waits.map fun x => if x = w then exportRest w id off ep n else x } := by
  have hany : (w.places.any fun e => (s.win e.1).epoch != e.2.2) = false := by
    rw [List.any_eq_false]
    exact fun e he => by simp [hepochs e he]
  have hfind : w.places.find? (fun e => decide (e.2.1 < (s.win e.1).length)) = some (id, off, ep) := by
    rw [hplaces, List.find?_cons_of_pos (by simpa using hroom)]
  have hpart : (w.raw.take (min 64 ((s.win id).length - off))).isEmpty = false := by
    cases hw : w.raw with
    | nil => exact absurd hw hraw
    | cons b bs =>
      obtain ⟨m, hm⟩ : ∃ m, min 64 ((s.win id).length - off) = m + 1 := ⟨min 64 ((s.win id).length - off) - 1, by omega⟩
      rw [hm]
      rfl
  unfold exportStep
  dsimp only
  rw [hany, if_neg (by decide), hfind]
  have hwrite : writeRange id off (w.raw.take (min 64 ((s.win id).length - off))) s =
      s.send (.remoteWrite id off (w.raw.take (min 64 ((s.win id).length - off)))) := if_pos hremote
  dsimp only
  rw [hpart, hwrite, ← hn]
  rfl

end step

theorem exportEnds_answers (w : WaitVerb) (code : Nat) {s u : State} (hu : u.slots = s.slots) : AnswersWait w code [] s (exportEnds w code u) :=
  answersWait_respond w code [] (s := s) (s' := { u with waits := u.waits.erase w }) hu

/-- A response sends at most itself. -/
theorem respond_out (p tag status : Nat) (detail : List Byte) (s : State) : ∃ l, (respond p tag status detail s).out = s.out ++ l := by
  unfold respond
  split
  · exact ⟨_, send_out _ _⟩
  · exact ⟨[], (List.append_nil _).symm⟩

theorem exportStep_spec (w : WaitVerb) (s : State) :
    (∀ e ∈ w.places, e.2.2 ≠ (s.win e.1).epoch → AnswersWait w 0x0401 [] s (exportStep w s) ∧ (exportStep w s).mem = s.mem) ∧
    ∀ (id off ep : Nat) (l : List (Nat × Nat × Nat)), w.places = (id, off, ep) :: l → (∀ e ∈ w.places, e.2.2 = (s.win e.1).epoch) →
      off < (s.win id).length → (s.win id).remote = true → w.raw ≠ [] →
      let n := min 64 ((s.win id).length - off)
      (n < w.raw.length → (exportStep w s).out = s.out ++ [.remoteWrite id off (w.raw.take n)] ∧ (exportStep w s).slots = s.slots ∧
        (w ∈ s.waits → ∃ v ∈ (exportStep w s).waits, v.raw = w.raw.drop n ∧ (id, off + n, ep) ∈ v.places)) ∧
      (w.raw.length ≤ n → AnswersWait w 0 [] s (exportStep w s) ∧ ∃ l, (exportStep w s).out = s.out ++ .remoteWrite id off w.raw :: l) := by
  refine ⟨fun e he hne => ?_, fun id off ep l hplaces hepochs hroom hremote hraw => ?_⟩
  · rw [exportStep_stale he hne]
    exact ⟨exportEnds_answers w 0x0401 rfl, respond_mem _ _ _ _ _⟩
  · intro n
    have hstep := exportStep_eq hplaces hepochs hroom hremote hraw rfl
    refine ⟨fun hmore => ?_, fun hlast => ?_⟩
    · have hlen : (w.raw.take n).length = n := by rw [List.length_take]; omega
      have hrest : (w.raw.drop n).isEmpty = false := by
        rw [List.isEmpty_eq_false_iff]
        exact fun hnil => by simp [List.drop_eq_nil_iff] at hnil; omega
      change exportStep w s = if (w.raw.drop (w.raw.take n).length).isEmpty then _ else _ at hstep
      rw [hlen, hrest, if_neg (by decide)] at hstep
      rw [hstep]
      refine ⟨rfl, rfl, fun hw => ⟨exportRest w id off ep n, ?_, rfl, ?_⟩⟩
      · exact List.mem_map.2 ⟨w, hw, if_pos rfl⟩
      · exact List.mem_map.2 ⟨(id, off, ep), hplaces ▸ .head _, if_pos rfl⟩
    · have htake : w.raw.take n = w.raw := List.take_of_length_le hlast
      change exportStep w s = if (w.raw.drop (w.raw.take n).length).isEmpty then exportEnds w 0 (s.send (.remoteWrite id off (w.raw.take n))) else _ at hstep
      rw [htake, List.drop_length, List.isEmpty_nil, if_pos rfl] at hstep
      rw [hstep]
      obtain ⟨l, hl⟩ := respond_out w.slot w.tag 0 [] { (s.send (.remoteWrite id off w.raw)) with waits := s.waits.erase w }
      refine ⟨exportEnds_answers w 0 rfl, l, hl.trans ?_⟩
      exact (List.append_assoc s.out [.remoteWrite id off w.raw] l).trans rfl

end Sys2Proof.Machine

/-! LOAD_IMAGE of a new image (R299, R300), the begin of EXPORT_WEIGHTS (R85, R87, R88), and the statement about images. -/
namespace Sys2Proof.Machine

theorem ite_congr_else {α : Type} {c : Prop} [Decidable c] {a b d : α} (h : b = d) : (if c then a else b) = if c then a else d := h ▸ rfl

/-! ### The image that is placed -/

section placed
variable (p tag h : Nat) (o : LoadOp) (bs : List Byte) (llm g : Nat) (ps : List Placed) (s : State)

/-- A span without a place. -/
def noPlaced : Placed := { imgSpan := 0, piers := [], links := [], reserved := [], spares := [] }

/-- The program of a stage, with its shards laid out in its slice. -/
def placedStage (e : StageRec × Nat) : StageProg :=
  { (newImage s p h o bs llm g).program e.1.span (ps.getD e.1.span noPlaced).piers e with
    weights := placeShards 0x1000 ((newImage s p h o bs llm g).program e.1.span (ps.getD e.1.span noPlaced).piers e).weights }

/-- The programs of the stages. -/
def placedStages : List StageProg := (stageRecs bs).zipIdx.map (placedStage p h o bs llm g ps s)

/-- The pier of stage record `n`. -/
def stagePier (gs : List StageProg) (ps : List Placed) (n : Nat) : Nat :=
  match gs[n]? with
  | some g => (ps.getD g.span noPlaced).piers.getD g.stage 0
  | none => 0

/-- The image with its programs and shards at their places. -/
def placedImage : Image :=
  { newImage s p h o bs llm g with
    stages := placedStages p h o bs llm g ps s
    shards := (newImage s p h o bs llm g).relocShards (stagePier (placedStages p h o bs llm g ps s) ps) }

end placed

/-- The stages' programs in the first bank of their piers. -/
def loadPiers (im : Image) (ps : List Placed) (s : State) : State :=
  im.stages.zipIdx.foldl (fun s e => s.modPier (stagePier im.stages ps e.2) fun x =>
    { (x.loadBank 0 e.1) with seq := {}, cacheBlocks := x.cacheBlocks }) s

/-- The LLM cache is empty under an image that pins a part of it. -/
def dropCache (im : Image) (s : State) : State := if im.pinMib = 0 then s else { s with llmCache := [] }

/-- The placement report in the window that LOAD_IMAGE names. -/
def writeReport (p : Nat) (o : LoadOp) (im : Image) (ps : List Placed) (s : State) : State :=
  match o.report with
  | some (w, off) =>
    if s.ownWindow p w && decide (off + (placementReport s im ps).length ≤ (s.win w).length) then writeRange w off (placementReport s im ps) s else s
  | none => s

/-- The state in which an image with its stores `backing` is loaded. -/
def imageLoaded (p h : Nat) (o : LoadOp) (im : Image) (ps : List Placed) (backing : List (Nat × Nat)) (s : State) : State :=
  writeReport p o im ps (dropCache im (loadPiers im ps (installSpans im ps (s.modImage h fun im => { im with backing := backing }))))

/-- The slices and backing copies of a placed image are written, and its copies read back. -/
def storeImage (p tag h : Nat) (o : LoadOp) (im : Image) (ps : List Placed) (s : State) : State :=
  match writeStores im (im.stages.zipIdx.map fun e => (stagePier im.stages ps e.2, e.1)) { s with images := tput s.images h im } with
  | none => respond p tag 0x0402 [] s
  | some (backing, s1) =>
    if !o.readBackOk then respond p tag 0x0603 [] s else respond p tag 0 (leBytes 2 h) (imageLoaded p h o im ps backing s1)

theorem placeImage_eq (p tag : Nat) (o : LoadOp) (bs : List Byte) (s : State) : placeImage p tag o bs s =
    if 16 < s.spans.length + imgSpans bs then respond p tag 0x0402 [] s
    else if s.dreg pwrTokenBudget < s.tokensReserved + ((spanRecs bs).map fun r => r.grants.foldl max 0).foldl (· + ·) 0 then respond p tag 0x0507 [] s
    else match placeAll s bs o.winMap (List.range (imgSpans bs)) (s.hosts none) (s.takenLinks none) with
      | none => respond p tag 0x0506 [] s
      | some ps =>
        match s.llmPlace 2048 (imgLlm bs), (if imgGddr bs = 0 then some 0 else s.regionPlace (partSize (imgGddr bs))),
            lowestFree s.images 1 65535 with
        | some llm, some g, some h => storeImage p tag h o (placedImage p h o bs llm g ps s) ps s
        | _, _, _ => respond p tag 0x0402 [] s := by
  unfold placeImage
  extract_lets need
  refine ite_congr_else (ite_congr_else ?_)
  cases placeAll s bs o.winMap (List.range (imgSpans bs)) (s.hosts none) (s.takenLinks none) with
  | none => rfl
  | some ps =>
    dsimp -zeta only
    cases s.llmPlace 2048 (imgLlm bs) with
    | none => rfl
    | some llm =>
      cases (if imgGddr bs = 0 then some 0 else s.regionPlace (partSize (imgGddr bs))) with
      | none => rfl
      | some g =>
        cases lowestFree s.images 1 65535 with
        | none => rfl
        | some h =>
          dsimp -zeta only
          extract_lets im0 prog gs pierOf im1 s0
          have him : placedImage p h o bs llm g ps s = im1 := rfl
          have hgs : im1.stages = gs := rfl
          have hpier : stagePier gs ps = pierOf := rfl
          rw [him, storeImage, hgs, hpier]
          have hs0 : { s with images := tput s.images h im1 } = s0 := rfl
          rw [hs0]
          clear_value s0 im1 pierOf gs
          cases writeStores im1 (gs.zipIdx.map fun e => (pierOf e.2, e.1)) s0 with
          | none => rfl
          | some e =>
            dsimp -zeta only
            refine ite_congr_else ?_
            extract_lets s2 s3 s4 s5 report s6
            have h4 : loadPiers im1 ps s3 = s4 := by rw [loadPiers, hgs, hpier]
            have h5 : dropCache im1 s4 = s5 := rfl
            have h6 : writeReport p o im1 ps s5 = s6 := rfl
            have hload : imageLoaded p h o im1 ps e.1 e.2 = writeReport p o im1 ps (dropCache im1 (loadPiers im1 ps s3)) := rfl
            rw [hload, h4, h5, h6]

/-! ### The lowest free number of a table, and the indices that an image takes (R300) -/

section free
variable {α : Type} {m : List (Nat × α)}

theorem lowestFree_some {b n h : Nat} (hfree : lowestFree m b n = some h) :
    b ≤ h ∧ tfind m h = none ∧ ∀ g, b ≤ g → g < h → (tfind m g).isSome = true := by
  induction n generalizing b with
  | zero => exact absurd hfree nofun
  | succ n ih =>
    rw [lowestFree] at hfree
    split at hfree
    next hb =>
      obtain rfl := Option.some.inj hfree
      exact ⟨Nat.le_refl _, Option.isNone_iff_eq_none.1 hb, fun g hle hlt => absurd hlt (by omega)⟩
    next hb =>
      obtain ⟨hle, hnone, htaken⟩ := ih hfree
      refine ⟨by omega, hnone, fun g hbg hg => ?_⟩
      rcases Nat.eq_or_lt_of_le hbg with rfl | hlt
      · exact Option.ne_none_iff_isSome.1 (by simpa using hb)
      · exact htaken g hlt hg

theorem lowestFree_none {b n : Nat} (hfree : lowestFree m b n = none) : ∀ g, b ≤ g → g < b + n → (tfind m g).isSome = true := by
  induction n generalizing b with
  | zero => exact fun g hle hlt => absurd hlt (by omega)
  | succ n ih =>
    rw [lowestFree] at hfree
    split at hfree
    next => exact absurd hfree nofun
    next hb =>
      intro g hbg hg
      rcases Nat.eq_or_lt_of_le hbg with rfl | hlt
      · exact Option.ne_none_iff_isSome.1 (by simpa using hb)
      · exact ih hfree g hlt (by omega)

/-- A list without repetition is no longer than one that has all its members. -/
theorem length_le_of_nodup_subset {l ys : List Nat} (hl : l.Nodup) (hsub : ∀ a ∈ l, a ∈ ys) : l.length ≤ ys.length := by
  induction l generalizing ys with
  | nil => exact Nat.zero_le _
  | cons a l ih =>
    obtain ⟨hnew, hl⟩ := List.nodup_cons.1 hl
    have ha : a ∈ ys := hsub a (.head _)
    have hle := ih (ys := ys.erase a) hl fun b hb =>
      (List.mem_erase_of_ne (fun h : b = a => hnew (h ▸ hb))).2 (hsub b (.tail _ hb))
    rw [List.length_erase_of_mem ha] at hle
    have hpos := List.length_pos_of_mem ha
    rw [List.length_cons]
    omega

/-- A table in which every number below `n` is taken has `n` entries at least. -/
theorem length_of_lowestFree_none {n : Nat} (hfree : lowestFree m 0 n = none) : n ≤ m.length := by
  have hsub : ∀ g ∈ List.range n, g ∈ m.map Prod.fst := fun g hg => by
    obtain ⟨v, hv⟩ := Option.isSome_iff_exists.1 (lowestFree_none hfree g (Nat.zero_le g) (by simpa using hg))
    exact List.mem_map.2 ⟨(g, v), mem_of_tfind hv, rfl⟩
  simpa using length_le_of_nodup_subset List.nodup_range hsub

theorem length_tput_free {k : Nat} (hk : tfind m k = none) (v : α) : (tput m k v).length = m.length + 1 := by
  induction m with
  | nil => rfl
  | cons e m ih =>
    obtain ⟨j, w⟩ := e
    by_cases hkj : k = j
    · simp [tfind, hkj] at hk
    · rw [tput, if_neg hkj, List.length_cons, List.length_cons, ih (by simpa [tfind, hkj] using hk)]

end free

theorem takeIndices_spec (s : State) (n : Nat) (t : List (Nat × Span)) (hroom : t.length + n ≤ 16) :
    (takeIndices s n t).length = n ∧ ∀ k ∈ takeIndices s n t, tfind t k = none := by
  induction n generalizing t with
  | zero => exact ⟨rfl, nofun⟩
  | succ n ih =>
    cases hfree : lowestFree t 0 16 with
    | none => exact absurd (length_of_lowestFree_none hfree) (by omega)
    | some k =>
      have hk : tfind t k = none := (lowestFree_some hfree).2.1
      obtain ⟨hlen, hnone⟩ := ih (tput t k noSpan) (by rw [length_tput_free hk]; omega)
      rw [takeIndices, hfree]
      refine ⟨by rw [List.length_cons, hlen], fun j hj => ?_⟩
      rcases List.mem_cons.1 hj with rfl | hj
      · exact hk
      · by_cases hjk : j = k
        · exact hjk ▸ hk
        · exact (tfind_tput_ne t noSpan hjk).symm.trans (hnone j hj)

/-! ### The spans that a placement places -/

theorem acceptAt_imgSpan {s : State} {bs : List Byte} {winMap : List (Nat × Nat)} {taken piers : List Nat} {k : Nat} {x : Placed}
    (hx : acceptAt s bs winMap taken k piers = some x) : x.imgSpan = k := by
  unfold acceptAt at hx
  dsimp only at hx
  split at hx
  · exact absurd hx nofun
  · split at hx
    · exact Option.some.inj hx ▸ rfl
    · exact absurd hx nofun

theorem placeSpan_imgSpan {s : State} {bs : List Byte} {winMap : List (Nat × Nat)} {busy taken : List Nat} {k : Nat} {x : Placed}
    (hx : placeSpan s bs winMap busy taken k = some x) : x.imgSpan = k := by
  unfold placeSpan at hx
  dsimp only at hx
  split at hx
  next y hy =>
    obtain rfl := Option.some.inj hx
    obtain ⟨c, _, hc⟩ := List.exists_of_findSome?_eq_some hy
    split at hc
    · exact acceptAt_imgSpan hc
    · exact absurd hc nofun
  next =>
    split at hx
    · exact absurd hx nofun
    · obtain ⟨c, _, hc⟩ := List.exists_of_findSome?_eq_some hx
      obtain ⟨q, _, hq⟩ := Option.bind_eq_some_iff.1 hc
      exact acceptAt_imgSpan hq

theorem placeAll_imgSpan {s : State} {bs : List Byte} {winMap : List (Nat × Nat)} {ks busy taken : List Nat} {ps : List Placed}
    (hps : placeAll s bs winMap ks busy taken = some ps) : ∀ x ∈ ps, x.imgSpan ∈ ks := by
  induction ks generalizing busy taken ps with
  | nil => exact Option.some.inj hps ▸ nofun
  | cons k ks ih =>
    rw [placeAll] at hps
    split at hps
    next => exact absurd hps nofun
    next x hx =>
      obtain ⟨l, hl, rfl⟩ := Option.map_eq_some_iff.1 hps
      intro y hy
      rcases List.mem_cons.1 hy with rfl | hy
      · exact placeSpan_imgSpan hx ▸ .head _
      · exact .tail _ (ih hl y hy)

/-! ### What a load of an image leaves as it is -/

/-- Images, spans, key sets, sessions and slots are as they were. -/
structure TablesStay (s t : State) : Prop where
  images : t.images = s.images
  spans : t.spans = s.spans
  keysets : t.keysets = s.keysets
  sessions : t.sessions = s.sessions
  slots : t.slots = s.slots

theorem TablesStay.trans {s t u : State} (h : TablesStay s t) (h' : TablesStay t u) : TablesStay s u :=
  ⟨h'.images.trans h.images, h'.spans.trans h.spans, h'.keysets.trans h.keysets, h'.sessions.trans h.sessions, h'.slots.trans h.slots⟩

theorem StoreOnly.tablesStay {s t : State} (h : StoreOnly s t) : TablesStay s t := by
  rw [h]
  exact ⟨rfl, rfl, rfl, rfl, rfl⟩

theorem storeOnly_objWr (id y : Nat) (bs : List Byte) (s : State) : StoreOnly s (objWr id y bs s) :=
  storeOnly_foldl (fun (s : State) (e : Byte × Nat) => s.wr (objAddr (s.objBase id) (y + e.2)) [e.1])
    (fun s e => storeOnly_wr s (objAddr (s.objBase id) (y + e.2)) [e.1]) bs.zipIdx s

theorem storeOnly_zeroMem (s : State) (lo hi : Nat) : StoreOnly s (s.zeroMem lo hi) := rfl

theorem storeOnly_wrs (b hi : Nat) (parts : List (Nat × List Byte)) (s : State) :
    StoreOnly s (parts.foldl (fun s e => s.wr (b + e.1) e.2) (s.zeroMem b hi)) :=
  (storeOnly_zeroMem s b hi).trans
    (storeOnly_foldl (fun (s : State) (e : Nat × List Byte) => s.wr (b + e.1) e.2) (fun s e => storeOnly_wr s _ _) parts _)

theorem storeOnly_writeSlice (p : Nat) (parts : List (Nat × List Byte)) (s : State) : StoreOnly s (writeSlice p parts s) :=
  storeOnly_wrs _ _ _ _

/-- The step of `writeStores` for stores of `n` bytes: a backing copy and a slice more. -/
def writeStore (n : Nat) (s : State) (im : Image) (acc : Option (List (Nat × Nat) × State)) (e : Nat × StageProg) : Option (List (Nat × Nat) × State) :=
  acc.bind fun a => (allocSpace n a.2).map fun r =>
    (a.1 ++ [(e.1, r.1)],
      writeSlice e.1 (sliceParts s im e.2) ((sliceParts s im e.2).foldl (fun s q => objWr r.1 q.1 q.2 s) r.2))

theorem writeStores_eq (im : Image) (l : List (Nat × StageProg)) (s : State) :
    writeStores im l s = l.foldl (writeStore 0x2000000 s im) (some ([], s)) := rfl

theorem storeOnly_writeStore {n : Nat} {s t : State} {im : Image} {acc : Option (List (Nat × Nat) × State)} (hacc : ∀ a ∈ acc, StoreOnly t a.2)
    (e : Nat × StageProg) : ∀ a ∈ writeStore n s im acc e, StoreOnly t a.2 := by
  intro a ha
  rw [writeStore, Option.mem_def, Option.bind_eq_some_iff] at ha
  obtain ⟨b, hb, ha⟩ := ha
  rw [Option.map_eq_some_iff] at ha
  obtain ⟨r, hr, ha⟩ := ha
  have hparts : StoreOnly r.2 ((sliceParts s im e.2).foldl (fun s q => objWr r.1 q.1 q.2 s) r.2) :=
    storeOnly_foldl (fun (s : State) (q : Nat × List Byte) => objWr r.1 q.1 q.2 s) (fun s q => storeOnly_objWr _ _ _ s) _ _
  have hslice := storeOnly_writeSlice e.1 (sliceParts s im e.2) ((sliceParts s im e.2).foldl (fun s q => objWr r.1 q.1 q.2 s) r.2)
  have hall := (hacc b hb).trans ((storeOnly_allocSpace n b.2 r (Option.mem_def.2 hr)).trans (hparts.trans hslice))
  rw [← ha]
  dsimp only
  exact hall

theorem storeOnly_writeStores {im : Image} {l : List (Nat × StageProg)} {s : State} {e : List (Nat × Nat) × State}
    (he : writeStores im l s = some e) : StoreOnly s e.2 := by
  have hfold : ∀ (n : Nat) (l : List (Nat × StageProg)) (acc : Option (List (Nat × Nat) × State)), (∀ a ∈ acc, StoreOnly s a.2) →
      ∀ a ∈ l.foldl (writeStore n s im) acc, StoreOnly s a.2 := by
    intro n l
    induction l with
    | nil => exact fun acc h => h
    | cons x l ih => exact fun acc h => ih _ (storeOnly_writeStore h x)
  rw [writeStores_eq] at he
  exact hfold _ l (some ([], s)) (fun a ha => Option.some.inj ha ▸ rfl) e he

theorem loadPiers_tables (im : Image) (ps : List Placed) (s : State) : TablesStay s (loadPiers im ps s) :=
  foldl_rel (R := TablesStay) (fun _ => ⟨rfl, rfl, rfl, rfl, rfl⟩) TablesStay.trans
    (f := fun (s : State) (e : StageProg × Nat) => s.modPier (stagePier im.stages ps e.2) fun x =>
      { (x.loadBank 0 e.1) with seq := {}, cacheBlocks := x.cacheBlocks }) (fun _ _ => ⟨rfl, rfl, rfl, rfl, rfl⟩) _ s

theorem dropCache_tables (im : Image) (s : State) : TablesStay s (dropCache im s) := by
  unfold dropCache
  split <;> exact ⟨rfl, rfl, rfl, rfl, rfl⟩

theorem writeRange_tables (w off : Nat) (bs : List Byte) (s : State) : TablesStay s (writeRange w off bs s) := by
  unfold writeRange
  dsimp only
  split <;> exact ⟨rfl, rfl, rfl, rfl, rfl⟩

theorem writeReport_tables (p : Nat) (o : LoadOp) (im : Image) (ps : List Placed) (s : State) : TablesStay s (writeReport p o im ps s) := by
  unfold writeReport
  split
  · split
    · exact writeRange_tables _ _ _ s
    · exact ⟨rfl, rfl, rfl, rfl, rfl⟩
  · exact ⟨rfl, rfl, rfl, rfl, rfl⟩

/-- The span of an image as it is placed. -/
def placedSpan (im : Image) (x : Placed) : Span :=
  { noSpan with handle := im.handle, imgSpan := x.imgSpan, piers := x.piers, edges := spanEdges im.raw x.imgSpan
                grants := ((spanRecs im.raw)[x.imgSpan]?.map (·.grants)).getD [], configured := bit im.shapeModes x.imgSpan
                spares := x.spares, links := x.links, reserved := x.reserved }

/-- A placed span in its device span index. -/
def installSpan (im : Image) (s : State) (x : Placed) : State := s.setSpan (im.spans.getD x.imgSpan 0) (placedSpan im x)

theorem installSpans_eq (im : Image) (ps : List Placed) (s : State) : installSpans im ps s = ps.foldl (installSpan im) s := rfl

/-- The spans of an image are set at its indices alone. -/
theorem installSpans_spec {im : Image} {ps : List Placed} (hin : ∀ x ∈ ps, im.spans.getD x.imgSpan 0 ∈ im.spans) (s : State) :
    installSpans im ps s = { s with spans := (installSpans im ps s).spans } ∧
    ∀ k, k ∉ im.spans → (installSpans im ps s).span k = s.span k := by
  rw [installSpans_eq]
  induction ps generalizing s with
  | nil => exact ⟨rfl, fun _ _ => rfl⟩
  | cons x ps ih =>
    obtain ⟨hframe, hspans⟩ := ih (fun y hy => hin y (.tail _ hy)) (installSpan im s x)
    exact ⟨hframe, fun k hk => (hspans k hk).trans (span_setSpan_ne s (placedSpan im x) fun h => hk (h ▸ hin x (.head _)))⟩

/-- A loaded image stands under its handle with its backing copies; other images and spans, key sets, sessions and slots are as they were. -/
theorem imageLoaded_spec {p h : Nat} {o : LoadOp} {im : Image} {ps : List Placed} {backing : List (Nat × Nat)} {s u : State}
    (hin : ∀ x ∈ ps, im.spans.getD x.imgSpan 0 ∈ im.spans) (hu : StoreOnly { s with images := tput s.images h im } u) :
    let t := imageLoaded p h o im ps backing u
    tfind t.images h = some { im with backing := backing } ∧ (∀ g, g ≠ h → tfind t.images g = tfind s.images g) ∧
    (∀ k, k ∉ im.spans → t.span k = s.span k) ∧ t.keysets = s.keysets ∧ t.sessions = s.sessions ∧ t.slots = s.slots := by
  have hu' := hu.tablesStay
  obtain ⟨hframe, hspans⟩ := installSpans_spec hin (u.modImage h fun im => { im with backing := backing })
  have htables := ((loadPiers_tables im ps (installSpans im ps (u.modImage h fun im => { im with backing := backing }))).trans
    (dropCache_tables im _)).trans (writeReport_tables p o im ps _)
  intro t
  change TablesStay _ t at htables
  clear_value t
  generalize installSpans im ps (u.modImage h fun im => { im with backing := backing }) = v at *
  have himages : t.images = (tput s.images h im).map fun e => if e.1 = h then (e.1, { e.2 with backing := backing }) else e := by
    rw [htables.images, hframe]
    exact congrArg (List.map _) hu'.images
  refine ⟨?_, fun g hg => ?_, fun k hk => ?_, ?_, ?_, ?_⟩
  · rw [himages]
    exact (tfind_update_same _ h fun im : Image => { im with backing := backing }).trans (by rw [tfind_tput_same]; rfl)
  · rw [himages]
    exact (tfind_update_ne _ (fun im : Image => { im with backing := backing }) hg).trans (tfind_tput_ne _ _ hg)
  · have hspan : t.span k = v.span k := by rw [State.span, htables.spans]; rfl
    refine (hspan.trans (hspans k hk)).trans ?_
    exact congrArg (fun m => tget noSpan m k) hu'.spans
  · rw [htables.keysets, hframe]
    exact hu'.keysets
  · rw [htables.sessions, hframe]
    exact hu'.sessions
  · rw [htables.slots, hframe]
    exact hu'.slots

/-! ### LOAD_IMAGE of a new image (Table 11-10) -/

/-- A new image is refused for lack of space or budget, or for a store that does not read back; or it is loaded under the lowest free handle. -/
theorem placeImage_cases (p tag : Nat) (o : LoadOp) (bs : List Byte) (s : State) :
    (∃ c, (c = 0x0402 ∨ c = 0x0506 ∨ c = 0x0507 ∨ (c = 0x0603 ∧ o.readBackOk = false)) ∧ placeImage p tag o bs s = respond p tag c [] s) ∨
    o.readBackOk = true ∧ ∃ ps llm g h backing u, s.spans.length + imgSpans bs ≤ 16 ∧ (∀ x ∈ ps, x.imgSpan < imgSpans bs) ∧
      lowestFree s.images 1 65535 = some h ∧ StoreOnly { s with images := tput s.images h (placedImage p h o bs llm g ps s) } u ∧
      placeImage p tag o bs s = respond p tag 0 (leBytes 2 h) (imageLoaded p h o (placedImage p h o bs llm g ps s) ps backing u) := by
  rw [placeImage_eq]
  split
  · exact .inl ⟨_, .inl rfl, rfl⟩
  next hspans =>
  split
  · exact .inl ⟨_, .inr (.inr (.inl rfl)), rfl⟩
  split
  · exact .inl ⟨_, .inr (.inl rfl), rfl⟩
  next ps hps =>
  have hin : ∀ x ∈ ps, x.imgSpan < imgSpans bs := fun x hx => List.mem_range.1 (placeAll_imgSpan hps x hx)
  cases s.llmPlace 2048 (imgLlm bs) with
  | none => exact .inl ⟨_, .inl rfl, rfl⟩
  | some llm =>
    cases (if imgGddr bs = 0 then some 0 else s.regionPlace (partSize (imgGddr bs))) with
    | none => exact .inl ⟨_, .inl rfl, rfl⟩
    | some g =>
      cases hh : lowestFree s.images 1 65535 with
      | none => exact .inl ⟨_, .inl rfl, rfl⟩
      | some h =>
        dsimp only
        rw [storeImage]
        split
        next => exact .inl ⟨_, .inl rfl, rfl⟩
        next backing u hstores =>
        split
        next hback => exact .inl ⟨_, .inr (.inr (.inr ⟨rfl, by simpa using hback⟩)), rfl⟩
        next hback =>
        exact .inr ⟨by simpa using hback, ps, llm, g, h, backing, u, by omega, hin, rfl, storeOnly_writeStores hstores, rfl⟩

section new
variable {r : VerbReq} {o : LoadOp} {s : State} {sl : Slot} {bs : List Byte}

theorem exec_loadImage_new (hadm : Admitted r true s sl) (hgddr : s.gddrOk = true) (hrep : o.replace = none)
    (hread : readRange (admitted r 1 sl s) r.slot o.src = some bs) : exec (.loadImage r o) s =
    .next ((checkImage (admitted r 1 sl s) o bs).elim (placeImage r.slot r.tag o bs (admitted r 1 sl s))
      fun e => respond r.slot r.tag e.1 e.2 (admitted r 1 sl s)) := by
  have hgddr' : (admitted r 1 sl s).gddrOk = true := hgddr
  change execLoadImage r o s = _
  rw [execLoadImage, onVerb_admitted r 1 _ true _ s sl _ hadm, hgddr', if_neg (by decide), hrep, Option.any_none, if_neg (by decide)]
  dsimp only
  rw [hread]
  dsimp only
  cases checkImage (admitted r 1 sl s) o bs with
  | none => rfl
  | some e => rfl

/-- The loader of a new image is the partner of the slot. -/
theorem newImage_loader (hadm : Admitted r true s sl) (h : Nat) (llm g : Nat) :
    (newImage (admitted r 1 sl s) r.slot h o bs llm g).loader = sl.partnerKey := by
  obtain ⟨-, -, -, hslot, -⟩ := verbRuns_admitted hadm 1
  change ((tfind (admitted r 1 sl s).slots r.slot).map (·.partnerKey)).getD [] = sl.partnerKey
  rw [hslot]
  rfl

/-- What stands where LOAD_IMAGE has loaded image `bs` under handle `h`. -/
def ImageStands (r : VerbReq) (o : LoadOp) (sl : Slot) (bs : List Byte) (s t : State) (h : Nat) (im : Image) : Prop :=
  1 ≤ h ∧ tfind s.images h = none ∧ (∀ g, 1 ≤ g → g < h → (tfind s.images g).isSome = true) ∧
    tfind t.images h = some im ∧ im.owner = r.slot ∧ im.loader = sl.partnerKey ∧ im.digest = sha3 (bs.take (imgLength bs)) ∧ im.winMap = o.winMap ∧
    im.spans.length = imgSpans bs ∧ (∀ k ∈ im.spans, tfind s.spans k = none) ∧
    (∀ g, g ≠ h → tfind t.images g = tfind s.images g) ∧ (∀ k, k ∉ im.spans → t.span k = s.span k) ∧
    t.keysets = s.keysets ∧ t.sessions = s.sessions ∧ lastOut t (.verb r.slot r.tag 0 (leBytes 2 h))

theorem loaded_imageStands (hadm : Admitted r true s sl) {ps : List Placed} {llm g h : Nat} {backing : List (Nat × Nat)} {u : State}
    (hroom : s.spans.length + imgSpans bs ≤ 16) (hps : ∀ x ∈ ps, x.imgSpan < imgSpans bs) (hfree : lowestFree s.images 1 65535 = some h)
    (hu : StoreOnly { admitted r 1 sl s with images := tput s.images h (placedImage r.slot h o bs llm g ps (admitted r 1 sl s)) } u) :
    ImageStands r o sl bs s (respond r.slot r.tag 0 (leBytes 2 h)
      (imageLoaded r.slot h o (placedImage r.slot h o bs llm g ps (admitted r 1 sl s)) ps backing u)) h
      { placedImage r.slot h o bs llm g ps (admitted r 1 sl s) with backing := backing } := by
  obtain ⟨hone, hnone, htaken⟩ := lowestFree_some hfree
  obtain ⟨hlen, hunused⟩ := takeIndices_spec (admitted r 1 sl s) (imgSpans bs) s.spans hroom
  have hloader : (placedImage r.slot h o bs llm g ps (admitted r 1 sl s)).loader = sl.partnerKey :=
    newImage_loader (o := o) (bs := bs) hadm h llm g
  have hspans : (placedImage r.slot h o bs llm g ps (admitted r 1 sl s)).spans = takeIndices (admitted r 1 sl s) (imgSpans bs) s.spans := rfl
  have hfixed : (placedImage r.slot h o bs llm g ps (admitted r 1 sl s)).owner = r.slot ∧
      (placedImage r.slot h o bs llm g ps (admitted r 1 sl s)).digest = sha3 (bs.take (imgLength bs)) ∧
      (placedImage r.slot h o bs llm g ps (admitted r 1 sl s)).winMap = o.winMap := ⟨rfl, rfl, rfl⟩
  generalize placedImage r.slot h o bs llm g ps (admitted r 1 sl s) = im at *
  obtain ⟨howner, hdigest, hwin⟩ := hfixed
  rw [← hspans] at hlen hunused
  have hin : ∀ x ∈ ps, im.spans.getD x.imgSpan 0 ∈ im.spans := fun x hx => by
    have hlt : x.imgSpan < im.spans.length := hlen ▸ hps x hx
    rw [List.getD_eq_getElem?_getD, List.getElem?_eq_getElem hlt, Option.getD_some]
    exact List.getElem_mem hlt
  obtain ⟨hthere, hothers, hkept, hkeysets, hsessions, hslots⟩ := imageLoaded_spec (s := admitted r 1 sl s) (p := r.slot) (o := o) (backing := backing) hin hu
  generalize imageLoaded r.slot h o im ps backing u = v at *
  have hframe := respond_frame r.slot r.tag 0 (leBytes 2 h) v
  have hlast : lastOut (respond r.slot r.tag 0 (leBytes 2 h) v) (.verb r.slot r.tag 0 (leBytes 2 h)) :=
    respond_lastOut (v := 1) (by rw [hslots]; exact admitted_verb hadm 1) 0 (leBytes 2 h)
  generalize respond r.slot r.tag 0 (leBytes 2 h) v = t at *
  have hfields : t.images = v.images ∧ t.spans = v.spans ∧ t.keysets = v.keysets ∧ t.sessions = v.sessions := by
    rw [hframe]
    exact ⟨rfl, rfl, rfl, rfl⟩
  obtain ⟨himages, htspans, htkeysets, htsessions⟩ := hfields
  have hspan : ∀ k, t.span k = v.span k := fun k => congrArg (fun m => tget noSpan m k) htspans
  exact ⟨hone, hnone, htaken, himages ▸ hthere, howner, hloader, hdigest, hwin, hlen, hunused, fun g hg => himages ▸ hothers g hg,
    fun k hk => (hspan k).trans (hkept k hk), htkeysets.trans hkeysets, htsessions.trans hsessions, hlast⟩

theorem loadImage_new (hadm : Admitted r true s sl) (hgddr : s.gddrOk = true) (hrep : o.replace = none)
    (hread : readRange (admitted r 1 sl s) r.slot o.src = some bs) :
    ∃ t, exec (.loadImage r o) s = .next t ∧
      (∀ c d, checkImage (admitted r 1 sl s) o bs = some (c, d) → AnswerOnly r c d sl s t) ∧
      (checkImage (admitted r 1 sl s) o bs = none →
        (∃ c, (c = 0x0402 ∨ c = 0x0506 ∨ c = 0x0507 ∨ (c = 0x0603 ∧ o.readBackOk = false)) ∧ AnswerOnly r c [] sl s t) ∨
        o.readBackOk = true ∧ ∃ h im, ImageStands r o sl bs s t h im) := by
  refine ⟨_, exec_loadImage_new hadm hgddr hrep hread, fun c d hcheck => ?_, fun hcheck => ?_⟩
  · rw [hcheck]
    exact answerOnly_admitted hadm 1 c d
  · rw [hcheck]
    rcases placeImage_cases r.slot r.tag o bs (admitted r 1 sl s) with ⟨c, hc, hplace⟩ | ⟨hback, ps, llm, g, h, backing, u, hroom, hps, hfree, hu, hplace⟩
    · exact .inl ⟨c, hc, hplace ▸ answerOnly_admitted hadm 1 c []⟩
    · exact .inr ⟨hback, h, _, hplace ▸ loaded_imageStands hadm hroom hps hfree hu⟩

end new

/-! ### EXPORT_WEIGHTS begins (R85, R87, R88) -/

/-- The wait of an EXPORT_WEIGHTS while the bytes of its bundle go out. -/
def exportWait (r : VerbReq) (h : Nat) (places : List (Nat × Nat)) (bundle : List Byte) (s : State) : WaitVerb :=
  { slot := r.slot, tag := r.tag, verb := 7, key := h, raw := bundle, places := places.map fun e => (e.1, e.2, (s.win e.1).epoch) }

/-- The bundle under the AEAD of the management session. -/
def sealedBundle (sl : Slot) (im : Image) (s : State) : List Byte := Config.aeadSeal sl.keys sl.ctrExport (exportBundle s im)

/-- The bytes that the places of EXPORT_WEIGHTS hold. -/
def exportRoom (places : List (Nat × Nat)) (s : State) : Nat := (places.map fun e => (s.win e.1).length - e.2).foldl (· + ·) 0

section export_
variable {r : VerbReq} {h : Nat} {places : List (Nat × Nat)} {s : State} {sl : Slot} {im : Image} (hadm : Admitted r false s sl)
include hadm

theorem exec_exportWeights (him : tfind s.images h = some im) (howner : im.owner = r.slot) (hloader : im.loader = sl.partnerKey)
    (hgddr : s.gddrOk = true) (hpos : 1 ≤ places.length) (hmax : places.length ≤ 4)
    (hplaces : ∀ e ∈ places, s.ownWindow r.slot e.1 = true ∧ (s.win e.1).remote = true ∧ e.2 % 64 = 0 ∧ e.2 < (s.win e.1).length) :
    exec (.exportWeights r h places) s = .next
      (if exportRoom places s < (sealedBundle sl im (admitted r 7 sl s)).length then respond r.slot r.tag 0x0402 [] (admitted r 7 sl s)
      else match badCopy (admitted r 7 sl s) im with
        | some b => respond r.slot r.tag 0x0606 [] (storeLost 6 b.1 b.2 (admitted r 7 sl s))
        | none => { ((admitted r 7 sl s).modSlot r.slot fun sl => { sl with ctrExport := sl.ctrExport + 1 }) with
            waits := s.waits ++ [exportWait r h places (sealedBundle sl im (admitted r 7 sl s)) s] }) := by
  obtain ⟨-, -, -, hslot, -⟩ := verbRuns_admitted hadm 7
  have him' : tfind (admitted r 7 sl s).images h = some im := him
  have hgddr' : (admitted r 7 sl s).gddrOk = true := hgddr
  have hmine : (places.all fun e => (admitted r 7 sl s).ownWindow r.slot e.1 && ((admitted r 7 sl s).win e.1).remote) = true :=
    List.all_eq_true.2 fun e he => by
      obtain ⟨hown, hremote, -⟩ := hplaces e he
      exact Bool.and_eq_true_iff.2 ⟨hown, hremote⟩
  have haligned : (places.any fun e => e.2 % 64 != 0 || decide (((admitted r 7 sl s).win e.1).length ≤ e.2)) = false :=
    List.any_eq_false.2 fun e he => by
      obtain ⟨-, -, hmod, hlt⟩ := hplaces e he
      have hle : ¬ ((admitted r 7 sl s).win e.1).length ≤ e.2 := Nat.not_le.2 hlt
      simp [hmod, hle]
  change execExportWeights r h places s = _
  rw [execExportWeights, onVerb_admitted r 7 _ false _ s sl _ hadm]
  dsimp only
  rw [if_neg (by omega), him']
  dsimp only
  rw [hmine, hslot]
  simp only [Option.map_some, Option.getD_some]
  rw [if_neg (by simp [howner, hloader]), haligned, if_neg (by decide), hgddr', if_neg (by decide)]
  rfl

theorem exportWeights_starts (him : tfind s.images h = some im) (howner : im.owner = r.slot) (hloader : im.loader = sl.partnerKey)
    (hgddr : s.gddrOk = true) (hpos : 1 ≤ places.length) (hmax : places.length ≤ 4)
    (hplaces : ∀ e ∈ places, s.ownWindow r.slot e.1 = true ∧ (s.win e.1).remote = true ∧ e.2 % 64 = 0 ∧ e.2 < (s.win e.1).length) :
    ∃ t, exec (.exportWeights r h places) s = .next t ∧
      (exportRoom places s < (sealedBundle sl im (admitted r 7 sl s)).length → AnswerOnly r 0x0402 [] sl s t) ∧
      ((sealedBundle sl im (admitted r 7 sl s)).length ≤ exportRoom places s → badCopy (admitted r 7 sl s) im = none →
        t = { s with regs := t.regs, slots := t.slots, waits := t.waits } ∧
        t.waits = s.waits ++ [exportWait r h places (sealedBundle sl im (admitted r 7 sl s)) s] ∧
        tfind t.slots r.slot = some { sl with ctrIn := r.ctr, lastMgmt := s.now, onStandby := r.standby, verb := some (7, r.tag)
                                              ctrExport := sl.ctrExport + 1 }) ∧
      (∀ b, (sealedBundle sl im (admitted r 7 sl s)).length ≤ exportRoom places s → badCopy (admitted r 7 sl s) im = some b →
        lastOut t (.verb r.slot r.tag 0x0606 []) ∧ t.repairs = s.repairs ++ [{ id := s.nextId, store := 6, addr := b.2, pier := b.1 }]) := by
  obtain ⟨-, -, -, hslot, -⟩ := verbRuns_admitted hadm 7
  have hverb := admitted_verb hadm 7
  refine ⟨_, exec_exportWeights hadm him howner hloader hgddr hpos hmax hplaces, fun hsmall => ?_, fun hroom hgood => ?_, fun b hroom hbad => ?_⟩
  · rw [if_pos hsmall]
    exact answerOnly_admitted hadm 7 0x0402 []
  · rw [if_neg (Nat.not_lt.2 hroom), hgood]
    refine ⟨rfl, rfl, ?_⟩
    exact (tfind_modSlot_same (admitted r 7 sl s) r.slot fun x => { x with ctrExport := x.ctrExport + 1 }).trans (by rw [hslot]; rfl)
  · rw [if_neg (Nat.not_lt.2 hroom), hbad]
    dsimp only
    obtain ⟨hframe, -⟩ := storeLost_spec 6 b.1 b.2 (admitted r 7 sl s)
    generalize storeLost 6 b.1 b.2 (admitted r 7 sl s) = u at *
    have hslots : u.slots = (admitted r 7 sl s).slots := by rw [hframe]
    have hrepairs : u.repairs = s.repairs ++ [{ id := s.nextId, store := 6, addr := b.2, pier := b.1 }] := by
      rw [hframe]
      rfl
    refine ⟨respond_lastOut (by rw [hslots]; exact hverb) 0x0606 [], ?_⟩
    rw [respond_frame]
    exact hrepairs

end export_

/-- Settles O35: a replaced image waits for its requests and leaves with its spans, a new one stands under the lowest free handle at
indices that no span uses, and EXPORT_WEIGHTS goes out under its own counter, 64 bytes a step. -/
theorem images : Obligations.Images := by
  refine ⟨fun r o s sl h im hadm hgddr hrep hlen him => loadImage_replaces hadm hgddr hrep hlen him,
    fun h s w o im hw hquiet ho hraw him => loadImageReplaceDrained_spec hw hquiet ho hraw him,
    fun r o s sl bs hadm hgddr hrep hread => loadImage_new hadm hgddr hrep hread,
    fun r h places s sl im hadm him howner hloader hgddr hpos hmax hplaces =>
      exportWeights_starts hadm him howner hloader hgddr hpos hmax hplaces,
    fun w s _ => exportStep_spec w s⟩

end Sys2Proof.Machine
